-- ==== Sys2Proof/Word.lean ====
section
/-! DEFINITION. The words of the device (R4, R6, R21): byte, half, word, doubleword, address, lane mask. -/

namespace Sys2Proof

/-- A byte (R4). -/
abbrev Byte := BitVec 8
/-- A word of 32 bits (R4): an instruction word, a vector lane, an element of memory. -/
abbrev Word := BitVec 32
/-- A doubleword of 64 bits (R4): a scalar register, an address, a special register. -/
abbrev DWord := BitVec 64
/-- One bit for each of the 96 lanes of a group (R21). -/
abbrev Mask := BitVec 96
/-- The 96 lanes of a vector register, 32 bits each (R98). -/
abbrev Lanes := Vector Word 96
/-- A 6-bit register field (R68). -/
abbrev RegNum := BitVec 6

end Sys2Proof
end

