-- ==== Sys2Proof/Machine/Num.lean ====
section
/-! DEFINITION. Number formats and their arithmetic (R30 to R54): exact values as signed dyadics, rounding, saturation, the
overflow table's actions, Q4 blocks, and the stochastic generator. -/

namespace Sys2Proof.Machine

/-- A floating value: NaN, an infinity, or exactly ±m·2^e. -/
inductive FVal where
  | nan
  | inf (neg : Bool)
  | fin (neg : Bool) (m : Nat) (e : Int)
  deriving DecidableEq, Repr

/-- A floating format of R32: significand bits, exponent bits, bias, and whether all ones in the exponent means an infinity
or a NaN (E4M3 has one NaN magnitude and no infinity). -/
structure Format where
  mbits : Nat
  ebits : Nat
  bias : Nat
  ieee : Bool
  deriving DecidableEq, Repr

def fp32 : Format := ⟨23, 8, 127, true⟩
def bf16 : Format := ⟨7, 8, 127, true⟩
def fp16 : Format := ⟨10, 5, 15, true⟩
def e4m3 : Format := ⟨3, 4, 7, false⟩
def e5m2 : Format := ⟨2, 5, 15, true⟩

/-- Width in bits. -/
def Format.width (F : Format) : Nat := 1 + F.ebits + F.mbits
/-- Exponent of the last place of a subnormal number. -/
def Format.emin (F : Format) : Int := 1 - (F.bias : Int) - (F.mbits : Int)
/-- Magnitude codes: the infinity, the largest finite number, the canonical NaN (R32). -/
def Format.infCode (F : Format) : Nat := (2 ^ F.ebits - 1) * 2 ^ F.mbits
def Format.maxCode (F : Format) : Nat := if F.ieee then F.infCode - 1 else 2 ^ (F.width - 1) - 2
def Format.nanCode (F : Format) : Nat := if F.ieee then F.infCode + 2 ^ (F.mbits - 1) else 2 ^ (F.width - 1) - 1
/-- A magnitude code with its sign. -/
def Format.signed (F : Format) (neg : Bool) (c : Nat) : Nat := if neg then 2 ^ (F.width - 1) + c else c

/-- R32: the value of a pattern; every NaN pattern is accepted (R33). -/
def Format.decode (F : Format) (x : Nat) : FVal :=
  let neg := x / 2 ^ (F.width - 1) % 2 == 1
  let c := x % 2 ^ (F.width - 1)
  if F.ieee && c == F.infCode then .inf neg
  else if F.maxCode < c then .nan
  else
    let ex := c / 2 ^ F.mbits
    if ex = 0 then .fin neg c F.emin else .fin neg (2 ^ F.mbits + c % 2 ^ F.mbits) (F.emin + (ex : Int) - 1)

/-- A rounding mode (R40); stochastic rounding with its sample. -/
inductive Rnd where
  | rne | rz | ru | rd | rna
  | rs (sample : Word)
  deriving DecidableEq, Repr

/-- R40: the mode of a code, with the sample that rs would use. -/
def Rnd.ofCode (k : BitVec 3) (sample : Word) : Rnd :=
  match k.toNat with
  | 1 => .rz
  | 2 => .ru
  | 3 => .rd
  | 4 => .rna
  | 5 => .rs sample
  | _ => .rne

/-- R41: whether a magnitude that lies `r/2^s` of the way from a code to the next one (0 < r < 2^s) takes the next one;
`odd` is the low bit of the lower code. -/
def Rnd.up (k : Rnd) (neg odd : Bool) (r s : Nat) : Bool :=
  if r = 0 then false
  else
    match k with
    | .rne => decide (2 ^ s < 2 * r) || (decide (2 * r = 2 ^ s) && odd)
    | .rz => false
    | .ru => !neg
    | .rd => neg
    | .rna => decide (2 ^ s ≤ 2 * r)
    | .rs g => if neg then decide ((2 ^ s - r) * 2 ^ 32 ≤ g.toNat * 2 ^ s) else decide (g.toNat * 2 ^ s < r * 2 ^ 32)

/-- R41: the integral part of m·2^e, the fraction's numerator, and its denominator's exponent. -/
def splitAt (m : Nat) (e : Int) : Nat × Nat × Nat :=
  if 0 ≤ e then (m * 2 ^ e.toNat, 0, 0) else (m / 2 ^ (-e).toNat, m % 2 ^ (-e).toNat, (-e).toNat)

/-- R41: the magnitude code to which ±m·2^e rounds, the exponent range unbounded above (R42). -/
def Format.code (F : Format) (k : Rnd) (neg : Bool) (m : Nat) (e : Int) : Nat :=
  if m = 0 then 0
  else
    let q := max ((Nat.log2 m : Int) + e - (F.mbits : Int)) F.emin
    let x := splitAt m (e - q)
    let c := (q - F.emin).toNat * 2 ^ F.mbits + x.1
    if k.up neg (c % 2 == 1) x.2.1 x.2.2 then c + 1 else c

/-- R47: an overflowed or infinite value under control 0b00. -/
def Format.overCode (F : Format) (k : Rnd) (neg : Bool) : Nat :=
  let big := F.signed neg F.maxCode
  let infty := if F.ieee then F.signed neg F.infCode else F.nanCode
  match k with
  | .rz => big
  | .ru => if neg then big else infty
  | .rd => if neg then infty else big
  | _ => infty

/-- R41, R42, R47, R141: a value rounded to a floating format under a saturation control. -/
def Format.narrow (F : Format) (k : Rnd) (ctl : BitVec 2) (x : FVal) : Nat :=
  let settle := fun neg => if ctl = 0x1#2 ∨ ctl = 0x2#2 then F.signed neg F.maxCode else F.overCode k neg
  match x with
  | .nan => if ctl = 0x2#2 then 0 else F.nanCode
  | .inf neg => settle neg
  | .fin neg m e =>
    let c := F.code k neg m e
    if F.maxCode < c then settle neg else F.signed neg c

/-- R49: a value rounded (rne) to a floating format under an action of the overflow table. -/
def Format.narrowOvt (F : Format) (act : BitVec 2) (x : FVal) : Nat :=
  let settle := fun neg =>
    match act.toNat with
    | 1 => if F.ieee then F.signed neg F.infCode else F.nanCode
    | 2 => F.nanCode
    | _ => F.signed neg F.maxCode
  match x with
  | .nan => F.nanCode
  | .inf neg => settle neg
  | .fin neg m e =>
    let c := F.code .rne neg m e
    if F.maxCode < c then settle neg else F.signed neg c

/-- An exact value as FP32 where no overflow arises from R49 (R51, R52): infinities stay, sums beyond the range become
infinite. -/
def toF32 (k : Rnd) (x : FVal) : Word :=
  match x with
  | .inf neg => BitVec.ofNat 32 (fp32.signed neg fp32.infCode)
  | _ => BitVec.ofNat 32 (fp32.narrow k 0 x)

/-- The value of an FP32 pattern. -/
def ofF32 (x : Word) : FVal := fp32.decode x.toNat
/-- Whether a value is a NaN. -/
def FVal.isNan (x : FVal) : Bool := x == .nan

/-- R41: the integer to which ±m·2^e rounds. -/
def roundInt (k : Rnd) (neg : Bool) (m : Nat) (e : Int) : Int :=
  let x := splitAt m e
  let n := if k.up neg (x.1 % 2 == 1) x.2.1 x.2.2 then x.1 + 1 else x.1
  if neg then -(n : Int) else n

/-- The least and the greatest value of an integer format (R30). -/
def intMin (signed : Bool) (w : Nat) : Int := if signed then -(2 ^ (w - 1) : Int) else 0
def intMax (signed : Bool) (w : Nat) : Int := if signed then (2 ^ (w - 1) : Int) - 1 else (2 ^ w : Int) - 1
/-- An integer brought into a range. -/
def clamp (lo hi x : Int) : Int := if x < lo then lo else if hi < x then hi else x

/-- R42, R47, R49: a floating value as an integer of a format; outside the range it saturates, and NaN gives 0. -/
def toInt (k : Rnd) (signed : Bool) (w : Nat) (x : FVal) : Int :=
  match x with
  | .nan => 0
  | .inf neg => if neg then intMin signed w else intMax signed w
  | .fin neg m e => clamp (intMin signed w) (intMax signed w) (roundInt k neg m e)

/-- An integer as an exact value. -/
def ofInt (x : Int) : FVal := .fin (decide (x < 0)) x.natAbs 0

/-! Arithmetic of FP32 (R134, R135) -/

/-- The signed mantissa of a finite value at a common exponent. -/
def scaled (neg : Bool) (m : Nat) (e at' : Int) : Int :=
  let n : Int := (m * 2 ^ (e - at').toNat : Nat)
  if neg then -n else n

/-- R134: an exact sum; the exact zero of terms that are not both zeros of one sign is +0, in rd −0. -/
def FVal.add (k : Rnd) (x y : FVal) : FVal :=
  match x, y with
  | .nan, _ => .nan
  | _, .nan => .nan
  | .inf a, .inf b => if a = b then .inf a else .nan
  | .inf a, .fin .. => .inf a
  | .fin .., .inf b => .inf b
  | .fin a m e, .fin b n f =>
    let at' := min e f
    let t := scaled a m e at' + scaled b n f at'
    if t = 0 then (if m = 0 ∧ n = 0 ∧ a = b then .fin a 0 0 else .fin (k == .rd) 0 0) else .fin (decide (t < 0)) t.natAbs at'

/-- Opposite sign. -/
def FVal.neg (x : FVal) : FVal :=
  match x with
  | .nan => .nan
  | .inf a => .inf (!a)
  | .fin a m e => .fin (!a) m e

/-- R134: an exact product. -/
def FVal.mul (x y : FVal) : FVal :=
  match x, y with
  | .nan, _ => .nan
  | _, .nan => .nan
  | .inf a, .inf b => .inf (a != b)
  | .inf a, .fin b n _ => if n = 0 then .nan else .inf (a != b)
  | .fin a m _, .inf b => if m = 0 then .nan else .inf (a != b)
  | .fin a m e, .fin b n f => .fin (a != b) (m * n) (e + f)

/-- R134: saturation of an FP32 result. -/
def satF32 (ctl : BitVec 2) (x : Word) : Word :=
  if ctl = 0x1#2 ∨ ctl = 0x2#2 then
    match ofF32 x with
    | .inf neg => BitVec.ofNat 32 (fp32.signed neg fp32.maxCode)
    | .nan => if ctl = 0x2#2 then 0 else x
    | .fin .. => x
  else x

def fadd (k : Rnd) (a b : Word) : Word := toF32 k ((ofF32 a).add k (ofF32 b))
def fsub (k : Rnd) (a b : Word) : Word := toF32 k ((ofF32 a).add k (ofF32 b).neg)
def fmul (k : Rnd) (a b : Word) : Word := toF32 k ((ofF32 a).mul (ofF32 b))
def ffma (k : Rnd) (a b c : Word) : Word := toF32 k (((ofF32 a).mul (ofF32 b)).add k (ofF32 c))

/-- The order of two finite or infinite values: negative, zero or positive as x < y, x = y, x > y. -/
def FVal.cmp (x y : FVal) : Int :=
  match x, y with
  | .nan, _ => 0
  | _, .nan => 0
  | .inf a, .inf b => if a = b then 0 else if a then -1 else 1
  | .inf a, .fin .. => if a then -1 else 1
  | .fin .., .inf b => if b then 1 else -1
  | .fin a m e, .fin b n f => scaled a m e (min e f) - scaled b n f (min e f)

def FVal.lt (x y : FVal) : Bool := !x.isNan && !y.isNan && decide (x.cmp y < 0)
def FVal.eqv (x y : FVal) : Bool := !x.isNan && !y.isNan && decide (x.cmp y = 0)
def FVal.unord (x y : FVal) : Bool := x.isNan || y.isNan

/-- The canonical FP32 NaN (R32). -/
def nan32 : Word := 0x7FC00000#32

/-- R135: FMIN and FMAX, −0 below +0; one NaN operand gives the other operand, two give the canonical NaN. -/
def fmin (a b : Word) : Word :=
  match ofF32 a, ofF32 b with
  | .nan, .nan => nan32
  | .nan, _ => b
  | _, .nan => a
  | x, y => if x.lt y then a else if y.lt x then b else if a.msb then a else b
def fmax (a b : Word) : Word :=
  match ofF32 a, ofF32 b with
  | .nan, .nan => nan32
  | .nan, _ => b
  | _, .nan => a
  | x, y => if x.lt y then b else if y.lt x then a else if a.msb then b else a

/-- R135: FRND: the integral value of a mode, its zero keeping the sign. -/
def frnd (k : Rnd) (a : Word) : Word :=
  match ofF32 a with
  | .nan => nan32
  | .inf _ => a
  | .fin neg m e => toF32 .rne (.fin neg (roundInt k neg m e).natAbs 0)

/-- R135: the class bit of a value. -/
def fclass (a : Word) : Nat :=
  let sub := a.extractLsb' 23 8 == 0#8
  match ofF32 a with
  | .nan => if a.getLsbD 22 then 9 else 8
  | .inf neg => if neg then 0 else 7
  | .fin neg m _ =>
    if m = 0 then (if neg then 3 else 4)
    else if neg then (if sub then 2 else 1) else (if sub then 5 else 6)

/-- R136: the conditions of FCMP by their code. -/
def fcmp (k : BitVec 3) (a b : Word) : Bool :=
  let x := ofF32 a
  let y := ofF32 b
  match k.toNat with
  | 0 => x.eqv y
  | 1 => !x.eqv y
  | 2 => x.lt y
  | 3 => x.lt y || x.eqv y
  | 4 => x.unord y
  | _ => !x.unord y

/-! Format codes (R35) -/

/-- The floating format of a code. -/
def fpOf (c : Nat) : Option Format :=
  match c with
  | 0 => some fp32
  | 1 => some bf16
  | 2 => some fp16
  | 3 => some e4m3
  | 4 => some e5m2
  | _ => none
/-- Width and signedness of an integer format's code. -/
def intOf (c : Nat) : Option (Nat × Bool) :=
  if 8 ≤ c ∧ c < 16 then some (8 * 2 ^ (c % 4), decide (c < 12)) else none
/-- Bits of one element of a format, 4 for Q4, 0 for a code that is no format. -/
def fmtBits (c : Nat) : Nat :=
  match fpOf c, intOf c with
  | some F, _ => F.width
  | none, some (w, _) => w
  | none, none => if c = 5 then 4 else 0
/-- R46, R48: the destination class of a format: the place of its field in NMODE and in the overflow table. -/
def classOf (c : Nat) : Nat :=
  match c with
  | 1 => 0
  | 2 => 1
  | 3 => 2
  | 4 => 3
  | 5 => 4
  | 8 => 5
  | 12 => 5
  | 9 => 6
  | 13 => 6
  | _ => 7
/-- R48: the action of an overflow table for a destination format. -/
def ovtAct (ovt : BitVec 16) (c : Nat) : BitVec 2 := ovt.extractLsb' (2 * classOf c) 2

/-- The integer that a pattern of an integer format stands for. -/
def intVal (w : Nat) (signed : Bool) (x : Nat) : Int := if signed then (BitVec.ofNat w x).toInt else (x % 2 ^ w : Nat)
/-- A pattern of w bits of an integer. -/
def intBits (w : Nat) (x : Int) : Nat := (BitVec.ofInt w x).toNat

/-- The value of an element of any format of R35 but Q4. -/
def fmtVal (c x : Nat) : FVal :=
  match fpOf c, intOf c with
  | some F, _ => F.decode x
  | none, some (w, sg) => ofInt (intVal w sg x)
  | none, none => .nan

/-- R47, R49: an integer to an integer format: wrapped, or saturated. -/
def narrowInt (wrap : Bool) (w : Nat) (sg : Bool) (x : Int) : Nat :=
  intBits w (if wrap then x else clamp (intMin sg w) (intMax sg w) x)

/-- R45, R49: an engine's or data path's conversion of one element between formats that are not Q4; FP32 sources widen
exactly, equal formats are copied (R305). -/
def convOvt (ovt : BitVec 16) (src dst x : Nat) : Nat :=
  if src = dst then (match fpOf dst with | some F => if (F.decode x).isNan then F.nanCode else x | none => x)
  else
    let v := fmtVal src x
    match fpOf dst, intOf dst with
    | some F, _ => if dst = 0 then (toF32 .rne v).toNat else F.narrowOvt (ovtAct ovt dst) v
    | none, some (w, sg) =>
      match intOf src with
      | some (ws, ss) => narrowInt (decide (ovtAct ovt dst = 0x1#2)) w sg (intVal ws ss x)
      | none => intBits w (toInt .rne sg w v)
    | none, none => 0

/-! Q4 blocks (R36 to R39) -/

/-- R38: four times the magnitude of a code of a kind. -/
def q4Mag (kind : Nat) (c : Nat) : Nat :=
  match kind with
  | 0 => 4 * (if c < 8 then c else 16 - c)
  | 1 => [0, 2, 4, 6, 8, 12, 16, 24][c % 8]?.getD 0
  | 2 => if c % 8 = 0 then 0 else 2 ^ (c % 8 - 1)
  | _ => if c < 8 then 4 * c else [32, 48, 64, 96][c % 4]?.getD 0
/-- R38: the sign of a code. -/
def q4Neg (kind : Nat) (c : Nat) : Bool :=
  match kind with
  | 3 => decide (12 ≤ c)
  | _ => decide (8 ≤ c)
/-- R38, R39: the value of a code under a scale byte. -/
def q4Val (scale : Byte) (c : Nat) : FVal :=
  let e := fld6 scale
  if e = 63 then .nan else .fin (q4Neg (kindOf scale) c) (q4Mag (kindOf scale) c) ((e : Int) - 33)
where
  /-- SCALE.EXP -/
  fld6 (x : Byte) : Nat := x.toNat % 64
  /-- SCALE.KIND -/
  kindOf (x : Byte) : Nat := x.toNat / 64

/-- Four times the signed value of a code. -/
def q4Quarter (kind c : Nat) : Int := if q4Neg kind c then -(q4Mag kind c : Int) else q4Mag kind c
/-- R41: the codes of a kind in rising value; zero stands once, as 0x0. -/
def q4Order (kind : Nat) : List Nat :=
  match kind with
  | 0 => [8, 9, 10, 11, 12, 13, 14, 15, 0, 1, 2, 3, 4, 5, 6, 7]
  | 3 => [15, 14, 13, 12, 0, 1, 2, 3, 4, 5, 6, 7, 8, 9, 10, 11]
  | _ => [15, 14, 13, 12, 11, 10, 9, 0, 1, 2, 3, 4, 5, 6, 7]

/-- R41: between two adjacent codes of a kind, for X/2^s quarters strictly between their values. -/
def q4Pick (kind : Nat) (k : Rnd) (a b : Nat) (x : Int) (s : Nat) : Nat :=
  let va := q4Quarter kind a * 2 ^ s
  let vb := q4Quarter kind b * 2 ^ s
  let small := if q4Mag kind a < q4Mag kind b then a else b
  let large := if q4Mag kind a < q4Mag kind b then b else a
  let near := if x - va < vb - x then a else b
  match k with
  | .rz => small
  | .ru => b
  | .rd => a
  | .rs g => if (g.toNat : Int) * (vb - va) < (x - va) * 2 ^ 32 then b else a
  | .rna => if x - va = vb - x then large else near
  | .rne => if x - va = vb - x then (if small % 2 = 0 then small else large) else near

/-- R41, R42: rounding X/2^s quarters to a kind: outside the extremes `none`. -/
def q4Round (kind : Nat) (k : Rnd) (x : Int) (s : Nat) (codes : List Nat) : Option Nat :=
  match codes with
  | a :: b :: r =>
    if x < q4Quarter kind a * 2 ^ s then none
    else if x = q4Quarter kind a * 2 ^ s then some a
    else if x < q4Quarter kind b * 2 ^ s then some (q4Pick kind k a b x s)
    else q4Round kind k x s (b :: r)
  | [a] => if x = q4Quarter kind a * 2 ^ s then some a else none
  | [] => none

/-- R41, R42: the code of a finite value ±m·2^e under a scale byte: the code and whether it overflows (the extreme code then). -/
def q4Code (scale : Byte) (k : Rnd) (neg : Bool) (m : Nat) (e : Int) : Nat × Bool :=
  let kind := q4Val.kindOf scale
  let t := e + 33 - (q4Val.fld6 scale : Int)
  let mag := if 0 ≤ t then m * 2 ^ t.toNat else m
  let s := (-t).toNat
  match q4Round kind k (if neg then -(mag : Int) else mag) s (q4Order kind) with
  | some c => (if c = 0 ∧ neg ∧ (kind = 1 ∨ kind = 2) then 8 else c, false)
  | none => (q4Ext kind neg, true)
where
  /-- extreme code of a sign -/
  q4Ext (kind : Nat) (neg : Bool) : Nat :=
    match kind with
    | 0 => if neg then 8 else 7
    | 3 => if neg then 15 else 11
    | _ => if neg then 15 else 7

/-- R47: PACK4's code of a value: extreme codes for overflow and infinities; a NaN, where it does not make the block a NaN
block, is 0x0. -/
def q4Narrow (scale : Byte) (k : Rnd) (x : FVal) : Nat :=
  match x with
  | .nan => 0
  | .inf neg => q4Code.q4Ext (q4Val.kindOf scale) neg
  | .fin neg m e => (q4Code scale k neg m e).1

/-- R49: an engine's code of a value, `none` where the block becomes a NaN block. -/
def q4Ovt (act : BitVec 2) (scale : Byte) (x : FVal) : Option Nat :=
  let settle := fun neg => if act = 0x1#2 ∨ act = 0x2#2 then none else some (q4Code.q4Ext (q4Val.kindOf scale) neg)
  match x with
  | .nan => none
  | .inf neg => settle neg
  | .fin neg m e => if (q4Code scale .rne neg m e).2 then settle neg else some (q4Code scale .rne neg m e).1

/-! The stochastic generator (R43) -/

/-- R43: one step of the generator. -/
def lfsr (g : Word) : Word := if g.getLsbD 0 then (g >>> 1) ^^^ 0x80200003#32 else g >>> 1
/-- R43: a lane's generator at the start. -/
def genInit (seed : Word) (l : Nat) : Word :=
  let x := seed + BitVec.ofNat 32 (l + 1) * 0x9E3779B9#32
  if x = 0 then 1 else x
/-- R43: `n` steps of the generator. -/
def lfsrN (n : Nat) (g : Word) : Word :=
  match n with
  | 0 => g
  | k + 1 => lfsrN k (lfsr g)
/-- R43: sample(l, n). -/
def sample (seed : Word) (l : Nat) (n : DWord) : Word := lfsrN n.toNat (genInit seed l)

/-! Trees (R53, R54) -/

/-- R53: a node: an absent child leaves the other's value. -/
def node {α : Type} (op : α → α → α) (x y : Option α) : Option α :=
  match x, y with
  | some a, some b => some (op a b)
  | some a, none => some a
  | none, y => y
/-- R53: one level: adjacent values paired, lower index first. -/
def level {α : Type} (op : α → α → α) (xs : List (Option α)) : List (Option α) :=
  match xs with
  | x :: y :: r => node op x y :: level op r
  | [x] => [x]
  | [] => []
/-- R53: five levels over the lanes of a beat. -/
def beatTree {α : Type} (op : α → α → α) (xs : List (Option α)) : Option α :=
  ((level op (level op (level op (level op (level op xs)))))[0]?).join
/-- R53: the tree over the lanes present. -/
def tree {α : Type} (op : α → α → α) (present : Nat → Bool) (val : Nat → α) : Option α :=
  let b := fun n => beatTree op ((List.range 32).map fun i => if present (32 * n + i) then some (val (32 * n + i)) else none)
  node op (node op (b 0) (b 1)) (b 2)

/-! Exact sums (R52) -/

/-- R52: the exact sum of finite terms, as a signed mantissa at an exponent. -/
def sumFin (xs : List (Bool × Nat × Int)) : FVal :=
  let at' := xs.foldl (fun e x => min e x.2.2) 0
  let t := xs.foldl (fun (a : Int) x => a + scaled x.1 x.2.1 x.2.2 at') 0
  .fin (decide (t < 0)) t.natAbs at'

/-- R52: the exact sum of a value and products: NaN, infinities, or the finite sum whose zero is +0. -/
def sumExact (xs : List FVal) : FVal :=
  if xs.any (·.isNan) then .nan
  else
    let p := xs.contains (.inf false)
    let n := xs.contains (.inf true)
    if p && n then .nan else if p then .inf false else if n then .inf true
    else sumFin (xs.filterMap fun x => match x with | .fin s m e => some (s, m, e) | _ => none)

end Sys2Proof.Machine
end

