-- ==== Sys2Proof/Config.lean ====
section
/-! DEFINITION. The free values: what the spec leaves open although the machine goes on. Each is a constant without a body, so
that nothing can be proved of the value it takes. A first argument `n` is the index of a free value (State.free). -/

namespace Sys2Proof

/-- R301, R368: which of a home's ports the fabric brings a parcel to, by the parcel's age. -/
opaque Config.route : Nat → Nat
/-- R143: the pattern a special function returns, by func and input; it counts only within the stated bound. -/
opaque Config.sfu : Nat → Word → Word
/-- R255, R338: cells of a crossbar load that fail verify. -/
opaque Config.badCells : Nat → BitVec 8
/-- R257: whether a calibration fails. -/
opaque Config.calFails : Nat → Bool
/-- R257, R328: gain and offset of a column, and the drift reference, that a calibration writes. -/
opaque Config.calColumn : Nat → Nat → BitVec 32
opaque Config.calRef : Nat → BitVec 16
/-- R257: a reading of an array's reference columns. -/
opaque Config.drift : Nat → BitVec 8
/-- R256: the error of a product's column, as a numerator and the power of two that divides it; it counts within the bound. -/
opaque Config.noise : Nat → Nat → Int × Nat
/-- R269: the mean of an integrator, and of the product of two, in units of the rail, as a numerator and the power of two that divides
it; they count within the rails. -/
opaque Config.mean : Nat → Nat → Int × Nat
/-- R271: whether a run's means meet the bound that R271 gives only with a probability (log 60), and the integrator that reaches its rail in a
run that cannot settle. -/
opaque Config.within : Nat → Bool
opaque Config.rail : Nat → Nat
opaque Config.moment : Nat → Nat → Nat → Int × Nat
/-- R324: what the key unit unwraps from the 64 wrapped bytes and the 16 bytes of the tag of a sealed record; none where the tag does
not verify. -/
opaque Config.unwrap : BitVec 512 → BitVec 128 → Option (BitVec 512)
/-- R207, R324: what the 16 bytes of a block, written under one memory key, read as under another, by both keys and the place of the byte read. -/
opaque Config.xts : BitVec 512 → BitVec 512 → Nat → BitVec 128 → BitVec 128
/-- R371: whether an image's signature verifies against the fused key hash, its security version, its digest, and whether it is the update stage
rather than service firmware. -/
opaque Config.imageOk : BitVec 256 → Nat → Bool
opaque Config.imageVersion : Nat → BitVec 32
opaque Config.imageDigest : Nat → BitVec 256
opaque Config.isStage : Nat → Bool
/-- R372: the digest of the root image, and SHA3-256 of some bytes. -/
opaque Config.rootDigest : BitVec 256
opaque Config.sha3 : List (BitVec 8) → BitVec 256
/-- R372: what the attestation responder answers to a request, by the request, its argument, the running image, the security version and
the index of a free value: of a measurement, what it answers beside its value. -/
opaque Config.spdm : Nat → Nat → Nat → BitVec 32 → Nat → BitVec 64
/-- R373: the number of the first RESYNC. -/
opaque Config.firstResync : BitVec 64
/-- R373: the layout of a home's record, from its outstanding copy, Caravan and Bobbin commands, the occupancy of its inbound queue, and its
counts of DRAM and SRAM errors. -/
opaque Config.homeRecord : Nat → Nat → Nat → Nat → Nat → Nat → BitVec 128
/-- R373: which entry of the partitions' lease tables stands at a place of the summary's lease section, from the entries in use. -/
opaque Config.leaseAt : List Nat → Nat → Nat
/-- R1, R375: the greatest budget that the power cap of an ordering code allows, by the kind of credit. -/
opaque Config.capBudget : BitVec 2 → Nat → Nat

end Sys2Proof
end

