-- ==== Sys2Proof/Machine/Map.lean ====
section
/-! DEFINITION. Sparse maps from natural numbers: a list of (key, value) pairs, keys rising, with one value that every
unlisted key reads as. Memories, register files and the tables of the device are maps of this kind, so that equal
contents are equal data. -/

namespace Sys2Proof.Machine

/-- A sparse map: pairs of key and value. -/
abbrev KMap (α : Type) := List (Nat × α)

/-- The value at a key, `d` where the key is not listed. -/
def KMap.get {α : Type} (d : α) (m : KMap α) (k : Nat) : α :=
  match m with
  | [] => d
  | (k', x) :: r => if k = k' then x else KMap.get d r k

/-- The value at a key, if it is listed. -/
def KMap.find {α : Type} (m : KMap α) (k : Nat) : Option α :=
  match m with
  | [] => none
  | (k', x) :: r => if k = k' then some x else KMap.find r k

/-- The map with key `k` listed at `x`, in its place among rising keys. -/
def KMap.ins {α : Type} (m : KMap α) (k : Nat) (x : α) : KMap α :=
  match m with
  | [] => [(k, x)]
  | (k', y) :: r => if k < k' then (k, x) :: (k', y) :: r else if k = k' then (k, x) :: r else (k', y) :: KMap.ins r k x

/-- The map with key `k` not listed. -/
def KMap.del {α : Type} (m : KMap α) (k : Nat) : KMap α := m.filter fun e => e.1 != k

/-- Writing `x` at `k` where unlisted keys read as `d`: the value `d` is not listed. -/
def KMap.put {α : Type} [DecidableEq α] (d : α) (m : KMap α) (k : Nat) (x : α) : KMap α :=
  if x = d then m.del k else m.ins k x

/-- The canonical form: keys strictly rising and no value equal to what an unlisted key reads as. -/
def KMap.wf {α : Type} [DecidableEq α] (d : α) (m : KMap α) : Bool :=
  match m with
  | [] => true
  | (k, x) :: r => decide (x ≠ d) && r.all (fun e => decide (k < e.1)) && KMap.wf d r

/-- The values listed, in the order of their keys. -/
def KMap.vals {α : Type} (m : KMap α) : List α := m.map (·.2)

/-- The keys listed. -/
def KMap.keys {α : Type} (m : KMap α) : List Nat := m.map (·.1)

end Sys2Proof.Machine
end

