-- ==== Sys2Proof/Syntax.lean ====
section
/-! DEFINITION. The instructions of the device: one constructor for each row of spec/opcode_table.json, in the
table's order. The first 288 are the instruction words of R72 to R84; their arguments are the word's fields under the
names of the table. The last 104 are the device's own steps, which have no encoding (spec/95): their arguments say
which agent or which queued item the step is about. -/

namespace Sys2Proof

/-- One step of the device: an instruction word (R56, R72) or a step of the device itself (spec/95). -/
inductive Instr where
  /-- R84: The all-zero word, optionally with chain or park bit, does nothing. -/
  | nop
  /-- R64: Prefix word supplying mask, rounding, fourth source, zeroing and saturation to the following word of its packet. -/
  | pfx (m : BitVec 3) (r : BitVec 3) (s : BitVec 6) (z : BitVec 1) (t : BitVec 2)
  /-- R117: Scalar 64-bit integer add. -/
  | iaddS64 (d : BitVec 6) (a : BitVec 6) (b : BitVec 6)
  /-- R117: Scalar 32-bit integer add, extended to 64 bits. -/
  | iaddS32 (d : BitVec 6) (a : BitVec 6) (b : BitVec 6)
  /-- R117: Vector integer add at the width or b-scalar form that the major selects. -/
  | iaddV (w : BitVec 2) (d : BitVec 6) (a : BitVec 6) (b : BitVec 6)
  /-- R117: Scalar 64-bit integer subtract. -/
  | isubS64 (d : BitVec 6) (a : BitVec 6) (b : BitVec 6)
  /-- R117: Scalar 32-bit integer subtract. -/
  | isubS32 (d : BitVec 6) (a : BitVec 6) (b : BitVec 6)
  /-- R117: Vector integer subtract. -/
  | isubV (w : BitVec 2) (d : BitVec 6) (a : BitVec 6) (b : BitVec 6)
  /-- R117: Scalar 64-bit low multiply. -/
  | imulS64 (d : BitVec 6) (a : BitVec 6) (b : BitVec 6)
  /-- R117: Scalar 32-bit low multiply. -/
  | imulS32 (d : BitVec 6) (a : BitVec 6) (b : BitVec 6)
  /-- R117: Vector low multiply. -/
  | imulV (w : BitVec 2) (d : BitVec 6) (a : BitVec 6) (b : BitVec 6)
  /-- R117: Scalar 64-bit signed high multiply. -/
  | imulhIS64 (d : BitVec 6) (a : BitVec 6) (b : BitVec 6)
  /-- R117: Scalar 32-bit signed high multiply. -/
  | imulhIS32 (d : BitVec 6) (a : BitVec 6) (b : BitVec 6)
  /-- R117: Vector signed high multiply. -/
  | imulhIV (w : BitVec 2) (d : BitVec 6) (a : BitVec 6) (b : BitVec 6)
  /-- R117: Scalar 64-bit natural high multiply. -/
  | imulhNS64 (d : BitVec 6) (a : BitVec 6) (b : BitVec 6)
  /-- R117: Scalar 32-bit natural high multiply. -/
  | imulhNS32 (d : BitVec 6) (a : BitVec 6) (b : BitVec 6)
  /-- R117: Vector natural high multiply. -/
  | imulhNV (w : BitVec 2) (d : BitVec 6) (a : BitVec 6) (b : BitVec 6)
  /-- R117: Scalar 64-bit multiply-add with c the destination. -/
  | imadS64 (d : BitVec 6) (a : BitVec 6) (b : BitVec 6)
  /-- R117: Scalar 32-bit multiply-add with c the destination. -/
  | imadS32 (d : BitVec 6) (a : BitVec 6) (b : BitVec 6)
  /-- R117: Vector multiply-add, c from the prefix or the destination. -/
  | imadV (w : BitVec 2) (d : BitVec 6) (a : BitVec 6) (b : BitVec 6)
  /-- R118: Scalar 64-bit signed divide, never faulting. -/
  | idivIS64 (d : BitVec 6) (a : BitVec 6) (b : BitVec 6)
  /-- R118: Scalar 32-bit signed divide. -/
  | idivIS32 (d : BitVec 6) (a : BitVec 6) (b : BitVec 6)
  /-- R118: Vector signed divide. -/
  | idivIV (w : BitVec 2) (d : BitVec 6) (a : BitVec 6) (b : BitVec 6)
  /-- R118: Scalar 64-bit natural divide. -/
  | idivNS64 (d : BitVec 6) (a : BitVec 6) (b : BitVec 6)
  /-- R118: Scalar 32-bit natural divide. -/
  | idivNS32 (d : BitVec 6) (a : BitVec 6) (b : BitVec 6)
  /-- R118: Vector natural divide. -/
  | idivNV (w : BitVec 2) (d : BitVec 6) (a : BitVec 6) (b : BitVec 6)
  /-- R118: Scalar 64-bit signed remainder. -/
  | iremIS64 (d : BitVec 6) (a : BitVec 6) (b : BitVec 6)
  /-- R118: Scalar 32-bit signed remainder. -/
  | iremIS32 (d : BitVec 6) (a : BitVec 6) (b : BitVec 6)
  /-- R118: Vector signed remainder. -/
  | iremIV (w : BitVec 2) (d : BitVec 6) (a : BitVec 6) (b : BitVec 6)
  /-- R118: Scalar 64-bit natural remainder. -/
  | iremNS64 (d : BitVec 6) (a : BitVec 6) (b : BitVec 6)
  /-- R118: Scalar 32-bit natural remainder. -/
  | iremNS32 (d : BitVec 6) (a : BitVec 6) (b : BitVec 6)
  /-- R118: Vector natural remainder. -/
  | iremNV (w : BitVec 2) (d : BitVec 6) (a : BitVec 6) (b : BitVec 6)
  /-- R117: Scalar 64-bit signed minimum. -/
  | iminIS64 (d : BitVec 6) (a : BitVec 6) (b : BitVec 6)
  /-- R117: Scalar 32-bit signed minimum. -/
  | iminIS32 (d : BitVec 6) (a : BitVec 6) (b : BitVec 6)
  /-- R117: Vector signed minimum. -/
  | iminIV (w : BitVec 2) (d : BitVec 6) (a : BitVec 6) (b : BitVec 6)
  /-- R117: Scalar 64-bit natural minimum. -/
  | iminNS64 (d : BitVec 6) (a : BitVec 6) (b : BitVec 6)
  /-- R117: Scalar 32-bit natural minimum. -/
  | iminNS32 (d : BitVec 6) (a : BitVec 6) (b : BitVec 6)
  /-- R117: Vector natural minimum. -/
  | iminNV (w : BitVec 2) (d : BitVec 6) (a : BitVec 6) (b : BitVec 6)
  /-- R117: Scalar 64-bit signed maximum. -/
  | imaxIS64 (d : BitVec 6) (a : BitVec 6) (b : BitVec 6)
  /-- R117: Scalar 32-bit signed maximum. -/
  | imaxIS32 (d : BitVec 6) (a : BitVec 6) (b : BitVec 6)
  /-- R117: Vector signed maximum. -/
  | imaxIV (w : BitVec 2) (d : BitVec 6) (a : BitVec 6) (b : BitVec 6)
  /-- R117: Scalar 64-bit natural maximum. -/
  | imaxNS64 (d : BitVec 6) (a : BitVec 6) (b : BitVec 6)
  /-- R117: Scalar 32-bit natural maximum. -/
  | imaxNS32 (d : BitVec 6) (a : BitVec 6) (b : BitVec 6)
  /-- R117: Vector natural maximum. -/
  | imaxNV (w : BitVec 2) (d : BitVec 6) (a : BitVec 6) (b : BitVec 6)
  /-- R117: Scalar 64-bit absolute value. -/
  | iabsS64 (d : BitVec 6) (a : BitVec 6)
  /-- R117: Scalar 32-bit absolute value. -/
  | iabsS32 (d : BitVec 6) (a : BitVec 6)
  /-- R117: Vector absolute value. -/
  | iabsV (w : BitVec 2) (d : BitVec 6) (a : BitVec 6)
  /-- R117: Scalar 64-bit negate. -/
  | inegS64 (d : BitVec 6) (a : BitVec 6)
  /-- R117: Scalar 32-bit negate. -/
  | inegS32 (d : BitVec 6) (a : BitVec 6)
  /-- R117: Vector negate. -/
  | inegV (w : BitVec 2) (d : BitVec 6) (a : BitVec 6)
  /-- R117: Scalar 64-bit bitwise and. -/
  | andS64 (d : BitVec 6) (a : BitVec 6) (b : BitVec 6)
  /-- R117: Scalar 32-bit bitwise and. -/
  | andS32 (d : BitVec 6) (a : BitVec 6) (b : BitVec 6)
  /-- R117: Vector bitwise and. -/
  | andV (w : BitVec 2) (d : BitVec 6) (a : BitVec 6) (b : BitVec 6)
  /-- R117: Scalar 64-bit bitwise or. -/
  | orS64 (d : BitVec 6) (a : BitVec 6) (b : BitVec 6)
  /-- R117: Scalar 32-bit bitwise or. -/
  | orS32 (d : BitVec 6) (a : BitVec 6) (b : BitVec 6)
  /-- R117: Vector bitwise or. -/
  | orV (w : BitVec 2) (d : BitVec 6) (a : BitVec 6) (b : BitVec 6)
  /-- R117: Scalar 64-bit exclusive or. -/
  | xorS64 (d : BitVec 6) (a : BitVec 6) (b : BitVec 6)
  /-- R117: Scalar 32-bit exclusive or. -/
  | xorS32 (d : BitVec 6) (a : BitVec 6) (b : BitVec 6)
  /-- R117: Vector exclusive or. -/
  | xorV (w : BitVec 2) (d : BitVec 6) (a : BitVec 6) (b : BitVec 6)
  /-- R117: Scalar 64-bit a and not b. -/
  | andnS64 (d : BitVec 6) (a : BitVec 6) (b : BitVec 6)
  /-- R117: Scalar 32-bit a and not b. -/
  | andnS32 (d : BitVec 6) (a : BitVec 6) (b : BitVec 6)
  /-- R117: Vector a and not b. -/
  | andnV (w : BitVec 2) (d : BitVec 6) (a : BitVec 6) (b : BitVec 6)
  /-- R117: Scalar 64-bit bitwise not. -/
  | notS64 (d : BitVec 6) (a : BitVec 6)
  /-- R117: Scalar 32-bit bitwise not. -/
  | notS32 (d : BitVec 6) (a : BitVec 6)
  /-- R117: Vector bitwise not. -/
  | notV (w : BitVec 2) (d : BitVec 6) (a : BitVec 6)
  /-- R119: Scalar 64-bit shift left by register. -/
  | shlS64 (d : BitVec 6) (a : BitVec 6) (b : BitVec 6)
  /-- R119: Scalar 32-bit shift left by register. -/
  | shlS32 (d : BitVec 6) (a : BitVec 6) (b : BitVec 6)
  /-- R119: Vector shift left by register. -/
  | shlV (w : BitVec 2) (d : BitVec 6) (a : BitVec 6) (b : BitVec 6)
  /-- R119: Scalar 64-bit logical shift right by register. -/
  | shrS64 (d : BitVec 6) (a : BitVec 6) (b : BitVec 6)
  /-- R119: Scalar 32-bit logical shift right by register. -/
  | shrS32 (d : BitVec 6) (a : BitVec 6) (b : BitVec 6)
  /-- R119: Vector logical shift right by register. -/
  | shrV (w : BitVec 2) (d : BitVec 6) (a : BitVec 6) (b : BitVec 6)
  /-- R119: Scalar 64-bit arithmetic shift right by register. -/
  | sarS64 (d : BitVec 6) (a : BitVec 6) (b : BitVec 6)
  /-- R119: Scalar 32-bit arithmetic shift right by register. -/
  | sarS32 (d : BitVec 6) (a : BitVec 6) (b : BitVec 6)
  /-- R119: Vector arithmetic shift right by register. -/
  | sarV (w : BitVec 2) (d : BitVec 6) (a : BitVec 6) (b : BitVec 6)
  /-- R119: Scalar 64-bit left rotation by register. -/
  | rotS64 (d : BitVec 6) (a : BitVec 6) (b : BitVec 6)
  /-- R119: Scalar 32-bit left rotation by register. -/
  | rotS32 (d : BitVec 6) (a : BitVec 6) (b : BitVec 6)
  /-- R119: Vector left rotation by register. -/
  | rotV (w : BitVec 2) (d : BitVec 6) (a : BitVec 6) (b : BitVec 6)
  /-- R119: Scalar 64-bit signed bit-field extract. -/
  | bfxIS64 (d : BitVec 6) (a : BitVec 6) (b : BitVec 6)
  /-- R119: Scalar 32-bit signed bit-field extract. -/
  | bfxIS32 (d : BitVec 6) (a : BitVec 6) (b : BitVec 6)
  /-- R119: Vector signed bit-field extract. -/
  | bfxIV (w : BitVec 2) (d : BitVec 6) (a : BitVec 6) (b : BitVec 6)
  /-- R119: Scalar 64-bit natural bit-field extract. -/
  | bfxNS64 (d : BitVec 6) (a : BitVec 6) (b : BitVec 6)
  /-- R119: Scalar 32-bit natural bit-field extract. -/
  | bfxNS32 (d : BitVec 6) (a : BitVec 6) (b : BitVec 6)
  /-- R119: Vector natural bit-field extract. -/
  | bfxNV (w : BitVec 2) (d : BitVec 6) (a : BitVec 6) (b : BitVec 6)
  /-- R119: Scalar 64-bit bit-field insert into the destination. -/
  | bfiS64 (d : BitVec 6) (a : BitVec 6) (b : BitVec 6)
  /-- R119: Scalar 32-bit bit-field insert. -/
  | bfiS32 (d : BitVec 6) (a : BitVec 6) (b : BitVec 6)
  /-- R119: Vector bit-field insert, c from the prefix or destination. -/
  | bfiV (w : BitVec 2) (d : BitVec 6) (a : BitVec 6) (b : BitVec 6)
  /-- R117: Scalar 64-bit population count. -/
  | popcS64 (d : BitVec 6) (a : BitVec 6)
  /-- R117: Scalar 32-bit population count. -/
  | popcS32 (d : BitVec 6) (a : BitVec 6)
  /-- R117: Vector population count. -/
  | popcV (w : BitVec 2) (d : BitVec 6) (a : BitVec 6)
  /-- R117: Scalar 64-bit count of leading zeros. -/
  | clzS64 (d : BitVec 6) (a : BitVec 6)
  /-- R117: Scalar 32-bit count of leading zeros. -/
  | clzS32 (d : BitVec 6) (a : BitVec 6)
  /-- R117: Vector count of leading zeros. -/
  | clzV (w : BitVec 2) (d : BitVec 6) (a : BitVec 6)
  /-- R117: Scalar 64-bit bit reversal. -/
  | brevS64 (d : BitVec 6) (a : BitVec 6)
  /-- R117: Scalar 32-bit bit reversal. -/
  | brevS32 (d : BitVec 6) (a : BitVec 6)
  /-- R117: Vector bit reversal. -/
  | brevV (w : BitVec 2) (d : BitVec 6) (a : BitVec 6)
  /-- R117: Scalar 64-bit register move. -/
  | movS64 (d : BitVec 6) (a : BitVec 6)
  /-- R117: Scalar 32-bit register move. -/
  | movS32 (d : BitVec 6) (a : BitVec 6)
  /-- R117: Vector move, or broadcast of sb in the b-scalar major. -/
  | movV (w : BitVec 2) (d : BitVec 6) (a : BitVec 6) (b : BitVec 6)
  /-- R120: Scalar 64-bit compare writing 0 or 1 and setting all four flags. -/
  | icmpS64 (d : BitVec 6) (a : BitVec 6) (b : BitVec 6) (k : BitVec 3)
  /-- R120: Scalar 32-bit compare writing 0 or 1 and setting the flags. -/
  | icmpS32 (d : BitVec 6) (a : BitVec 6) (b : BitVec 6) (k : BitVec 3)
  /-- R120: Vector compare writing a mask register. -/
  | icmpV (w : BitVec 2) (d : BitVec 3) (a : BitVec 6) (b : BitVec 6) (k : BitVec 3)
  /-- R120: Scalar select of a or b on the old destination value. -/
  | selS64 (d : BitVec 6) (a : BitVec 6) (b : BitVec 6)
  /-- R120: Scalar 32-bit select on the old destination value. -/
  | selS32 (d : BitVec 6) (a : BitVec 6) (b : BitVec 6)
  /-- R120: Vector per-lane select of a or b under mask mk. -/
  | selV (w : BitVec 2) (d : BitVec 6) (a : BitVec 6) (b : BitVec 6) (k : BitVec 3)
  /-- R117: Scalar 64-bit address a + b·k. -/
  | leaS64 (d : BitVec 6) (a : BitVec 6) (b : BitVec 6) (k : BitVec 2)
  /-- R117: Scalar 32-bit address a + b·k. -/
  | leaS32 (d : BitVec 6) (a : BitVec 6) (b : BitVec 6) (k : BitVec 2)
  /-- R117: Vector per-lane address a + b·k. -/
  | leaV (w : BitVec 2) (d : BitVec 6) (a : BitVec 6) (b : BitVec 6) (k : BitVec 2)
  /-- R119: Scalar 64-bit add of a sign-extended 12-bit immediate. -/
  | iaddImmS (d : BitVec 6) (a : BitVec 6) (i : BitVec 12)
  /-- R119: Vector 32-bit add of a sign-extended 12-bit immediate. -/
  | iaddImmV (d : BitVec 6) (a : BitVec 6) (i : BitVec 12)
  /-- R122: Scalar load of a sign-extended 18-bit immediate. -/
  | moviS (d : BitVec 6) (i : BitVec 18)
  /-- R122: Vector load of a sign-extended 18-bit immediate. -/
  | moviV (d : BitVec 6) (i : BitVec 18)
  /-- R122: Scalar shift of the destination left 18 and insert of an unsigned immediate. -/
  | movhiS (d : BitVec 6) (i : BitVec 18)
  /-- R122: Vector shift left 18 and insert of an unsigned immediate. -/
  | movhiV (d : BitVec 6) (i : BitVec 18)
  /-- R124: Reads a numbered special register into a scalar, exact. -/
  | sread (d : BitVec 6) (n : BitVec 11)
  /-- R125: Writes a scalar into a numbered special register, normalised or ignored per register. -/
  | swrite (a : BitVec 6) (n : BitVec 11)
  /-- R119: Scalar shift left by immediate. -/
  | shlImmS (d : BitVec 6) (a : BitVec 6) (n : BitVec 6)
  /-- R119: Scalar logical shift right by immediate. -/
  | shrImmS (d : BitVec 6) (a : BitVec 6) (n : BitVec 6)
  /-- R119: Scalar arithmetic shift right by immediate. -/
  | sarImmS (d : BitVec 6) (a : BitVec 6) (n : BitVec 6)
  /-- R119: Scalar rotation by immediate. -/
  | rotImmS (d : BitVec 6) (a : BitVec 6) (n : BitVec 6)
  /-- R119: Vector shift left by immediate. -/
  | shlImmV (d : BitVec 6) (a : BitVec 6) (n : BitVec 5)
  /-- R119: Vector logical shift right by immediate. -/
  | shrImmV (d : BitVec 6) (a : BitVec 6) (n : BitVec 5)
  /-- R119: Vector arithmetic shift right by immediate. -/
  | sarImmV (d : BitVec 6) (a : BitVec 6) (n : BitVec 5)
  /-- R119: Vector rotation by immediate. -/
  | rotImmV (d : BitVec 6) (a : BitVec 6) (n : BitVec 5)
  /-- R134: Vector FP32 add, b vector or scalar. -/
  | faddV (v : BitVec 1) (d : BitVec 6) (a : BitVec 6) (b : BitVec 6)
  /-- R134: Scalar FP32 add. -/
  | faddS (d : BitVec 6) (a : BitVec 6) (b : BitVec 6)
  /-- R134: Vector FP32 subtract. -/
  | fsubV (v : BitVec 1) (d : BitVec 6) (a : BitVec 6) (b : BitVec 6)
  /-- R134: Scalar FP32 subtract. -/
  | fsubS (d : BitVec 6) (a : BitVec 6) (b : BitVec 6)
  /-- R134: Vector FP32 multiply. -/
  | fmulV (v : BitVec 1) (d : BitVec 6) (a : BitVec 6) (b : BitVec 6)
  /-- R134: Scalar FP32 multiply. -/
  | fmulS (d : BitVec 6) (a : BitVec 6) (b : BitVec 6)
  /-- R134: Vector fused multiply-add rounded once. -/
  | ffmaV (v : BitVec 1) (d : BitVec 6) (a : BitVec 6) (b : BitVec 6)
  /-- R134: Scalar fused multiply-add rounded once. -/
  | ffmaS (d : BitVec 6) (a : BitVec 6) (b : BitVec 6)
  /-- R135: Vector FP32 minimum. -/
  | fminV (v : BitVec 1) (d : BitVec 6) (a : BitVec 6) (b : BitVec 6)
  /-- R135: Scalar FP32 minimum. -/
  | fminS (d : BitVec 6) (a : BitVec 6) (b : BitVec 6)
  /-- R135: Vector FP32 maximum. -/
  | fmaxV (v : BitVec 1) (d : BitVec 6) (a : BitVec 6) (b : BitVec 6)
  /-- R135: Scalar FP32 maximum. -/
  | fmaxS (d : BitVec 6) (a : BitVec 6) (b : BitVec 6)
  /-- R135: Vector copy of b's sign onto a. -/
  | fsgnCpyV (v : BitVec 1) (d : BitVec 6) (a : BitVec 6) (b : BitVec 6)
  /-- R135: Scalar copy of b's sign onto a. -/
  | fsgnCpyS (d : BitVec 6) (a : BitVec 6) (b : BitVec 6)
  /-- R135: Vector inverse of b's sign onto a. -/
  | fsgnNegV (v : BitVec 1) (d : BitVec 6) (a : BitVec 6) (b : BitVec 6)
  /-- R135: Scalar inverse of b's sign onto a. -/
  | fsgnNegS (d : BitVec 6) (a : BitVec 6) (b : BitVec 6)
  /-- R135: Vector xor of signs. -/
  | fsgnXorV (v : BitVec 1) (d : BitVec 6) (a : BitVec 6) (b : BitVec 6)
  /-- R135: Scalar xor of signs. -/
  | fsgnXorS (d : BitVec 6) (a : BitVec 6) (b : BitVec 6)
  /-- R136: Vector FP32 compare writing a mask. -/
  | fcmpV (v : BitVec 1) (d : BitVec 3) (a : BitVec 6) (b : BitVec 6) (k : BitVec 3)
  /-- R136: Scalar FP32 compare writing 0 or 1 and setting flags. -/
  | fcmpS (d : BitVec 6) (a : BitVec 6) (b : BitVec 6) (k : BitVec 3)
  /-- R135: Vector class mask of FP32 value. -/
  | fclassV (v : BitVec 1) (d : BitVec 6) (a : BitVec 6)
  /-- R135: Scalar class mask of FP32 value. -/
  | fclassS (d : BitVec 6) (a : BitVec 6)
  /-- R135: Vector rounding to an integral FP32 value in the encoded mode. -/
  | frndV (v : BitVec 1) (d : BitVec 6) (a : BitVec 6) (k : BitVec 3)
  /-- R135: Scalar rounding to an integral FP32 value. -/
  | frndS (d : BitVec 6) (a : BitVec 6) (k : BitVec 3)
  /-- R137: FP32 add, min or max reduction over the effective mask into a scalar. -/
  | redf (d : BitVec 6) (a : BitVec 6) (o : BitVec 2)
  /-- R137: Inclusive FP32 add scan. -/
  | scanfAddInc (d : BitVec 6) (a : BitVec 6)
  /-- R137: Exclusive FP32 add scan. -/
  | scanfAddExc (d : BitVec 6) (a : BitVec 6)
  /-- R137: Inclusive FP32 min scan. -/
  | scanfMinInc (d : BitVec 6) (a : BitVec 6)
  /-- R137: Inclusive FP32 max scan. -/
  | scanfMaxInc (d : BitVec 6) (a : BitVec 6)
  /-- R137: Exclusive FP32 min scan. -/
  | scanfMinExc (d : BitVec 6) (a : BitVec 6)
  /-- R137: Exclusive FP32 max scan. -/
  | scanfMaxExc (d : BitVec 6) (a : BitVec 6)
  /-- R138: Sets FMT from a scalar. -/
  | setfmt (a : BitVec 6)
  /-- R138: Reads FMT into a scalar. -/
  | getfmt (d : BitVec 6)
  /-- R138: Sets NMODE and NSEED, zeroes NSTEP and rebuilds the lane generators. -/
  | setnm (a : BitVec 6) (b : BitVec 6)
  /-- R138: Reads NMODE into a scalar. -/
  | getnm (d : BitVec 6)
  /-- R141: Narrows FP32 lanes to BF16, FP16, E4M3 or E5M2 under NMODE or prefix. -/
  | cvtfNarrow (d : BitVec 6) (a : BitVec 6) (f : BitVec 2)
  /-- R140: Widens narrow floating lanes exactly to FP32. -/
  | cvtfWiden (d : BitVec 6) (a : BitVec 6) (f : BitVec 2)
  /-- R141: Converts FP32 lanes to integers with rounding and saturation. -/
  | cvfi (d : BitVec 6) (a : BitVec 6) (f : BitVec 3)
  /-- R140: Converts 32-bit integer lanes to FP32. -/
  | cvti (d : BitVec 6) (a : BitVec 6) (f : BitVec 1)
  /-- R142: Quantises each beat's FP32 lanes to one Q4 block with scale byte. -/
  | pack4 (d : BitVec 6) (a : BitVec 6) (b : BitVec 6)
  /-- R142: Expands Q4 codes and scale to FP32 lanes exactly. -/
  | unpk4 (d : BitVec 6) (a : BitVec 6) (b : BitVec 6)
  /-- R143: Special-function reciprocal, queued in the SFU. -/
  | frcp (d : BitVec 6) (a : BitVec 6)
  /-- R143: Special-function reciprocal square root. -/
  | frsq (d : BitVec 6) (a : BitVec 6)
  /-- R143: Correctly rounded square root. -/
  | fsqrt (d : BitVec 6) (a : BitVec 6)
  /-- R143: Base-2 exponential. -/
  | fexp2 (d : BitVec 6) (a : BitVec 6)
  /-- R143: Base-2 logarithm. -/
  | flog2 (d : BitVec 6) (a : BitVec 6)
  /-- R143: Sine in radians. -/
  | fsin (d : BitVec 6) (a : BitVec 6)
  /-- R143: Cosine in radians. -/
  | fcos (d : BitVec 6) (a : BitVec 6)
  /-- R143: Hyperbolic tangent. -/
  | ftanh (d : BitVec 6) (a : BitVec 6)
  /-- R151: Unconditional PC-relative branch. -/
  | br (i : BitVec 24)
  /-- R151: Branch on a CFLAGS condition, never dividing. -/
  | brc (k : BitVec 5) (i : BitVec 18)
  /-- R151: Branch on a mask, dividing the fragment into taken and fall-through children when mixed. -/
  | brm (m : BitVec 3) (i : BitVec 18)
  /-- R102: Slides the register windows, writes the link into s60 and branches. -/
  | call (v : BitVec 3) (s : BitVec 3) (i : BitVec 18)
  /-- R102: Slides the windows back from the link in s60 and returns. -/
  | ret
  /-- R152: Per-lane jump through a table, dividing into one child per target. -/
  | jtab (d : BitVec 6) (a : BitVec 6) (b : BitVec 6)
  /-- R155: Arms a named barrier with the fragment's owned lanes. -/
  | bset (k : BitVec 4)
  /-- R156: Arrives at a named barrier, releasing residency and migrating to the anchor if needed. -/
  | join (k : BitVec 4)
  /-- R158: Waits at the team barrier. -/
  | barrt
  /-- R158: Team barrier with release and acquire that publishes batches. -/
  | barrtPub
  /-- R160: Creates a group in the team with eight scalars passed by value. -/
  | spawn (a : BitVec 6) (b : BitVec 6)
  /-- R161: Retires the active lanes, or all owned lanes when none is active. -/
  | exit
  /-- R162: Parks the fragment until every outstanding result returns. -/
  | park
  /-- R162: Ends the current turn and passes service. -/
  | yield
  /-- R163: Registers a watch on a memory word and waits until it differs from a value. -/
  | waitw (a : BitVec 6) (b : BitVec 6)
  /-- R164: Applies a liveness entry and serves as a pre-emption point. -/
  | preh (n : BitVec 12) (b : BitVec 6)
  /-- R126: Sets mask bits for active lanes with non-zero values. -/
  | ballot (d : BitVec 3) (a : BitVec 6)
  /-- R127: Scalar 1 if any active lane is non-zero. -/
  | voteAny (d : BitVec 6) (a : BitVec 6)
  /-- R127: Scalar 1 if every active lane is non-zero. -/
  | voteAll (d : BitVec 6) (a : BitVec 6)
  /-- R127: Scalar 1 if every active lane holds the same bits. -/
  | voteUni (d : BitVec 6) (a : BitVec 6)
  /-- R126: Counts the set bits of a mask. -/
  | mpopc (d : BitVec 6) (a : BitVec 3)
  /-- R126: Index of the lowest set bit of a mask. -/
  | mfirst (d : BitVec 6) (a : BitVec 3)
  /-- R126: Mask and. -/
  | mand (d : BitVec 3) (a : BitVec 3) (b : BitVec 3)
  /-- R126: Mask or. -/
  | mor (d : BitVec 3) (a : BitVec 3) (b : BitVec 3)
  /-- R126: Mask exclusive or. -/
  | mxor (d : BitVec 3) (a : BitVec 3) (b : BitVec 3)
  /-- R126: Mask not. -/
  | mnot (d : BitVec 3) (a : BitVec 3)
  /-- R126: Mask move. -/
  | movMask (d : BitVec 3) (a : BitVec 3)
  /-- R129: Writes each active lane's number. -/
  | laneid (d : BitVec 6)
  /-- R129: Lane exchange by per-lane index. -/
  | shflIdx (d : BitVec 6) (a : BitVec 6) (b : BitVec 6)
  /-- R129: Lane exchange from l − n. -/
  | shflUp (d : BitVec 6) (a : BitVec 6) (b : BitVec 6)
  /-- R129: Lane exchange from l + n. -/
  | shflDown (d : BitVec 6) (a : BitVec 6) (b : BitVec 6)
  /-- R129: Lane exchange from l xor n. -/
  | shflXor (d : BitVec 6) (a : BitVec 6) (b : BitVec 6)
  /-- R130: Broadcasts one lane's value to every active lane. -/
  | bcast (d : BitVec 6) (a : BitVec 6) (b : BitVec 6)
  /-- R131: Integer reduction of active lanes into a scalar. -/
  | redi (d : BitVec 6) (a : BitVec 6) (o : BitVec 3)
  /-- R131: Inclusive integer scan. -/
  | scaniInc (d : BitVec 6) (a : BitVec 6) (o : BitVec 3)
  /-- R131: Exclusive integer scan. -/
  | scaniExc (d : BitVec 6) (a : BitVec 6) (o : BitVec 3)
  /-- R221: Vector load, performed in place or by migrating lanes to their data's homes. -/
  | ldV (d : BitVec 6) (b : BitVec 6) (i : BitVec 6) (w : BitVec 3) (o : BitVec 3)
  /-- R223: Vector integer or 32-bit store, local, as store requests or write-combined. -/
  | stV (d : BitVec 6) (b : BitVec 6) (i : BitVec 6) (w : BitVec 3) (o : BitVec 3)
  /-- R223: Vector store narrowing FP32 to a narrow floating format. -/
  | stVNarrow (d : BitVec 6) (b : BitVec 6) (i : BitVec 6) (w : BitVec 3) (o : BitVec 3)
  /-- R224: Posted vector store without acknowledgement. -/
  | stp (d : BitVec 6) (b : BitVec 6) (i : BitVec 6) (w : BitVec 3) (o : BitVec 3)
  /-- R221: Scalar load, moving the fragment whole or reading remotely when m0 is empty. -/
  | ldS (d : BitVec 6) (b : BitVec 6) (w : BitVec 3) (o : BitVec 3)
  /-- R223: Scalar store of the low bytes of a register. -/
  | stS (d : BitVec 6) (b : BitVec 6) (w : BitVec 3) (o : BitVec 3)
  /-- R222: Scratchpad load at team scope. -/
  | lds (d : BitVec 6) (b : BitVec 6) (i : BitVec 6) (w : BitVec 3) (o : BitVec 2)
  /-- R222: Vault load at team scope. -/
  | ldv (d : BitVec 6) (b : BitVec 6) (i : BitVec 6) (w : BitVec 3) (o : BitVec 2)
  /-- R224: Scratchpad store at team scope. -/
  | sts (d : BitVec 6) (b : BitVec 6) (i : BitVec 6) (w : BitVec 3) (o : BitVec 2)
  /-- R224: Vault store at team scope. -/
  | stv (d : BitVec 6) (b : BitVec 6) (i : BitVec 6) (w : BitVec 3) (o : BitVec 2)
  /-- R226: Performs acquire, release or both at a scope, holding issue until met. -/
  | fence (k : BitVec 3) (s : BitVec 3)
  /-- R229: Moves the fragment whole to the home of an address. -/
  | migr (a : BitVec 6)
  /-- R230: Returns home, device and kind of an address's page. -/
  | homeOf (d : BitVec 6) (a : BitVec 6)
  /-- R215: Maps or unmaps a scratchpad range onto a global range. -/
  | spmap (a : BitVec 6) (b : BitVec 6)
  /-- R215: Writes back dirty mapped lines and holds until performed. -/
  | spflush (a : BitVec 6) (b : BitVec 6)
  /-- R230: Reports the strongest lease covering an address. -/
  | leaseq (d : BitVec 6) (a : BitVec 6)
  /-- R227: Integer atomic of the first set with return, migrating like a load. -/
  | atom (d : BitVec 6) (b : BitVec 6) (i : BitVec 6) (o : BitVec 3) (r : BitVec 3)
  /-- R227: Atomic of the second set (float add, natural and float min/max) with return. -/
  | atomF (d : BitVec 6) (b : BitVec 6) (i : BitVec 6) (o : BitVec 3) (r : BitVec 3)
  /-- R228: Posted atomic without return. -/
  | atp (d : BitVec 6) (b : BitVec 6) (i : BitVec 6) (o : BitVec 3) (r : BitVec 3)
  /-- R279: Sends per-lane elements to bank-unit handler k as posted operations. -/
  | xatom (d : BitVec 6) (b : BitVec 6) (i : BitVec 6) (h : BitVec 4) (n : BitVec 2)
  /-- R298: Appends a child launch record to the team's pending-launch queue, parking while full. -/
  | launch (d : BitVec 6) (a : BitVec 6)
  /-- R298: Reports outstanding child grids and pending-launch entries. -/
  | lstat (d : BitVec 6)
  /-- R302: Starts a command chain on the copy engine, Caravan or Bobbin. -/
  | echain (a : BitVec 6) (e : BitVec 6)
  /-- R308: Reads the status word of the group's latest command on an engine. -/
  | estat (d : BitVec 6) (e : BitVec 6)
  /-- R311: Configures or frees a circular-buffer descriptor. -/
  | cbcfg (a : BitVec 6) (n : BitVec 6)
  /-- R312: Produces or consumes buffer elements after a team release. -/
  | cbput (a : BitVec 6) (n : BitVec 6)
  /-- R312: Reads a buffer's consumer and producer pointers. -/
  | cbget (d : BitVec 6) (n : BitVec 6)
  /-- R312: Waits for elements or room in a buffer. -/
  | cbwait (a : BitVec 6) (n : BitVec 6)
  /-- R302: Issues one COPY entry to the copy engine. -/
  | cpy (a : BitVec 6)
  /-- R309: Seals the group's issued copy commands into a numbered batch. -/
  | bseal (d : BitVec 6)
  /-- R309: Waits for a batch to complete and delivers its fault. -/
  | bwait (a : BitVec 6)
  /-- R310: Arms a sync word with a target and clears its count. -/
  | syncw (d : BitVec 6) (a : BitVec 6)
  /-- R310: Waits until a sync word's generation passes a value. -/
  | swait (d : BitVec 6) (a : BitVec 6)
  /-- R314: Drains every write-combining line holding the fragment's bytes. -/
  | wcfl
  /-- R175: Matrix multiply-accumulate of slot tiles into an accumulator tile on a stream. -/
  | mma (t : BitVec 3) (a : BitVec 7) (b : BitVec 7) (s : BitVec 2)
  /-- R171: Claims a range of operand slots for the group. -/
  | oclaim (f : BitVec 7) (n : BitVec 7)
  /-- R171: Releases the group's claimed slots of a range, which then clear. -/
  | orel (f : BitVec 7) (n : BitVec 7)
  /-- R178: Waits until accepted MMA ops on the named streams have written. -/
  | msync (s : BitVec 4)
  /-- R179: Empties an accumulator tile. -/
  | czero (t : BitVec 3)
  /-- R179: Reads a tile column into a vector register. -/
  | crd (d : BitVec 6) (t : BitVec 3) (b : BitVec 6)
  /-- R179: Writes a vector register into a tile column. -/
  | cwr (t : BitVec 3) (a : BitVec 6) (b : BitVec 6)
  /-- R180: Stores active tile rows densely with OVT conversion as posted stores. -/
  | cst (t : BitVec 3) (a : BitVec 6) (f : BitVec 4)
  /-- R181: Stores a compressed bitmap image of the tile. -/
  | cstz (t : BitVec 3) (a : BitVec 6) (f : BitVec 4)
  /-- R179: Scales each tile row by a per-lane factor. -/
  | cscl (t : BitVec 3) (a : BitVec 6)
  /-- R182: Decides per row whether a key block can be skipped. -/
  | bskip (m : BitVec 3) (a : BitVec 6) (b : BitVec 6)
  /-- R189: Opens a fibre or stream register from a scratchpad descriptor. -/
  | openReg (a : BitVec 6) (x : BitVec 6)
  /-- R190: Advances a fibre or stream within its row or to another row. -/
  | adv (a : BitVec 6) (x : BitVec 6)
  /-- R191: Writes a mask of lanes that have an element left. -/
  | tend (d : BitVec 3) (x : BitVec 6)
  /-- R192: Closes a fibre or stream register. -/
  | closeReg (x : BitVec 6)
  /-- R191: Loads the next coordinates or values into lanes in compacted order. -/
  | fldc (d : BitVec 6) (x : BitVec 6)
  /-- R197: Starts a Bobbin intersection command on two fibres. -/
  | cxsect (d : BitVec 6) (a : BitVec 6) (u : BitVec 3) (w : BitVec 3)
  /-- R197: Starts a Bobbin merge command on two fibres. -/
  | cmerge (d : BitVec 6) (a : BitVec 6) (u : BitVec 3) (w : BitVec 3)
  /-- R201: Waits for a Bobbin command and its formed groups, delivering its fault. -/
  | cwait (d : BitVec 6) (a : BitVec 6)
  /-- R203: Stops or saves the group's Bobbin walk into a cursor record. -/
  | cursv (a : BitVec 6)
  /-- R203: Resumes a Bobbin walk from a cursor record. -/
  | curld (a : BitVec 6)
  /-- R255: Copies a weight record and queues loading and calibration of a crossbar array. -/
  | xbld (d : BitVec 6) (a : BitVec 6) (x : BitVec 4) (y : BitVec 5)
  /-- R256: Queues a bounded matrix-vector product on a crossbar array. -/
  | xbmv (d : BitVec 6) (a : BitVec 6) (x : BitVec 4) (y : BitVec 5)
  /-- R258: Queues a calibration of a crossbar array. -/
  | xbcal (d : BitVec 6) (x : BitVec 4) (y : BitVec 5)
  /-- R258: Reads a crossbar array's status word. -/
  | xbst (d : BitVec 6) (x : BitVec 4) (y : BitVec 5)
  /-- R260: Copies a vector declaring it exact and records the array's bound exponent. -/
  | accept (d : BitVec 6) (a : BitVec 6) (x : BitVec 4) (y : BitVec 5)
  /-- R268: Copies a coupling record and queues it on a Tambour system. -/
  | tldc (d : BitVec 6) (a : BitVec 6) (t : BitVec 2)
  /-- R268: Copies a bias record and queues it on a Tambour system. -/
  | tldb (d : BitVec 6) (a : BitVec 6) (t : BitVec 2)
  /-- R268: Queues a settle of the given time. -/
  | tsetl (a : BitVec 6) (t : BitVec 2)
  /-- R268: Copies a pair list and queues an averaging run. -/
  | tsamp (a : BitVec 6) (t : BitVec 2)
  /-- R269: Reads bounded mean estimates of a done system. -/
  | trd (d : BitVec 6) (a : BitVec 6) (t : BitVec 2)
  /-- R269: Reads bounded covariance estimates of a done system. -/
  | trdc (d : BitVec 6) (a : BitVec 6) (t : BitVec 2)
  /-- R270: Reads the status of the system covering a partition. -/
  | tstat (d : BitVec 6) (t : BitVec 2)
  /-- R334: Reads the core's cycle counter. -/
  | cyc (d : BitVec 6)
  /-- R334: Reads the fragment's GTIMER. -/
  | gtim (d : BitVec 6)
  /-- R334: Arms GTCMP at GTIMER plus an interval. -/
  | gtset (a : BitVec 6)
  /-- R335: Reads a numbered performance counter. -/
  | perf (d : BitVec 6) (a : BitVec 6)
  /-- R329: Replaces the group's overflow table. -/
  | ovtld (a : BitVec 6)
  /-- R329: Loads a partition's handler table into its bank units. -/
  | htld (a : BitVec 6) (b : BitVec 6)
  /-- R324: Installs a sealed key-table entry or memory key. -/
  | keyld (a : BitVec 6) (b : BitVec 6)
  /-- R329: Shoots down cached translations and holds until their accesses finish. -/
  | tlbsd (a : BitVec 6) (b : BitVec 6)
  /-- R329: Advances an address space's generation and drops its leaves. -/
  | ptgen (a : BitVec 6)
  /-- R344: Raises SWTRAP or BREAK and enters the trap handler. -/
  | trap (n : BitVec 12)
  /-- R345: Returns from trap mode to the recorded resume address. -/
  | tret
  /-- R345: Returns from trap mode to an address in a scalar. -/
  | tretAt (a : BitVec 6)
  /-- R346: Writes the trap record to scratchpad. -/
  | saveq (a : BitVec 6)
  /-- R333: before its chain group issues, the issuing fragment's GTIMER at or past GTCMP raises TIMER. -/
  | timerTrap
  /-- R112: leaving fragment `frag`, once its earlier stores are acknowledged, builds its parcel and releases its residency. -/
  | parcelDepart (frag : Nat)
  /-- R300: the egress buffer of `core` offers its oldest parcel for `dest`, 16 · device + home. -/
  | parcelOffer (core : Nat) (dest : Nat)
  /-- R299: message `n` in flight, a parcel, takes an entry of the inbound context queue or is refused. -/
  | parcelArrival (n : Nat)
  /-- R300: an entry credit of `home` lets refused parcels for it be offered again. -/
  | parcelReoffer (home : Nat)
  /-- R299: the head of the inbound queue of `home` is placed on a core and repeats its access. -/
  | parcelPlacement (home : Nat)
  /-- R301: inbound fabric message `n`, a parcel, is checked by key and liveness at the port. -/
  | parcelPortIngress (n : Nat)
  /-- R220: inbound fabric message `n` returns a refused parcel; the child is recreated here and faults. -/
  | parcelReturn (n : Nat)
  /-- R323: inbound fabric message `n`, a request, is admitted or refused. -/
  | remoteRequestIngress (n : Nat)
  /-- R223: message `n` in flight, a store request, is performed at its home and acknowledged. -/
  | storeRequestPerform (n : Nat)
  /-- R235: message `n` in flight, a posted operation, is performed at its home. -/
  | postedOpPerform (n : Nat)
  /-- R225: message `n` in flight, an acknowledgement, returns to its fragment. -/
  | ackReturn (n : Nat)
  /-- R221: outstanding sector `n` of fragment `frag` writes its lanes. -/
  | loadSectorReturn (frag : Nat) (n : Nat)
  /-- R221: message `n` in flight, read data, returns to its fragment. -/
  | remoteReadReturn (n : Nat)
  /-- R146: message `n` in flight, a split-table or barrier update, is applied at the primary home. -/
  | splitUpdateApply (n : Nat)
  /-- R110: line `line` of fragment `frag` is filled at `core`, evicting in order. -/
  | registerLineFill (core : Nat) (frag : Nat) (line : Nat)
  /-- R165: a free context-state entry of `core` goes to its longest waiting fragment. -/
  | residencyGrant (core : Nat)
  /-- R149: the turn of the fragment at the head of the rotation of `core` ends. -/
  | turnEnd (core : Nat)
  /-- R150: `frag`, head of its service list, passes service after 16,384 beat slots. -/
  | servicePassBound (frag : Nat)
  /-- R144: the oldest special-function entry of `core` completes. -/
  | sfuEntryComplete (core : Nat)
  /-- R176: queue entry `n` of the matrix array of `core` writes its rows. -/
  | mmaPassComplete (core : Nat) (n : Nat)
  /-- R178: the MSYNC wait of `frag` ends. -/
  | msyncRelease (frag : Nat)
  /-- R170: released operand slot `slot` of `core` finishes clearing. -/
  | slotClearDone (core : Nat) (slot : Nat)
  /-- R214: line `line` of map entry `entry` of `team` is filled from global memory. -/
  | mapFill (team : Nat) (entry : Nat) (line : Nat)
  /-- R157: the waiters of barrier `bar` of `group` fuse. -/
  | joinFusion (group : Nat) (bar : Nat)
  /-- R158: the team barrier of `team` completes. -/
  | barrtRelease (team : Nat)
  /-- R163: the watch of `frag` wakes it. -/
  | waitwWake (frag : Nat)
  /-- R309: the batch `frag` waits for is complete. -/
  | bwaitWake (frag : Nat)
  /-- R310: the sync-word generation `frag` waits for has passed. -/
  | swaitWake (frag : Nat)
  /-- R312: the elements or room `frag` waits for are present. -/
  | cbwaitWake (frag : Nat)
  /-- R201: the Bobbin command `frag` waits for has ended. -/
  | cwaitWake (frag : Nat)
  /-- R298: the LAUNCH in which `frag` is parked appends. -/
  | launchAppendResume (frag : Nat)
  /-- R289: function `fn` writes LQ.TAIL of `queue`. -/
  | lqTailDoorbell (fn : Nat) (queue : Nat) (value : BitVec 32)
  /-- R288: the physical function writes LQ.EN of `queue`. -/
  | lqEnWrite (queue : Nat) (value : Bool)
  /-- R289: the scheduler reads the next pending record of `queue`. -/
  | launchRecordRead (queue : Nat)
  /-- R293: the scheduler dispatches `grid`, its team 0 on `core`. -/
  | gridDispatch (grid : Nat) (core : Nat)
  /-- R294: the next team of `grid` is placed on `core`. -/
  | teamPlace (grid : Nat) (core : Nat)
  /-- R161: the retirement of `group` is counted. -/
  | groupRetire (group : Nat)
  /-- R296: `grid` retires. -/
  | gridRetire (grid : Nat)
  /-- R305: command `cmd` performs the COPY entry it has reached. -/
  | copyEntry (cmd : Nat)
  /-- R306: command `cmd` performs the GATHER entry it has reached. -/
  | gatherEntry (cmd : Nat)
  /-- R306: command `cmd` performs the SCATTER entry it has reached. -/
  | scatterEntry (cmd : Nat)
  /-- R307: command `cmd` performs the BOBBIN entry it has reached. -/
  | bobbinEntry (cmd : Nat)
  /-- R304: command `cmd` performs the LOOP entry it has reached. -/
  | loopEntry (cmd : Nat)
  /-- R303: command `cmd` performs the BRIF entry it has reached. -/
  | brifEntry (cmd : Nat)
  /-- R303: command `cmd` performs the LINK entry it has reached. -/
  | linkEntry (cmd : Nat)
  /-- R303: command `cmd` performs the END entry it has reached. -/
  | endEntry (cmd : Nat)
  /-- R313: the buffered COPY entry that `cmd` has reached fires one step. -/
  | cbStepFire (cmd : Nat)
  /-- R245: sealed batch `batch` of `group` is complete. -/
  | batchComplete (group : Nat) (batch : Nat)
  /-- R198: the Bobbin walk of the slot of `group` takes one step. -/
  | bobbinWalkStep (group : Nat)
  /-- R195: the Bobbin slot of `group` becomes finished. -/
  | bobbinFinish (group : Nat)
  /-- R255: the array performs the load at the head of its order. -/
  | xbLoadProgram (home : Nat) (array : Nat)
  /-- R257: the array performs the calibration at the head of its order. -/
  | xbCalibrate (home : Nat) (array : Nat)
  /-- R256: the array forms the product at the head of its order. -/
  | xbProduct (home : Nat) (array : Nat)
  /-- R257: a ready array reads its reference columns. -/
  | xbDriftReading (home : Nat) (array : Nat)
  /-- R268: the system performs the TLDC or TLDB at the head of its queue. -/
  | tambLoadPerform (home : Nat) (part : Nat)
  /-- R264: the TSETL at the head of the queue starts settling. -/
  | tambSettleStart (home : Nat) (part : Nat)
  /-- R268: the TSAMP at the head of the queue starts averaging. -/
  | tambSampleStart (home : Nat) (part : Nat)
  /-- R264: the settle timer expires. -/
  | tambSettleExpiry (home : Nat) (part : Nat)
  /-- R264: integrator `i` reaches its rail. -/
  | tambRailReached (home : Nat) (part : Nat) (i : Nat)
  /-- R264: the averaging timer expires. -/
  | tambSampleExpiry (home : Nat) (part : Nat)
  /-- R285: message `n` in flight, an XATOM element, enters its bank unit's queue. -/
  | xatomElementArrival (n : Nat)
  /-- R276: the channel enters the compute phase. -/
  | channelToCompute (home : Nat) (chan : Nat)
  /-- R276: the channel returns to the normal phase. -/
  | channelToNormal (home : Nat) (chan : Nat)
  /-- R282: the bank unit runs a handler on its oldest element. -/
  | handlerRun (home : Nat) (unit : Nat)
  /-- R281: the bank unit installs its partition's handler table. -/
  | htldInstall (home : Nat) (unit : Nat)
  /-- R247: the ageing timer of line `n` of the write-combining buffer of `core` expires. -/
  | wcAgeExpiry (core : Nat) (n : Nat)
  /-- R247: inbound fabric message `n`, a drain, is checked whole and performed or discarded. -/
  | drainArrival (n : Nat)
  /-- R248: inbound fabric message `n`, an ordered flag, is held at the port. -/
  | orderedFlagArrival (n : Nat)
  /-- R337: held flag `n` is performed. -/
  | orderedFlagPerform (n : Nat)
  /-- R337: `core` sends a close marker to device `dev`. -/
  | closeMarker (core : Nat) (dev : Nat)
  /-- R352: the scheduler of `part` requests pre-emption of host grid `grid` and its descendants, or of every grid of the partition (`grid` = 0). -/
  | preemptRequest (part : Nat) (grid : Nat)
  /-- R354: 50 µs after a request the unsaved fragments are frozen and saved in full. -/
  | preemptEscalation (part : Nat)
  /-- R355: saved team `team` is restored on `core`. -/
  | restore (team : Nat) (core : Nat)
  /-- R356: the freeze of the partition is complete. -/
  | freezeComplete (part : Nat)
  /-- R365: a write of PC.CTL that sets PC.FREEZE. -/
  | pcFreezeSet (part : Nat) (value : BitVec 64)
  /-- R356: a write of PC.CTL that clears PC.FREEZE. -/
  | pcFreezeRelease (part : Nat) (value : BitVec 64)
  /-- R357: a write of PC.CTL that sets PC.SWAP. -/
  | shadowSwap (part : Nat) (value : BitVec 64)
  /-- R365: a write of PC.CTL that changes PC.HOMES. -/
  | pcHomesWrite (part : Nat) (value : BitVec 64)
  /-- R365: a write of PC.CTL that sets PC.EN. -/
  | pcEnSet (part : Nat) (value : BitVec 64)
  /-- R365: a write of PC.CTL that clears PC.EN. -/
  | pcEnClear (part : Nat) (value : BitVec 64)
  /-- R365: a write of PC.CTL that changes PC.VF. -/
  | pcVfWrite (part : Nat) (value : BitVec 64)
  /-- R364: a write of PC.TDATA at offset 0x138 commits the entry. -/
  | pcTdataCommit (part : Nat) (value : BitVec 64)
  /-- R7: function `fn` writes the BAR0 register at `offset`. -/
  | registerWrite (fn : Nat) (offset : Nat) (value : BitVec 64)
  /-- R373: the mailbox command 0x01. -/
  | resync
  /-- R363: an unassigned mailbox command. -/
  | mailboxUnknown (code : BitVec 8)
  /-- R361: a host write through BAR2. -/
  | hostWrite (home : Nat) (addr : Nat) (bytes : List (BitVec 8))
  /-- R361: a host read through BAR2. -/
  | hostRead (home : Nat) (addr : Nat) (count : Nat)
  /-- R366: a fabric port trains; `extended` says whether the peer advertises the extended capability. -/
  | portTrain (port : Nat) (extended : Bool)
  /-- R331: device reset. -/
  | deviceReset
  /-- R375: a new 1 µs window grants the credits of `home`. -/
  | powerCreditWindow (home : Nat)
  /-- R375: at 105 °C every budget is halved. -/
  | thermalThrottle
  /-- R375: below 100 °C the budgets are restored. -/
  | thermalRestore
  /-- R375: at 115 °C issue stops on every core until device reset. -/
  | thermalTrip
  /-- R371: the root image verifies image `image` and runs it or keeps the previous one. -/
  | rootBoot (image : Nat)
  /-- R372: SPDM version request. -/
  | getVersion
  /-- R372: SPDM capabilities request. -/
  | getCapabilities
  /-- R372: SPDM algorithm negotiation. -/
  | negotiateAlgorithms
  /-- R372: SPDM certificate digests request. -/
  | getDigests
  /-- R372: SPDM certificate request. -/
  | getCertificate
  /-- R372: SPDM challenge. -/
  | challenge (nonce : Nat)
  /-- R372: SPDM measurement request. -/
  | getMeasurements (index : Nat)
  /-- R183: an uncorrectable error in octet part `part` of tile `tile` of `group`. -/
  | tileStorageError (group : Nat) (tile : Nat) (part : Nat)
  /-- R221: message `n` in flight, a read request, is performed at its home or core. -/
  | remoteReadPerform (n : Nat)
  deriving DecidableEq, Repr

end Sys2Proof
end

