-- ==== Sys2Proof/Machine/Frag.lean ====
section
/-! DEFINITION. The state of one fragment: its registers (R98 to R107), what it has outstanding (R62), the chain group it
is in (R60), its trap record (R343), and what it waits for (R63, R147, R297). -/

namespace Sys2Proof.Machine

/-- One entry of the vector window file (R98, R103). -/
structure VReg where
  lanes : Lanes
  bnd : Bool
  poison : Mask
  deriving DecidableEq, Repr

/-- One entry of the scalar window file (R98, R103). -/
structure SReg where
  val : DWord
  bnd : Bool
  poison : Bool
  deriving DecidableEq, Repr

/-- R98, R111: zero, exact, unpoisoned. -/
def VReg.zero : VReg := ⟨Vector.replicate 96 0x00000000#32, false, 0x0#96⟩
/-- R98, R111: zero, exact, unpoisoned. -/
def SReg.zero : SReg := ⟨0x0#64, false, false⟩

/-- The per-fragment registers that a division copies (R98, R148). -/
structure Regs where
  /-- vector window file, 256 entries (R100) -/
  v : KMap VReg
  /-- scalar window file, 128 entries (R100) -/
  s : KMap SReg
  /-- m0 to m7 (R98) -/
  m : Vector Mask 8
  /-- WBASE.V (R100) -/
  wbV : BitVec 8
  /-- WBASE.S (R100) -/
  wbS : BitVec 7
  /-- FMT (R104) -/
  fmt : DWord
  /-- NMODE (R46) -/
  nmode : DWord
  /-- NSEED (R43) -/
  nseed : BitVec 32
  /-- NSTEP (R43) -/
  nstep : DWord
  /-- CFLAGS (R105) -/
  cflags : BitVec 16
  deriving DecidableEq, Repr

/-- R98, R44, R104, R159: the registers at creation. -/
def Regs.created : Regs where
  v := []
  s := []
  m := Vector.replicate 8 0x0#96
  wbV := 0x00#8
  wbS := 0x00#7
  fmt := 0x0000000000000303#64
  nmode := 0x0#64
  nseed := 0x00000001#32
  nstep := 0x0#64
  cflags := 0x0000#16

/-- A register of a window file or a mask, as the pending bits and the hazard rules name it (R60, R62): file entries for
vectors and scalars. -/
inductive RegId where
  | v (e : Nat)
  | s (e : Nat)
  | m (k : Nat)
  /-- CFLAGS, for the hazard report of R339 (R121) -/
  | flags
  deriving DecidableEq, Repr

/-- Which agent writes an outstanding result (R62). -/
inductive OutKind where
  /-- a sector of a load (R221); `acq` when later accesses wait for it (R225, R238) -/
  | sector (acq : Bool)
  /-- an entry of the special-function unit (R144) -/
  | sfu
  /-- a read at another core or home, `id` naming its request (R221); `acq` as for sectors; `conv` says how an element becomes a
  register's value: a width code of R78, or 16 and a format code of R35 (R191) -/
  | remote (id : Nat) (acq : Bool) (conv : Nat)
  /-- a product of a crossbar array that is still to be formed (R256) -/
  | array (id : Nat)
  /-- the access of the part of a division that stays, still to be performed there (R219, R238, R275) -/
  | stay (acq : Bool)
  /-- any other word of variable latency (R59) -/
  | unit
  deriving DecidableEq, Repr

/-- A result that has issued and is not yet written (R62). -/
structure Out where
  kind : OutKind
  dest : RegId
  /-- lanes this part writes -/
  mask : Mask
  /-- all the lanes the word writes in the register, for the tag rule (R103) -/
  whole : Mask
  vals : Lanes
  sval : DWord
  bnd : Bool
  poison : Mask
  deriving DecidableEq, Repr

/-- The issue pipes (R59). -/
inductive Pipe where
  | none | sc | vi | vf | sf | ct | me | en | mx | an
  deriving DecidableEq, Repr

/-- R64: a prefix that waits for its word. -/
structure Pfx where
  m : BitVec 3
  r : BitVec 3
  s : RegNum
  z : BitVec 1
  t : BitVec 2
  word : Word
  deriving DecidableEq, Repr

/-- A set of lanes that leaves for another home when a migrating word divides a fragment (R25, R219). -/
structure Leaving where
  dev : Nat
  home : Nat
  lanes : Mask
  deriving DecidableEq, Repr

/-- The access of a migrating word, which each part performs where it comes to stand (R112, R219). -/
inductive MigAcc where
  /-- vector LD: destination, base, index, width and order codes, lanes PFX.ZERO names (R221) -/
  | loadV (d b i : RegNum) (w o : BitVec 3) (zero : Mask)
  /-- scalar LD (R221) -/
  | loadS (d b : RegNum) (w o : BitVec 3)
  /-- ATOM: operation code as R79 numbers it, second set, order code, comparison register (R227) -/
  | atom (d b i : RegNum) (second : Bool) (op o : BitVec 3) (c : RegNum) (zero : Mask)
  /-- MIGR (R229) -/
  | migr (a : RegNum)
  /-- JOIN (R156) -/
  | join (bar : Nat)
  deriving DecidableEq, Repr

/-- A division that is due once the fragment's implicit park has ended (R219), and the access a part repeats. -/
structure LeaveDue where
  acc : MigAcc
  sets : List Leaving
  /-- effective mask of the word -/
  eff : Mask
  /-- address of the word or of its prefix (HDR.PC, R113), and TRAPINFO0 of the word (R71) -/
  pc : DWord
  ti0 : DWord
  /-- the liveness entry: SMAP and VMAP (R94) -/
  smap : DWord
  vmap : DWord
  /-- the registers as the word read them -/
  src : Regs
  /-- device and home where the word issued (R220) -/
  fromDev : Nat
  fromHome : Nat
  /-- R63: the word's chain group parks, so its parts park on the results of their accesses too -/
  park : Bool
  /-- entries of the split table that the division takes, found free at the word's issue (R146, R219 step 3) -/
  ents : List Nat
  /-- fragments of the same division whose pages come first on SO pages (R238) -/
  behind : List Nat
  deriving DecidableEq, Repr

/-- The chain group in progress (R60): the registers as they stood when it began, and what its words have used. -/
structure GroupCtx where
  snap : Regs
  /-- address of the group's first word (R333, R354) -/
  start : DWord
  /-- the cycle counter and GTIMER at the group's issue clock (R334) -/
  cycles : DWord
  gtimer : DWord
  /-- registers pending when the group began to issue (R62) -/
  pending : List RegId
  /-- of each word of the group: its pipe, and the registers it writes -/
  pipes : List Pipe
  written : List (List RegId)
  /-- results of the group that were rounded under rs (R43) -/
  rounded : Nat
  park : Bool
  /-- division of a migrating word of the group, performed when the group has issued (R25) -/
  leave : Option LeaveDue
  deriving DecidableEq, Repr

/-- The trap record (R343). -/
structure TrapRec where
  rpc : DWord
  wbV : BitVec 8
  wbS : BitVec 7
  m0 : Mask
  cflags : BitVec 16
  code : BitVec 8
  swcode : BitVec 12
  mig : Bool
  deriving DecidableEq, Repr

/-- A fault or TRAP as a word reports it (R339). -/
structure FaultRec where
  code : BitVec 8
  swcode : BitVec 12
  ti1 : DWord
  ti2 : DWord
  ti3 : DWord
  /-- the resume address is the next word's (R339, column Resume) -/
  next : Bool
  deriving DecidableEq, Repr

/-- R339, R349: the faulting address of a report: that of an access or fetch fault, which names lanes or a reason beside it; else 0
(DEDUCED, log 64). -/
def FaultRec.addr (r : FaultRec) : DWord :=
  if (0x10#8 ≤ r.code ∧ r.code ≤ 0x18#8 ∧ (r.ti2 ≠ 0 ∨ r.ti3 ≠ 0)) then r.ti1 else 0

/-- A trap whose implicit park has not ended (R341). -/
structure TrapDue where
  rpc : DWord
  code : BitVec 8
  swcode : BitVec 12
  mig : Bool
  /-- address that GRID_ENDED or FRAGMENT_ENDED reports -/
  pc : DWord
  /-- the faulting address, or 0 (R349) -/
  addr : DWord
  deriving DecidableEq, Repr

/-- What its team's core answers to a word of a fragment on another device (R298, R302, R308 to R312): the value that the word comes to; that it
cannot be done yet; the number there of a LAUNCH's grid that waits for room; the record that a LAUNCH names; or a fault. -/
inductive WordReply where
  | done (v : DWord)
  | wait
  | later (grid : Nat)
  | record (x : BitVec 512)
  | fault (x : FaultRec)
  deriving DecidableEq, Repr

/-- R146: what a fragment away from its group's device has asked of the split table, before a word that changes it: the free entries that
the primary home reserves for it, whether a group has been created for it (R160), what its team's core answers to a word, or a refusal. -/
inductive Grant where
  | none
  | asked
  | given (entries : List Nat)
  | spawned (ok : Bool)
  | word (r : WordReply)
  | refused
  deriving DecidableEq, Repr

/-- The memory an element lies in (R206). -/
inductive Space where
  /-- device memory: key home·2^36 + physical address -/
  | dram
  /-- scratchpad: key (256·home + core)·2^18 + physical offset -/
  | scratch
  /-- vault SRAM: key home·2^28 + vault address -/
  | vault
  deriving DecidableEq, Repr

/-- The operations of ATOM and ATP (R79, R227). -/
inductive AtomOp where
  | add | minI | maxI | minN | maxN | and | or | xor | swap | cas | addF | minF | maxF
  deriving DecidableEq, Repr

/-- One element of an access (R232). -/
structure Elem where
  lane : Nat
  space : Space
  key : Nat
  /-- bytes -/
  size : Nat
  data : DWord
  /-- virtual address, for reports and for another device -/
  va : DWord
  /-- ATOM and ATP: the operation, and the comparison value of cas -/
  op : Option AtomOp
  cmp : Word
  deriving DecidableEq, Repr

/-- What a fragment is doing (R63, R147, R297). -/
inductive FState where
  /-- SPLIT.STATE 001: may issue, once resident and with no park due -/
  | ready
  /-- SPLIT.STATE 010: waits at JOIN on a barrier; `home` is where it waits -/
  | join (bar : Nat)
  /-- SPLIT.STATE 011: waits at BARRT; `pub` for BARRT.pub (R158) -/
  | barrt (pub : Bool)
  /-- SPLIT.STATE 011: waits in WAITW for word `key` of device memory, at virtual address `va` of a page of generation `gen`, to
  differ from `val` (R163); `woken` once it has -/
  | waitw (key : Nat) (val : Word) (va : DWord) (gen : Nat) (woken : Bool)
  /-- SPLIT.STATE 011: waits in WAITW for word `va` of another device, by the number `tag` of its request (R163); `got` once it is woken:
  a code and a PROT reason, else 0, and CFLAGS.E -/
  | waitAway (tag : Nat) (va : DWord) (got : Option (BitVec 8 × Nat × Bool))
  /-- SPLIT.STATE 011: waits in CWAIT for the Bobbin command of a ticket (R201) -/
  | cwait (ticket : BitVec 8) (dest : RegNum)
  /-- R297: waits in BWAIT for a batch (R309) -/
  | bwait (batch : BitVec 8)
  /-- R297: waits in SWAIT for the generation of a sync word to leave `gen` (R310) -/
  | swait (addr : Nat) (gen : Word) (dest : RegNum)
  /-- R297: waits in CBWAIT on a circular buffer (R312) -/
  | cbwait (n : Nat) (count : Nat) (room : Bool)
  /-- parked in LAUNCH, which appends when its team's queue has room (R298) -/
  | launch (grid : Nat) (dest : RegNum)
  /-- SPLIT.STATE 100: its parcel is built or travels (R112, R299, R300); `started` once the earlier accesses are acknowledged -/
  | transit (dev home : Nat) (departed : Bool)
  /-- has ended: it owns no lane and its last release is awaited (R161, R237) -/
  | ended
  deriving DecidableEq, Repr

/-- One fragment. `alive` is false of a free split entry. -/
structure Frag where
  alive : Bool
  group : Nat
  /-- SPLIT.IDX (R147) -/
  idx : Nat
  /-- own(F), SPLIT.MASK (R99) -/
  own : Mask
  regs : Regs
  pc : DWord
  gtimer : DWord
  gtcmp : DWord
  /-- TRAPINFO0 to TRAPINFO3 (R98) -/
  ti : Vector DWord 4
  /-- trap mode and the trap record (R341) -/
  trap : Option TrapRec
  /-- a trap taken whose implicit park has not ended -/
  due : Option TrapDue
  /-- a division whose implicit park has not ended, or the access that it repeats where it arrives (R112, R219) -/
  leave : Option LeaveDue
  /-- SPLIT.DEV: the device where the fragment resides (R147) -/
  dev : Nat
  /-- SPLIT.HOME, HOMEID (R107, R147) -/
  home : Nat
  /-- COREID (R107) -/
  core : Nat
  /-- it holds a context-state entry (R109) -/
  resident : Bool
  state : FState
  outs : List Out
  grp : Option GroupCtx
  pfx : Option Pfx
  /-- the word at issue, its chain bit and park marker (R56) -/
  word : Word
  chain : Bool
  park : Bool
  /-- a park is in progress: nothing issues until no result is outstanding (R63) -/
  parked : Bool
  /-- the word at the pc is held at issue without fault -/
  held : Bool
  /-- the word at the pc has been counted as issued (R149, R335) -/
  counted : Bool
  /-- pages of the word at the pc whose elements have been sent (R238), and the channels that it waits for, by 32 · home + channel (R275) -/
  sent : Nat
  /-- the elements of that word as they stood when it issued (R50, R177) -/
  kept : List Elem
  waitsAt : List Nat
  /-- the fibre register that its ADV, held at issue until it may read, is to step to another row (R193) -/
  advances : Option Nat
  /-- beat slots used in the turn, and since it became head of its service list (R149, R150) -/
  turn : Nat
  served : Nat
  /-- clock of its last issue (R110) -/
  issued : Nat
  /-- clock at which it took its context-state entry (R109) -/
  since : Nat
  /-- R178: after its chain group it waits, as MSYNC says, for the ops accepted before it on the streams of a mask; it stays resident -/
  msync : Option (BitVec 4 × Nat)
  /-- R347: its grid has ended while it was inside a chain group: it is retired before its next one -/
  stopping : Bool
  grant : Grant
  deriving DecidableEq, Repr

/-- R60, R238: whether a chain group of the fragment has begun to take effect: a word of it has issued, or a page of its word has been sent. -/
def Frag.begun (f : Frag) : Bool := f.grp.isSome || f.sent != 0
/-- R219: whether the fragment is the part of a division that stays, with its access still to be performed. -/
def Frag.stays (f : Frag) : Bool := f.state == .ready && (match f.leave with | some L => L.sets == [] | none => false)
/-- R146: the split entries that divisions due of the fragment are to take. -/
def Frag.promised (f : Frag) : List Nat :=
  let of := fun (l : Option LeaveDue) => match l with | some L => L.ents | none => []
  of f.leave ++ of (match f.grp with | some g => g.leave | none => none)

/-- A free split entry. -/
def Frag.free : Frag where
  alive := false
  group := 0
  idx := 0
  own := 0x0#96
  regs := Regs.created
  pc := 0x0#64
  gtimer := 0x0#64
  gtcmp := 0xFFFFFFFFFFFFFFFF#64
  ti := Vector.replicate 4 0x0#64
  trap := none
  due := none
  leave := none
  dev := 0
  home := 0
  core := 0
  resident := false
  state := .ready
  outs := []
  grp := none
  pfx := none
  word := 0x00000000#32
  chain := false
  park := false
  parked := false
  held := false
  counted := false
  sent := 0
  kept := []
  waitsAt := []
  advances := none
  turn := 0
  served := 0
  issued := 0
  since := 0
  msync := none
  stopping := false
  grant := Grant.none

end Sys2Proof.Machine
end

