-- ==== Sys2Proof/Machine/Group.lean ====
section
/-! DEFINITION. The state held per group, per team and per grid: barriers (R154), tiles (R166), fibre and stream registers
(R187), the Bobbin slot (R195, R203), batches (R245, R309), scratchpad reservation and map entries (R212, R214), pending
launches (R298), launch records (R290) and completion bitmaps (R327). -/

namespace Sys2Proof.Machine

/-- A barrier record (R154). -/
structure Bar where
  armed : Bool
  alane : Nat
  expect : Mask
  arrived : Mask
  deriving DecidableEq, Repr

def Bar.idle : Bar := ⟨false, 0, 0x0#96, 0x0#96⟩

/-- An accumulator tile (R166): element (r, n) is key 32·r + n. -/
structure Tile where
  empty : Bool
  bnd : Bool
  poison : BitVec 12
  elems : KMap Word
  deriving DecidableEq, Repr

def Tile.fresh : Tile := ⟨true, false, 0x000#12, []⟩

/-- A fibre or stream descriptor (R187); `kind` 0 is closed. -/
structure Fib where
  kind : BitVec 4
  fmt : BitVec 4
  ptr : DWord
  arr : DWord
  row0 : Word
  nrow : Word
  len : Word
  aux : Word
  crow : Word
  pos : Word
  fin : Word
  scan : Word
  deriving DecidableEq, Repr

def Fib.closed : Fib := ⟨0x0#4, 0x0#4, 0x0#64, 0x0#64, 0, 0, 0, 0, 0, 0, 0, 0⟩

/-- A survivor of a Bobbin walk (R198, R199). -/
structure Surv where
  coord : Word
  pa : Word
  pb : Word
  row : Word
  hasA : Bool
  hasB : Bool
  deriving DecidableEq, Repr

/-- A command block (R196). -/
structure BobBlock where
  args : List DWord
  entry : DWord
  scratch : Nat
  weight : Nat
  gsize : Nat
  team : Nat
  rowgrp : Bool
  /-- the 128 bytes as read, which CURSV writes back (R203) -/
  raw : List Byte
  deriving DecidableEq, Repr

/-- The access rights a command carries: those of the context that issued it (R318, R323). -/
structure Rights where
  asid : Nat
  asgen : Nat
  priv : Bool
  keyidx : Nat
  grid : Nat
  part : Nat
  dev : Nat
  deriving DecidableEq, Repr

/-- A Bobbin command: snapshots and cursor (R197, R203). -/
structure BobCmd where
  merge : Bool
  fa : Fib
  fb : Fib
  block : BobBlock
  rights : Rights
  home : Nat
  ovt : BitVec 16
  /-- row of A, positions in A and B, whether they are where the next row begins, and whether the row has been entered -/
  row : Nat
  pa : Nat
  pb : Nat
  keepA : Bool
  keepB : Bool
  inRow : Bool
  /-- the walk has ended: no more survivor comes -/
  walked : Bool
  finA : Nat
  finB : Nat
  /-- starts of the rows -/
  startA : Nat
  startB : Nat
  /-- the coordinates last read in the row, for the order check -/
  lastA : Option Word
  lastB : Option Word
  gseq : Nat
  /-- survivors emitted, and those that the record it resumed from counts -/
  surv : Nat
  surv0 : Nat
  groups : Nat
  /-- survivors of the group being assembled -/
  pend : List Surv
  /-- the formation grid, 0 until its first group is formed (R200) -/
  grid : Nat
  /-- depth, grid and team of the issuer -/
  depth : Nat
  byGrid : Nat
  byTeam : Nat
  fault : BitVec 8
  side : Bool
  /-- address of the command word -/
  pc : DWord
  /-- the engine command whose BOBBIN entry started it (R307) -/
  chain : Option Nat
  deriving DecidableEq, Repr

/-- A group formed whose team is not yet placed: team number, place, sequence number and survivors (R200). -/
structure Formed where
  team : Nat
  gidx : Nat
  seq : Nat
  survs : List Surv
  deriving DecidableEq, Repr

/-- What a formation grid holds of its command (R200): the group that issued it and its ticket, the command block, the home of
Bobbin, the number of the team being filled and the groups formed into it, and the groups not yet placed. -/
structure Formation where
  group : Nat
  ticket : BitVec 8
  block : BobBlock
  ovt : BitVec 16
  home : Nat
  team : Nat
  inTeam : Nat
  waiting : List Formed
  deriving DecidableEq, Repr

/-- The states of a Bobbin slot (R195). -/
inductive BobState where
  | idle | running | finished | stopped
  deriving DecidableEq, Repr

/-- A group's Bobbin slot (R195). -/
structure BobSlot where
  state : BobState
  ticket : BitVec 8
  /-- a command has been started, so the next ticket is the successor -/
  used : Bool
  cmd : Option BobCmd
  /-- a fault of the walk has not been delivered (R201) -/
  owed : Bool
  deriving DecidableEq, Repr

def BobSlot.fresh : BobSlot := ⟨.idle, 0x00#8, false, none, false⟩

/-- A sealed batch that is not complete (R309). -/
structure Batch where
  num : BitVec 8
  cmds : List Nat
  deriving DecidableEq, Repr

/-- A group (R22, R98, R146). -/
structure Group where
  alive : Bool
  team : Nat
  /-- HDR.GIDX (R113) -/
  gidx : Nat
  /-- fabric number of the device that created it (HDR.DEV) -/
  dev : Nat
  /-- HDR.PRIV, HDR.KEYIDX, HDR.ASID, HDR.ASGEN (R113, R209, R317, R318) -/
  rights : Rights
  /-- DEPTH (R107) -/
  depth : Nat
  /-- TEAMID, GRIDID (R107) -/
  teamid : BitVec 16
  gridid : BitVec 28
  /-- primary home (R146) -/
  home : Nat
  /-- share weight (R149) -/
  weight : Nat
  /-- declared tiles (R166) -/
  ntiles : Nat
  tiles : KMap Tile
  bars : KMap Bar
  /-- f0 to f7, z0 to z3 as sel numbers them (R188) -/
  fibs : KMap Fib
  /-- overflow table (R48, R326) -/
  ovt : BitVec 16
  bob : BobSlot
  /-- number the next BSEAL gives (R245) -/
  batchNo : BitVec 8
  /-- commands issued since the last BSEAL -/
  unsealed : List Nat
  batches : List Batch
  /-- the most recent command on engines 0 and 1 (R308) -/
  lastCmd : KMap Nat
  /-- MMA ops accepted so far (R178) -/
  mmaSeq : Nat
  /-- scratchpad ranges that the group's last PREH named; none before its first (R353) -/
  preh : Option (BitVec 16)
  deriving DecidableEq, Repr

def Group.none : Group where
  alive := false
  team := 0
  gidx := 0
  dev := 0
  rights := ⟨0, 0, false, 0, 0, 0, 0⟩
  depth := 0
  teamid := 0
  gridid := 0
  home := 0
  weight := 1
  ntiles := 0
  tiles := []
  bars := []
  fibs := []
  ovt := 0x0000#16
  bob := BobSlot.fresh
  batchNo := 0x00#8
  unsealed := []
  batches := []
  lastCmd := []
  mmaSeq := 0
  preh := Option.none

/-- A launch record (R290). -/
structure LaunchRec where
  entry : DWord
  args : DWord
  lease : DWord
  done : DWord
  inc : Word
  scratch : Nat
  teams : Nat
  weight : Nat
  prio : Nat
  groups : Nat
  tiles : Nat
  nlease : Nat
  depv : Bool
  depGrid : Nat
  depMul : Nat
  depOff : Int
  depWidth : Nat
  deriving DecidableEq, Repr

/-- A lease-list entry (R291): `rw` for kind 10, else ro. -/
structure LeaseEnt where
  base : Nat
  len : Nat
  rw : Bool
  deriving DecidableEq, Repr

/-- A map entry of a team (R214). -/
structure MapEnt where
  off : Nat
  len : Nat
  gva : DWord
  bnd : Bool
  writable : Bool
  /-- filled lines and dirty bytes, by offset from `off` -/
  filled : List Nat
  dirty : List Nat
  rights : Rights
  deriving DecidableEq, Repr

/-- A circular-buffer descriptor (R311). -/
structure Cb where
  team : Nat
  n : Nat
  fire : Nat
  esize : Nat
  base : Nat
  p : Word
  c : Word
  /-- commands whose faults mark the buffer (R308, R313) -/
  mark : List Nat
  deriving DecidableEq, Repr

/-- What a save keeps of a team beside its groups (R353): bytes of its reservation by generic offset, the bytes and claims of its
operand slots, its descriptors, and the bytes in error by kind and offset (R218). -/
structure TeamImage where
  scr : KMap Byte
  slots : KMap Byte
  claims : KMap Nat
  cbs : KMap Cb
  errs : List (Nat × Nat)
  deriving DecidableEq, Repr

def TeamImage.none : TeamImage := ⟨[], [], [], [], []⟩

/-- A team (R22, R212, R214, R298). -/
structure Team where
  alive : Bool
  grid : Nat
  tidx : Nat
  home : Nat
  core : Nat
  /-- first physical byte of the reservation, and its size S (R212) -/
  base : Nat
  size : Nat
  pgen : BitVec 4
  maps : KMap MapEnt
  /-- lines whose fill has been asked for (R214): entry and line -/
  fills : List (Nat × Nat)
  /-- grids in the pending-launch queue, oldest first (R298) -/
  pend : List Nat
  /-- groups still to be formed may join it: a formation team not yet closed (R200) -/
  forming : Bool
  /-- the team has been saved and holds no core (R352), and what its save keeps -/
  saved : Bool
  image : TeamImage
  /-- offsets that a SYNCW, an SWAIT or an entry has named as sync words (R310, log 61) -/
  syncs : List Nat
  deriving DecidableEq, Repr

def Team.none : Team := ⟨false, 0, 0, 0, 0, 0, 0, 0x0#4, [], [], [], false, false, TeamImage.none, []⟩

/-- A grid (R290 to R296, R327). -/
structure Grid where
  alive : Bool
  gridid : BitVec 28
  part : Nat
  rights : Rights
  parent : Option Nat
  /-- the team whose LAUNCH or Bobbin command created it -/
  byTeam : Option Nat
  depth : Nat
  rcd : LaunchRec
  leases : List LeaseEnt
  prio : Nat
  age : Nat
  ovt : BitVec 16
  /-- host queue and record index (R289) -/
  queue : Option (Nat × Nat)
  dispatched : Bool
  /-- teams placed so far, in index order (R293) -/
  placed : Nat
  /-- completion bitmap (R327) -/
  bitmap : List Nat
  /-- a formation grid (R200), and whether its command's walk has ended -/
  formation : Bool
  form : Option Formation
  closed : Bool
  /-- a LEASE fault is ending it (R347) -/
  stopped : Bool
  retired : Bool
  /-- clock of a pre-emption request that has not ended with a restore (R352, R354) -/
  preempted : Option Nat
  deriving DecidableEq, Repr

def LaunchRec.zero : LaunchRec := ⟨0, 0, 0, 0, 0, 0, 1, 1, 0, 1, 0, 0, false, 0, 0, 0, 0⟩

def Grid.none : Grid where
  alive := false
  gridid := 0
  part := 0
  rights := ⟨0, 0, false, 0, 0, 0, 0⟩
  parent := Option.none
  byTeam := Option.none
  depth := 0
  rcd := LaunchRec.zero
  leases := []
  prio := 0
  age := 0
  ovt := 0x0000#16
  queue := Option.none
  dispatched := false
  placed := 0
  bitmap := []
  formation := false
  form := Option.none
  closed := false
  stopped := false
  retired := false
  preempted := Option.none

end Sys2Proof.Machine
end

