-- ==== Sys2Proof/Machine/Queue.lean ====
section
/-! DEFINITION. What travels and what waits: elements and requests (R233, R235), parcels (R112, R300), engine commands
(R302 to R308), write-combining lines (R247, R314), circular buffers (R311), and the state each core holds (R16). -/

namespace Sys2Proof.Machine

/-- A request on its way to the place where it is performed (R235). -/
structure Req where
  frag : Nat
  /-- the fragment's group, and the word's address, for reports (R349) -/
  group : Nat
  pc : DWord
  rights : Rights
  /-- destination home -/
  home : Nat
  elems : List Elem
  /-- kind of the pages: 0 SO, 1 RC, 2 UO (R207, R238) -/
  ord : Nat
  /-- the fragments whose program order holds the access (R232) -/
  owners : List Nat
  deriving DecidableEq, Repr

/-- The request of another device that an element of XATOM came in: its device, tag, source core, epoch and path (R279, R337). -/
structure Away where
  dev : Nat
  tag : Nat
  core : Nat
  epoch : Bool
  path : Nat
  deriving DecidableEq, Repr

/-- An element of XATOM (R279). -/
structure XElem where
  frag : Nat
  group : Nat
  pc : DWord
  rights : Rights
  home : Nat
  /-- physical byte address in the home's DRAM -/
  pa : Nat
  va : DWord
  handler : Nat
  payload : List Word
  /-- reply offset, where replies are enabled, and the team that receives them (R286) -/
  reply : Option Nat
  team : Nat
  /-- clock at which it arrived at its unit (R275) -/
  since : Nat
  /-- kind of the page (R238, R285), and the fragments whose program order holds the element -/
  ord : Nat
  owners : List Nat
  /-- of an element that another device sent -/
  away : Option Away
  deriving DecidableEq, Repr

/-- Addresses of a word, of its prefix or itself, and TRAPINFO0, for a report at it that comes later (R71, R146). -/
structure WordAt where
  pc : DWord
  rpc : DWord
  ti0 : DWord
  deriving DecidableEq, Repr

/-- A word of a fragment on another device that acts at its team's core (R298, R302, R308 to R312): the record of a LAUNCH, its append and, where
the queue was full, the append again; LSTAT; a command for an engine, whose entry or chain lies at `sa`; ESTAT; BSEAL and BWAIT; SYNCW and SWAIT;
CBCFG, CBPUT and CBGET, and CBWAIT, whose wait has begun where `again` says so. -/
inductive TeamWord where
  | record (sa : DWord)
  | launch (bits : BitVec 512) (leases : List (LeaseEnt × Bool))
  | append (grid : Nat)
  | lstat
  | ovt
  | engine (engine : Nat) (sa : DWord) (single : Bool) (pc : DWord)
  | estat (engine : Nat)
  | bseal
  | bwait (n : BitVec 8)
  | syncw (off target : Nat)
  | swait (off : Nat) (v : Word)
  | cbcfg (x : DWord) (n : BitVec 6)
  | cbput (x : DWord) (n : BitVec 6)
  | cbget (n : BitVec 6)
  | cbwait (k : Nat) (room : Bool) (n : BitVec 6) (again : Bool)
  deriving DecidableEq, Repr

/-- A change to a split table or a barrier record that travels to the primary home, or what the primary home sends to a fragment on
another device (R146, R156 to R158, R347). -/
inductive SplitUpd where
  | bset (bar : Nat) (own : Mask)
  | arrive (bar : Nat) (own : Mask)
  | retire (lanes : Mask)
  /-- from another device: what the entry holds (R147) -/
  | entry (dev home : Nat) (st : FState) (own : Mask)
  /-- the records are asked for, and `n` free entries; entries are given back -/
  | ask (n : Nat)
  | back (entries : List Nat)
  /-- to another device: the records, and the entries reserved -/
  | given (entries : List Nat) (bars : KMap Bar)
  /-- to another device: the update asked for is refused -/
  | refused
  /-- from another device: a group to be created (R160), or the group's OVT (R326); and what the primary home answers -/
  | spawn (pc : DWord) (regs : List SReg)
  | spawned (ok : Bool)
  | ovt (v : BitVec 16)
  /-- from another device: a word that acts at the team's core; and what it comes to -/
  | word (w : TeamWord)
  | worded (r : WordReply)
  /-- to another device: an update was refused by its key, or armed an armed barrier, at the word that made it -/
  | late (at' : WordAt) (key : Bool)
  /-- to another device: a waiter goes to its anchor; the waiters at the anchor fuse; a team barrier ends; the fragment is stopped -/
  | go (bar dev home : Nat)
  | fuse (bar : Nat)
  | release
  | stop
  /-- from another device: a LEASE fault ends the grid (R347) -/
  | lease (cause2 : BitVec 8) (home : Nat) (addr pc : DWord)
  deriving DecidableEq, Repr

/-- A message in flight inside the device (R235, R315). -/
inductive Msg where
  /-- a store request, acknowledged (R223) -/
  | store (r : Req)
  /-- STP, ATP and the stores of CST, CSTZ (R224, R228) -/
  | posted (r : Req)
  /-- an acknowledgement on its way to fragments (R225), of an access of an SO page if `so` (R238) -/
  | ack (owners : List Nat) (so glob : Bool)
  /-- a read at another core or home, whose data fill result `id` of the fragment (R221) -/
  | read (r : Req) (id : Nat)
  /-- its data: values by lane, and the lanes read in error (R221, R218) -/
  | data (frag id : Nat) (vals : List (Nat × DWord)) (poison : Mask)
  /-- a split-table or barrier update (R146) -/
  | split (frag group : Nat) (u : SplitUpd) (at' : WordAt)
  /-- a parcel on its way to a home (R299), with the port that holds it and its age there, if it came over the fabric (R301) -/
  | parcel (frag home : Nat) (port : Option (Nat × Nat))
  /-- an element of XATOM (R279) -/
  | xatom (x : XElem)
  deriving DecidableEq, Repr

/-- A parcel in an egress buffer (R300): its age, whether it is offered, `refused` until the destination returns an entry credit, and
`credit` when it is offered again with one. -/
structure Parcel where
  frag : Nat
  dev : Nat
  home : Nat
  age : Nat
  offered : Bool
  refused : Bool
  credit : Bool
  deriving DecidableEq, Repr

/-- A loop in progress of a chain (R304): the LOOP entry's offset and the iterations left. -/
structure LoopSt where
  at' : Nat
  left : Nat
  deriving DecidableEq, Repr

/-- An engine command (R302 to R308). -/
structure Cmd where
  alive : Bool
  engine : Nat
  group : Nat
  team : Nat
  frag : Nat
  pc : DWord
  rights : Rights
  /-- home and core of the engine -/
  home : Nat
  core : Nat
  ovt : BitVec 16
  /-- generic offset of the head entry and of the entry reached -/
  head : Nat
  at' : Nat
  /-- entry index reached (ES.ENTRY) -/
  idx : Nat
  loops : List LoopSt
  /-- working-copy additions to SRC or TABLE and DST or LOCAL, by entry offset (R304) -/
  deltas : KMap (Int × Int)
  /-- rows of the buffered entry reached that have been moved (R313) -/
  rows : Nat
  /-- the one entry of a CPY (R302) -/
  single : Option (List Byte)
  bytes : Nat
  done : Bool
  fault : BitVec 8
  faultAddr : DWord
  delivered : Bool
  batch : Option (BitVec 8)
  /-- sync words and circular buffers its entries have named (R308) -/
  syncs : List Nat
  cbs : List Nat
  /-- a BOBBIN entry of it has a command running (R307) -/
  bobbin : Bool
  /-- its walk has been redirected: it is begun (R287) -/
  begun : Bool
  /-- what the entry reached names in ranges that SPMAP has mapped, as read at its home, by generic offset; its own bytes among them (R20) -/
  seen : KMap (List Byte)
  deriving DecidableEq, Repr

def Cmd.none : Cmd where
  alive := false
  engine := 0
  group := 0
  team := 0
  frag := 0
  pc := 0
  rights := ⟨0, 0, false, 0, 0, 0, 0⟩
  home := 0
  core := 0
  ovt := 0
  head := 0
  at' := 0
  idx := 0
  loops := []
  deltas := []
  rows := 0
  single := Option.none
  bytes := 0
  done := false
  fault := 0
  faultAddr := 0
  delivered := false
  batch := Option.none
  syncs := []
  cbs := []
  bobbin := false
  begun := false
  seen := []

/-- A line of the write-combining buffer (R314): key, bytes by offset, contributors, and the clock its timer started. -/
structure WcLine where
  dev : Nat
  asid : Nat
  line : Nat
  bytes : KMap Byte
  frags : List Nat
  start : Nat
  rights : Rights
  bnd : Bool
  /-- it is to drain once the earlier drain of its key is answered -/
  due : Bool
  deriving DecidableEq, Repr

/-- Who reads at another device outside the registers' path: a word that is held, an engine command, a Bobbin walk, a fill (R189,
R198, R214, R305). -/
inductive Asker where
  | frag (n : Nat)
  | cmd (n : Nat)
  | bobbin (group : Nat)
  | fill (team entry line : Nat)
  /-- bytes that an engine command writes, and the sync word that counts them (R246) -/
  | put (cmd bytes : Nat) (sync : Option Nat)
  /-- the reply record of an XATOM element, for a group's team at an offset (R286) -/
  | reply (group team off : Nat)
  /-- the completion addition of a grid that has retired (R296) -/
  | done (grid : Nat)
  deriving DecidableEq, Repr

/-- The answer to a request of another device: values by place, the places that failed or were read in error with the code of each, the
code and PROT reason of a refusal (R217), and of scratchpad words their fault and whether what was read is bounded (R218). -/
structure Reply where
  vals : List (Nat × DWord)
  bad : List (Nat × BitVec 8)
  code : BitVec 8
  reason : Nat
  fault : Option FaultRec
  bnd : Bool
  deriving DecidableEq, Repr

/-- What a request that has been performed whole answers. -/
def Reply.ok (vals : List (Nat × DWord)) : Reply := ⟨vals, [], 0, 0, none, false⟩
/-- The refusal of places with one code. -/
def Reply.refuse (bad : List Nat) (code : BitVec 8) : Reply := ⟨[], bad.map fun i => (i, code), code, 0, none, false⟩
/-- Whether a place failed or was read in error. -/
def Reply.badAt (r : Reply) (i : Nat) : Bool := r.bad.any fun b => b.1 == i

/-- What has come back for an asker. -/
structure Answer where
  asker : Asker
  reply : Reply
  deriving DecidableEq, Repr

/-- What a fragment away from its group's device asks of its team's scratchpad there: to read, to store (`bnd` of a bounded source), to check
where reply records of XATOM go, and the map unit's words with their operands (R213, R215, R279). -/
inductive ScrOp where
  | load
  | store (bnd : Bool)
  | check (bnd : Bool)
  | spmap (a b : DWord)
  | spflush (a b : DWord)
  deriving DecidableEq, Repr

/-- A request to another device that is not yet answered (R225, R238, R247, R248). -/
structure Remote where
  tag : Nat
  dev : Nat
  /-- the fragments whose program order holds it -/
  owners : List Nat
  /-- a drain of the write-combining buffer, or a store that a release at scope .sys alone waits for -/
  wc : Bool
  so : Bool
  /-- ASID and line of a drain -/
  asid : Nat
  line : Nat
  /-- reads of an engine, a walk or a held word -/
  asker : Option Asker
  /-- group, word and element addresses, for reports (R349) -/
  group : Nat
  pc : DWord
  vas : List DWord
  /-- the core whose counts hold it (R337) -/
  core : Option Nat
  deriving DecidableEq, Repr

/-- The state of an operand slot (R170). -/
inductive SlotSt where
  | free
  | claimed (group : Nat)
  | clearing
  deriving DecidableEq, Repr

/-- One pass in the matrix array's queue (R175, R176): the rows it updates, its slots, and its operand formats. -/
structure MmaEntry where
  group : Nat
  stream : Nat
  seq : Nat
  tile : Nat
  rows : Mask
  aSlot : Nat
  bSlot : Nat
  fmtA : BitVec 6
  fmtB : BitVec 6
  deriving DecidableEq, Repr

/-- A per-path record for a destination device (R337). -/
structure PathRec where
  dev : Nat
  epoch : Bool
  sent : List Nat
  /-- the last ordered flag sent for it -/
  last : Option Nat
  deriving DecidableEq, Repr

/-- A leaf in a translation cache (R320): address space, page address ≫ 16, size and the leaf itself. -/
structure TlbEnt where
  asid : Nat
  page : Nat
  big : Bool
  leaf : BitVec 128
  deriving DecidableEq, Repr

/-- A register line that a core holds (R108): its fragment and line number, and whether it differs from the context record (R110). -/
structure LineEnt where
  frag : Nat
  line : Nat
  dirty : Bool
  deriving DecidableEq, Repr

/-- What each core holds (R16, R335). -/
structure Core where
  /-- PERF counters 0x0001 to 0x0007 (R335); key 8 holds the clocks with a fragment ready, which 0x0008 leaves out -/
  perf : KMap DWord
  /-- the rotation, head first (R149) -/
  rot : List Nat
  /-- service lists, each head first (R150) -/
  svc : List (List Nat)
  /-- residency wait list, longest wait first (R165) -/
  waits : List Nat
  /-- register lines held, least recently used first (R108, R110) -/
  lines : List LineEnt
  egress : List Parcel
  copyQ : List Nat
  /-- fragments of the entries of the special-function unit, oldest first (R144) -/
  sfuQ : List Nat
  mmaQ : List MmaEntry
  wc : List WcLine
  slots : KMap SlotSt
  cbs : KMap Cb
  paths : List PathRec
  /-- the epoch that a record made for a device begins with, where one of it has been closed (R337) -/
  epochs : KMap Bool
  tlb : List TlbEnt
  /-- instruction cache: words by physical key, the oldest first (R16, R20; log 56) -/
  icache : List (Nat × Word)
  /-- clocks by which the core's cycle counter is ahead of State.clock (R331) -/
  ahead : DWord
  deriving DecidableEq, Repr

def Core.fresh : Core := ⟨[], [], [], [], [], [], [], [], [], [], [], [], [], [], [], [], 0⟩

/-- What each home holds beside its memories and analogue units (R163, R195, R299, R302, R335, R375). -/
structure HomeSt where
  /-- inbound context queue: fragment, and its reserved entry's source home if it took one (R299) -/
  inbound : List (Nat × Option Nat)
  caravanQ : List Nat
  /-- groups whose Bobbin commands the engine holds (R195) -/
  bobbinQ : List Nat
  /-- ingress translation cache (R320) -/
  tlb : List TlbEnt
  perf : KMap DWord
  /-- credits left in the window: half matrix passes, products, settle starts (R375) -/
  credPass : Nat
  credProd : Nat
  credSettle : Nat
  /-- the budgets of a window, and of channels in the compute phase at once (R375) -/
  maxPass : Nat
  maxProd : Nat
  maxSettle : Nat
  maxCompute : Nat
  /-- uncorrectable errors counted in the home's DRAM and SRAM (R373): one in DRAM arises outside the device's steps, with the unit that it adds
  to State.memErr -/
  dramErrs : Nat
  sramErrs : Nat
  /-- the partition that last took the home (R272) -/
  owner : Option Nat
  deriving DecidableEq, Repr

/-- R375: the default budgets. -/
def HomeSt.fresh : HomeSt := ⟨[], [], [], [], [], 12288, 8192, 4, 12288, 8192, 4, 24, 0, 0, none⟩

end Sys2Proof.Machine
end

