-- ==== Sys2Proof/Machine/Units.lean ====
section
/-! DEFINITION. The analogue units (R250 to R265, R328), the bank units and channels (R273 to R286), the partitions, host
queues and tables (R288, R317 to R328, R364), and the device's outer interface (R360 to R375). -/

namespace Sys2Proof.Machine

/-- XB.STATE (R252). -/
inductive XbState where
  | empty | loading | ready | calibrating | invalid
  deriving DecidableEq, Repr

/-- A command in an array's order (R253). -/
inductive XbCmd where
  /-- XBLD: rows, columns, exponent, format and weights (R251, R255) -/
  | load (rows cols : Nat) (oexp : Int) (ofmt : BitVec 4) (w : List Byte)
  /-- XBMV: issuing fragment, number of its outstanding result, inputs by lane and the lanes written (R256) -/
  | product (frag : Nat) (id : Nat) (va : Lanes) (active : Mask) (ovt : BitVec 16)
  | calibrate
  deriving DecidableEq, Repr

/-- A crossbar array (R250, R252, R328, R338). -/
structure Xar where
  rows : Nat
  cols : Nat
  /-- weight (i, j) at key 256·j + i, as its byte; 0 where not loaded -/
  w : KMap Byte
  oexp : Int
  ofmt : BitVec 4
  lgen : BitVec 16
  cgen : BitVec 16
  state : XbState
  reason : BitVec 3
  bad : BitVec 8
  lastb : BitVec 8
  drift : BitVec 8
  queue : List XbCmd
  /-- calibration entry: CAL.CGEN, CAL.DREF, and gain and offset by column (R328) -/
  calGen : BitVec 16
  calRef : BitVec 16
  cal : KMap (BitVec 32)
  writes : BitVec 32
  /-- a calibration has failed, and no load has passed its verify since (R257) -/
  unusable : Bool
  deriving DecidableEq, Repr

def Xar.fresh : Xar :=
  ⟨0, 0, [], 0, 0, 0, 0, .empty, 0, 0, 0xFF#8, 0, [], 0, 0, [], 0, false⟩

/-- TG.STATE (R270). -/
inductive TgState where
  | empty | loaded | settling | settled | sampling | done | failed
  deriving DecidableEq, Repr

/-- A command in a Tambour system's queue (R265). -/
inductive TgCmd where
  /-- TLDC: N, first row, rows, exponent, entries row by row (R263) -/
  | loadC (n row0 nrows : Nat) (aexp : Int) (w : List Byte)
  /-- TLDB: exponents and bias (R263) -/
  | loadB (bexp xexp : Int) (b : List (BitVec 16))
  /-- TSETL: time in ns -/
  | settle (ns : Nat)
  /-- TSAMP: time in ns and pairs -/
  | sample (ns : Nat) (pairs : List (Nat × Nat))
  deriving DecidableEq, Repr

/-- A Tambour system, held at its first partition (R262, R264, R270); `cover` is the first partition of the system that
covers this one. -/
structure Tamb where
  cover : Option Nat
  n : Nat
  /-- entry (i, j) of the lower triangle at key 1024·i + j -/
  a : KMap Byte
  aexp : Int
  b : KMap (BitVec 16)
  bexp : Int
  xexp : Int
  state : TgState
  lgen : BitVec 16
  clip : Bool
  raili : Nat
  pairs : List (Nat × Nat)
  queue : List TgCmd
  /-- numbers of acceptance of the queue's commands (R265) -/
  stamps : List Nat
  /-- time of the running timer in ns -/
  timer : Nat
  /-- number of the run whose estimates the accumulators hold: the free values of its mean and moments are of this run -/
  run : Nat
  deriving DecidableEq, Repr

def Tamb.fresh : Tamb := ⟨none, 0, [], 0, [], 0, 0, .empty, 0, false, 0, [], [], [], 0, 0⟩

/-- A bank unit (R274): its queue and its copy of the handler table. -/
structure BankUnit where
  queue : List XElem
  table : KMap Byte
  /-- a table of the partition that it has still to install between runs (R281) -/
  pending : Option (KMap Byte)
  deriving DecidableEq, Repr

def BankUnit.fresh : BankUnit := ⟨[], [], none⟩

/-- A memory channel's phase and the clock it began (R275). -/
structure Chan where
  compute : Bool
  since : Nat
  deriving DecidableEq, Repr

/-- A partition control set and what the partition's scheduler holds (R289, R348, R356, R364, R365). -/
structure Part where
  ovt : BitVec 16
  wcAge : BitVec 8
  vf : BitVec 4
  homes : BitVec 12
  badshape : Bool
  frozen : Bool
  freeze : Bool
  en : Bool
  trapent : DWord
  eqbase : DWord
  eqlog : BitVec 5
  eqhead : DWord
  eqtail : DWord
  /-- sequence number of the next event, events written, events lost, and those of them not yet reported (R348, R373) -/
  eqseq : BitVec 40
  written : Nat
  dropped : Nat
  lost : Nat
  tidx : DWord
  tdata : BitVec 256
  /-- next GRIDID (R294) -/
  nextGrid : Nat
  /-- handler table image as HTLD loaded it (R280) -/
  handlers : KMap Byte
  /-- grids frozen for escalation (R354), all of them when `freeze` -/
  held : List Nat
  /-- a shadow swap has been requested and not yet made (R357) -/
  swapping : Bool
  /-- the grids whose work lies in the shadow copies (R357) -/
  shadow : List Nat
  /-- the tenant whose work was last on the partition's units (R272) -/
  tenant : Option (BitVec 12)
  deriving DecidableEq, Repr

/-- R364, R365 and DESIGN CHOICE log 6: a partition control set at reset. -/
def Part.fresh : Part where
  ovt := 0
  wcAge := 8
  vf := 0
  homes := 0
  badshape := false
  frozen := false
  freeze := false
  en := false
  trapent := 0
  eqbase := 0
  eqlog := 0
  eqhead := 0
  eqtail := 0
  eqseq := 0
  written := 0
  dropped := 0
  lost := 0
  tidx := 0
  tdata := 0
  nextGrid := 1
  handlers := []
  held := []
  swapping := false
  shadow := []
  tenant := none

/-- A host launch queue (R288, R289). -/
structure Lq where
  tail : Word
  head : Word
  base : DWord
  asid : BitVec 16
  part : BitVec 4
  fn : BitVec 4
  prio : BitVec 2
  log2 : BitVec 5
  en : Bool
  /-- index of the next record to read, and records read that are done (R289) -/
  next : Word
  done : List Nat
  /-- age of the records exposed by each doorbell write: first index past them, and the age (R293) -/
  ages : List (Nat × Nat)
  deriving DecidableEq, Repr

def Lq.fresh : Lq := ⟨0, 0, 0, 0, 0, 0, 0, 0, false, 0, [], []⟩

/-- A fabric port (R366). -/
structure Port where
  trained : Bool
  extended : Bool
  deriving DecidableEq, Repr

/-- A home's record of the fuse map (R374). -/
structure Fuse where
  home : Bool
  cores : BitVec 256
  vaults : BitVec 16
  arrays : BitVec 512
  ports : BitVec 16
  remap : BitVec 8
  deriving DecidableEq, Repr

/-- A watch of a word of device memory for a waiting word of another device (R163): the device and the number of its request, the place of the word,
its page, and whether it has changed since. -/
structure Watch where
  src : Nat
  tag : Nat
  key : Nat
  asid : Nat
  va : DWord
  gen : Nat
  woken : Bool
  deriving DecidableEq, Repr

/-- A message across the fabric, as this device sees it (R301, R315, R323). -/
inductive FabMsg where
  /-- a request of elements for an address on the named device: stores, posted operations, drains and reads; an element's key names the home that
  the sender's tables give, which receives it (R320) -/
  | req (src dst core : Nat) (kind : BitVec 5) (keyidx asid asgen : Nat) (priv : Bool) (elems : List Elem) (drain bnd : Bool)
      (epoch : Bool) (path : Nat) (tag : Nat)
  /-- an element of XATOM for an address on the named device (R279) -/
  | xatom (src dst core : Nat) (keyidx asid asgen : Nat) (priv : Bool) (x : XElem) (bnd : Bool) (epoch : Bool) (path : Nat) (tag : Nat)
  /-- scratchpad elements of a fragment away from its team's device, by the team's header numbers (R213) -/
  | scratch (src dst core : Nat) (keyidx asid : Nat) (gridid : BitVec 28) (teamid : BitVec 16) (gidx : Nat) (op : ScrOp) (elems : List Elem)
      (epoch : Bool) (path : Nat) (tag : Nat)
  /-- a word that WAITW awaits at a home of the named device, and the value that it is to differ from (R163) -/
  | watch (src dst home core keyidx asid asgen : Nat) (priv : Bool) (va : DWord) (val : Word) (epoch : Bool) (path : Nat) (tag : Nat)
  /-- a parcel: its header (R113), what it carries as the fragment and its group, and the receiving port, 12 · home + 0 to 11 -/
  | parcel (src dst : Nat) (keyidx : Nat) (hdr : BitVec 1536) (f : Frag) (g : Group) (port : Nat)
  /-- a port of the sender withholds, or returns, its request credits for parcels (R301) -/
  | credit (src dst port : Nat) (on : Bool)
  /-- a parcel refused and returned whole (R220) -/
  | returned (dst : Nat) (f : Frag) (g : Group) (code : BitVec 8)
  /-- a split-table or barrier update of a fragment of a group whose primary home is on the named device (R146) -/
  | split (src dst : Nat) (keyidx : Nat) (gridid : BitVec 28) (teamid : BitVec 16) (gidx idx : Nat) (u : SplitUpd) (at' : WordAt)
  /-- an ordered flag with its elements, or a close marker, which has none, and its counts (R337) -/
  | flag (src dst core : Nat) (keyidx asid asgen : Nat) (priv : Bool) (elems : List Elem) (bnd epoch : Bool) (sent : List Nat) (tag : Nat)
  /-- the answer to request `tag` of the named device -/
  | reply (dst tag : Nat) (r : Reply)
  deriving DecidableEq, Repr

/-- A held ordered flag at a receiving port (R337). -/
structure HeldFlag where
  src : Nat
  core : Nat
  keyidx : Nat
  asid : Nat
  asgen : Nat
  priv : Bool
  elems : List Elem
  bnd : Bool
  epoch : Bool
  sent : List Nat
  tag : Nat
  deriving DecidableEq, Repr

/-- The counts of a receiving port for a source core and epoch (R337). -/
structure DoneRec where
  src : Nat
  core : Nat
  epoch : Bool
  done : List Nat
  deriving DecidableEq, Repr

/-- The shadow copies of cores and homes (R357): what a core or home holds, the bytes of scratchpads and operand memories, and the bytes
of these in error. -/
structure Shadow where
  cores : KMap Core
  homes : KMap HomeSt
  scratch : KMap Byte
  opmem : KMap Byte
  errs : List (Nat × Nat)
  deriving DecidableEq, Repr

/-- Thermal state (R375). -/
inductive Thermal where
  | normal | throttled | tripped
  deriving DecidableEq, Repr

/-- What the device has shown to its host: MSI-X messages, read data and attestation answers (R361, R372). -/
inductive HostOut where
  | msix (fn vector : Nat)
  /-- bytes of a read through BAR2, and the places read in error -/
  | read (bytes : List Byte) (bad : List Nat)
  | spdm (request : Nat) (answer : DWord)
  /-- R372: a measurement, its value and the signed rest of the answer -/
  | measured (index : Nat) (value : BitVec 256) (answer : DWord)
  deriving DecidableEq, Repr

end Sys2Proof.Machine
end

