-- ==== Sys2Proof/Machine/State.lean ====
section
/-! DEFINITION. The state of the device (R14 to R16, R206, R287, R330), as plain data, and its value right after device
reset. Everything outside the package acts through the lists of moves, inputs and outputs. -/

namespace Sys2Proof.Machine

/-- Whose step comes next (the spec leaves the order of the device's agents open). -/
inductive Move where
  /-- a fragment issues its next word -/
  | issue (frag : Nat)
  /-- the device, its host or its fabric performs a step of its own (spec/95) -/
  | event (i : Instr)
  /-- an outstanding result of a fragment is written (R62) -/
  | result (frag n : Nat)
  /-- clocks pass and nothing else happens -/
  | idle (clocks : Nat)
  /-- clocks of one core's counter pass (R331) -/
  | clocks (core n : Nat)
  deriving DecidableEq, Repr

/-- Why the machine stops with a fault. No word and no step of the device raises one: every fault of the spec is taken by
its fragment (R340), or ends a command, or raises an event, in a next state. -/
inductive Fault where
  /-- raised by nothing; kept so that the type has a name to list (safe: it cannot hide a behaviour) -/
  | none
  deriving DecidableEq, Repr

/-- Why the machine refuses an instruction. -/
inductive Refusal where
  /-- raised by `exec` for an instruction without a meaning (safe: nothing is claimed of it) -/
  | notModelled (mnemonic : String)
  deriving DecidableEq, Repr

/-- The state of one device. -/
structure State where
  /-- fragments by number: 96 · group + split index -/
  frags : KMap Frag
  /-- the fragment whose word is at issue -/
  cur : Nat
  groups : KMap Group
  teams : KMap Team
  grids : KMap Grid
  cmds : KMap Cmd
  /-- cores by 256 · home + COREID -/
  cores : KMap Core
  homes : KMap HomeSt
  /-- arrays by 512 · home + array id -/
  xars : KMap Xar
  /-- Tambour partitions by 4 · home + partition -/
  tambs : KMap Tamb
  /-- bank units by 128 · home + unit -/
  banks : KMap BankUnit
  /-- channels by 32 · home + channel -/
  chans : KMap Chan
  /-- device memory: byte at home·2^36 + physical address (R206) -/
  mem : List Host.Cell
  /-- the memory key that a byte of device memory was last written under, 0 where it was under none (R207, R324, log 15) -/
  memKeys : KMap (BitVec 512)
  /-- 32-byte units of device memory in error, by key div 32 (R218) -/
  memErr : List Nat
  /-- bytes in error of scratchpads (1), vaults (2) and operand memory (3), and lines in error of context records (4) and of parcels (5), by kind and key
  (R183, R218, R255, R351) -/
  sramErr : List (Nat × Nat)
  /-- scratchpads: byte at (256·home + core)·2^18 + physical offset (R206) -/
  scratch : KMap Byte
  /-- vaults: byte at home·2^28 + vault address (R216) -/
  vault : KMap Byte
  /-- operand memory: byte at (256·home + core)·294,912 + 2,304·slot + offset (R169) -/
  opmem : KMap Byte
  net : List Msg
  remote : List Remote
  answers : List Answer
  /-- model's own: channels that reads and transfers outside the registers' path wait for (R275) -/
  chanWaits : List (Asker × List Nat)
  parts : KMap Part
  /-- shadow copies of the units (R357) -/
  shadows : Shadow
  lqs : KMap Lq
  /-- address-space table by ASID (R318) -/
  asTab : KMap (BitVec 256)
  /-- lease tables by 4,096 · partition + entry (R322) -/
  leases : KMap (BitVec 256)
  /-- ingress key table (R323) -/
  keyTab : KMap (BitVec 128)
  /-- memory-key slots (R324) -/
  keySlots : KMap (BitVec 512)
  /-- code-segment tables by 1,024 · partition + entry (R325) -/
  segs : KMap (BitVec 256)
  ports : KMap Port
  fuse : KMap Fuse
  /-- ordering code (R1) and fabric number (R366) -/
  code : BitVec 2
  fabric : BitVec 12
  /-- BAR2 window base, as a home (R361) -/
  window : Nat
  /-- share tables: tenant and weight by 64 · link + entry, the links being ports 0 to 143 and then lateral links (R369, log 13) -/
  shares : KMap (BitVec 12 × BitVec 8)
  thermal : Thermal
  mbCmd : DWord
  mbAddr : DWord
  mbStat : DWord
  /-- a command was written while another ran (R363) -/
  mbRefused : Bool
  resyncs : DWord
  /-- the service firmware and the update stage that run, as numbers of their images, and the security version of the firmware (R371) -/
  image : Nat
  stage : Nat
  secVersion : BitVec 32
  /-- the fused public-key hash and rollback counter (R371) -/
  keyHash : BitVec 256
  rollback : BitVec 32
  hostOut : List HostOut
  /-- watches registered by other devices, by number (R163) -/
  awayWatches : KMap Watch
  fabIn : List FabMsg
  fabOut : List FabMsg
  /-- devices whose ports, 12 · home + 0 to 11, withhold credits for parcels of this device, and devices from which a port of this one withholds
  them (R301) -/
  credNo : List (Nat × Nat)
  credOff : List (Nat × Nat)
  heldFlags : List HeldFlag
  doneRecs : List DoneRec
  /-- clocks since reset -/
  clock : Nat
  /-- model's own: which agent moves next, and how many clocks the coming moves take (R13) -/
  agenda : List Move
  pace : List Nat
  /-- model's own: index of the next free value -/
  free : Nat
  /-- model's own: numbers of the next group, team, grid and command, and of the next entry in an order -/
  nextId : Nat
  /-- context records that a core's store holds; the spec gives no number (log 9) -/
  records : Nat
  deriving DecidableEq, Repr

/-- What is not there: a number that names no home (R15). -/
def Fuse.absent : Fuse := ⟨false, 0, 0, 0, 0, 0⟩
/-- R374 and DESIGN CHOICE log 3: the record of a full home. -/
def Fuse.full : Fuse := ⟨true, BitVec.allOnes 256, 0xFFFF#16, BitVec.allOnes 512, 0x0FFF#16, 0xFF#8⟩

/-- The device right after device reset: every register at the reset value its rule gives (R7, R23, R252, R270, R288, R318,
R331, R364, R365), no group, and what the spec leaves open as logs 1 to 8 say. -/
def State.reset : State where
  frags := []
  cur := 0
  groups := []
  teams := []
  grids := []
  cmds := []
  cores := []
  homes := []
  xars := []
  tambs := []
  banks := []
  chans := []
  mem := []
  memKeys := []
  memErr := []
  sramErr := []
  scratch := []
  vault := []
  opmem := []
  net := []
  remote := []
  answers := []
  chanWaits := []
  parts := []
  shadows := ⟨[], [], [], [], []⟩
  lqs := []
  asTab := []
  leases := []
  keyTab := []
  keySlots := []
  segs := []
  ports := []
  fuse := []
  code := 0
  fabric := 0
  window := 0
  shares := []
  thermal := .normal
  mbCmd := 0
  mbAddr := 0
  mbStat := 0
  mbRefused := false
  resyncs := 0
  image := 0
  stage := 0
  secVersion := 0
  keyHash := 0
  rollback := 0
  hostOut := []
  awayWatches := []
  fabIn := []
  fabOut := []
  credNo := []
  credOff := []
  heldFlags := []
  doneRecs := []
  clock := 0
  agenda := []
  pace := []
  free := 0
  nextId := 1
  records := 1024

end Sys2Proof.Machine
end

