-- ==== Sys2Proof/Machine/Access.lean ====
section
/-! DEFINITION. Reading and replacing the parts of the state by their numbers. -/

namespace Sys2Proof.Machine

def State.frag (s : State) (n : Nat) : Frag := s.frags.get Frag.free n
def State.setFrag (s : State) (n : Nat) (f : Frag) : State := { s with frags := s.frags.ins n f }
/-- The fragment whose word is at issue. -/
def State.f (s : State) : Frag := s.frag s.cur
def State.setF (s : State) (f : Frag) : State := s.setFrag s.cur f
def State.group (s : State) (n : Nat) : Group := s.groups.get Group.none n
def State.setGroup (s : State) (n : Nat) (g : Group) : State := { s with groups := s.groups.ins n g }
/-- The group of the fragment at issue. -/
def State.g (s : State) : Group := s.group s.f.group
def State.setG (s : State) (g : Group) : State := s.setGroup s.f.group g
def State.team (s : State) (n : Nat) : Team := s.teams.get Team.none n
def State.setTeam (s : State) (n : Nat) (t : Team) : State := { s with teams := s.teams.ins n t }
/-- The team of the fragment at issue. -/
def State.t (s : State) : Team := s.team s.g.team
def State.grid (s : State) (n : Nat) : Grid := s.grids.get Grid.none n
def State.setGrid (s : State) (n : Nat) (g : Grid) : State := { s with grids := s.grids.ins n g }
def State.cmd (s : State) (n : Nat) : Cmd := s.cmds.get Cmd.none n
def State.setCmd (s : State) (n : Nat) (c : Cmd) : State := { s with cmds := s.cmds.ins n c }
def State.core (s : State) (n : Nat) : Core := s.cores.get Core.fresh n
def State.setCore (s : State) (n : Nat) (c : Core) : State := { s with cores := s.cores.ins n c }
def State.home (s : State) (n : Nat) : HomeSt := s.homes.get HomeSt.fresh n
def State.setHome (s : State) (n : Nat) (h : HomeSt) : State := { s with homes := s.homes.ins n h }
def State.xar (s : State) (n : Nat) : Xar := s.xars.get Xar.fresh n
def State.setXar (s : State) (n : Nat) (x : Xar) : State := { s with xars := s.xars.ins n x }
def State.tamb (s : State) (n : Nat) : Tamb := s.tambs.get Tamb.fresh n
def State.setTamb (s : State) (n : Nat) (t : Tamb) : State := { s with tambs := s.tambs.ins n t }
def State.bank (s : State) (n : Nat) : BankUnit := s.banks.get BankUnit.fresh n
def State.setBank (s : State) (n : Nat) (b : BankUnit) : State := { s with banks := s.banks.ins n b }
def State.chan (s : State) (n : Nat) : Chan := s.chans.get ⟨false, 0⟩ n
def State.setChan (s : State) (n : Nat) (c : Chan) : State := { s with chans := s.chans.ins n c }
def State.part (s : State) (n : Nat) : Part := s.parts.get Part.fresh n
def State.setPart (s : State) (n : Nat) (p : Part) : State := { s with parts := s.parts.ins n p }
def State.lq (s : State) (n : Nat) : Lq := s.lqs.get Lq.fresh n
def State.setLq (s : State) (n : Nat) (q : Lq) : State := { s with lqs := s.lqs.ins n q }
def State.port (s : State) (n : Nat) : Port := s.ports.get ⟨false, false⟩ n
def State.fuseOf (s : State) (h : Nat) : Fuse := if h < 12 then s.fuse.get Fuse.full h else Fuse.absent

/-- Number of the core where a fragment stands: 256 · home + COREID. -/
def Frag.coreKey (f : Frag) : Nat := 256 * f.home + f.core
/-- Number of a team's core. -/
def Team.coreKey (t : Team) : Nat := 256 * t.home + t.core

/-- Number of a fragment: its group's and its split index. -/
def fragNo (group idx : Nat) : Nat := 96 * group + idx

/-- The live fragments of a group, by split index. -/
def State.fragsOf (s : State) (group : Nat) : List (Nat × Frag) :=
  s.frags.filter fun e => e.2.alive && e.2.group == group

/-- Whether a split entry's fragment is on another device (R147), or on its way there. -/
def State.elsewhere (s : State) (f : Frag) : Bool := f.dev != s.fabric.toNat
/-- Whether a group's table and barrier records are held here (R146). -/
def State.keeps (s : State) (g : Group) : Bool := g.dev == s.fabric.toNat

/-- The live groups of a team. -/
def State.groupsOf (s : State) (team : Nat) : List (Nat × Group) :=
  s.groups.filter fun e => e.2.alive && e.2.team == team

/-- The live teams of a grid. -/
def State.teamsOf (s : State) (grid : Nat) : List (Nat × Team) :=
  s.teams.filter fun e => e.2.alive && e.2.grid == grid

/-- R352, R357: whether a team holds its core: it is neither saved nor in the shadow copies. -/
def State.holdsCore (s : State) (t : Team) : Bool := t.alive && !t.saved && !((s.part (s.grid t.grid).part).shadow.contains t.grid)
/-- R352, R357: whether a fragment's work is set aside: its team is saved, or in the shadow copies. -/
def State.setAside (s : State) (n : Nat) : Bool := let t := s.team (s.group (s.frag n).group).team; t.alive && !s.holdsCore t
/-- R204, R352: whether a fragment's wait goes on although its condition may hold: its work is set aside or is being saved. -/
def State.asleep (s : State) (n : Nat) : Bool :=
  s.setAside n || (s.grid (s.team (s.group (s.frag n).group).team).grid).preempted.isSome

/-- Nanoseconds from clocks of 1.05 GHz (R14), as a comparison: whether `clocks` last at least `ns`. -/
def lasts (clocks ns : Nat) : Bool := decide (21 * ns ≤ 20 * clocks)
/-- A fresh number. -/
def State.newId (s : State) : Nat × State := (s.nextId, { s with nextId := s.nextId + 1 })

/-- Replacing the first element for which `p` holds. -/
def updFirst {α : Type} (p : α → Bool) (g : α → α) (l : List α) : List α :=
  match l with
  | [] => []
  | x :: r => if p x then g x :: r else x :: updFirst p g r

/-- An element put into a sorted list, before the first it may stand before. -/
def insertBy {α : Type} (le : α → α → Bool) (x : α) (l : List α) : List α :=
  match l with
  | [] => [x]
  | y :: r => if le x y then x :: y :: r else y :: insertBy le x r
/-- A list sorted, equal elements in their order. -/
def sortBy {α : Type} (le : α → α → Bool) (l : List α) : List α := l.foldr (insertBy le) []

/-- The element at a place, removed. -/
def takeAt {α : Type} (l : List α) (n : Nat) : Option (α × List α) :=
  match l, n with
  | [], _ => none
  | x :: r, 0 => some (x, r)
  | x :: r, n + 1 =>
    match takeAt r n with
    | some (y, r') => some (y, x :: r')
    | none => none

end Sys2Proof.Machine
end

