-- ==== Sys2Proof/Machine/Operands.lean ====
section
/-! DEFINITION. Operands: lanes and masks, reading registers through the window (R98 to R101), effective masks and the
prefix's fields (R64 to R66), writing results with tags (R103), and the poison check (R103). -/

namespace Sys2Proof.Machine

/-- A lane of a vector register. -/
def lane (v : Lanes) (l : Nat) : Word := v[l]?.getD 0
/-- The vector whose lane `l` is `f l`. -/
def lanesOf (f : Nat → Word) : Lanes := Vector.ofFn fun i : Fin 96 => f i.val
/-- The same word in every lane. -/
def splat (w : Word) : Lanes := Vector.replicate 96 w

/-- The mask of the lanes below `n` for which `f` holds. -/
def maskBelow (f : Nat → Bool) : Nat → Mask
  | 0 => 0x0#96
  | n + 1 => if f n then maskBelow f n ||| BitVec.twoPow 96 n else maskBelow f n
/-- The mask of the lanes for which `f` holds. -/
def maskOf (f : Nat → Bool) : Mask := maskBelow f 96
/-- The lanes of a mask, ascending. -/
def lanesIn (m : Mask) : List Nat := (List.range 96).filter fun l => m.getLsbD l
/-- The lowest lane of a mask, 96 when it has none. -/
def lowest (m : Mask) : Nat := (lanesIn m).headD 96
/-- All 96 lanes. -/
def allLanes : Mask := 0xFFFFFFFFFFFFFFFFFFFFFFFF#96
/-- Lanes of one mask outside another. -/
def without (a b : Mask) : Mask := a &&& ~~~b
/-- The lanes 8q to 8q + 7 (R21). -/
def octet (q : Nat) : Mask := (0xFF#96) <<< (8 * q)
/-- The lanes 32b to 32b + 31 (R21). -/
def beat (b : Nat) : Mask := (0xFFFFFFFF#96) <<< (32 * b)
/-- Lanes 0 to 63, and 64 to 95, as fault reports hold them (R103, R217). -/
def lanesLo (m : Mask) : DWord := m.setWidth 64
def lanesHi (m : Mask) : DWord := (m >>> 64).setWidth 64
/-- Number of lanes. -/
def popMask (m : Mask) : Nat := (lanesIn m).length

/-- The registers a word reads: as they stood when its chain group began (R60). -/
def Frag.src (f : Frag) : Regs :=
  match f.grp with
  | some g => g.snap
  | none => f.regs
def State.src (s : State) : Regs := s.f.src
/-- Results that the earlier words of the chain group have rounded under rs (R43). -/
def Frag.rounded (f : Frag) : Nat :=
  match f.grp with
  | some g => g.rounded
  | none => 0

/-- R331: the cycle counter of a core: the clocks since device reset, and those by which it has gone ahead (log 32). -/
def State.cyclesOf (s : State) (core : Nat) : DWord := BitVec.ofNat 64 s.clock + (s.core core).ahead
/-- R331, R334: the cycle counter where the word issues, and GTIMER, at the clock at which its chain group issues. -/
def State.cycles (s : State) : DWord := match s.f.grp with | some g => g.cycles | none => s.cyclesOf s.f.coreKey
def Frag.timer (f : Frag) : DWord := match f.grp with | some g => g.gtimer | none => f.gtimer

/-- R100: file entry behind a vector name. -/
def Regs.vEnt (r : Regs) (n : RegNum) : Nat := r.wbV.toNat + n.toNat
/-- R100: file entry behind a scalar name. -/
def Regs.sEnt (r : Regs) (n : RegNum) : Nat := r.wbS.toNat + n.toNat
def Regs.mask (r : Regs) (k : BitVec 3) : Mask := r.m[k.toNat]?.getD 0
/-- R98: v0 to v63. -/
def Regs.vreg (r : Regs) (n : RegNum) : VReg := r.v.get VReg.zero (r.vEnt n)
/-- R101: beat of m0 that s61 to s63 name. -/
def beatOf (n : RegNum) : Nat := n.toNat - 61
/-- R98, R101: s0 to s60, and the beats of m0 under s61 to s63. -/
def Regs.sreg (r : Regs) (n : RegNum) : SReg :=
  if 61 ≤ n.toNat then ⟨((r.mask 0 >>> (32 * beatOf n)).setWidth 32).setWidth 64, false, false⟩
  else r.s.get SReg.zero (r.sEnt n)

/-- R62, R121: registers as the rules name them: m0 and s61 to s63 are one register. -/
def Regs.vId (r : Regs) (n : RegNum) : RegId := .v (r.vEnt n)
def Regs.sId (r : Regs) (n : RegNum) : RegId := if 61 ≤ n.toNat then .m 0 else .s (r.sEnt n)

def State.vreg (s : State) (n : RegNum) : VReg := s.src.vreg n
def State.sreg (s : State) (n : RegNum) : SReg := s.src.sreg n
/-- A vector source's lane. -/
def State.vl (s : State) (n : RegNum) (l : Nat) : Word := lane (s.vreg n).lanes l
/-- A scalar source's value. -/
def State.sv (s : State) (n : RegNum) : DWord := (s.sreg n).val
/-- A mask source. -/
def State.mreg (s : State) (k : BitVec 3) : Mask := s.src.mask k
/-- active(F): m0 (R21, R99). -/
def State.active (s : State) : Mask := s.mreg 0

/-- R64: the effective mask. -/
def State.eff (s : State) : Mask :=
  match s.f.pfx with
  | some p => if p.m = 0x0#3 then s.active else s.active &&& s.mreg p.m
  | none => s.active
/-- R64: lanes of active(F) outside the effective mask that PFX.ZERO writes with zero. -/
def State.zeroed (s : State) : Mask :=
  match s.f.pfx with
  | some p => if p.z = 0x1#1 then without s.active s.eff else 0x0#96
  | none => 0x0#96
/-- R66: the third source register: PFX.SRC4, or d without a prefix. -/
def State.third (s : State) (d : RegNum) : RegNum :=
  match s.f.pfx with
  | some p => p.s
  | none => d

/-- R103: writing lanes `W` of a vector register with values of tag `t` and poison `p`; `own` is own(F). -/
def VReg.write (old : VReg) (own W : Mask) (vals : Lanes) (t : Bool) (p : Mask) : VReg :=
  if W = 0x0#96 then old
  else ⟨lanesOf fun l => if W.getLsbD l then lane vals l else lane old.lanes l,
        if without own W = 0x0#96 then t else t || old.bnd, without old.poison W ||| (p &&& W)⟩

/-- R103 on a file entry. -/
def Regs.writeV (r : Regs) (own : Mask) (e : Nat) (W : Mask) (vals : Lanes) (t : Bool) (p : Mask) : Regs :=
  { r with v := r.v.put VReg.zero e ((r.v.get VReg.zero e).write own W vals t p) }
/-- R103: a scalar write covers the register. -/
def Regs.writeS (r : Regs) (e : Nat) (x : SReg) : Regs := { r with s := r.s.put SReg.zero e x }
/-- R99: a mask write; m0 keeps only owned lanes. -/
def Regs.writeM (r : Regs) (own : Mask) (k : BitVec 3) (x : Mask) : Regs :=
  { r with m := r.m.setIfInBounds k.toNat (if k = 0x0#3 then x &&& own else x) }
/-- R101: writing a beat of m0. -/
def Regs.writeBeat (r : Regs) (own : Mask) (n : RegNum) (x : DWord) : Regs :=
  r.writeM own 0 ((without (r.mask 0) (beat (beatOf n))) ||| ((x.setWidth 32).setWidth 96 <<< (32 * beatOf n)))

def State.modRegs (s : State) (g : Regs → Regs) : State := s.setF { s.f with regs := g s.f.regs }

/-- Writing a vector result in the effective mask, and zero where PFX.ZERO asks for it (R64, R103). -/
def State.wrV (s : State) (d : RegNum) (vals : Nat → Word) (t : Bool) : State :=
  s.modRegs fun r => r.writeV s.f.own (r.vEnt d) (s.eff ||| s.zeroed)
    (lanesOf fun l => if s.eff.getLsbD l then vals l else 0) t 0x0#96
/-- Writing given lanes of a vector register (R103). -/
def State.wrLanes (s : State) (d : RegNum) (W : Mask) (vals : Nat → Word) (t : Bool) : State :=
  s.modRegs fun r => r.writeV s.f.own (r.vEnt d) W (lanesOf vals) t 0x0#96
/-- Writing a scalar result (R101, R103). -/
def State.wrS (s : State) (d : RegNum) (x : DWord) (t : Bool) : State :=
  s.modRegs fun r => if 61 ≤ d.toNat then r.writeBeat s.f.own d x else r.writeS (r.sEnt d) ⟨x, t, false⟩
/-- Writing a mask register (R99). -/
def State.wrM (s : State) (k : BitVec 3) (x : Mask) : State := s.modRegs fun r => r.writeM s.f.own k x
/-- R120: writing a mask from per-lane conditions: effective lanes take `val`, lanes PFX.ZERO names take 0. -/
def State.wrCond (s : State) (k : BitVec 3) (val : Nat → Bool) : State :=
  s.wrM k (maskOf fun l => if s.eff.getLsbD l then val l else if s.zeroed.getLsbD l then false else (s.mreg k).getLsbD l)

/-- A source register as the poison check and the tag rule see it (R103, R27). -/
inductive Src where
  | v (n : RegNum) (lanes : Mask)
  | s (n : RegNum)

/-- Whether a source is bounded (R27). -/
def State.srcBnd (s : State) (x : Src) : Bool :=
  match x with
  | .v n _ => (s.vreg n).bnd
  | .s n => (s.sreg n).bnd
/-- R27: the tag of a result: bounded when a source is. -/
def State.bndOf (s : State) (xs : List Src) : Bool := xs.any s.srcBnd

/-- The fault of a poisoned source (R103), none when it is clean. -/
def State.poisonOf (s : State) (x : Src) : Option FaultRec :=
  match x with
  | .v n lanes =>
    let p := (s.vreg n).poison &&& lanes
    if p = 0x0#96 then none else some ⟨0x19#8, 0, n.setWidth 64, lanesLo p, lanesHi p, false⟩
  | .s n => if (s.sreg n).poison then some ⟨0x19#8, 0, 64 + n.setWidth 64, 0, 0, false⟩ else none
/-- The first poisoned source (R103), in the order in which the word's meaning names its sources (DESIGN CHOICE, log 62). -/
def State.poisoned (s : State) (xs : List Src) : Option FaultRec := xs.findSome? s.poisonOf

/-- A fault with its code and TRAPINFO1 to 3 (R339). -/
def faultOf (code : BitVec 8) (ti1 : DWord := 0) (ti2 : DWord := 0) (ti3 : DWord := 0) : FaultRec :=
  ⟨code, 0x000#12, ti1, ti2, ti3, false⟩

/-- What a word does once it is at issue. -/
inductive Act where
  /-- it has had its effect; the fragment goes on at the next word -/
  | done (s : State)
  /-- it has had its effect; the fragment goes on at an address -/
  | jump (s : State) (pc : DWord)
  /-- it faults and has no effect (R61) -/
  | fault (r : FaultRec)
  /-- it is held at issue, without fault -/
  | hold (s : State)
  /-- it has had its effect; the fragment does not go on at once -/
  | away (s : State)

/-- The poison check before an action (R103). -/
def State.clean (s : State) (xs : List Src) (k : Act) : Act :=
  match s.poisoned xs with
  | some r => .fault r
  | none => k

end Sys2Proof.Machine
end

