-- ==== Sys2Proof/Machine/Mem.lean ====
section
/-! DEFINITION. The memories: bytes and little-endian values (R6, R206), errors (R218), watches (R163), translation (R207,
R318 to R320), leases (R211), and the fault order of an access (R217). -/

namespace Sys2Proof.Machine

/-- Key of a byte of device memory. -/
def dramKey (home pa : Nat) : Nat := home * 2 ^ 36 + pa
/-- Key of a byte of scratchpad. -/
def scrKey (core off : Nat) : Nat := core * 2 ^ 18 + off
/-- Key of a byte of vault SRAM. -/
def vaultKey (home a : Nat) : Nat := home * 2 ^ 28 + a
/-- Key of a byte of operand memory. -/
def opKey (core a : Nat) : Nat := core * 294912 + a

/-- One byte of device memory (DESIGN CHOICE, log 1: 0 before it is written). -/
def State.byte (s : State) (key : Nat) : Byte := KMap.get 0x00#8 s.mem key
/-- R207, R324: the memory key under which a place is reached, 0 for none: from 2^40 on, a key of device memory names 1 + PTE.KEY. -/
def State.keyAt (s : State) (key : Nat) : BitVec 512 := if key < 2 ^ 40 then 0 else s.keySlots.get 0 (key / 2 ^ 40 - 1)
/-- R207, R324: a byte of device memory as it reads under the memory key that its place is reached under (log 15). -/
def State.dramByte (s : State) (key : Nat) : Byte :=
  let a := key % 2 ^ 40
  let old := s.memKeys.get 0 a
  if key < 2 ^ 40 then s.byte key
  else if old = 0 ∨ old = s.keyAt key then s.byte a
  else
    let block := (List.range 16).foldr (fun i n => (s.byte (a - a % 16 + i)).toNat + 256 * n) 0
    (Config.xts old (s.keyAt key) a (BitVec.ofNat 128 block)).extractLsb' (8 * (a % 16)) 8
/-- One byte of a memory. -/
def State.byteIn (s : State) (sp : Space) (key : Nat) : Byte :=
  match sp with
  | .dram => s.dramByte key
  | .scratch => s.scratch.get 0x00#8 key
  | .vault => s.vault.get 0x00#8 key

/-- R6: little-endian value of bytes, lowest address first. -/
def leNat (bs : List Byte) : Nat := bs.foldr (fun b n => b.toNat + 256 * n) 0
/-- R6: the `n` bytes of a value, lowest address first. -/
def leBytes (n x : Nat) : List Byte := (List.range n).map fun i => BitVec.ofNat 8 (x / 256 ^ i)
/-- The bytes at `n` places from a key. -/
def State.bytesIn (s : State) (sp : Space) (key n : Nat) : List Byte := (List.range n).map fun i => s.byteIn sp (key + i)
/-- A little-endian value in a memory. -/
def State.valIn (s : State) (sp : Space) (key n : Nat) : Nat := leNat (s.bytesIn sp key n)

/-- Writing bytes at given keys. -/
def putCells (m : KMap Byte) (cells : List (Nat × Byte)) : KMap Byte := cells.foldl (fun m c => m.put 0x00#8 c.1 c.2) m
/-- Bytes as cells from a key on. -/
def cellsAt (key : Nat) (bs : List Byte) : List (Nat × Byte) := bs.mapIdx fun i b => (key + i, b)

/-- R163: a fragment's watch is woken when the watched word is not as it was. -/
def Frag.seen (f : Frag) (old new : Nat → Nat) : Frag :=
  match f.state with
  | .waitw k v a g w => { f with state := .waitw k v a g (w || decide (old k ≠ new k)) }
  | _ => f

/-- Writing device memory, each byte under the memory key of its place (R207): the watches see it (R163). -/
def State.setMem (s : State) (cells : List (Nat × Byte)) : State :=
  let s' := { s with
    mem := putCells s.mem (cells.map fun (c : Nat × Byte) => (c.1 % 2 ^ 40, c.2))
    memKeys := cells.foldl (fun (m : KMap (BitVec 512)) (c : Nat × Byte) => KMap.put 0 m (c.1 % 2 ^ 40) (s.keyAt c.1)) s.memKeys }
  { s' with
    frags := s.frags.map fun e => (e.1, e.2.seen (fun k => s.valIn .dram k 4) (fun k => s'.valIn .dram k 4))
    awayWatches := s.awayWatches.map fun (w : Nat × Watch) => (w.1, { w.2 with woken := w.2.woken || s.valIn .dram w.2.key 4 != s'.valIn .dram w.2.key 4 }) }

/-- R218: units in error that a write covers in part only. -/
def State.badUnits (s : State) (cells : List (Nat × Byte)) : List Nat :=
  s.memErr.filter fun u =>
    let here := (cells.map (·.1 % 2 ^ 40)).filter fun k => k / 32 == u
    !here.isEmpty && !(List.range 32).all fun i => here.contains (32 * u + i)
/-- R218: writing device memory: cells in a unit in error that the write does not cover are not written, and a covered unit
is in error no longer. -/
def State.writeMem (s : State) (cells : List (Nat × Byte)) : State :=
  let bad := s.badUnits cells
  let ok := cells.filter fun c => !bad.contains (c.1 % 2 ^ 40 / 32)
  { (s.setMem ok) with memErr := s.memErr.filter fun u => bad.contains u || !ok.any fun c => c.1 % 2 ^ 40 / 32 == u }
/-- R218: whether a read of bytes meets an uncorrectable error. -/
def State.readErr (s : State) (key n : Nat) : Bool := s.memErr.any fun u => decide (key % 2 ^ 40 < 32 * u + 32 ∧ 32 * u < key % 2 ^ 40 + n)

/-- Whether a read of bytes of a scratchpad (1), vault (2) or operand memory (3) meets an uncorrectable error. -/
def State.sramBad (s : State) (kind key n : Nat) : Bool := s.sramErr.any fun e => e.1 == kind && decide (key ≤ e.2 ∧ e.2 < key + n)
/-- The errors left once bytes of such a memory have been written (log 11). -/
def State.mend (s : State) (kind : Nat) (cells : List (Nat × Byte)) : List (Nat × Nat) :=
  s.sramErr.filter fun e => !(e.1 == kind && cells.any fun c => c.1 == e.2)
/-- Writing the bytes of a scratchpad, a vault or the operand memory. -/
def State.writeScr (s : State) (cells : List (Nat × Byte)) : State := { s with scratch := putCells s.scratch cells, sramErr := s.mend 1 cells }
def State.writeVault (s : State) (cells : List (Nat × Byte)) : State := { s with vault := putCells s.vault cells, sramErr := s.mend 2 cells }
def State.writeOp (s : State) (cells : List (Nat × Byte)) : State := { s with opmem := putCells s.opmem cells, sramErr := s.mend 3 cells }
/-- R218: whether a read of bytes of a memory meets an error. -/
def State.errIn (s : State) (sp : Space) (key n : Nat) : Bool :=
  match sp with
  | .dram => s.readErr key n
  | .scratch => s.sramBad 1 key n
  | .vault => s.sramBad 2 key n
/-- Writing bytes of a memory. -/
def State.writeIn (s : State) (sp : Space) (cells : List (Nat × Byte)) : State :=
  match sp with
  | .dram => s.writeMem cells
  | .scratch => s.writeScr cells
  | .vault => s.writeVault cells

/-- A field of an entry. -/
def fld {n : Nat} (x : BitVec n) (lo w : Nat) : Nat := (x.extractLsb' lo w).toNat

/-- Address-space table entry of an ASID (R318). -/
def State.asEnt (s : State) (asid : Nat) : BitVec 256 := s.asTab.get 0 asid
/-- R318: AS.V set, no res0 bit set, root aligned. -/
def asOk (e : BitVec 256) : Bool :=
  e.getLsbD 191 && fld e 220 4 == 0 && fld e 188 3 == 0 && fld e 52 132 == 0 && fld e 0 9 == 0 && fld e 9 7 == 0

/-- Why a translation ends without a leaf (R319). -/
inductive TrErr where
  | prot (reason : Nat)
  | poison
  deriving DecidableEq, Repr

/-- A leaf that translates an address (R207, R319). -/
structure Leaf where
  bits : BitVec 128
  big : Bool
  deriving DecidableEq, Repr

def Leaf.gen (x : Leaf) : Nat := fld x.bits 96 32
def Leaf.dev (x : Leaf) : Nat := fld x.bits 64 12
def Leaf.valid (x : Leaf) : Bool := x.bits.getLsbD 63 && fld x.bits 61 2 != 3
/-- PTE.ORD: 0 SO, 1 RC, 2 UO. -/
def Leaf.ord (x : Leaf) : Nat := fld x.bits 61 2
def Leaf.bnd (x : Leaf) : Bool := x.bits.getLsbD 60
def Leaf.r (x : Leaf) : Bool := x.bits.getLsbD 59
def Leaf.w (x : Leaf) : Bool := x.bits.getLsbD 58
def Leaf.x (x : Leaf) : Bool := x.bits.getLsbD 57
def Leaf.home (x : Leaf) : Nat := fld x.bits 43 4
/-- Physical byte address of a virtual address under its leaf (R207, R319). -/
def Leaf.pa (x : Leaf) (va : DWord) : Nat := fld x.bits 16 20 * 2 ^ 16 + va.toNat % (if x.big then 2 ^ 21 else 2 ^ 16)

/-- PTE.KEY. -/
def Leaf.key (x : Leaf) : Nat := fld x.bits 47 9
/-- R207, R324: the place in device memory of a virtual address under its leaf, with the memory key that it is reached under. A leaf that names no
home, or a disabled one, gives a place under that number, where nothing is ever performed (R19; DESIGN CHOICE, log 64). -/
def State.cellOf (s : State) (x : Leaf) (va : DWord) : Nat :=
  dramKey x.home (x.pa va) + (if s.keySlots.get 0 x.key = 0 then 0 else 2 ^ 40 * (x.key + 1))

/-- R319: a table descriptor in order: no res0 bit, and its address aligned for the level it names. -/
def tdOk (d : BitVec 128) (last : Bool) : Bool :=
  fld d 64 64 == 0 && fld d 57 6 == 0 && !d.getLsbD 56 && fld d 47 8 == 0 && fld d 36 7 == 0 && fld d 0 9 == 0 && (last || fld d 9 7 == 0)

/-- R319: an entry of a table, read at its home. -/
def State.tdAt (s : State) (home pa i : Nat) : BitVec 128 := BitVec.ofNat 128 (s.valIn .dram (dramKey home pa + 16 * i) 16)

/-- R319: the walk from level `3 − n` on, at a table. -/
def State.walkFrom (s : State) (va : DWord) (n home pa : Nat) : Except TrErr Leaf :=
  let i := if n = 0 then fld va 16 5 else fld va (9 + 12 * n) 12
  if s.readErr (dramKey home pa + 16 * i) 16 then .error .poison
  else
    let d := s.tdAt home pa i
    match n with
    | 0 => if d.getLsbD 56 then .error (.prot 6) else if Leaf.valid (Leaf.mk d false) then .ok (Leaf.mk d false) else .error (.prot 1)
    | k + 1 =>
      if k = 0 ∧ d.getLsbD 56 then (if Leaf.valid (Leaf.mk d true) then .ok (Leaf.mk d true) else .error (.prot 1))
      else if d.getLsbD 63 = false then .error (.prot 1)
      else if tdOk d (k = 0) = false then .error (.prot 6)
      else s.walkFrom va k (fld d 43 4) (fld d 9 27 * 512)

/-- R318, R319: a walk under an ASID. -/
def State.walk (s : State) (asid : Nat) (va : DWord) : Except TrErr Leaf :=
  let e := s.asEnt asid
  if asOk e then s.walkFrom va 3 (fld e 36 4) (fld e 9 27 * 512) else .error (.prot 6)

/-- R320: whether a cached leaf translates an address. -/
def TlbEnt.hits (x : TlbEnt) (asid : Nat) (va : DWord) : Bool :=
  x.asid == asid && (if x.big then x.page == va.toNat / 2 ^ 21 else x.page == va.toNat / 2 ^ 16)
/-- R207, R318, R320: translation through a cache, walking on a miss. -/
def State.translate (s : State) (tlb : List TlbEnt) (asid : Nat) (va : DWord) : Except TrErr Leaf :=
  if fld va 57 7 ≠ 0 then .error (.prot 4)
  else if asOk (s.asEnt asid) = false then .error (.prot 6)
  else
    match tlb.find? fun x => x.hits asid va with
    | some x => .ok ⟨x.leaf, x.big⟩
    | none => s.walk asid va
/-- R320 and DESIGN CHOICE log 5: the cache after a translation; the oldest leaf makes room. -/
def fillTlb (cap : Nat) (tlb : List TlbEnt) (asid : Nat) (va : DWord) (x : Leaf) : List TlbEnt :=
  if tlb.any fun y => y.hits asid va then tlb
  else (tlb ++ [TlbEnt.mk asid (va.toNat / (if x.big then 2 ^ 21 else 2 ^ 16)) x.big x.bits]).drop (tlb.length + 1 - cap)

/-- Translation by a core (R320). -/
def State.trCore (s : State) (core asid : Nat) (va : DWord) : Except TrErr Leaf := s.translate (s.core core).tlb asid va
/-- The core's cache once it has translated addresses. -/
def State.cache (s : State) (core asid : Nat) (vas : List DWord) : State :=
  vas.foldl (fun s va =>
    match s.trCore core asid va with
    | .ok x => s.setCore core { s.core core with tlb := fillTlb 64 (s.core core).tlb asid va x }
    | .error _ => s) s

/-- Kinds of access for the checks of R211 and R217. -/
inductive Need where
  | read | write | atom | move
  deriving DecidableEq, Repr

/-- R211, R322: an active lease entry covering bytes for a grid under its address space, or, for requests of other devices, for any grid. One whose
revocation is requested is absent but for its own grid, whose words that run before its groups are saved complete under it. -/
def leaseHits (e : BitVec 256) (gridid : Option Nat) (asid : Nat) (rw : Bool) (va : DWord) (n : Nat) : Bool :=
  e.getLsbD 224 && fld e 208 16 == asid && (match gridid with | some g => g == fld e 228 28 | none => !e.getLsbD 225) &&
    (if rw then fld e 226 2 == 2 else fld e 226 2 == 1 || fld e 226 2 == 2) &&
    decide (fld e 0 64 ≤ va.toNat ∧ va.toNat + n ≤ fld e 0 64 + fld e 64 48)
/-- R211: the lease check of an element on this device. -/
def State.leased (s : State) (r : Rights) (need : Need) (va : DWord) (n : Nat) : Bool :=
  r.priv || (s.leases.any fun e => e.1 / 4096 == r.part &&
    leaseHits e.2 (if r.dev = s.fabric.toNat then some r.grid else none) r.asid (need == .write || need == .atom) va n)

/-- R217: page permissions an access needs. -/
def Leaf.permits (x : Leaf) (need : Need) : Bool :=
  match need with
  | .read => x.r
  | .write => x.w
  | .atom => x.r && x.w
  | .move => true

/-- An address to be checked: the lane it belongs to and the bytes it covers. -/
structure Addr where
  lane : Nat
  va : DWord
  size : Nat
  deriving DecidableEq, Repr

/-- R217: the report of a fault at lanes. -/
def faultAt (code : BitVec 8) (reason : Nat) (bad : List Addr) : FaultRec :=
  let m := maskOf fun l => bad.any fun a => a.lane == l
  let l0 := bad.headD ⟨0, 0, 0⟩
  ⟨code, 0x000#12, l0.va, lanesLo m,
   lanesHi m ||| BitVec.ofNat 64 (l0.lane * 2 ^ 32) ||| BitVec.ofNat 64 (reason * 2 ^ 40), false⟩

/-- The PROT reason of an address, 0 when protection admits the access (R217, R392); 100 for an error met in the walk. -/
def State.protOf (s : State) (core : Nat) (r : Rights) (need : Need) (va : DWord) : Nat :=
  match s.trCore core r.asid va with
  | .error (.prot n) => n
  | .error .poison => 100
  | .ok x => if x.permits need then 0 else 2

/-- The leaf of an address that has passed protection. -/
def State.leafOf (s : State) (core asid : Nat) (va : DWord) : Leaf :=
  match s.trCore core asid va with
  | .ok x => x
  | .error _ => ⟨0, false⟩

/-- Whether an address lies on another device (R211). -/
def State.farAway (s : State) (core : Nat) (r : Rights) (va : DWord) : Bool :=
  match s.trCore core r.asid va with
  | .ok x => x.dev != s.fabric.toNat
  | .error _ => false

/-- R217: the checks of a global access, in order: lease, protection, alignment, generation (MIGR makes the first two only, R229),
straddle, bound. `e` is the
element size for alignment, `bnd` says that a bounded value is written. -/
def State.checkGlobal (s : State) (core : Nat) (r : Rights) (need : Need) (e : Nat) (bnd : Bool) (as : List Addr) : Option FaultRec :=
  let noLease := as.filter fun a => !(s.farAway core r a.va) && !(s.leased r need a.va a.size)
  if !noLease.isEmpty then some (faultAt 0x10#8 0 noLease)
  else
    let noProt := as.filter fun a => s.protOf core r need a.va != 0
    match noProt with
    | a :: _ =>
      let n := s.protOf core r need a.va
      some (if n = 100 then faultAt 0x19#8 0 noProt else faultAt 0x12#8 n noProt)
    | [] =>
      let mis := as.filter fun a => a.va.toNat % e != 0
      if !mis.isEmpty then some (faultAt 0x13#8 0 mis)
      else
        let stale := as.filter fun a => need != .move && decide (r.asgen < (s.leafOf core r.asid a.va).gen)
        if !stale.isEmpty then some (faultAt 0x15#8 0 stale)
        else
          let ord0 := (as.head?.map fun a => (s.leafOf core r.asid a.va).ord).getD 0
          let mixed := as.filter fun a => (s.leafOf core r.asid a.va).ord != ord0
          if !mixed.isEmpty then some (faultAt 0x14#8 0 mixed)
          else
            let unb := as.filter fun a => bnd && !(s.leafOf core r.asid a.va).bnd
            if !unb.isEmpty then some (faultAt 0x18#8 0 unb) else none

/-- Where a scratchpad address leads (R212). -/
structure ScrTgt where
  core : Nat
  off : Nat
  /-- the team and its map entry whose range holds the byte (R214) -/
  map : Option (Nat × Nat)
  /-- the team window's value (R212) -/
  window : Bool
  deriving DecidableEq, Repr

/-- R214: the map entry of a team whose range holds a generic offset. -/
def Team.mapAt (t : Team) (off : Nat) : Option Nat :=
  (t.maps.find? fun e => decide (e.2.off ≤ off ∧ off < e.2.off + e.2.len)).map (·.1)
/-- R212: the value of the team window. -/
def Team.window (t : Team) : Nat := 2 ^ 63 + t.home * 2 ^ 48 + t.pgen.toNat * 2 ^ 44 + t.core * 2 ^ 36 + t.base

/-- R212: a scratchpad address of `n` bytes, resolved for a team, or the fault code and PROT reason it raises. -/
def State.scrAt (s : State) (team : Nat) (asid : Nat) (a : DWord) (n : Nat) (store : Bool) : Except (BitVec 8 × Nat) ScrTgt :=
  let t := s.team team
  if a.getLsbD 63 = false then
    if a.toNat + n ≤ t.size then .ok ⟨t.coreKey, t.base + a.toNat, (t.mapAt a.toNat).map fun e => (team, e), false⟩
    else if 0x40000 ≤ a.toNat ∧ a.toNat + n ≤ 0x40008 then
      (if store then .error (0x12#8, 3) else .ok ⟨t.coreKey, a.toNat - 0x40000, none, true⟩)
    else .error (0x11#8, 0)
  else
    let home := fld a 48 4
    let core := fld a 36 8
    let off := fld a 0 18
    if fld a 52 11 ≠ 0 ∨ fld a 18 18 ≠ 0 ∨ 12 ≤ home ∨ (s.fuseOf home).home = false ∨ (s.fuseOf home).cores.getLsbD core = false then
      .error (0x11#8, 0)
    else
      match s.teams.find? fun e => s.holdsCore e.2 && e.2.home == home && e.2.core == core &&
          decide (e.2.base ≤ off ∧ off + n ≤ e.2.base + e.2.size) && e.2.pgen.toNat == fld a 44 4 &&
          (s.grid e.2.grid).rights.asid == asid with
      | some (k, t') => .ok ⟨t'.coreKey, off, (t'.mapAt (off - t'.base)).map fun e => (k, e), false⟩
      | none => .error (0x17#8, 0)

/-- R216: a vault address, or the fault code and PROT reason. -/
def State.vaultAt (s : State) (home asid : Nat) (a : DWord) : Except (BitVec 8 × Nat) Nat :=
  if 2 ^ 28 ≤ a.toNat ∨ (s.fuseOf home).vaults.getLsbD (fld a 24 4) = false then .error (0x11#8, 0)
  else if (s.asEnt asid).getLsbD (192 + fld a 24 4) = false then .error (0x12#8, 5)
  else .ok (vaultKey home a.toNat)

end Sys2Proof.Machine
end

