-- ==== Sys2Proof/Machine/Sched.lean ====
section
/-! DEFINITION. Residency (R109, R165), the rotation (R149) and the service lists (R150) of a core. -/

namespace Sys2Proof.Machine

/-- R298: whether a fragment is parked in LAUNCH. -/
def FState.inLaunch (x : FState) : Bool := match x with | .launch _ _ => true | _ => false
/-- R109: context-state entries of a core in use. -/
def State.entries (s : State) (core : Nat) : Nat :=
  (s.frags.filter fun e => e.2.alive && e.2.resident && e.2.coreKey == core && !s.setAside e.1).length

/-- A fragment joins the tail of the rotation. -/
def Core.join (c : Core) (n : Nat) : Core := if c.rot.contains n then c else { c with rot := c.rot ++ [n] }
/-- R149: after its turn a fragment moves to the tail. -/
def Core.endTurn (c : Core) (n : Nat) : Core := if c.rot.contains n then { c with rot := c.rot.filter (· != n) ++ [n] } else c

/-- R150: whether a fragment stands behind the head of a service list. -/
def Core.behind (c : Core) (n : Nat) : Bool := c.svc.any fun l => l.contains n && l.head? != some n
/-- R150: whether it is the head of a service list. -/
def Core.heads (c : Core) (n : Nat) : Bool := c.svc.any fun l => l.head? == some n
/-- R150: a list of one fragment is no list, and every head is in the rotation. -/
def Core.tidy (c : Core) : Core :=
  let c' := c.svc.foldl (fun c l => match l.head? with | some n => c.join n | none => c) c
  { c' with svc := c'.svc.filter fun l => 1 < l.length }
/-- R150: a fragment leaves its service list. -/
def Core.leaveSvc (c : Core) (n : Nat) : Core := Core.tidy { c with svc := c.svc.map fun l => l.filter (· != n) }
/-- R150: the head of a list goes to its tail. -/
def Core.passSvc (c : Core) (n : Nat) : Core :=
  if c.heads n then
    Core.tidy { c with svc := c.svc.map fun l => (if l.head? = some n then l.drop 1 ++ [n] else l), rot := c.rot.filter (· != n) }
  else c
/-- R150: the children of a division, in ascending target, take the divider's place in its list, or form a list. -/
def Core.divideSvc (c : Core) (n : Nat) (kids : List Nat) : Core :=
  let svc := if c.svc.any (·.contains n) then c.svc.map fun l => l.flatMap fun x => if x = n then kids else [x] else c.svc ++ [kids]
  Core.tidy { c with svc := svc, rot := c.rot.filter fun x => !kids.contains x }

/-- R149: the turn of a fragment that parks or stalls ends, as does one whose weight of beat slots has been used when a chain group has issued
(DESIGN CHOICE, log 64); the fragment moves to the tail of its rotation. -/
def State.endTurnOf (s : State) (n : Nat) : State :=
  let f := s.frag n
  let spent := f.grp.isNone && f.pfx.isNone && decide (max 1 (s.group f.group).weight ≤ f.turn)
  if (f.parked || f.held || spent) && f.turn != 0 then (s.setFrag n { f with turn := 0 }).setCore f.coreKey ((s.core f.coreKey).endTurn n) else s

/-- R109: a fragment gives up its context-state entry and its place in the rotation. -/
def State.release (s : State) (n : Nat) : State :=
  let f := s.frag n
  let s := s.setFrag n { f with resident := false, turn := 0 }
  let c := s.core f.coreKey
  s.setCore f.coreKey { (c.leaveSvc n) with rot := (c.leaveSvc n).rot.filter (· != n), waits := c.waits.filter (· != n) }

/-! Lines of the register file (R108, R110) -/

/-- Register-file line behind an entry: 0 to 255 for vectors, 256 and 257 for the scalars of the window (R108). -/
def RegId.line (d : RegId) (wbS : Nat) : Option Nat :=
  match d with
  | .v e => some e
  | .s e => some (if e < wbS + 48 then 256 else 257)
  | _ => none
/-- R108: whether a register is zero, exact and unpoisoned: it occupies no line. -/
def Regs.blank (r : Regs) (d : RegId) : Bool :=
  match d with
  | .v e => (KMap.find r.v e).isNone
  | .s e => (KMap.find r.s e).isNone
  | _ => true

/-- R108: whether a line entry takes a line: a register that is zero, exact and unpoisoned takes none, unless its result is pending; nor does one
of a fragment that is no more. -/
def State.occupies (s : State) (l : LineEnt) : Bool :=
  let f := s.frag l.frag
  f.alive && (decide (256 ≤ l.line) || !f.regs.blank (.v l.line) || f.outs.any fun o => o.dest == .v l.line)
/-- R110: whether a line may be evicted: it is a vector's, and its register is not pending. The two lines of the scalars are reserved while
the fragment is resident (R108). -/
def State.evictable (s : State) (l : LineEnt) : Bool :=
  decide (l.line < 256) && s.occupies l && !((s.frag l.frag).outs.any fun o => o.dest.line (s.frag l.frag).regs.wbS.toNat == some l.line)
/-- R110: the line evicted next: of fragments parked in LAUNCH, oldest first; then of parked fragments; then the least recently used line of the
fragment that issued least recently. -/
def State.victim (s : State) (core : Nat) : Option LineEnt :=
  let ls := (s.core core).lines.filter s.evictable
  let oldest := fun (xs : List LineEnt) =>
    match (xs.map fun l => (s.frag l.frag).issued).min? with
    | some m => xs.find? fun l => (s.frag l.frag).issued == m
    | none => none
  let inLaunch := ls.filter fun l => (s.frag l.frag).state.inLaunch
  let parked := ls.filter fun l => (s.frag l.frag).parked || (s.frag l.frag).msync.isSome || (s.frag l.frag).state != .ready
  if !inLaunch.isEmpty then oldest inLaunch else if !parked.isEmpty then oldest parked else oldest ls
/-- R110: a line is dropped; a dirty one is written back to its record, which ends an error there. -/
def State.dropLine (s : State) (core : Nat) (l : LineEnt) : State :=
  let s1 := s.setCore core { s.core core with lines := (s.core core).lines.filter (· != l) }
  if l.dirty then { s1 with sramErr := s1.sramErr.filter fun e => e != (4, 1024 * l.frag + l.line) } else s1
/-- R108: the lines taken: each resident fragment reserves two for its scalars, and each vector held takes one. -/
def State.linesUsed (s : State) (core : Nat) : Nat :=
  ((s.core core).lines.filter fun l => decide (l.line < 256) && s.occupies l).length + 2 * s.entries core
/-- R110: lines are evicted until `room` more would fit in the 1,024, or none may be. -/
def State.trimLines (s : State) (core room fuel : Nat) : State :=
  match fuel with
  | 0 => s
  | k + 1 => if s.linesUsed core + room ≤ 1024 then s else (match s.victim core with | some v => (s.dropLine core v).trimLines core room k | none => s)
/-- R108, R110: whether `room` lines more find room, by eviction or without. -/
def State.linesFit (s : State) (core room : Nat) : Bool :=
  decide (s.linesUsed core + room ≤ 1024 + ((s.core core).lines.filter s.evictable).length)
/-- R110: room for lines. -/
def State.lineRoom (s : State) (core room : Nat) : State := s.trimLines core room 1024

/-- R108, R109: a fragment takes a free context-state entry of its core, and two lines with it. -/
def State.seat (s : State) (n : Nat) : State :=
  let s := s.lineRoom (s.frag n).coreKey 2
  (s.setFrag n { s.frag n with resident := true, since := s.clock }).setCore (s.frag n).coreKey ((s.core (s.frag n).coreKey).join n)
/-- R109, R165: a fragment takes a free context-state entry of its core, or joins the residency wait list. -/
def State.acquire (s : State) (n : Nat) : State :=
  let f := s.frag n
  let c := s.core f.coreKey
  if s.entries f.coreKey < 64 ∧ c.waits = [] ∧ (f.resident ∨ s.linesFit f.coreKey 2) then s.seat n
  else if c.waits.contains n then s
  else s.setCore f.coreKey { c with waits := c.waits ++ [n] }

end Sys2Proof.Machine
end

