-- ==== Sys2Proof/Machine/Perform.lean ====
section
/-! DEFINITION. Error events (R348 to R350), and the elements of an access where they are performed (R217, R218, R227,
R232). -/

namespace Sys2Proof.Machine

/-! Events -/

/-- R361: an MSI-X message of a function. -/
def State.msixFn (s : State) (fn vector : Nat) : State := { s with hostOut := s.hostOut ++ [.msix fn vector] }
/-- R361: an MSI-X message of a partition: of its virtual function, or of the physical function. -/
def State.msix (s : State) (part vector : Nat) : State := s.msixFn (s.part part).vf.toNat vector

/-- R349: an event record. -/
def eventRecord (code cause cause2 : BitVec 8) (home dev grid team seq : Nat) (addr info : DWord) : BitVec 256 :=
  code ++ cause ++ cause2 ++ BitVec.ofNat 4 home ++ BitVec.ofNat 12 dev ++ BitVec.ofNat 28 grid ++ BitVec.ofNat 16 team ++
    0x0#4 ++ BitVec.ofNat 40 seq ++ addr ++ info

/-- R348: room in a partition's error queue. -/
def Part.eqRoom (p : Part) : Bool := p.eqlog != 0#5 && decide ((p.eqtail - p.eqhead).toNat < 2 ^ p.eqlog.toNat)

/-- R348: writing one record at the tail. -/
def State.writeRecord (s : State) (part : Nat) (r : Nat → BitVec 256) : State :=
  let p := s.part part
  let at' := dramKey (fld p.eqbase 60 4) (fld p.eqbase 0 36 + 32 * (p.eqtail.toNat % 2 ^ p.eqlog.toNat))
  let s := s.writeMem (cellsAt at' (leBytes 32 (r p.eqseq.toNat).toNat))
  let s := s.setPart part { p with eqtail := p.eqtail + 1, eqseq := p.eqseq + 1, written := p.written + 1 }
  if p.eqtail = p.eqhead then s.msix part 0 else s

/-- R348: the events lost are reported once the queue has room. -/
def State.reportLost (s : State) (part : Nat) : State :=
  let p := s.part part
  if p.lost ≠ 0 ∧ p.eqRoom then
    let s1 := s.writeRecord part fun seq => eventRecord 0x8A#8 0 0 0 s.fabric.toNat 0 0 seq 0 (BitVec.ofNat 64 p.lost)
    s1.setPart part { s1.part part with lost := 0 }
  else s
/-- R348: an event whose queue is full is counted; the next record written is LOST. -/
def State.raiseEvent (s : State) (part : Nat) (r : Nat → BitVec 256) : State :=
  let s := s.reportLost part
  let p := s.part part
  if p.eqRoom ∧ p.lost = 0 then s.writeRecord part r else s.setPart part { p with lost := p.lost + 1, dropped := p.dropped + 1 }

/-- R349: an event about a group: its partition, grid and team. -/
def State.groupEvent (s : State) (group : Nat) (code cause cause2 : BitVec 8) (home : Nat) (addr info : DWord) : State :=
  let g := s.group group
  s.raiseEvent g.rights.part fun seq => eventRecord code cause cause2 home g.dev g.gridid.toNat g.teamid.toNat seq addr info

/-- R350: an element, drain or write-back that faults after issue; `pc` is the issuing word's address where known. -/
def State.postedFault (s : State) (group : Nat) (cause : BitVec 8) (home : Nat) (va pc : DWord) : State :=
  s.groupEvent group 0x80#8 cause 0 home va pc

/-- R296, R350: the completion addition of a grid faults. -/
def State.completionFault (s : State) (k : Nat) (code : BitVec 8) : State :=
  let g := s.grid k
  s.raiseEvent g.part fun seq => eventRecord 0x86#8 code 0 0 s.fabric.toNat g.gridid.toNat 0 seq g.rcd.done g.rcd.done

/-! Elements -/

/-- R227: the value an atomic operation writes. -/
def atomNew (op : AtomOp) (old x c : Word) : Word :=
  match op with
  | .add => old + x
  | .minI => if old.sle x then old else x
  | .maxI => if old.sle x then x else old
  | .minN => if old.ule x then old else x
  | .maxN => if old.ule x then x else old
  | .and => old &&& x
  | .or => old ||| x
  | .xor => old ^^^ x
  | .swap => x
  | .cas => if old = c then x else old
  | .addF => fadd .rne old x
  | .minF => fmin old x
  | .maxF => fmax old x

/-- R79: the operation of an ATOM. -/
def atomOf (second : Bool) (op : BitVec 3) : AtomOp :=
  if second then
    match op.toNat with
    | 0 => .addF
    | 1 => .minN
    | 2 => .maxN
    | 3 => .minF
    | _ => .maxF
  else
    match op.toNat with
    | 0 => .add
    | 1 => .minI
    | 2 => .maxI
    | 3 => .and
    | 4 => .or
    | 5 => .xor
    | 6 => .swap
    | _ => .cas
/-- R79: the operation of an ATP. -/
def atpOf (op : BitVec 3) : AtomOp :=
  match op.toNat with
  | 0 => .add
  | 1 => .minI
  | 2 => .maxI
  | 3 => .and
  | 4 => .or
  | 5 => .xor
  | _ => .addF

/-- The bytes an element writes. -/
def Elem.cells (e : Elem) : List (Nat × Byte) := cellsAt e.key (leBytes e.size e.data.toNat)
/-- R218: the value of an element read, and whether the read meets an error. -/
def State.readElem (s : State) (e : Elem) : DWord × Bool :=
  (BitVec.ofNat 64 (s.valIn e.space e.key e.size), s.errIn e.space e.key e.size)
/-- R217: elements read together: values by lane, and the lanes that met an error. -/
def State.readElems (s : State) (es : List Elem) : List (Nat × DWord) × Mask :=
  (es.map fun e => (e.lane, (s.readElem e).1), maskOf fun l => es.any fun e => e.lane == l && (s.readElem e).2)

/-- R214: STS into a mapped range sets the dirty bits of the bytes it writes. -/
def Team.dirty (t : Team) (off : Nat) : Team :=
  match t.mapAt off with
  | some e =>
    match t.maps.find e with
    | some m => { t with maps := t.maps.ins e { m with dirty := if m.dirty.contains (off - m.off) then m.dirty else m.dirty ++ [off - m.off] } }
    | .none => t
  | .none => t
/-- R214: the dirty bits for a byte of a scratchpad, in the team whose reservation holds it. -/
def State.dirtyAt (s : State) (key : Nat) : State :=
  match s.teams.find? fun e => s.holdsCore e.2 && decide (scrKey e.2.coreKey e.2.base ≤ key ∧ key < scrKey e.2.coreKey (e.2.base + e.2.size)) with
  | some (n, t) => s.setTeam n (t.dirty (key - scrKey t.coreKey t.base))
  | none => s

/-- R310: sync words of a team whose count has reached their target advance. -/
def State.syncStep (s : State) (team : Nat) : State :=
  let t := s.team team
  t.syncs.foldl (fun s o =>
    let k := scrKey t.coreKey (t.base + o)
    let target := s.valIn .scratch (k + 12) 4
    let count := s.valIn .scratch (k + 8) 4
    if target = 0 ∨ count < target then s
    else s.writeScr (cellsAt (k + 8) (leBytes 4 (count % target)) ++ cellsAt (k + 4) (leBytes 4 (s.valIn .scratch (k + 4) 4 + count / target)))) s
/-- R310: the sync words of every team that holds a core advance, once bytes of scratchpads have been written. -/
def State.syncAll (s : State) : State := (s.teams.filter fun t => s.holdsCore t.2).foldl (fun s t => s.syncStep t.1) s
/-- R310: an offset is named as a sync word of a team (log 61). -/
def State.nameSync (s : State) (team off : Nat) : State :=
  let t := s.team team
  if t.syncs.contains off then s else s.setTeam team { t with syncs := t.syncs ++ [off] }
/-- R310: the same where the word stands as it is: its count may have met its target already. -/
def State.useSync (s : State) (team off : Nat) : State := if (s.team team).syncs.contains off then s else (s.nameSync team off).syncStep team

/-- One element of each lane named in a list. -/
def perLane (es : List Elem) : List Elem :=
  es.foldl (fun acc e => if acc.any fun x => x.lane == e.lane then acc else acc ++ [e]) []

/-- R217, R218, R223: elements stored as one write, in ascending lane order; an element in a unit in error that the write does not
cover is not written and raises an event. -/
def State.storeElems (s : State) (group home : Nat) (pc : DWord) (es : List Elem) : State :=
  let dram := es.filter fun e => e.space == .dram
  let bad := s.badUnits (dram.flatMap Elem.cells)
  let s1 := s.writeMem (dram.flatMap Elem.cells)
  let scr := (es.filter fun e => e.space == .scratch).flatMap Elem.cells
  let s2 := if scr.isEmpty then s1 else (scr.foldl (fun s c => s.dirtyAt c.1) (s1.writeScr scr)).syncAll
  let s3 := s2.writeVault ((es.filter fun e => e.space == .vault).flatMap Elem.cells)
  (perLane (dram.filter fun e => bad.contains (e.key % 2 ^ 40 / 32))).foldl (fun s e => s.postedFault group 0x19#8 home e.va pc) s3

/-- R218, R227: one atomic element: the old value, or an error that leaves the word unchanged. -/
def State.atomElem (s : State) (e : Elem) : State × Word × Bool :=
  let old : Word := BitVec.ofNat 32 (s.valIn e.space e.key 4)
  if e.space == .dram && s.readErr e.key 4 then (s, old, true)
  else (s.writeIn e.space (cellsAt e.key (leBytes 4 (atomNew (e.op.getD .add) old (e.data.setWidth 32) e.cmp).toNat)), old, false)
/-- R227: atomic elements in ascending lane order: old values by lane, and the lanes that met an error. -/
def State.atomElems (s : State) (es : List Elem) : State × List (Nat × DWord) × Mask :=
  es.foldl (fun a e =>
    let r := a.1.atomElem e
    (r.1, a.2.1 ++ [(e.lane, r.2.1.setWidth 64)], if r.2.2 then a.2.2 ||| BitVec.twoPow 96 e.lane else a.2.2)) (s, [], 0x0#96)
/-- R228: posted atomic elements; an error raises an event. -/
def State.postedAtoms (s : State) (group home : Nat) (pc : DWord) (es : List Elem) : State :=
  let r := s.atomElems es
  es.foldl (fun s e => if r.2.2.getLsbD e.lane then s.postedFault group 0x19#8 home e.va pc else s) r.1
/-- Stores or posted atomics, as the elements say. -/
def State.writeElems (s : State) (group home : Nat) (pc : DWord) (es : List Elem) : State :=
  if es.any fun e => e.op.isSome then s.postedAtoms group home pc es else s.storeElems group home pc es

/-- R210: whether an element is stale where it arrives: the home no longer holds its page there, or holds it under a higher
generation. -/
def State.staleAt (s : State) (home : Nat) (r : Rights) (e : Elem) : Bool :=
  e.space == .dram &&
    (match s.translate (s.home home).tlb r.asid e.va with
     | .ok x => x.dev != s.fabric.toNat || x.home != home || dramKey x.home (x.pa e.va) != e.key % 2 ^ 40 || decide (r.asgen < x.gen)
     | .error _ => true)

/-- R212, R213, R217, R235: a request of stores or posted operations is performed where it arrives: stale elements are discarded
with an event. -/
def State.performReq (s : State) (r : Req) : State :=
  let old := r.elems.filter fun e => s.staleAt r.home r.rights e
  let s := (perLane old).foldl (fun s e => s.postedFault r.group 0x15#8 r.home e.va r.pc) s
  s.writeElems r.group r.home r.pc (r.elems.filter fun e => !old.contains e)

end Sys2Proof.Machine
end

