-- ==== Sys2Proof/Machine/Send.lean ====
section
/-! DEFINITION. What a fragment has under way (R225), and how its accesses leave the core: store requests and posted operations
(R223, R224, R235), the write-combining buffer (R247, R314), requests to other devices and ordered flags (R248, R337), and the
checks and waits that all access words share (R217, R225, R238, R240). -/

namespace Sys2Proof.Machine

/-! Releases -/

/-- Whether a message is an access of a fragment that a release waits for (R225). -/
def Msg.ofFrag (m : Msg) (n : Nat) : Bool :=
  match m with
  | .store r => r.owners.contains n
  | .posted r => r.owners.contains n
  | .ack os _ _ => os.contains n
  | .read r _ => r.owners.contains n
  | .data k _ _ _ => k == n
  | .split k _ _ _ => k == n
  | .xatom x => x.owners.contains n
  | .parcel _ _ _ => false

/-- Whether an access of the message is on an SO page. -/
def Msg.so (m : Msg) : Bool :=
  match m with
  | .store r => r.ord == 0
  | .posted r => r.ord == 0
  | .ack _ so _ => so
  | .read r _ => r.ord == 0
  | .xatom x => x.ord == 0
  | _ => false
/-- Whether an outstanding result is a load's (R225). -/
def OutKind.access (k : OutKind) : Bool :=
  match k with
  | .sector _ => true
  | .remote _ _ _ => true
  | .stay _ => true
  | _ => false
/-- Whether later accesses wait for an outstanding result. -/
def OutKind.acquires (k : OutKind) : Bool :=
  match k with
  | .sector a => a
  | .remote _ a _ => a
  | .stay a => a
  | _ => false

/-- Lines of the write-combining buffers that hold bytes of a fragment, with their cores (R247): a fused fragment has them where its waiters
stood (R237). -/
def State.wcLinesOf (s : State) (n : Nat) : List (Nat × WcLine) :=
  s.cores.flatMap fun c => (c.2.wc.filter fun l => l.frags.contains n).map fun l => (c.1, l)

/-- R225, R226, R241: whether every earlier access of a fragment has been performed; at scope .sys its write-combined bytes too. -/
def State.released (s : State) (n : Nat) (sys : Bool) : Bool :=
  !((s.frag n).outs.any fun o => o.kind.access) && !(s.net.any fun m => m.ofFrag n) &&
    !(s.banks.any fun b => b.2.queue.any fun x => x.owners.contains n) &&
    !(s.remote.any fun r => r.owners.contains n && (sys || !r.wc)) && (!sys || (s.wcLinesOf n).isEmpty)

/-- R225, R238: whether an acquire, or an access of an SO page, keeps later accesses of a fragment from issuing. -/
def State.accessHeld (s : State) (n : Nat) : Bool :=
  ((s.frag n).outs.any fun o => o.kind.acquires) || (s.remote.any fun r => r.owners.contains n && r.so) ||
    (s.net.any fun m => m.ofFrag n && m.so) || (s.banks.any fun b => b.2.queue.any fun x => x.owners.contains n && x.ord == 0)

/-! Other devices -/

/-- R366, R368: whether the trained ports of a home are in extended mode. -/
def State.extended (s : State) (home : Nat) : Bool :=
  let ps := (List.range 12).filterMap fun i => if (s.port (12 * home + i)).trained then some (s.port (12 * home + i)).extended else none
  !ps.isEmpty && ps.all id

/-- R337: no request counted. -/
def noCounts : List Nat := List.replicate 8 0

/-- R337: a close marker for a record. -/
def State.closePath (s : State) (core : Nat) (r : Rights) (p : PathRec) : State :=
  { s with fabOut := s.fabOut ++ [.flag s.fabric.toNat p.dev core r.keyidx r.asid r.asgen r.priv [] false p.epoch p.sent 0] }

/-- R337: a record that is closed goes; one made for its device later begins with the other epoch. -/
def Core.dropPath (c : Core) (p : PathRec) : Core :=
  { c with paths := c.paths.filter (fun q => q.dev != p.dev), epochs := KMap.ins c.epochs p.dev (!p.epoch) }
/-- R337: a record with nothing counted, added for a device. -/
def Core.addPath (c : Core) (dev : Nat) : Core := { c with paths := c.paths ++ [⟨dev, (KMap.find c.epochs dev).getD false, noCounts, none⟩] }
/-- R337: the record of a device, made if need be; a seventeenth takes the place of the oldest, which is closed. -/
def State.pathFor (s : State) (core : Nat) (r : Rights) (dev : Nat) : State :=
  let c := s.core core
  if c.paths.any fun p => p.dev == dev then s
  else
    match c.paths with
    | old :: _ => if c.paths.length < 16 then s.setCore core (c.addPath dev) else (s.closePath core r old).setCore core ((c.dropPath old).addPath dev)
    | [] => s.setCore core (c.addPath dev)
/-- R337: a record whose counts have been sent: the next epoch, nothing counted. -/
def PathRec.flip (p : PathRec) : PathRec := { p with epoch := !p.epoch, sent := noCounts }
/-- R337: changing the record of a device. -/
def State.onPath (s : State) (core dev : Nat) (g : PathRec → PathRec) : State :=
  s.setCore core { s.core core with paths := updFirst (fun p => p.dev == dev) g (s.core core).paths }
/-- R337: the record of a device. -/
def State.pathOf (s : State) (core dev : Nat) : PathRec := ((s.core core).paths.find? fun p => p.dev == dev).getD ⟨dev, false, noCounts, none⟩

/-- R337, R367: the path of request number `tag`, which is the model's choice (log 21); 8 stands for standard mode, which has no paths. -/
def State.pathNo (s : State) (home tag : Nat) : Nat := if s.extended home then tag % 8 else 8
/-- R337: a request of a source core and epoch is finished with, on its path; one of standard mode is not counted. -/
def State.countDone (s : State) (src core : Nat) (epoch : Bool) (path : Nat) : State :=
  let isIt := fun (d : DoneRec) => d.src == src && d.core == core && d.epoch == epoch
  let recs := if s.doneRecs.any isIt then s.doneRecs else s.doneRecs ++ [⟨src, core, epoch, noCounts⟩]
  if 8 ≤ path then s else { s with doneRecs := updFirst isIt (fun d => { d with done := d.done.set path (d.done[path]?.getD 0 + 1) }) recs }
/-- R337: a request to a device is counted on its path; the record's epoch is what it carries. -/
def State.countPath (s : State) (core : Nat) (r : Rights) (dev path : Nat) : State :=
  if s.extended (core / 256) then
    let s := s.pathFor core r dev
    let s := if 65535 ≤ (s.pathOf core dev).sent[path]?.getD 0 then (s.closePath core r (s.pathOf core dev)).onPath core dev PathRec.flip else s
    s.onPath core dev fun p => { p with sent := p.sent.set path (p.sent[path]?.getD 0 + 1) }
  else s
/-- What is awaited of another device, with the report of a failure: the group and word of its first owner. -/
def State.await (s : State) (tag dev : Nat) (owners : List Nat) (wc so : Bool) (asid line : Nat) (asker : Option Asker) (vas : List DWord)
    (core : Option Nat) : Remote :=
  let f := s.frag (owners.headD s.cur)
  ⟨tag, dev, owners, wc, so, asid, line, asker, f.group, if wc then 0 else f.pc, vas, core⟩

/-- R367: whether the ports of a home refuse traffic with another device: in standard mode, to or from a number above 1,023. -/
def State.portShut (s : State) (home dev : Nat) : Bool := !s.extended home && decide (1024 ≤ dev ∨ 1024 ≤ s.fabric.toNat)
/-- R367: a message for another device leaves; where it is refused at the port, `refused` is the answer. -/
def State.toPort (s : State) (home dev : Nat) (m refused : FabMsg) : State :=
  if s.portShut home dev then { s with fabIn := s.fabIn ++ [refused] } else { s with fabOut := s.fabOut ++ [m] }
/-- R146, R367: an update of a fragment's split entry, or word of it, leaves for another device; refused at the port, nothing of it is sent. -/
def State.splitOut (s : State) (home dev : Nat) (g : Group) (idx : Nat) (u : SplitUpd) (at' : WordAt) : State :=
  if s.portShut home dev then s
  else { s with fabOut := s.fabOut ++ [FabMsg.split s.fabric.toNat dev g.rights.keyidx g.gridid g.teamid g.gidx idx u at'] }
/-- R367: the answer to a request refused at the issuing port. -/
def State.portRefusal (s : State) (tag : Nat) (bad : List Nat) : FabMsg := .reply s.fabric.toNat tag (Reply.refuse bad 0x16#8)
/-- How answers number the elements of a request: those of a read by their lanes, others by their places. -/
def allBad (kind : BitVec 5) (es : List Elem) : List Nat := if kind = 0x02#5 then es.map (·.lane) else List.range es.length
/-- R315, R337: a request to another device: it is counted on its path, and its answer is awaited under its tag. `kind` is the right
of R323 that it needs, `bnd` says that it writes a bounded value. -/
def State.fabSend (s : State) (core : Nat) (r : Rights) (dev : Nat) (kind : BitVec 5) (es : List Elem) (owners : List Nat)
    (wc so : Bool) (line : Nat) (asker : Option Asker := none) (bnd : Bool := false) : State :=
  let tag := s.newId.1
  let path := s.pathNo (core / 256) tag
  let s := s.newId.2.countPath core r dev path
  ({ s with remote := s.remote ++ [s.await tag dev owners wc so r.asid line asker (es.map (·.va)) (some core)] } : State).toPort (core / 256) dev
    (.req s.fabric.toNat dev core kind r.keyidx r.asid r.asgen r.priv es wc bnd (s.pathOf core dev).epoch path tag) (s.portRefusal tag (allBad kind es))

/-- R279, R315: an element of XATOM for another device is sent at once; its answer is its reply record. -/
def State.fabXatom (s : State) (core : Nat) (r : Rights) (dev : Nat) (x : XElem) (bnd : Bool) : State :=
  let tag := s.newId.1
  let path := s.pathNo (core / 256) tag
  let s := s.newId.2.countPath core r dev path
  ({ s with remote := s.remote ++ [s.await tag dev x.owners false (x.ord == 0) r.asid 0 (x.reply.map (Asker.reply x.group x.team)) [x.va] (some core)] } : State).toPort (core / 256) dev
    (.xatom s.fabric.toNat dev core r.keyidx r.asid r.asgen r.priv x bnd (s.pathOf core dev).epoch path tag) (s.portRefusal tag [0])

/-- R213, R315: a scratchpad operation of a group whose team lies on another device: it goes there from a home, and its answer is awaited by
`asker` where there is one. -/
def State.fabScratch (s : State) (group home : Nat) (owners : List Nat) (asker : Option Asker) (op : ScrOp) (es : List Elem) : State :=
  let tag := s.newId.1
  let g := s.group group
  let core := (s.frag (owners.headD s.cur)).coreKey
  let path := s.pathNo home tag
  let s := s.newId.2.countPath core g.rights g.dev path
  ({ s with remote := s.remote ++ [s.await tag g.dev owners false false g.rights.asid 0 asker (es.map (·.va)) none] } : State).toPort home g.dev
    (.scratch s.fabric.toNat g.dev core g.rights.keyidx g.rights.asid g.gridid g.teamid g.gidx op es (s.pathOf core g.dev).epoch path tag) (s.portRefusal tag (es.map (·.lane)))

/-- R248, R337: a word's release elements as an ordered flag: it carries the counts, and the next epoch begins. -/
def State.fabFlag (s : State) (core : Nat) (r : Rights) (dev : Nat) (es : List Elem) (owners : List Nat) (bnd : Bool) : State :=
  let tag := s.newId.1
  let s := s.newId.2.pathFor core r dev
  let p := s.pathOf core dev
  let s := s.onPath core dev fun p => { p.flip with last := some tag }
  { s with
    remote := s.remote ++ [s.await tag dev owners false false r.asid 0 none (es.map (·.va)) (some core)]
    fabOut := s.fabOut ++ [.flag s.fabric.toNat dev core r.keyidx r.asid r.asgen r.priv es bnd p.epoch p.sent tag] }

/-- R247: a line's valid bytes as elements of one write. -/
def WcLine.elems (l : WcLine) : List Elem :=
  l.bytes.map fun b => Elem.mk 0 .dram 0 1 (b.2.setWidth 64) (BitVec.ofNat 64 (256 * l.line + b.1)) none 0
/-- R247: whether an earlier drain of the line's key is unanswered. -/
def State.drainBusy (s : State) (l : WcLine) : Bool :=
  s.remote.any fun r => r.wc && r.dev == l.dev && r.asid == l.asid && r.line == l.line
/-- R247, R314: a line drains: at once, or when the earlier drain of its key has been answered. -/
def State.drainLine (s : State) (core : Nat) (l : WcLine) : State :=
  if s.drainBusy l then s.setCore core { s.core core with wc := (s.core core).wc.map fun x => if x = l then { x with due := true } else x }
  else (s.setCore core { s.core core with wc := (s.core core).wc.filter (· != l) }).fabSend core l.rights l.dev 0x04#5 l.elems l.frags true false l.line none l.bnd
/-- R247: every line with bytes of a fragment drains. -/
def State.drainFrag (s : State) (n : Nat) : State :=
  (s.wcLinesOf n).foldl (fun s l => s.drainLine l.1 l.2) s
/-- R247: the lines that waited for the answer to a drain of their key drain. -/
def State.drainDue (s : State) : State :=
  (s.cores.flatMap fun c => (c.2.wc.filter fun l => l.due && !s.drainBusy l).map fun l => (c.1, l)).foldl (fun s l => s.drainLine l.1 l.2) s
/-- R236, R248: the lines of a core that hold a byte of elements which are to be sent uncombined: those drain first. -/
def State.linesMeeting (s : State) (core dev : Nat) (r : Rights) (es : List Elem) : List WcLine :=
  (s.core core).wc.filter fun l => l.dev == dev && l.asid == r.asid && l.elems.any fun b => es.any fun e => decide (e.va.toNat ≤ b.va.toNat ∧ b.va.toNat < e.va.toNat + e.size)

/-- R247: whether a line is the one for an element. -/
def WcLine.keyed (l : WcLine) (dev : Nat) (r : Rights) (va : DWord) : Bool := l.dev == dev && l.asid == r.asid && l.line == va.toNat / 256
/-- R247: the line of an element's key. -/
def State.wcLine (s : State) (core dev : Nat) (r : Rights) (va : DWord) : Option WcLine := (s.core core).wc.find? fun l => l.keyed dev r va
/-- R247, R314: the line that must drain before an element merges: its own where a ninth fragment comes to it, the oldest where a new line
is needed and all 64 are in use. -/
def State.wcVictim (s : State) (core n dev : Nat) (r : Rights) (va : DWord) : Option WcLine :=
  match s.wcLine core dev r va with
  | some l => if 8 ≤ l.frags.length ∧ ¬ l.frags.contains n then some l else none
  | none => if 64 ≤ (s.core core).wc.length then (s.core core).wc.head? else none
/-- R247, R314: the line of an element's key, or a new one, with room for it. -/
def State.wcRoom (s : State) (core n dev : Nat) (r : Rights) (va : DWord) : State :=
  let s := match s.wcVictim core n dev r va with
    | some l => s.drainLine core l
    | none => s
  if (s.wcLine core dev r va).isSome then s
  else s.setCore core { s.core core with wc := (s.core core).wc ++ [⟨dev, r.asid, va.toNat / 256, [], [], s.clock, r, false, false⟩] }
/-- R247: an element merges its bytes into its line; a full line drains. -/
def State.wcMerge (s : State) (core n dev : Nat) (r : Rights) (bnd : Bool) (e : Elem) : State :=
  let s := s.wcRoom core n dev r e.va
  let add := fun (l : WcLine) => { l with
    bytes := (leBytes e.size e.data.toNat).mapIdx (fun i b => (e.va.toNat % 256 + i, b)) |>.foldl (fun m c => KMap.ins m c.1 c.2) l.bytes
    frags := if l.frags.contains n then l.frags else l.frags ++ [n]
    bnd := l.bnd || bnd }
  let s := s.setCore core { s.core core with wc := updFirst (fun l => l.keyed dev r e.va) add (s.core core).wc }
  match (s.core core).wc.find? fun l => l.keyed dev r e.va with
  | some l => if l.bytes.length = 256 then s.drainLine core l else s
  | none => s

/-! Order of arrival (R235, R238, R242, R275, R285) -/

/-- R273: channel, and bank unit, of a physical address; first address of its row. -/
def chanOf (pa : Nat) : Nat := pa / 1024 % 32
def unitOf (pa : Nat) : Nat := 4 * chanOf pa + pa / 1024 / 32 % 4
def rowOf (pa : Nat) : Nat := pa - pa % 1024

/-- The place where the elements of a request are performed: a home's memory, a core's scratchpad or a home's vaults (R235, R242). -/
def Req.place (r : Req) : Space × Nat :=
  match r.elems with
  | e :: _ => (e.space, match e.space with | .dram => r.home | .scratch => e.key / 2 ^ 18 | .vault => r.home)
  | [] => (.dram, r.home)
/-- Whether two requests touch a common byte. -/
def touches (xs ys : List Elem) : Bool :=
  xs.any fun x => ys.any fun y => x.space == y.space && decide (x.key % 2 ^ 40 < y.key % 2 ^ 40 + y.size ∧ y.key % 2 ^ 40 < x.key % 2 ^ 40 + x.size)
/-- An element of XATOM as the bytes of its row. -/
def XElem.elem (x : XElem) : Elem := ⟨0, .dram, dramKey x.home (rowOf x.pa), 1024, 0, x.va, none, 0⟩
/-- What a message does where it arrives: its fragments, its place, its elements and whether its page is UO; none of what is no such
request. -/
def Msg.request (m : Msg) : Option (List Nat × (Space × Nat) × List Elem × Bool) :=
  match m with
  | .store r => some (r.owners, r.place, r.elems, r.ord == 2)
  | .posted r => some (r.owners, r.place, r.elems, r.ord == 2)
  | .read r _ => some (r.owners, r.place, r.elems, r.ord == 2)
  | .xatom x => some (x.owners, (.dram, x.home), [x.elem], x.ord == 2)
  | .parcel n h _ => some ([n], (.dram, h), [], false)
  | _ => none
def sharesOwner (xs ys : List Nat) : Bool := xs.any fun x => ys.contains x
/-- R285: whether two messages are elements of XATOM for one bank unit. -/
def Msg.oneUnit (m e : Msg) : Bool :=
  match m, e with
  | .xatom x, .xatom y => x.home == y.home && unitOf x.pa == unitOf y.pa
  | _, _ => false
/-- R235, R238, R242, R285: whether an earlier message of the same fragment keeps a message from being performed: one to the same place,
but on UO pages only one that touches a common byte, or an element of XATOM before another of its unit; before an access of an SO page, any. -/
def Msg.waitsFor (m e : Msg) : Bool :=
  match m.request, e.request with
  | some a, some b => sharesOwner a.1 b.1 && (m.so || m.oneUnit e || (a.2.1 == b.2.1 && (touches a.2.2.1 b.2.2.1 || !(a.2.2.2 && b.2.2.2))))
  | _, _ => false
/-- R191, R236: a read that FLDC makes is not ordered with the fragment's other accesses, but for SO pages. -/
def State.looseRead (s : State) (m : Msg) : Bool :=
  match m with
  | .read r id => r.ord != 0 &&  (s.frag r.frag).outs.any fun o => match o.kind with | .remote k _ c => k == id && decide (16 ≤ c) | _ => false
  | _ => false
/-- R285: whether an element of XATOM that a unit has accepted is still before a message. `unit` is the unit that the message itself is
for. -/
def State.bankBefore (s : State) (m : Msg) (unit : Option Nat) : Bool :=
  match m.request with
  | some a => s.banks.any fun b => some b.1 != unit && b.2.queue.any fun x =>
      sharesOwner a.1 x.owners && (m.so || (a.2.1 == (Space.dram, x.home) && (touches a.2.2.1 [x.elem] || !(a.2.2.2 && x.ord == 2))))
  | none => false
/-- R275: whether the channel of an element of device memory is in its compute phase. -/
def State.inCompute (s : State) (e : Elem) : Bool := e.space == .dram && (s.chan (32 * (e.key / 2 ^ 36 % 16) + chanOf (e.key % 2 ^ 36))).compute
/-- Whether message `n` in flight may be performed now. -/
def State.mayArrive (s : State) (n : Nat) (m : Msg) (unit : Option Nat) : Bool :=
  !((s.net.take n).any fun e => m.waitsFor e && !s.looseRead m) && !(s.bankBefore m unit && !s.looseRead m) &&
    !(m.so && s.net.any fun e => match e, m.request with | .ack os so _, some a => so && sharesOwner a.1 os | _, _ => false)
/-- R19: whether the elements lie at enabled homes: nothing is ever delivered to another. -/
def State.delivered (s : State) (es : List Elem) : Bool := es.all fun e => e.space != .dram || (s.fuseOf (e.key / 2 ^ 36 % 16)).home
/-- Whether the channels of a request serve ordinary requests now (R275). -/
def State.served (s : State) (es : List Elem) : Bool := s.delivered es && !(es.any s.inCompute)

/-! Global access words -/

/-- The elements of a word that lie on one page (R217). -/
structure PageReq where
  page : Nat
  dev : Nat
  home : Nat
  ord : Nat
  bnd : Bool
  elems : List Elem
  deriving DecidableEq, Repr

/-- A page joins the list, in ascending page address (R238); one that the caches of a moment show at two homes stays two
(DESIGN CHOICE, log 64). -/
def addPage (ps : List PageReq) (p : PageReq) : List PageReq :=
  match ps with
  | [] => [p]
  | q :: r => if p.page = q.page ∧ p.dev = q.dev ∧ p.home = q.home ∧ p.bnd = q.bnd then { q with elems := q.elems ++ p.elems } :: r else if p.page < q.page then p :: q :: r else q :: addPage r p
/-- R217: elements by page, with the physical key of each. -/
def State.pages (s : State) (core : Nat) (r : Rights) (es : List Elem) : List PageReq :=
  es.foldl (fun ps e =>
    let x := s.leafOf core r.asid e.va
    addPage ps ⟨e.va.toNat - e.va.toNat % (if x.big then 2 ^ 21 else 2 ^ 16), x.dev, x.home, x.ord, x.bnd, [{ e with key := s.cellOf x e.va }]⟩) []

/-- Parts of an order code (R78). -/
def isAcq (o : BitVec 3) : Bool := o.getLsbD 0
def isRel (o : BitVec 3) : Bool := o.getLsbD 1
def isSys (o : BitVec 3) : Bool := o.getLsbD 2

/-- R218: whether a page of a word is bounded. -/
def pagesBnd (ps : List PageReq) : Bool := ps.any (·.bnd)

/-- R226, R240: whether the wait of a FENCE is met. -/
def State.fenceMet (s : State) (n : Nat) (acq rel sys : Bool) : Bool :=
  (!rel || s.released n sys) && (!acq || (!(s.frag n).outs.any fun o => o.kind.access) && !s.accessHeld n)

/-- R248, R337: whether the last ordered flag of a core to a device is unanswered: the next waits for it (log 21). -/
def State.flagOut (s : State) (core dev : Nat) : Bool := s.remote.any fun r => r.dev == dev && (s.pathOf core dev).last == some r.tag
/-- R248: whether the release elements of a word to a device go as an ordered flag: what is not yet performed goes there, and is counted at the
fragment's core. Not before a line whose drain has to wait (R240). -/
def State.flagGoes (s : State) (n dev : Nat) : Bool :=
  s.extended (s.frag n).home && !((s.frag n).outs.any fun o => o.kind.access) && !(s.net.any fun m => m.ofFrag n) &&
    !(s.banks.any fun b => b.2.queue.any fun x => x.owners.contains n) &&
    (s.remote.all fun r => !r.owners.contains n || r.dev == dev && r.core == some (s.frag n).coreKey) && (s.wcLinesOf n).all fun l => l.2.dev == dev && l.1 == (s.frag n).coreKey && !s.drainBusy l.2

/-- R223, R224, R228, R238, R247: one page's elements of a store or posted operation leave the fragment at issue. -/
def State.sendPage (s : State) (posted sysrel : Bool) (bnd : Bool) (p : PageReq) : State :=
  let n := s.cur
  let f := s.f
  let r := s.g.rights
  if p.dev = s.fabric.toNat then
    if p.home = f.home then s.writeElems f.group f.home f.pc p.elems
    else
      let q : Req := ⟨n, f.group, f.pc, r, p.home, p.elems, p.ord, [n]⟩
      { s with net := s.net ++ [if posted then .posted q else .store q] }
  else
    let atoms := p.elems.any fun e => e.op.isSome
    if p.ord = 0 ∨ atoms ∨ sysrel then
      ((s.linesMeeting f.coreKey p.dev r p.elems).foldl (fun s l => s.drainLine f.coreKey l) s).fabSend f.coreKey r p.dev (if atoms then 0x08#5 else 0x04#5)
        p.elems [n] false (p.ord == 0) 0 none bnd
    else p.elems.foldl (fun s e => s.wcMerge f.coreKey n p.dev r bnd e) s
/-- R236: whether elements to be sent uncombined wait for a line with a byte of them whose drain has to wait. -/
def State.linesClash (s : State) (core : Nat) (r : Rights) (ps : List PageReq) : Bool :=
  ps.any fun p => p.dev != s.fabric.toNat && (p.elems.any fun e => e.op.isSome) && (s.linesMeeting core p.dev r p.elems).any s.drainBusy
/-- R235, R236, R275, R285: whether accesses that a fragment makes at its own home may be performed now: no earlier arrival from it must go
before them, and their channels serve ordinary requests. -/
def State.mayAccess (s : State) (n : Nat) (ps : List PageReq) : Bool :=
  let f := s.frag n
  ps.all fun p => p.dev != s.fabric.toNat || p.home != f.home ||
    (s.mayArrive s.net.length (.store ⟨n, f.group, f.pc, (s.group f.group).rights, p.home, p.elems, p.ord, [n]⟩) none && s.served p.elems)
/-- R275: the fragment's word waits, as an ordinary request, for the channels of its pages at its own home. -/
def State.waitFor (s : State) (ps : List PageReq) : State :=
  let mine := ps.filter fun p => p.dev == s.fabric.toNat && p.home == s.f.home
  s.setF { s.f with waitsAt := mine.flatMap fun p => p.elems.map fun e => 32 * (e.key / 2 ^ 36 % 16) + chanOf (e.key % 2 ^ 36) }
/-- R238: pages of a word that are sent one by one where one of them is SO, each when the accesses before it have been acknowledged; the others
all at once. `go` sends a page. The word's elements stay as they were at its issue (R50, R177). -/
def State.byPage (s : State) (so : Bool) (ps : List PageReq) (go : State → PageReq → State) (adv : State → State) : Act :=
  if so then
    match ps.drop s.f.sent with
    | p :: _ :: _ => .hold ((go s p).setF { (go s p).f with sent := s.f.sent + 1, kept := ps.flatMap (·.elems) })
    | qs => .done (adv ((qs.foldl go s).setF { (qs.foldl go s).f with sent := 0, kept := [] }))
  else .done (adv (ps.foldl go s))

/-- R247: whether elements of a word wait for a line: one that must drain first has an earlier drain of its key unanswered. -/
def State.wcWaits (s : State) (core n dev : Nat) (r : Rights) (bnd : Bool) (es : List Elem) : Bool :=
  match es with
  | [] => false
  | e :: rest => (match s.wcVictim core n dev r e.va with | some l => s.drainBusy l | none => false) || (s.wcMerge core n dev r bnd e).wcWaits core n dev r bnd rest
/-- R247: whether a word's elements for other devices wait for lines of the buffer. -/
def State.wcHeld (s : State) (core n : Nat) (r : Rights) (bnd : Bool) (ps : List PageReq) : Bool :=
  match ps with
  | [] => false
  | p :: rest =>
    if p.dev = s.fabric.toNat ∨ p.ord = 0 ∨ p.elems.any (·.op.isSome) then s.wcHeld core n r bnd rest
    else s.wcWaits core n p.dev r bnd p.elems || (p.elems.foldl (fun s e => s.wcMerge core n p.dev r bnd e) s).wcHeld core n r bnd rest

/-- R217, R223, R225, R238, R240, R247: a store or posted operation at issue. `es` are its elements, `adv` what the word does besides. A release
is held at issue until its wait is met (log 57). -/
def State.storeWord (s : State) (posted : Bool) (need : Need) (o : BitVec 3) (size : Nat) (bnd : Bool) (es : List Elem) (adv : State → State) : Act :=
  let n := s.cur
  let core := s.f.coreKey
  let r := s.g.rights
  let es := if s.f.sent = 0 then es else s.f.kept
  match s.checkGlobal core r need size bnd (es.map fun e => Addr.mk e.lane e.va e.size) with
  | some x => .fault x
  | none =>
    let ps := s.pages core r es
    let done := s
    let s := s.cache core r.asid (es.map (·.va))
    let s := if es.isEmpty && isSys o then s.drainFrag n else s
    let so := ps.any fun p => p.ord == 0
    let sysrel := isRel o && isSys o
    let dev := (ps.head?.map (·.dev)).getD 0
    let flag := sysrel && !ps.isEmpty && dev != s.fabric.toNat && (ps.all fun p => p.dev == dev && p.ord != 0) && s.flagGoes n dev
    if s.accessHeld n then .hold s
    else if es.isEmpty then if done.fenceMet n (isAcq o) (isRel o) (isSys o) then .done (adv s) else .hold s
    else if (isRel o || so) && !flag && !s.released n (sysrel || so) then .hold (if sysrel then s.drainFrag n else s)
    else if !s.mayAccess n ps then .hold (s.waitFor ps)
    else if (!sysrel && s.wcHeld core n r bnd ps) || s.linesClash core r ps then .hold s
    else if flag && s.flagOut core dev then .hold s
    else if flag then .done (adv ((s.drainFrag n).fabFlag core r dev (ps.flatMap (·.elems)) [n] bnd))
    else s.byPage so ps (fun s p => s.sendPage posted sysrel bnd p) adv

/-! Reads at other devices (R189, R198, R214, R221, R303, R305) -/

/-- What an operation of several reads comes to: a value, a wait, or a fault. -/
inductive Got (α : Type) where
  | val (x : α) (s : State)
  | wait (s : State)
  | stop (r : FaultRec)

def Got.bind {α β : Type} (x : Got α) (g : α → State → Got β) : Got β :=
  match x with
  | .val a s => g a s
  | .wait s => .wait s
  | .stop r => .stop r

/-- A word whose reads may have to be awaited (R189, R190). -/
def Got.act {α : Type} (x : Got α) (k : α → State → Act) : Act :=
  match x with
  | .val a s => k a s
  | .wait s => .hold s
  | .stop r => .fault r

/-- What has come back for an asker. -/
def State.answered (s : State) (k : Asker) : List Answer := s.answers.filter fun a => a.asker == k
/-- R213, R217: a scratchpad word of a fragment away from its team's device: its answer, once it is back. -/
def State.scratchAway (s : State) (op : ScrOp) (es : List Elem) : Got Reply :=
  match s.answered (.frag s.cur) with
  | a :: _ =>
    match a.reply.fault with
    | some x => .stop x
    | none =>
      if a.reply.code ≠ 0 then .stop (faultAt a.reply.code 0 ((es.filter fun e => a.reply.badAt e.lane).map fun e => ⟨e.lane, e.va, e.size⟩))
      else .val a.reply { s with answers := s.answers.filter fun x => x.asker != Asker.frag s.cur }
  | [] =>
    if s.remote.any fun x => x.asker == some (Asker.frag s.cur) then .wait s
    else .wait (s.fabScratch s.f.group s.f.home [s.cur] (some (.frag s.cur)) op es)
/-- R213, R217, R255: bytes of records at generic scratchpad addresses that a fragment away from its team's device reads, in 8-byte elements that
their lanes number; what has come back is kept until the word ends. -/
def State.recordAway (s : State) (sa : DWord) (es : List Elem) : Got (List (DWord × Bool)) :=
  let ans := s.answered (.frag s.cur)
  let find := fun (e : Elem) => ans.findSome? fun a => (KMap.find a.reply.vals e.lane).map fun v => (v, a.reply.badAt e.lane)
  match ans.findSome? fun a => (match a.reply.fault with | some x => some x.code | none => if a.reply.code = 0 then none else some a.reply.code).map fun c => faultAt c 0 [⟨0, sa, 64⟩] with
  | some x => .stop x
  | none =>
    if es.all fun e => (find e).isSome then .val (es.map fun e => (find e).getD (0, false)) s
    else if s.remote.any fun x => x.asker == some (Asker.frag s.cur) then .wait s
    else .wait (s.fabScratch s.f.group s.f.home [s.cur] (some (.frag s.cur)) .load (es.filter fun e => (find e).isNone))
/-- R217: where a code stands in the order of the checks of a global access. -/
def checkPlace (c : BitVec 8) : Nat :=
  if c = 0x10#8 then 1 else if c = 0x12#8 ∨ c = 0x19#8 then 2 else if c = 0x13#8 then 3 else if c = 0x15#8 then 4 else if c = 0x18#8 then 5 else 0
/-- R217: of codes by place, those of the first check that fails. -/
def firstFailing (bad : List (Nat × BitVec 8)) : List (Nat × BitVec 8) :=
  bad.filter fun b => bad.all fun x => decide (checkPlace b.2 ≤ checkPlace x.2)
/-- The places of a list of addresses that lie on a device. -/
def State.placesOn (s : State) (core asid dev : Nat) (as : List Addr) : List (Nat × Addr) :=
  (as.mapIdx fun i a => (i, a)).filter fun x => (s.leafOf core asid x.2.va).dev == dev

/-- R273: the channels of elements of device memory. -/
def chansOf (es : List Elem) : List Nat := (es.filter fun e => e.space == .dram).map fun e => 32 * (e.key / 2 ^ 36 % 16) + chanOf (e.key % 2 ^ 36)
/-- R275: what an asker reads or moves waits, as an ordinary request, for the channels of its elements; and it waits no longer. -/
def State.awaitChans (s : State) (k : Asker) (es : List Elem) : State := { s with chanWaits := (s.chanWaits.filter fun w => w.1 != k) ++ [(k, chansOf es)] }
def State.leaveChans (s : State) (k : Asker) : State := { s with chanWaits := s.chanWaits.filter fun w => w.1 != k }
/-- The elements of addresses that lie on this device. -/
def State.nearElems (s : State) (core : Nat) (r : Rights) (as : List Addr) : List Elem :=
  as.filterMap fun a => let x := s.leafOf core r.asid a.va
    if x.dev = s.fabric.toNat then some ⟨a.lane, .dram, s.cellOf x a.va, a.size, 0, a.va, none, 0⟩ else none
/-- Reading addresses that have passed their checks: each value and whether it was read in error. The answers from other devices are
taken once all are there; those not yet asked for are asked for. Channels that compute are waited for (R275), and what lies at a home that is fused
off is never delivered (R19). -/
def State.gather (s : State) (k : Asker) (core : Nat) (r : Rights) (as : List Addr) : Got (List (DWord × Bool)) :=
  let here := s.fabric.toNat
  let far := (as.mapIdx fun i a => (i, a)).filter fun x => (s.leafOf core r.asid x.2.va).dev != here
  let ans := s.answered k
  let find := fun i => ans.findSome? fun a => (KMap.find a.reply.vals i).map fun v => (v, a.reply.badAt i)
  let devs := (far.map fun x => (s.leafOf core r.asid x.2.va).dev).eraseDups
  let near := s.nearElems core r as
  if !s.served near then .wait (s.awaitChans k near)
  else match firstFailing (ans.flatMap fun a => if a.reply.code = 0 then [] else a.reply.bad) with
  | b :: bs =>
    if s.remote.any fun x => x.asker == some k then .wait s
    else .stop (faultAt b.2 (((ans.find? fun a => a.reply.code == b.2).map (·.reply.reason)).getD 0) ((far.filter fun x => (b :: bs).any fun y => y.1 == x.1).map (·.2)))
  | [] =>
    if far.all fun x => (find x.1).isSome then
      let s1 := (s.cache core r.asid (as.map (·.va)))
      .val (as.mapIdx fun i a =>
        let x := s.leafOf core r.asid a.va
        if x.dev = here then s.readElem ⟨0, .dram, s.cellOf x a.va, a.size, 0, a.va, none, 0⟩ else (find i).getD (0, false))
        (({ s1 with answers := s.answers.filter fun a => a.asker != k } : State).leaveChans k)
    else if s.remote.any fun x => x.asker == some k then .wait s
    else .wait (devs.foldl (fun s d =>
      s.fabSend core r d 0x02#5 ((s.placesOn core r.asid d as).map fun x => ⟨x.1, .dram, dramKey (s.leafOf core r.asid x.2.va).home 0, x.2.size, 0, x.2.va, none, 0⟩) []
        false false 0 (some k)) s)

end Sys2Proof.Machine
end

