-- ==== Sys2Proof/Machine/Ops.lean ====
section
/-! DEFINITION. Operations shared by many steps: barrier records and retiring lanes (R154,
R161), grid end (R347), taking a trap (R339 to R343) and returning from one (R345). -/

namespace Sys2Proof.Machine

/-! Retiring lanes -/

/-- R154: lanes retire from a barrier record. -/
def Bar.retire (b : Bar) (lanes : Mask) : Bar :=
  if b.armed then
    let e := without b.expect lanes
    if e = 0x0#96 then Bar.idle
    else ⟨true, if lanes.getLsbD b.alane then lowest e else b.alane, e, without b.arrived lanes⟩
  else b

def Group.bar (g : Group) (k : Nat) : Bar := g.bars.get Bar.idle k
def Group.setBar (g : Group) (k : Nat) (b : Bar) : Group := { g with bars := g.bars.put Bar.idle k b }

/-- R71: TRAPINFO0 of a fault at the word at issue: the word and its prefix. -/
def Frag.ti0 (f : Frag) : DWord :=
  match f.pfx with
  | some p => p.word ++ f.word
  | none => (0x00000000#32 : Word) ++ f.word
/-- R339: the resume address of a fault at the word at issue. -/
def Frag.rpc (f : Frag) : DWord :=
  match f.pfx with
  | some _ => f.pc - 4
  | none => f.pc

/-- R155: whether an update arms a barrier that is armed: it leaves the record as it is, and JOIN_MISMATCH is reported at its BSET. -/
def Group.clashes (g : Group) (u : SplitUpd) : Bool :=
  match u with
  | .bset k _ => (g.bar k).armed
  | _ => false
/-- R154, R155, R156: a change to the barrier records at the primary home. -/
def Group.applyUpd (g : Group) (u : SplitUpd) : Group :=
  match u with
  | .bset k own => if (g.bar k).armed then g else g.setBar k ⟨true, lowest own, own, 0x0#96⟩
  | .arrive k own => g.setBar k { g.bar k with arrived := (g.bar k).arrived ||| own }
  | .retire lanes => { g with bars := (g.bars.map fun b => (b.1, b.2.retire lanes)).filter fun b => b.2 ≠ Bar.idle }
  | _ => g

/-- R146: a fragment's change to its group's records: at once at the primary home, else it travels there, in issue order. -/
def State.splitUpdate (s : State) (n : Nat) (u : SplitUpd) : State :=
  let f := s.frag n
  let g := s.group f.group
  if f.home = g.home ∧ f.dev = s.fabric.toNat ∧ g.dev = s.fabric.toNat ∧ !(s.net.any fun m => match m with | .split k _ _ _ => k == n | _ => false) then
    s.setGroup f.group (g.applyUpd u)
  else { s with net := s.net ++ [.split n f.group u ⟨f.pc, f.rpc, f.ti0⟩] }

/-- R146: entries that a fragment away from its group's device holds reserved, and giving entries back. -/
def State.reserved (s : State) (n : Nat) : List Nat :=
  if s.keeps (s.group (s.frag n).group) then [] else match (s.frag n).grant with | .given es => es | _ => []
def State.giveBack (s : State) (n : Nat) (es : List Nat) : State := if es = [] then s else s.splitUpdate n (.back es)
/-- R146: what a fragment away has asked for and not used is given up. -/
def State.dropGrant (s : State) (n : Nat) : State :=
  if s.keeps (s.group (s.frag n).group) then s else (s.setFrag n { s.frag n with grant := .none }).giveBack n (s.reserved n)
/-- R146, R147: what the split entry of a fragment away from its group's device holds is sent to the primary home. -/
def State.report (s : State) (n : Nat) : State :=
  let f := s.frag n
  if s.keeps (s.group f.group) then s
  else s.splitUpdate n (match f.state with | .transit d h _ => .entry d h (.transit d h true) f.own | st => .entry f.dev f.home st f.own)
/-- R146: word from the primary home to a fragment that is on another device. -/
def State.tell (s : State) (n : Nat) (u : SplitUpd) : State :=
  let f := s.frag n
  let g := s.group f.group
  s.splitOut g.home f.dev g f.idx u ⟨0, 0, 0⟩
/-- R48, R326: OVTLD: the group's OVT, which its primary home holds. -/
def State.setOvt (s : State) (group : Nat) (v : BitVec 16) : State := s.setGroup group { s.group group with ovt := v }

/-- R161, R237: an ended fragment leaves its split entry once its release is complete; from another device the primary home is told. -/
def State.freeEnded (s : State) (n : Nat) : State :=
  let f := s.frag n
  if f.alive ∧ f.state = .ended ∧ s.released n true then
    (if s.keeps (s.group f.group) then s else s.splitUpdate n (.entry f.dev f.home .ended 0x0#96)).setFrag n Frag.free
  else s

/-- What a fragment awaits from other devices is no longer awaited. -/
def State.unask (s : State) (n : Nat) : State :=
  { s with remote := s.remote.filter fun r => r.asker != some (Asker.frag n), answers := s.answers.filter fun a => a.asker != Asker.frag n }
/-- R144: an ended fragment's entries leave the special-function queue with their results (DESIGN CHOICE, log 64). -/
def State.dropSfu (s : State) (n : Nat) : State :=
  let c := s.core (s.frag n).coreKey
  if c.sfuQ.contains n then s.setCore (s.frag n).coreKey { c with sfuQ := c.sfuQ.filter (· != n) } else s
/-- R161, R347: lanes of a fragment retire; one that owns no lane ends, draining its write-combined bytes (R237). -/
def State.retireLanes (s : State) (n : Nat) (lanes : Mask) : State :=
  let f := s.frag n
  let own := without f.own lanes
  let s := (s.setFrag n { f with own := own, regs := { f.regs with m := f.regs.m.setIfInBounds 0 0x0#96 } }).splitUpdate n (.retire lanes)
  if own = 0x0#96 then
    let s := (((s.dropGrant n).unask n).dropSfu n).drainFrag n
    let s := s.setFrag n { s.frag n with state := .ended, trap := none, due := none, msync := none, stopping := false, leave := none, grp := none, pfx := none, held := false, counted := false, outs := [] }
    (s.release n).freeEnded n
  else s

/-! Ends -/

/-- R347: the grids that descend from a grid, itself among them; `fuel` bounds the nesting (R22). -/
def State.descends (s : State) (fuel k top : Nat) : Bool :=
  match fuel with
  | 0 => false
  | n + 1 => k == top || (match (s.grid k).parent with | some p => s.descends n p top | none => false)

/-- R347: a fragment of a grid that ends is retired before its next chain group: at once, or, inside a group, when that has issued. -/
def State.stopFrag (s : State) (n : Nat) : State :=
  let f := s.frag n
  if f.begun then s.setFrag n { f with stopping := true } else s.retireLanes n f.own
/-- R347: every group of a grid and of its descendants is stopped and retired; `addr` is the faulting address (R349). -/
def State.gridEnd (s : State) (top : Nat) (home : Nat) (group : Nat) (cause2 : BitVec 8) (addr pc : DWord) : State :=
  let stop := fun k => s.descends 11 k top
  let s1 := { s with grids := s.grids.map fun (e : Nat × Grid) => (e.1, if e.2.alive && stop e.1 then { e.2 with stopped := true } else e.2) }
  let doomed := s.frags.filter fun e => e.2.alive && stop (s.team (s.group e.2.group).team).grid
  let s2 := doomed.foldl (fun s e => if s.elsewhere (s.frag e.1) then s.tell e.1 .stop else s.stopFrag e.1) s1
  s2.groupEvent group 0x87#8 0x10#8 cause2 home addr pc

/-- R347: a fragment ends: its lanes retire as EXIT retires them, and FRAGMENT_ENDED is raised. -/
def State.fragmentEnd (s : State) (n : Nat) (cause cause2 : BitVec 8) (addr rpc : DWord) : State :=
  let f := s.frag n
  (s.retireLanes n f.own).groupEvent f.group 0x88#8 cause cause2 f.home addr rpc

/-! Traps -/

/-- R340, R341: what a trap comes to once the fragment has parked: trap entry, or the end of the fragment. -/
def State.enterTrap (s : State) (n : Nat) (d : TrapDue) : State :=
  let f := s.frag n
  let ent := (s.part (s.group f.group).rights.part).trapent
  match f.trap with
  | some tr => s.fragmentEnd n tr.code d.code d.addr tr.rpc
  | none =>
    if ent = 0 then s.fragmentEnd n d.code 0 d.addr d.rpc
    else if 184 < f.regs.wbV.toNat ∨ 56 < f.regs.wbS.toNat then s.fragmentEnd n d.code 0x23#8 d.addr d.rpc
    else
      let r := f.regs
      let r' := { r with wbV := r.wbV + 8, wbS := r.wbS + 8 }
      s.setFrag n { f with
        due := none, gtcmp := 0xFFFFFFFFFFFFFFFF#64, pc := ent, parked := false,
        trap := some ⟨d.rpc, r.wbV, r.wbS, r.mask 0, r.cflags, d.code, d.swcode, d.mig⟩,
        regs := r'.writeS (r'.sEnt 60#6) ⟨d.swcode.setWidth 64 * 256 + d.code.setWidth 64, false, false⟩ }

/-- R339, R340: a fragment takes a fault or TRAP, with TRAPINFO0 `ti0`, resume address `rpc` and the address `pc` of the word:
TRAPINFO is set, the chain group is at an end, and the fragment parks, its trap due when the park has ended; LEASE ends the grid. -/
def State.raise (s : State) (n : Nat) (ti0 rpc pc : DWord) (r : FaultRec) : State :=
  let f := s.frag n
  let owed := match f.grp with | some g => g.leave | none => none
  let f' := { f with
    ti := #v[ti0, r.ti1, r.ti2, r.ti3], grp := none, pfx := none, chain := false, park := false, held := false, counted := false, sent := 0, kept := []
    leave := match f.leave with | some l => some l | none => owed }
  let s := (s.setFrag n f').unask n
  let s := if f'.leave.isNone then s.dropGrant n else s
  if r.code = 0x10#8 then
    let in' := match f.trap with | some tr => tr.code | none => 0
    if s.keeps (s.group f.group) then s.gridEnd (s.team (s.group f.group).team).grid f.home f.group in' r.addr pc
    else (s.splitUpdate n (.lease in' f.home r.addr pc)).retireLanes n f.own
  else
    s.setFrag n { f' with due := some ⟨rpc, r.code, r.swcode, r.ti3.getLsbD 63, pc, r.addr⟩, parked := true, grant := (s.frag n).grant }

/-- R345: the end of trap mode; the registers named are restored at once. -/
def State.trapReturn (s : State) (tr : TrapRec) : State :=
  let f := s.f
  let r := f.regs
  s.setF { f with trap := none, regs := { r with m := r.m.setIfInBounds 0 (tr.m0 &&& f.own), wbV := tr.wbV, wbS := tr.wbS, cflags := tr.cflags } }

end Sys2Proof.Machine
end

