-- ==== Sys2Proof/Machine/Flags.lean ====
section
/-! DEFINITION. The condition flags (R105): the compare of R120, CFLAGS.E, and the conditions of BRC (R76). -/

namespace Sys2Proof.Machine

/-- CFLAGS with bit `i` set to `b`. -/
def setFlag (c : BitVec 16) (i : Nat) (b : Bool) : BitVec 16 :=
  if b then c ||| BitVec.twoPow 16 i else c &&& ~~~(BitVec.twoPow 16 i)
def flagZ (c : BitVec 16) : Bool := c.getLsbD 0
def flagN (c : BitVec 16) : Bool := c.getLsbD 1
def flagC (c : BitVec 16) : Bool := c.getLsbD 2
def flagV (c : BitVec 16) : Bool := c.getLsbD 3
def flagE (c : BitVec 16) : Bool := c.getLsbD 4

/-- R120: Z, N, C and V from a − b at width `w`; the other flags keep their values. -/
def cmpFlags {w : Nat} (a b : BitVec w) (c : BitVec 16) : BitVec 16 :=
  let v := a.toInt - b.toInt < -(2 ^ (w - 1) : Int) ∨ a.toInt - b.toInt > (2 ^ (w - 1) : Int) - 1
  setFlag (setFlag (setFlag (setFlag c 0 (a - b == 0)) 1 ((a - b).getLsbD (w - 1))) 2 (decide (b.toNat ≤ a.toNat))) 3 (decide v)

/-- The conditions of ICMP by their code (R73, R120). -/
def icmpCond {w : Nat} (k : BitVec 3) (a b : BitVec w) : Bool :=
  match k.toNat with
  | 0 => a == b
  | 1 => a != b
  | 2 => a.slt b
  | 3 => a.sle b
  | 4 => a.ult b
  | _ => a.ule b

/-- The conditions of BRC by their code (R76). -/
def brcCond (k : BitVec 5) (c : BitVec 16) : Bool :=
  match k.toNat with
  | 0 => flagZ c
  | 1 => !flagZ c
  | 2 => flagN c != flagV c
  | 3 => flagN c == flagV c
  | 4 => flagZ c || flagN c != flagV c
  | 5 => !flagZ c && flagN c == flagV c
  | 6 => !flagC c
  | 7 => flagC c
  | 8 => flagN c
  | 9 => !flagN c
  | 10 => flagV c
  | 11 => !flagV c
  | 12 => flagE c
  | _ => !flagE c

/-- Changing CFLAGS. -/
def State.setFlags (s : State) (g : BitVec 16 → BitVec 16) : State := s.modRegs fun r => { r with cflags := g r.cflags }
/-- Changing CFLAGS.E alone. -/
def State.setE (s : State) (b : Bool) : State := s.setFlags fun c => setFlag c 4 b

/-- R104, R35, R8: the value FMT takes when it is written. -/
def fmtStore (x : DWord) : DWord :=
  let a := x.extractLsb' 0 4
  let b := x.extractLsb' 8 4
  let fixCode := fun (c : BitVec 4) => if c = 0x6#4 ∨ c = 0x7#4 then 0x0#4 else c
  (x &&& 0x3030#64) ||| (fixCode a).setWidth 64 ||| ((fixCode b).setWidth 64 <<< 8)

/-- R46, R40, R47, R125: one 5-bit field of NMODE as it is stored: rounding in [4:2], saturation in [1:0]. -/
def nmodeField (x : BitVec 5) : BitVec 5 :=
  (if 6 ≤ (x.extractLsb' 2 3).toNat then 0x0#3 else x.extractLsb' 2 3) ++ (if x.extractLsb' 0 2 = 0x3#2 then 0x0#2 else x.extractLsb' 0 2)
/-- R46, R125: the value NMODE takes when it is written. -/
def nmodeStore (x : DWord) : DWord :=
  (List.range 8).foldl (fun acc i => acc ||| ((nmodeField (x.extractLsb' (5 * i) 5)).setWidth 64 <<< (5 * i))) 0

end Sys2Proof.Machine
end

