-- ==== Sys2Proof/Machine/Lines.lean ====
section
/-! DEFINITION. The register file of a core as the cache of its fragments' context records (R108, R110, R351): which registers have a
line, how a line is filled, used and evicted; and the performance counters (R335). -/

namespace Sys2Proof.Machine

/-- PERF counters of a core (R335). -/
def State.count (s : State) (core k : Nat) (d : DWord) : State :=
  let c := s.core core
  s.setCore core { c with perf := c.perf.ins k (c.perf.get 0 k + d) }
/-- R335: PERF counters of a home. -/
def State.countHome (s : State) (home k : Nat) (d : DWord) : State :=
  let h := s.home home
  s.setHome home { h with perf := h.perf.ins k (h.perf.get 0 k + d) }

/-- Whether a core holds a line of a fragment. -/
def Core.holdsLine (c : Core) (n line : Nat) : Bool := c.lines.any fun l => l.frag == n && l.line == line
/-- R110: whether a line finds no room: every line is taken and none may be evicted. -/
def State.linesBlocked (s : State) (core line : Nat) : Bool := decide (line < 256) && !s.linesFit core 1
/-- R110: the lines of a fragment are dropped. -/
def State.dropLines (s : State) (core n : Nat) : State := ((s.core core).lines.filter fun l => l.frag == n).foldl (fun s l => s.dropLine core l) s
/-- R110: a line joins those held, as the most recently used. -/
def State.addLine (s : State) (core n line : Nat) (dirty : Bool) : State :=
  let s1 := if line < 256 then s.lineRoom core 1 else s
  s1.setCore core { s1.core core with lines := (s1.core core).lines ++ [⟨n, line, dirty⟩] }

/-- R351: what an uncorrectable error in a context record poisons: the registers of a line. -/
def Regs.poisonLine (r : Regs) (own : Mask) (line : Nat) : Regs :=
  if line < 256 then { r with v := r.v.put VReg.zero line { r.v.get VReg.zero line with poison := own } }
  else
    ((List.range 61).filter fun i => if line = 256 then decide (i < 48) else decide (48 ≤ i)).foldl
      (fun r i => r.writeS (r.wbS.toNat + i) { r.s.get SReg.zero (r.wbS.toNat + i) with poison := true }) r
/-- R347, R351: a fragment whose header or trap area is in error ends with CONTEXT_ERROR. -/
def State.contextEnds (s : State) (n : Nat) : State :=
  let f := s.frag n
  let g := s.group f.group
  (s.retireLanes n f.own).raiseEvent g.rights.part fun seq =>
    eventRecord 0x89#8 0 0 f.home g.dev g.gridid.toNat g.teamid.toNat seq 0 (BitVec.ofNat 64 n)
/-- R351: the lines in error of a fragment's context record (kind 4 of State.sramErr) or parcel (kind 5), by 1,024 · fragment + line. -/
def State.linesBad (s : State) (kind n : Nat) : List Nat := (s.sramErr.filter fun e => e.1 == kind && e.2 / 1024 == n).map (·.2 % 1024)
/-- R351: an arriving parcel: errors in it poison the registers of their lines, and one in its header (line 258) ends the fragment. -/
def State.parcelErrors (s : State) (n : Nat) : State :=
  let bad := s.linesBad 5 n
  let s1 : State := { s with sramErr := s.sramErr.filter fun e => !(e.1 == 5 && e.2 / 1024 == n) }
  let f := s.frag n
  if bad.isEmpty then s
  else if bad.contains 258 then s1.contextEnds n
  else
    let poison := fun (r : Regs) => bad.foldl (fun r k => r.poisonLine f.own k) r
    s1.setFrag n { f with regs := poison f.regs, leave := f.leave.map fun (L : LeaveDue) => { L with src := poison L.src } }
/-- R110, R351: a line is read from the context record. An error in the record (kind 4 of State.sramErr, by 1,024 · fragment + line) poisons
its registers, and one in its header or trap area (line 258) ends the fragment with CONTEXT_ERROR. -/
def State.fillLine (s : State) (core n line : Nat) : State :=
  let f := s.frag n
  let bad := fun k => s.sramErr.contains (4, 1024 * n + k)
  let s1 := s.count core 3 1
  if bad 258 then ({ s1 with sramErr := s1.sramErr.filter fun e => e != (4, 1024 * n + 258) } : State).contextEnds n
  else
    let s2 := s1.addLine core n line false
    if bad line then
      ({ s2 with sramErr := s2.sramErr.filter fun e => e != (4, 1024 * n + line) } : State).setFrag n { f with regs := f.regs.poisonLine f.own line }
    else s2

/-- R110: the lines that a word needs and the core does not hold: those of the registers it reads or writes that are not zero. -/
def State.missingLines (s : State) (n : Nat) (ids : List RegId) : List Nat :=
  let f := s.frag n
  (ids.filterMap fun d => if f.regs.blank d then none else d.line f.regs.wbS.toNat).filter fun k => !(s.core f.coreKey).holdsLine n k
/-- R108, R110: a word uses its registers' lines: they become the most recently used, a register it writes that has none takes one, and a vector
of the fragment that has become zero gives its line up, as does a fragment that has ended. -/
def State.useLines (s : State) (n : Nat) (reads writes : List RegId) : State :=
  let f := s.frag n
  let wb := f.regs.wbS.toNat
  let w := (writes.filterMap (·.line wb)).eraseDups
  let used := ((reads.filterMap (·.line wb)) ++ w).eraseDups
  let c := s.core f.coreKey
  let idle := fun (l : LineEnt) => !(s.frag l.frag).alive || l.frag == n && decide (l.line < 256) && f.regs.blank (.v l.line) && !(f.outs.any fun o => o.dest == .v l.line)
  let mine := fun (l : LineEnt) => l.frag == n && used.contains l.line
  let kept := c.lines.filter fun l => !idle l && !mine l
  let touched := (c.lines.filter mine).map fun l => ({ l with dirty := l.dirty || w.contains l.line } : LineEnt)
  let s1 := s.setCore f.coreKey { c with lines := kept ++ touched }
  (w.filter fun k => !(s1.core f.coreKey).holdsLine n k).foldl (fun s k => s.addLine f.coreKey n k true) s1

end Sys2Proof.Machine
end

