-- ==== Sys2Proof/Machine/Migrate.lean ====
section
/-! DEFINITION. Migration: the liveness lookup (R94, R95), the access of a migrating word where its lanes stand (R219, R221, R227),
division (R148, R219), and the end of a park (R63), at which divisions and traps that were due are made. -/

namespace Sys2Proof.Machine

/-! Code segments and liveness -/

/-- R325: the segment of a partition and address space whose range holds an address. -/
def State.segOf (s : State) (part asid : Nat) (addr : DWord) : Option (BitVec 256) :=
  (s.segs.find? fun e => e.1 / 1024 == part && e.2.getLsbD 0 && fld e.2 48 16 == asid &&
    decide (fld e.2 192 64 ≤ addr.toNat ∧ addr.toNat < fld e.2 192 64 + fld e.2 160 32)).map (·.2)

/-- A liveness entry (R94). -/
structure Live where
  offset : Nat
  m : BitVec 8
  vmap : DWord
  smap : DWord
  deriving DecidableEq, Repr

/-- Bytes at a virtual address of a segment's address space, as the device reads its tables; none where it is not mapped. -/
def State.codeBytes (s : State) (asid : Nat) (va : DWord) (n : Nat) : Option (List Byte) :=
  (List.range n).mapM fun i =>
    match s.walk asid (va + BitVec.ofNat 64 i) with
    | .ok x => if x.dev = s.fabric.toNat then some (s.dramByte (s.cellOf x (va + BitVec.ofNat 64 i))) else none
    | .error _ => none

/-- R94: entry `i` of a segment's liveness table; an entry with a res0 bit set is absent. -/
def State.liveAt (s : State) (seg : BitVec 256) (i : Nat) : Option Live :=
  match s.codeBytes (fld seg 48 16) (seg.extractLsb' 64 64 + BitVec.ofNat 64 (24 * i)) 24 with
  | none => none
  | some bs =>
    let e : BitVec 192 := BitVec.ofNat 192 (leNat bs)
    if fld e 52 12 ≠ 0 then none else some ⟨fld e 0 32, e.extractLsb' 32 8, e.extractLsb' 64 64, e.extractLsb' 128 64⟩
/-- R95: the entry of a word, by its own offset. -/
def State.liveOf (s : State) (part asid : Nat) (addr : DWord) : Option Live :=
  match s.segOf part asid addr with
  | none => none
  | some seg => (List.range (min (fld seg 128 32) 4096)).findSome? fun i =>
      match s.liveAt seg i with
      | some e => if e.offset = addr.toNat - fld seg 192 64 then some e else none
      | none => none

/-! The access of a migrating word -/

/-- R78: bytes of an element by its width code, and whether it is sign-extended. -/
def widthOf (w : BitVec 3) : Nat :=
  match w.toNat with
  | 0 => 1
  | 1 => 1
  | 2 => 2
  | 3 => 2
  | 4 => 4
  | _ => 8
def widthSx (w : BitVec 3) : Bool := w == 0x0#3 || w == 0x2#3
/-- R115, R221: an element extended to a lane or a scalar. -/
def widen (w : BitVec 3) (x : DWord) : DWord :=
  match w.toNat with
  | 0 => (x.setWidth 8).signExtend 64
  | 1 => (x.setWidth 8).setWidth 64
  | 2 => (x.setWidth 16).signExtend 64
  | 3 => (x.setWidth 16).setWidth 64
  | 4 => (x.setWidth 32).setWidth 64
  | _ => x

/-- R217: a lane's address: base and index, or base and lane number for index v0. -/
def Regs.addr (r : Regs) (b i : RegNum) (size l : Nat) : DWord :=
  (r.sreg b).val + (if i = 0x00#6 then BitVec.ofNat 64 (l * size) else (lane (r.vreg i).lanes l).setWidth 64)

/-- The elements of a migrating access in given lanes: lane, address, size (R217). MIGR and JOIN access nothing. -/
def MigAcc.addrs (a : MigAcc) (r : Regs) (lanes : Mask) : List Addr :=
  match a with
  | .loadV _ b i w _ _ => (lanesIn lanes).map fun l => ⟨l, r.addr b i (widthOf w) l, widthOf w⟩
  | .loadS _ b w _ => [⟨0, (r.sreg b).val, widthOf w⟩]
  | .atom _ b i _ _ _ _ _ => (lanesIn lanes).map fun l => ⟨l, r.addr b i 4 l, 4⟩
  | .migr x => [⟨0, (r.sreg x).val, 1⟩]
  | .join _ => []

/-- What the access needs of leases and pages (R211, R217, R229). -/
def MigAcc.need (a : MigAcc) : Need :=
  match a with
  | .loadV .. => .read
  | .loadS .. => .read
  | .atom .. => .atom
  | .migr _ => .move
  | .join _ => .move
/-- Its element size, and its order code. -/
def MigAcc.size (a : MigAcc) : Nat :=
  match a with
  | .loadV _ _ _ w _ _ => widthOf w
  | .loadS _ _ w _ => widthOf w
  | .atom .. => 4
  | _ => 1
def MigAcc.order (a : MigAcc) : BitVec 3 :=
  match a with
  | .loadV _ _ _ _ o _ => o
  | .loadS _ _ _ o => o
  | .atom _ _ _ _ _ o _ _ => o
  | _ => 0
/-- R218: whether it writes a bounded value. -/
def MigAcc.writesBnd (a : MigAcc) (r : Regs) : Bool :=
  match a with
  | .atom d _ _ second op _ c _ => (r.vreg d).bnd || (!second && op == 0x7#3 && (r.vreg c).bnd)
  | _ => false
/-- R112: the access's own operands, which a parcel carries: vectors and scalars. -/
def MigAcc.operands (a : MigAcc) : List RegNum × List RegNum :=
  match a with
  | .loadV _ b i _ _ _ => (if i = 0x00#6 then [] else [i], [b])
  | .loadS _ b _ _ => ([], [b])
  | .atom d b i second op _ c _ => ((if i = 0x00#6 then [] else [i]) ++ [d] ++ (if !second ∧ op = 0x7#3 then [c] else []), [b])
  | .migr x => ([], [x])
  | .join _ => ([], [])

/-- R62, R221: the sectors of a vector result: one for each octet with a lane of `lanes`; the lanes of `zero` are written with zero
with their octet's sector, or at once where the octet has none. `whole` is every lane that the word writes (R103). -/
def State.sectorOuts (s : State) (n e : Nat) (kind : OutKind) (lanes zero whole : Mask) (vals : List (Nat × DWord)) (bnd : Bool) (pois : Mask) : State :=
  let f := s.frag n
  let out := fun q => Out.mk kind (.v e) ((lanes ||| zero) &&& octet q) whole
    (lanesOf fun l => ((KMap.find vals l).getD 0).setWidth 32) 0 bnd (pois &&& octet q)
  let qs := (List.range 12).filter fun q => lanes &&& octet q != 0x0#96
  let alone := maskOf fun l => zero.getLsbD l && !qs.contains (l / 8)
  s.setFrag n { f with outs := f.outs ++ qs.map out, regs := f.regs.writeV f.own e alone (lanesOf fun _ => 0) bnd 0x0#96 }

/-- R62, R101: an outstanding scalar result: of a scalar register, or of a beat of m0. -/
def Regs.scalarOut (r : Regs) (kind : OutKind) (d : RegNum) (x : DWord) (bnd pois : Bool) : Out :=
  if 61 ≤ d.toNat then ⟨kind, .m 0, 0x0#96, beat (beatOf d), lanesOf fun _ => 0, x, false, 0x0#96⟩
  else ⟨kind, .s (r.sEnt d), 0x0#96, 0x0#96, lanesOf fun _ => 0, x, bnd, if pois then allLanes else 0x0#96⟩
def State.addOut (s : State) (n : Nat) (o : Out) : State := s.setFrag n { s.frag n with outs := (s.frag n).outs ++ [o] }

/-- R217: the pages of an access, as the fragment's core translates them. -/
def State.accPages (s : State) (n : Nat) (a : MigAcc) (src : Regs) (lanes : Mask) : List PageReq :=
  s.pages (s.frag n).coreKey (s.group (s.frag n).group).rights ((a.addrs src lanes).map fun x => Elem.mk x.lane .dram 0 x.size 0 x.va none 0)
/-- R219, R221, R227: the access performed where the fragment stands, on pages `ps` that hold the elements of lanes local there. -/
def State.performAcc (s : State) (n : Nat) (a : MigAcc) (src : Regs) (lanes : Mask) (ps : List PageReq) : State :=
  let f := s.frag n
  let es := ps.flatMap (·.elems)
  let acq := isAcq a.order || ps.any fun p => p.ord == 0
  match a with
  | .loadV d _ _ w _ z =>
    let zero := z &&& f.own
    let x := s.readElems es
    s.sectorOuts n (src.vEnt d) (.sector acq) lanes zero (lanes ||| zero) (x.1.map fun v => (v.1, widen w v.2)) (pagesBnd ps) x.2
  | .loadS d _ w _ =>
    match es with
    | e :: _ => s.addOut n (src.scalarOut (.sector acq) d (widen w (s.readElem e).1) (pagesBnd ps) (s.readElem e).2)
    | [] => s
  | .atom d _ _ second op _ c z =>
    let zero := z &&& f.own
    let full := es.map fun e => { e with op := some (atomOf second op), data := (lane (src.vreg d).lanes e.lane).setWidth 64, cmp := lane (src.vreg c).lanes e.lane }
    let x := s.atomElems (sortBy (fun e e' => decide (e.lane ≤ e'.lane)) full)
    x.1.sectorOuts n (src.vEnt d) (.sector acq) lanes zero (lanes ||| zero) x.2.1 (pagesBnd ps) x.2.2
  | .migr _ => s
  | .join _ => s

/-! Division -/

/-- R232: messages and lines that a fragment has under way are, after a division, also those of its children. -/
def heirs (n : Nat) (kids os : List Nat) : List Nat := if os.contains n then os ++ kids.filter (fun k => !os.contains k) else os
def Msg.inherit (n : Nat) (kids : List Nat) (m : Msg) : Msg :=
  match m with
  | .store r => .store { r with owners := heirs n kids r.owners }
  | .posted r => .posted { r with owners := heirs n kids r.owners }
  | .ack os so g => .ack (heirs n kids os) so g
  | .read r id => .read { r with owners := heirs n kids r.owners } id
  | .xatom x => .xatom { x with owners := heirs n kids x.owners }
  | m => m
def State.inherit (s : State) (n : Nat) (kids : List Nat) : State :=
  { s with
    net := s.net.map (Msg.inherit n kids)
    remote := s.remote.map fun r => { r with owners := heirs n kids r.owners }
    banks := s.banks.map fun (b : Nat × BankUnit) => (b.1, { b.2 with queue := b.2.queue.map fun x => { x with owners := heirs n kids x.owners } })
    cores := s.cores.map fun (c : Nat × Core) => (c.1, { c.2 with wc := c.2.wc.map fun l => { l with frags := heirs n kids l.frags } }) }

/-- R146: the lowest free split entries of a group: those that no fragment holds and no division due is to take. -/
def State.freeEntries (s : State) (group : Nat) : List Nat :=
  let due := (s.fragsOf group).flatMap fun e => e.2.promised
  (List.range 96).filter fun i => !(s.frag (fragNo group i)).alive && !due.contains i
/-- R146: the entries that a division of a fragment takes: the lowest free ones, or those that the primary home has reserved for it. -/
def State.entriesOf (s : State) (n : Nat) : List Nat :=
  if s.keeps (s.group (s.frag n).group) then s.freeEntries (s.frag n).group else s.reserved n
/-- R146: entry `i` is taken for a child of a fragment. -/
def State.useEntry (s : State) (n i : Nat) : State :=
  if s.keeps (s.group (s.frag n).group) then s else s.setFrag n { s.frag n with grant := .given ((s.reserved n).filter (· != i)) }
/-- R146: after a division away from the group's device, every part is reported, and entries that are left are given back. -/
def State.reportParts (s : State) (n : Nat) (left : List Nat) : State :=
  if s.keeps (s.group (s.frag n).group) then s
  else (s.fragsOf (s.frag n).group).foldl (fun s e => s.report e.1) (s.giveBack n left)
/-- R146, R220: a refused update is reported as KEY, with every lane of the fragment and the primary home as the other end. -/
def keyFault (own : Mask) (dev home : Nat) : FaultRec :=
  faultOf 0x16#8 0 (lanesLo own) (lanesHi own ||| BitVec.ofNat 64 (lowest own * 2 ^ 32) ||| 0x8000000000000000#64 |||
    BitVec.ofNat 64 (home * 2 ^ 44) ||| BitVec.ofNat 64 (dev * 2 ^ 48))
/-- R146: a word that changes the split table or a barrier record. Away from its group's device it asks for the records and for `kids`
entries, and is held until the primary home has answered. -/
def State.tableAct (s : State) (kids : Nat) (k : State → Act) : Act :=
  let ask := fun (s : State) => Act.hold ((s.setF { s.f with grant := .asked }).splitUpdate s.cur (.ask kids))
  if s.keeps s.g then k s
  else
    match s.f.grant with
    | .none => ask s
    | .asked => .hold s
    | .given es => if es ≠ [] ∧ es.length < kids then ask (s.dropGrant s.cur) else k (if es = [] then s.setF { s.f with grant := .none } else s)
    | .spawned _ => ask s
    | .word _ => ask s
    | .refused => .fault (keyFault s.f.own s.g.dev s.g.home)
/-- R146: a word whose effect the primary home on another device makes: it sends its update once, and is held until the answer comes. -/
def State.roundTrip (s : State) (u : SplitUpd) (k : Grant → Act) : Act :=
  match s.f.grant with
  | .none => .hold ((s.setF { s.f with grant := .asked }).splitUpdate s.cur u)
  | .asked => .hold s
  | .refused => .fault (keyFault s.f.own s.g.dev s.g.home)
  | .spawned ok => k (.spawned ok)
  | .given [] => k (.given [])
  | _ => .hold (((s.dropGrant s.cur).setF { (s.dropGrant s.cur).f with grant := .asked }).splitUpdate s.cur u)
/-- A word of a fragment on another device that acts at its team's core is sent there (log 58). -/
def State.sendWord (s : State) (n : Nat) (w : TeamWord) : State := (s.setFrag n { s.frag n with grant := .asked }).splitUpdate n (.word w)
/-- Such a word is held from its sending until the answer comes, and goes on by the answer; a refused one takes KEY (R146). -/
def State.wordAway (s : State) (w : TeamWord) (k : WordReply → State → Act) : Act :=
  match s.f.grant with
  | .none => .hold (s.sendWord s.cur w)
  | .asked => .hold s
  | .refused => .fault (keyFault s.f.own s.g.dev s.g.home)
  | .word r => k r (s.setF { s.f with grant := .none })
  | _ => .hold ((s.dropGrant s.cur).sendWord s.cur w)
/-- What such a word comes to at its answer: one that cannot be done yet asks again. -/
def onDone (k : DWord → State → Act) (r : WordReply) (s : State) : Act :=
  match r with
  | .done v => k v s
  | .fault x => .fault x
  | _ => .hold s
/-- R48, R50, R326: a word that carries a command takes the OVT in force at its group's primary home, which a fragment on another device asks
for (log 58). -/
def State.withOvt (s : State) (k : State → Act) : Act :=
  if s.keeps s.g then k s else s.wordAway .ovt (onDone fun v s => k (s.setG { s.g with ovt := v.setWidth 16 }))

/-- R146: whether entries 16 to 95 are in use. -/
def State.spilled (s : State) (group : Nat) : Bool := (s.fragsOf group).any fun e => 16 ≤ e.2.idx

/-- R26, R219: what anchors a group, as TRAPINFO1 reports it. -/
def State.anchorBits (s : State) (group : Nat) : DWord :=
  let g := s.group group
  let tile := g.tiles.any fun t => !t.2.empty
  let slot := s.cores.any fun c => c.2.slots.any fun x => match x.2 with | .claimed k => k == group | _ => false
  let fib := g.fibs.any fun x => x.2.kind != 0x0#4
  (if tile then 1 else 0) ||| (if slot then 2 else 0) ||| (if fib then 4 else 0) ||| (if s.spilled group then 0x8000000000000000#64 else 0)

/-- R112: the carried set of a migrating word: vectors and scalars, ascending. -/
def LeaveDue.carried (L : LeaveDue) : List RegNum × List RegNum :=
  (((List.range 64).filter fun i => L.vmap.getLsbD i || L.acc.operands.1.contains (BitVec.ofNat 6 i)).map (BitVec.ofNat 6),
   ((List.range 61).filter fun i => L.smap.getLsbD i || L.acc.operands.2.contains (BitVec.ofNat 6 i)).map (BitVec.ofNat 6))
/-- R112, R219 step 5: the lines of the carried set that the core lacks are filled from the context record. -/
def State.fillCarried (s : State) (n : Nat) (L : LeaveDue) : State :=
  let f := s.frag n
  let ids := L.carried.1.map f.regs.vId ++ L.carried.2.map f.regs.sId
  ((s.missingLines n ids).eraseDups).foldl (fun s k => if (s.frag n).state = .ended then s else s.fillLine f.coreKey n k) s

/-- R111: the registers as a parcel leaves them: what it does not carry is zero, exact and unpoisoned. -/
def Regs.carry (r : Regs) (L : LeaveDue) : Regs :=
  { r with
    v := (r.v.filter fun e => L.carried.1.any fun i => r.vEnt i == e.1).map fun (e : Nat × VReg) => (e.1, { e.2 with poison := 0x0#96 })
    s := (r.s.filter fun e => L.carried.2.any fun i => r.sEnt i == e.1).map fun (e : Nat × SReg) => (e.1, { e.2 with poison := false }) }

/-- R219 step 6: the carried register that holds poison among the lanes that would leave, as R103 reports it. -/
def LeaveDue.poisoned (L : LeaveDue) (r : Regs) : Option FaultRec :=
  let leaving := L.sets.foldl (fun m x => m ||| x.lanes) 0x0#96
  match L.carried.1.find? fun i => (r.vreg i).poison &&& leaving != 0x0#96 with
  | some i => let p := (r.vreg i).poison &&& leaving
              some (faultOf 0x19#8 (i.setWidth 64) (lanesLo p) (lanesHi p))
  | none => (L.carried.2.find? fun i => (r.sreg i).poison).map fun i => faultOf 0x19#8 (64 + i.setWidth 64)

/-- R148, R219: a part that leaves: it owns exactly its lanes, and waits to build its parcel. -/
def Frag.departing (f : Frag) (idx : Nat) (x : Leaving) (L : LeaveDue) : Frag :=
  { f with
    idx := idx, own := x.lanes, state := .transit x.dev x.home false, parked := false, due := none, grp := none, counted := false, outs := [], grant := .none
    regs := { f.regs with m := f.regs.m.setIfInBounds 0 x.lanes }
    leave := some { L with sets := [], eff := L.eff &&& x.lanes, ents := [] } }

/-- R219: the parts of a division take their entries. -/
def State.addChild (s : State) (n : Nat) (f : Frag) (L : LeaveDue) (x : Leaving) : State :=
  match (if s.keeps (s.group f.group) then L.ents.filter fun i => !(s.frag (fragNo f.group i)).alive else s.reserved n) with
  | i :: _ => ((s.useEntry n i).setFrag (fragNo f.group i) { f.departing i x L with resident := false, turn := 0, served := 0 }).inherit n [fragNo f.group i]
  | [] => s

/-- R63: where the word's chain group parks, a part of its division parks until the results of its access are written. -/
def State.parkOn (s : State) (n : Nat) (park : Bool) : State :=
  let f := s.frag n
  if park && !f.outs.isEmpty then s.setFrag n { f with parked := true } else s

/-- R238: whether a part of a division has made its access. -/
def State.partDone (s : State) (n : Nat) : Bool :=
  let f := s.frag n
  !f.alive || (f.leave.isNone && f.outs.isEmpty && (match f.state with | .transit _ _ _ => false | _ => true))
/-- The lanes that a migrating access writes with zero. -/
def MigAcc.zeroLanes (a : MigAcc) : Mask :=
  match a with
  | .loadV _ _ _ _ _ z => z
  | .atom _ _ _ _ _ _ _ z => z
  | _ => 0x0#96
/-- The register that a migrating access of lanes writes. -/
def MigAcc.dest (a : MigAcc) (src : Regs) : RegId :=
  match a with
  | .loadV d _ _ _ _ _ => .v (src.vEnt d)
  | .loadS d _ _ _ => .s (src.sEnt d)
  | .atom d _ _ _ _ _ _ _ => .v (src.vEnt d)
  | _ => .flags
/-- R219, R275: the elements of the access that a fragment of a division is to make, where it stands. -/
def State.leaveElems (s : State) (n : Nat) : List Elem :=
  match (s.frag n).leave with
  | some L => (s.accPages n L.acc L.src L.eff).flatMap (·.elems)
  | none => []
/-- R219: the part that stays makes its access; it parks on the results as its chain group does, and for a trap that is due. -/
def State.stayNow (s : State) (n : Nat) (L : LeaveDue) : State :=
  let f := s.frag n
  ((s.setFrag n { f with leave := none, parked := f.due.isSome }).performAcc n L.acc L.src L.eff (s.accPages n L.acc L.src L.eff)).parkOn n L.park
/-- R219, R238, R275: whether the part that stays may make its access now: its channels serve ordinary requests, and on SO pages the parts of lower
pages have made theirs. -/
def State.mayStay (s : State) (n : Nat) (L : LeaveDue) : Bool := s.served (s.leaveElems n) && L.behind.all s.partDone
/-- R219: the part that stays makes its access in place, or awaits it, parked. -/
def State.stayAccess (s : State) (n : Nat) : State :=
  let f := s.frag n
  match f.leave with
  | some L =>
    if s.mayStay n L then s.stayNow n L
    else
      let o : Out := ⟨.stay (isAcq L.acc.order), L.acc.dest L.src, L.eff, L.eff ||| L.acc.zeroLanes, lanesOf fun _ => 0, 0, false, 0x0#96⟩
      s.setFrag n { f with outs := f.outs ++ [o], parked := true }
  | none => s
/-- R238: on SO pages the parts of a division make their accesses in ascending order of their lowest pages (DEDUCED, log 57). -/
def State.orderParts (s : State) (n : Nat) (L : LeaveDue) : State :=
  let f := s.frag n
  let g := s.group f.group
  let so := match L.acc.need, (L.acc.addrs L.src L.eff).head? with
    | .move, _ => false
    | _, some a => (s.leafOf f.coreKey g.rights.asid a.va).ord == 0
    | _, none => false
  let page := fun (M : LeaveDue) => ((L.acc.addrs L.src M.eff).map fun a => a.va.toNat).min?
  let parts := (s.fragsOf f.group).filterMap fun e => match e.2.leave with
    | some M => if M.pc = L.pc ∧ M.fromHome = L.fromHome ∧ M.fromDev = L.fromDev then (page M).map fun p => (e.1, M, p) else none
    | none => none
  if so then parts.foldl (fun s x => s.setFrag x.1 { s.frag x.1 with leave := some { x.2.1 with behind := (parts.filter fun y => decide (y.2.2 < x.2.2)).map (·.1) } }) s
  else s

/-- R148, R219 step 7: the division of a migrating word. Where every part leaves, that of the lowest device and home keeps the split entry
(DESIGN CHOICE, log 64). -/
def State.migrateParts (s : State) (n : Nat) (L : LeaveDue) : State :=
  let f := s.frag n
  let leaving := L.sets.foldl (fun m x => m ||| x.lanes) 0x0#96
  let stay := without (f.regs.mask 0) leaving
  if stay = 0x0#96 then
    match L.sets with
    | x :: rest =>
      let s := rest.foldl (fun s x => s.addChild n f L x) s
      let left := s.reserved n
      let s := s.setFrag n (f.departing f.idx x L)
      let s := if without f.own (f.regs.mask 0) = 0x0#96 then s else s.splitUpdate n (.retire (without f.own (f.regs.mask 0)))
      (s.reportParts n left).orderParts n L
    | [] => s
  else
    let s := L.sets.foldl (fun s x => s.addChild n f L x) s
    let left := s.reserved n
    let mine : LeaveDue := { L with sets := [], eff := without L.eff leaving, ents := [] }
    let s := s.setFrag n { f with own := without f.own leaving, regs := { f.regs with m := f.regs.m.setIfInBounds 0 stay }, leave := some mine, parked := false, grant := .none }
    ((s.reportParts n left).orderParts n L).stayAccess n

/-- R63, R219, R339, R340: what happens to a fragment once it has no outstanding result: its park ends, after the division and the
trap that were due. -/
def State.settle (s : State) (n : Nat) : State :=
  let f := s.frag n
  if f.outs ≠ [] ∨ f.alive = false then s
  else
    match f.leave, f.due with
    | some L, d =>
      if L.sets = [] then s
      else
        let s := s.fillCarried n L
        let f := s.frag n
        if f.state = .ended then s
        else match L.poisoned f.regs with
        | some r =>
          let s := (s.setFrag n { f with leave := none, due := none }).raise n L.ti0 L.pc L.pc r
          match (s.frag n).due with
          | some d => s.enterTrap n d
          | none => s
        | none =>
          let s := s.migrateParts n L
          match d with
          | some d =>
            let s := s.setFrag n { s.frag n with due := some d, parked := true }
            if (s.frag n).outs = [] ∧ (s.frag n).state = .ready then s.enterTrap n d else s
          | none => s
    | none, some d => s.enterTrap n d
    | none, none => if f.parked then s.setFrag n { f with parked := false } else s

/-- R339: a fault or TRAP taken by a fragment. -/
def State.faultOn (s : State) (n : Nat) (ti0 rpc pc : DWord) (r : FaultRec) : State := ((s.raise n ti0 rpc pc r).settle n).endTurnOf n
/-- R339: the fragment at issue takes a fault of its word. -/
def State.takeFault (s : State) (r : FaultRec) : State :=
  let f := s.f
  s.faultOn s.cur f.ti0 (if r.next then f.pc + 4 else f.rpc) f.pc r

/-- R62, R103: the outstanding result `k` of a fragment is written. -/
def State.deliver (s : State) (n k : Nat) : State :=
  let f := s.frag n
  match takeAt f.outs k with
  | none => s
  | some (o, rest) =>
    let r := f.regs
    let r' := match o.dest with
      | .v e =>
        let old := r.v.get VReg.zero e
        let new := old.write f.own o.mask o.vals o.bnd o.poison
        { r with v := r.v.put VReg.zero e { new with bnd := if without f.own o.whole = 0x0#96 then o.bnd else o.bnd || old.bnd } }
      | .s e => r.writeS e ⟨o.sval, o.bnd, o.poison != 0x0#96⟩
      | .m k => r.writeM f.own (BitVec.ofNat 3 k) (without (r.m[k]?.getD 0) o.whole ||| (splatBeat o.sval &&& o.whole))
      | .flags => { r with cflags := setFlag r.cflags 4 (o.sval != 0) }
    (s.setFrag n { f with outs := rest, regs := r' }).settle n
where
  /-- the word in each of the three beats -/
  splatBeat (x : DWord) : Mask :=
    let w : Mask := (x.setWidth 32).setWidth 96
    w ||| (w <<< 32) ||| (w <<< 64)

/-! Migrating words at issue -/

/-- R219 step 2: where a lane's access lies. -/
def State.destOf (s : State) (core : Nat) (r : Rights) (va : DWord) : Nat × Nat :=
  let x := s.leafOf core r.asid va
  (x.dev, x.home)
/-- R219: the destinations away from home, ascending, with their lanes. -/
def addLeaving (xs : List Leaving) (dev home : Nat) (lanes : Mask) : List Leaving :=
  match xs with
  | [] => [⟨dev, home, lanes⟩]
  | x :: r =>
    if x.dev = dev ∧ x.home = home then ⟨dev, home, x.lanes ||| lanes⟩ :: r
    else if dev < x.dev ∨ (dev = x.dev ∧ home < x.home) then ⟨dev, home, lanes⟩ :: x :: r
    else x :: addLeaving r dev home lanes

/-- R219 steps 3 and 4, R342: may this fragment divide so? -/
def State.mayLeave (s : State) (n : Nat) (wordPc : DWord) (kids : Nat) : Except FaultRec Live :=
  let f := s.frag n
  let g := s.group f.group
  let bits := s.anchorBits f.group
  let entries := (s.entriesOf n).take kids
  let spill := entries.length < kids || entries.any fun i => decide (16 ≤ i)
  if f.trap.isSome then .error (faultOf 0x01#8 3)
  else if bits ≠ 0 ∨ spill then .error (faultOf 0x21#8 (bits ||| (if spill then 0x8000000000000000#64 else 0)))
  else
    match s.liveOf g.rights.part g.rights.asid wordPc with
    | none => .error (faultOf 0x20#8)
    | some e => .ok e

/-- The division due in the chain group of the word at issue. -/
def State.dueLeave (s : State) (L : LeaveDue) : State :=
  match s.f.grp with
  | some g => s.setF { s.f with grp := some { g with leave := some L } }
  | none => s.setF { s.f with leave := some L, parked := true }

/-- R217, R219, R225, R238: a load, ATOM or MIGR at issue: `lanes` is its effective mask; a scalar word moves whole. With an empty mask and an
order code it is a FENCE, which at scope .sys drains the fragment's lines (R240, R247). -/
def State.migrateWord (s : State) (a : MigAcc) (lanes : Mask) : Act :=
  let n := s.cur
  let f := s.f
  let r := s.g.rights
  let src := s.src
  let as := a.addrs src lanes
  match s.checkGlobal f.coreKey r a.need a.size (a.writesBnd src) as with
  | some x => .fault x
  | none =>
    let o := a.order
    let s1 := s.cache f.coreKey r.asid (as.map (·.va))
    let s1 := if as.isEmpty && isSys o then s1.drainFrag n else s1
    let so := a.need != .move && ((as.head?.map fun x => (s.leafOf f.coreKey r.asid x.va).ord == 0).getD false)
    if a.need != .move && s.accessHeld n then .hold s1
    else if as.isEmpty && !s.fenceMet n (isAcq o) (isRel o) (isSys o) then .hold s1
    else if (isRel o || so) && !s.released n ((isRel o && isSys o) || so) then .hold (if isRel o && isSys o then s1.drainFrag n else s1)
    else
      let whole := match a with | .loadS .. => true | .migr _ => true | _ => false
      let here := (s.fabric.toNat, f.home)
      let away := as.filter fun x => s.destOf f.coreKey r x.va != here
      let ps := s.accPages n a src lanes
      if a.need != .move && !s.mayAccess n ps then .hold (s1.waitFor ps)
      else if away.isEmpty then .done (s1.performAcc n a src lanes ps)
      else
        let sets := away.foldl (fun xs x => addLeaving xs (s.destOf f.coreKey r x.va).1 (s.destOf f.coreKey r x.va).2
          (if whole then s.active else BitVec.twoPow 96 x.lane)) []
        let leaving := sets.foldl (fun m x => m ||| x.lanes) 0x0#96
        let kids := if without s.active leaving = 0x0#96 then sets.length - 1 else sets.length
        let go := fun (s : State) =>
          match s.mayLeave n f.pc kids with
          | .error x => Act.fault x
          | .ok e => .done (s.dueLeave ⟨a, sets, lanes, f.rpc, f.ti0, e.smap, e.vmap, src, s.fabric.toNat, f.home, false, (s.entriesOf n).take kids, []⟩)
        if f.trap.isSome then .fault (faultOf 0x01#8 3) else if kids = 0 then go s1 else s1.tableAct kids go

end Sys2Proof.Machine
end

