-- ==== Sys2Proof/Machine/Finish.lean ====
section
/-! DEFINITION. How a word ends: what follows its action (R58, R60, R61, R63, R339). -/

namespace Sys2Proof.Machine

/-- R60: a word that is held has not issued: its chain group stands as before it. -/
def Frag.hold (f : Frag) : Frag :=
  { f with
    held := true
    grp := match f.grp with
      | some g => if g.pipes.length ≤ 1 then none else some { g with pipes := g.pipes.dropLast, written := g.written.dropLast }
      | none => none }
/-- R60, R63: the fragment at issue goes on at `pc`: within its chain group, or after it, when parks and divisions due in it begin. -/
def State.retire (s : State) (pc : DWord) : State :=
  let f := s.f
  let f1 := { f with pc := pc, pfx := none, held := false, counted := false }
  if f.chain then s.setF f1
  else
    let due := match f.grp with | some g => g.leave | none => none
    let park := f.park || (match f.grp with | some g => g.park | none => false)
    let f2 := { f1 with
      grp := none
      leave := (match due with | some l => some l | none => f.leave).map fun (l : LeaveDue) => { l with park := park }
      parked := f.parked || park || due.isSome }
    ((s.setF f2).settle s.cur).endTurnOf s.cur

/-- What the machine does with a word's action. -/
def finish (s : State) (a : Act) : Host.Outcome State Fault Refusal :=
  match a with
  | .done s' => .next (s'.retire (s'.f.pc + 4))
  | .jump s' pc => .next (s'.retire pc)
  | .fault r => .next (s.takeFault r)
  | .hold s' => .next ((s'.setF s'.f.hold).endTurnOf s.cur)
  | .away s' => .next s'

end Sys2Proof.Machine
end

