-- ==== Sys2Proof/Machine/Float.lean ====
section
/-! DEFINITION. The floating-point words of majors 0x10 to 0x14 (R132 to R139). -/

namespace Sys2Proof.Machine

/-- R133: the rounding code of a word that rounds an FP32 result. -/
def State.rndCode (s : State) : BitVec 3 :=
  match s.f.pfx with
  | some p => if p.r = 0x7#3 then 0x0#3 else p.r
  | none => 0x0#3
/-- R43: the sample of a lane for the word at issue: NSTEP counts the words issued before it, those of its chain group too. -/
def State.sampleAt (s : State) (l : Nat) : Word := sample s.src.nseed l (s.src.nstep + BitVec.ofNat 64 s.f.rounded + 1)
/-- R40, R43: the rounding of a lane by a code. -/
def State.rnd (s : State) (k : BitVec 3) (l : Nat) : Rnd := if k = 0x5#3 then .rs (s.sampleAt l) else Rnd.ofCode k 0
/-- R43: NSTEP advances with a word that rounds under rs, in slot order: after a SETNM of the same chain group it stands at 1 (R139 does not say;
DESIGN CHOICE, log 64). -/
def State.advance (s : State) (k : BitVec 3) : State :=
  if k = 0x5#3 then s.setF { s.f with regs := { s.f.regs with nstep := s.f.regs.nstep + 1 }, grp := s.f.grp.map fun (g : GroupCtx) => { g with rounded := g.rounded + 1 } } else s
/-- R133: the saturation control of FADD, FSUB, FMUL and FFMA. -/
def State.satCode (s : State) : BitVec 2 :=
  match s.f.pfx with
  | some p => p.t
  | none => 0x3#2

/-- The b operand of majors 0x10 and 0x11. -/
def fSrc (s : State) (v : BitVec 1) (b : RegNum) : Src := if v = 0x1#1 then .s b else .v b s.eff
def fLane (s : State) (v : BitVec 1) (b : RegNum) (l : Nat) : Word := if v = 0x1#1 then (s.sv b).setWidth 32 else s.vl b l
/-- FP32 in bits [31:0] of a scalar. -/
def State.fs (s : State) (n : RegNum) : Word := (s.sv n).setWidth 32

/-- R134: a vector word that rounds: sources, NSTEP, saturation. -/
def arithV (s : State) (d : RegNum) (srcs : List Src) (op : Rnd → Nat → Word) : Act :=
  s.clean srcs (.done ((s.wrV d (fun l => satF32 s.satCode (op (s.rnd s.rndCode l) l)) (s.bndOf srcs)).advance s.rndCode))
/-- R134: a scalar word that rounds; it takes lane 0's sample (R133). -/
def arithS (s : State) (d : RegNum) (srcs : List RegNum) (op : Rnd → Word) : Act :=
  s.clean (srcs.map Src.s)
    (.done ((s.wrS d ((satF32 s.satCode (op (s.rnd s.rndCode 0))).setWidth 64) (s.bndOf (srcs.map Src.s))).advance s.rndCode))
/-- R135: an exact vector word. -/
def exactV (s : State) (d : RegNum) (srcs : List Src) (op : Nat → Word) : Act := s.clean srcs (.done (s.wrV d op (s.bndOf srcs)))
/-- R135: an exact scalar word. -/
def exactS (s : State) (d : RegNum) (srcs : List RegNum) (x : Word) : Act :=
  s.clean (srcs.map Src.s) (.done (s.wrS d (x.setWidth 64) (s.bndOf (srcs.map Src.s))))

/-- R134: vector FADD. -/
def execFaddV (v : BitVec 1) (d a b : RegNum) (s : State) : Host.Outcome State Fault Refusal :=
  finish s (arithV s d [.v a s.eff, fSrc s v b] fun k l => fadd k (s.vl a l) (fLane s v b l))
/-- R134: scalar FADD. -/
def execFaddS (d a b : RegNum) (s : State) : Host.Outcome State Fault Refusal :=
  finish s (arithS s d [a, b] fun k => fadd k (s.fs a) (s.fs b))
/-- R134: vector FSUB. -/
def execFsubV (v : BitVec 1) (d a b : RegNum) (s : State) : Host.Outcome State Fault Refusal :=
  finish s (arithV s d [.v a s.eff, fSrc s v b] fun k l => fsub k (s.vl a l) (fLane s v b l))
/-- R134: scalar FSUB. -/
def execFsubS (d a b : RegNum) (s : State) : Host.Outcome State Fault Refusal :=
  finish s (arithS s d [a, b] fun k => fsub k (s.fs a) (s.fs b))
/-- R134: vector FMUL. -/
def execFmulV (v : BitVec 1) (d a b : RegNum) (s : State) : Host.Outcome State Fault Refusal :=
  finish s (arithV s d [.v a s.eff, fSrc s v b] fun k l => fmul k (s.vl a l) (fLane s v b l))
/-- R134: scalar FMUL. -/
def execFmulS (d a b : RegNum) (s : State) : Host.Outcome State Fault Refusal :=
  finish s (arithS s d [a, b] fun k => fmul k (s.fs a) (s.fs b))
/-- R134, R66: vector FFMA. -/
def execFfmaV (v : BitVec 1) (d a b : RegNum) (s : State) : Host.Outcome State Fault Refusal :=
  finish s (arithV s d [.v a s.eff, fSrc s v b, .v (s.third d) s.eff] fun k l => ffma k (s.vl a l) (fLane s v b l) (s.vl (s.third d) l))
/-- R134, R66: scalar FFMA. -/
def execFfmaS (d a b : RegNum) (s : State) : Host.Outcome State Fault Refusal :=
  finish s (arithS s d [a, b, s.third d] fun k => ffma k (s.fs a) (s.fs b) (s.fs (s.third d)))

/-- R135: vector FMIN. -/
def execFminV (v : BitVec 1) (d a b : RegNum) (s : State) : Host.Outcome State Fault Refusal :=
  finish s (exactV s d [.v a s.eff, fSrc s v b] fun l => fmin (s.vl a l) (fLane s v b l))
/-- R135: scalar FMIN. -/
def execFminS (d a b : RegNum) (s : State) : Host.Outcome State Fault Refusal :=
  finish s (exactS s d [a, b] (fmin (s.fs a) (s.fs b)))
/-- R135: vector FMAX. -/
def execFmaxV (v : BitVec 1) (d a b : RegNum) (s : State) : Host.Outcome State Fault Refusal :=
  finish s (exactV s d [.v a s.eff, fSrc s v b] fun l => fmax (s.vl a l) (fLane s v b l))
/-- R135: scalar FMAX. -/
def execFmaxS (d a b : RegNum) (s : State) : Host.Outcome State Fault Refusal :=
  finish s (exactS s d [a, b] (fmax (s.fs a) (s.fs b)))

/-- R135: a value with a sign bit. -/
def withSign (a : Word) (neg : Bool) : Word := if neg then a ||| 0x80000000#32 else a &&& 0x7FFFFFFF#32
/-- R135: vector FSGN.cpy. -/
def execFsgnCpyV (v : BitVec 1) (d a b : RegNum) (s : State) : Host.Outcome State Fault Refusal :=
  finish s (exactV s d [.v a s.eff, fSrc s v b] fun l => withSign (s.vl a l) (fLane s v b l).msb)
/-- R135: scalar FSGN.cpy. -/
def execFsgnCpyS (d a b : RegNum) (s : State) : Host.Outcome State Fault Refusal :=
  finish s (exactS s d [a, b] (withSign (s.fs a) (s.fs b).msb))
/-- R135: vector FSGN.neg. -/
def execFsgnNegV (v : BitVec 1) (d a b : RegNum) (s : State) : Host.Outcome State Fault Refusal :=
  finish s (exactV s d [.v a s.eff, fSrc s v b] fun l => withSign (s.vl a l) (!(fLane s v b l).msb))
/-- R135: scalar FSGN.neg. -/
def execFsgnNegS (d a b : RegNum) (s : State) : Host.Outcome State Fault Refusal :=
  finish s (exactS s d [a, b] (withSign (s.fs a) (!(s.fs b).msb)))
/-- R135: vector FSGN.xor. -/
def execFsgnXorV (v : BitVec 1) (d a b : RegNum) (s : State) : Host.Outcome State Fault Refusal :=
  finish s (exactV s d [.v a s.eff, fSrc s v b] fun l => withSign (s.vl a l) ((s.vl a l).msb != (fLane s v b l).msb))
/-- R135: scalar FSGN.xor. -/
def execFsgnXorS (d a b : RegNum) (s : State) : Host.Outcome State Fault Refusal :=
  finish s (exactS s d [a, b] (withSign (s.fs a) ((s.fs a).msb != (s.fs b).msb)))

/-- R136: vector FCMP, written as ICMP writes a mask (R120). -/
def execFcmpV (v : BitVec 1) (d : BitVec 3) (a b : RegNum) (k : BitVec 3) (s : State) : Host.Outcome State Fault Refusal :=
  finish s (s.clean [.v a s.eff, fSrc s v b] (.done (s.wrCond d fun l => fcmp k (s.vl a l) (fLane s v b l))))
/-- R136: the flags of a scalar FCMP. -/
def fcmpFlags (a b : Word) (c : BitVec 16) : BitVec 16 :=
  let x := ofF32 a
  let y := ofF32 b
  setFlag (setFlag (setFlag (setFlag c 0 (x.eqv y)) 1 (x.lt y)) 2 (!x.lt y)) 3 (x.unord y)
/-- R136: scalar FCMP. -/
def execFcmpS (d a b : RegNum) (k : BitVec 3) (s : State) : Host.Outcome State Fault Refusal :=
  finish s (s.clean [.s a, .s b]
    (.done ((s.wrS d (if fcmp k (s.fs a) (s.fs b) then 1 else 0) (s.bndOf [.s a, .s b])).setFlags (fcmpFlags (s.fs a) (s.fs b)))))

/-- R135: vector FCLASS. -/
def execFclassV (_v : BitVec 1) (d a : RegNum) (s : State) : Host.Outcome State Fault Refusal :=
  finish s (exactV s d [.v a s.eff] fun l => BitVec.twoPow 32 (fclass (s.vl a l)))
/-- R135: scalar FCLASS. -/
def execFclassS (d a : RegNum) (s : State) : Host.Outcome State Fault Refusal :=
  finish s (exactS s d [a] (BitVec.twoPow 32 (fclass (s.fs a))))
/-- R135: vector FRND; the mode is the word's own. -/
def execFrndV (_v : BitVec 1) (d a : RegNum) (k : BitVec 3) (s : State) : Host.Outcome State Fault Refusal :=
  finish s (s.clean [.v a s.eff] (.done ((s.wrV d (fun l => frnd (s.rnd k l) (s.vl a l)) (s.bndOf [.v a s.eff])).advance k)))
/-- R135: scalar FRND. -/
def execFrndS (d a : RegNum) (k : BitVec 3) (s : State) : Host.Outcome State Fault Refusal :=
  finish s (s.clean [.s a] (.done ((s.wrS d ((frnd (s.rnd k 0) (s.fs a)).setWidth 64) (s.bndOf [.s a])).advance k)))

/-- R137: the operations of REDF and SCANF: add, min, max. -/
def redfOp (o : Nat) (k : Rnd) (a b : Word) : Word :=
  match o with
  | 0 => fadd k a b
  | 1 => fmin a b
  | _ => fmax a b
/-- R137: their identities. -/
def redfId (o : Nat) : Word :=
  match o with
  | 0 => 0x00000000#32
  | 1 => 0x7F800000#32
  | _ => 0xFF800000#32
/-- R137: a NaN becomes the canonical NaN. -/
def canon (x : Word) : Word := if (ofF32 x).isNan then nan32 else x
/-- R137: the tree over lanes, canonical; the identity where none is present. -/
def redfOver (s : State) (o : Nat) (a : RegNum) (lanes : Mask) : Word :=
  canon ((tree (redfOp o (s.rnd s.rndCode 0)) lanes.getLsbD (s.vl a)).getD (redfId o))
/-- R137: REDF; rs is no mode of it. -/
def execRedf (d a : RegNum) (o : BitVec 2) (s : State) : Host.Outcome State Fault Refusal :=
  finish s (if s.rndCode = 0x5#3 then .fault (faultOf 0x01#8)
    else s.clean [.v a s.eff]
      (.done ((s.wrS d ((redfOver s o.toNat a s.eff).setWidth 64) (s.bndOf [.v a s.eff])).setE (s.eff == 0x0#96))))
/-- R137, R54: SCANF; with an empty effective mask no lane of it is written. -/
def scanF (s : State) (d a : RegNum) (o : Nat) (inc : Bool) : Act :=
  if s.rndCode = 0x5#3 then .fault (faultOf 0x01#8)
  else s.clean [.v a s.eff]
    (.done ((s.wrV d (fun l => redfOver s o a (s.eff &&& BitVec.ofNat 96 (2 ^ (if inc then l + 1 else l) - 1))) (s.bndOf [.v a s.eff])).setE (s.eff == 0x0#96)))
/-- R137: SCANF.add.inc. -/
def execScanfAddInc (d a : RegNum) (s : State) : Host.Outcome State Fault Refusal := finish s (scanF s d a 0 true)
/-- R137: SCANF.add.exc. -/
def execScanfAddExc (d a : RegNum) (s : State) : Host.Outcome State Fault Refusal := finish s (scanF s d a 0 false)
/-- R137: SCANF.min.inc. -/
def execScanfMinInc (d a : RegNum) (s : State) : Host.Outcome State Fault Refusal := finish s (scanF s d a 1 true)
/-- R137: SCANF.max.inc. -/
def execScanfMaxInc (d a : RegNum) (s : State) : Host.Outcome State Fault Refusal := finish s (scanF s d a 2 true)
/-- R137: SCANF.min.exc. -/
def execScanfMinExc (d a : RegNum) (s : State) : Host.Outcome State Fault Refusal := finish s (scanF s d a 1 false)
/-- R137: SCANF.max.exc. -/
def execScanfMaxExc (d a : RegNum) (s : State) : Host.Outcome State Fault Refusal := finish s (scanF s d a 2 false)

/-- R138, R139: SETFMT. -/
def execSetfmt (a : RegNum) (s : State) : Host.Outcome State Fault Refusal :=
  finish s (s.clean [.s a]
    (if (s.sreg a).bnd then .fault (faultOf 0x18#8 (a.setWidth 64))
     else .done (s.modRegs fun r => { r with fmt := fmtStore (s.sv a) })))
/-- R138: GETFMT. -/
def execGetfmt (d : RegNum) (s : State) : Host.Outcome State Fault Refusal := finish s (.done (s.wrS d s.src.fmt false))
/-- R138, R139: SETNM. -/
def execSetnm (a b : RegNum) (s : State) : Host.Outcome State Fault Refusal :=
  finish s (s.clean [.s a, .s b]
    (if (s.sreg a).bnd then .fault (faultOf 0x18#8 (a.setWidth 64))
     else if (s.sreg b).bnd then .fault (faultOf 0x18#8 (b.setWidth 64))
     else .done (s.modRegs fun r => { r with nmode := nmodeStore (s.sv a), nseed := s.fs b, nstep := 0 })))
/-- R138: GETNM. -/
def execGetnm (d : RegNum) (s : State) : Host.Outcome State Fault Refusal := finish s (.done (s.wrS d s.src.nmode false))

end Sys2Proof.Machine
end

