-- ==== Sys2Proof/Machine/Conv.lean ====
section
/-! DEFINITION. The conversions of major 0x16 (R140 to R142). -/

namespace Sys2Proof.Machine

/-- R141: the rounding code of a conversion: the prefix's, else the NMODE field of the destination's class. -/
def State.nmRnd (s : State) (cls : Nat) : BitVec 3 :=
  let own := s.src.nmode.extractLsb' (5 * cls + 2) 3
  match s.f.pfx with
  | some p => if p.r = 0x7#3 then own else p.r
  | none => own
/-- R141: its saturation control. -/
def State.nmSat (s : State) (cls : Nat) : BitVec 2 :=
  let own := s.src.nmode.extractLsb' (5 * cls) 2
  match s.f.pfx with
  | some p => if p.t = 0x3#2 then own else p.t
  | none => own

/-- R140: the format code of a narrow floating format's field. -/
def narrowCode (f : BitVec 2) : Nat := f.toNat + 1
/-- R140: the format of a narrow floating format's field. -/
def narrowFmt (f : BitVec 2) : Format :=
  match f.toNat with
  | 0 => bf16
  | 1 => fp16
  | 2 => e4m3
  | _ => e5m2

/-- R141: CVTF to a narrow format: the low bits of the lane, the rest zero (R31). -/
def execCvtfNarrow (d a : RegNum) (f : BitVec 2) (s : State) : Host.Outcome State Fault Refusal :=
  let k := s.nmRnd (classOf (narrowCode f))
  let t := s.nmSat (classOf (narrowCode f))
  finish s (s.clean [.v a s.eff]
    (.done ((s.wrV d (fun l => BitVec.ofNat 32 ((narrowFmt f).narrow (s.rnd k l) t (ofF32 (s.vl a l)))) (s.bndOf [.v a s.eff])).advance k)))
/-- R140, R51: CVTF from a narrow format, exact. -/
def execCvtfWiden (d a : RegNum) (f : BitVec 2) (s : State) : Host.Outcome State Fault Refusal :=
  finish s (exactV s d [.v a s.eff] fun l => toF32 .rne ((narrowFmt f).decode ((s.vl a l).toNat % 2 ^ (narrowFmt f).width)))

/-- R140: width and signedness of CVFI's destination. -/
def cvfiTo (f : BitVec 3) : Nat × Bool :=
  match f.toNat with
  | 0 => (32, true)
  | 1 => (32, false)
  | 2 => (16, true)
  | 3 => (16, false)
  | 4 => (8, true)
  | _ => (8, false)
/-- R140: its NMODE class. -/
def cvfiClass (f : BitVec 3) : Nat := 7 - f.toNat / 2
/-- R141, R31: CVFI: the integer in 32 bits. -/
def execCvfi (d a : RegNum) (f : BitVec 3) (s : State) : Host.Outcome State Fault Refusal :=
  let k := s.nmRnd (cvfiClass f)
  finish s (s.clean [.v a s.eff]
    (.done ((s.wrV d (fun l => BitVec.ofInt 32 (toInt (s.rnd k l) (cvfiTo f).2 (cvfiTo f).1 (ofF32 (s.vl a l)))) (s.bndOf [.v a s.eff])).advance k)))
/-- R140, R51, R133: CVTI. -/
def execCvti (d a : RegNum) (f : BitVec 1) (s : State) : Host.Outcome State Fault Refusal :=
  let val := fun (x : Word) => if f = 0x0#1 then x.toInt else (x.toNat : Int)
  finish s (s.clean [.v a s.eff]
    (.done ((s.wrV d (fun l => toF32 (s.rnd s.rndCode l) (ofInt (val (s.vl a l)))) (s.bndOf [.v a s.eff])).advance s.rndCode)))

/-- R142, R99: a source lane of PACK4 or UNPK4: one outside own(F) reads as zero, and carries no poison. -/
def State.ownLane (s : State) (n : RegNum) (l : Nat) : Word := if s.f.own.getLsbD l then s.vl n l else 0
/-- R142: the codes and the scale byte that PACK4 forms for a beat. -/
def packBeat (s : State) (a b : RegNum) (k : BitVec 3) (t : BitVec 2) (n : Nat) : List Nat × Byte :=
  let S := (s.ownLane b (32 * n)).setWidth 8
  let ls := (List.range 32).map (32 * n + ·)
  let isNan := S.toNat % 64 == 63 || (t != 0x2#2 && ls.any fun l => s.eff.getLsbD l && (ofF32 (s.vl a l)).isNan)
  if isNan then (List.replicate 32 0, S ||| 0x3F#8)
  else (ls.map fun l => if s.eff.getLsbD l then q4Narrow S (s.rnd k l) (ofF32 (s.vl a l)) else 0, S)
/-- R36, R142: eight codes in a word. -/
def codeWord (codes : List Nat) (k : Nat) : Word := BitVec.ofNat 32 (((codes.drop (8 * k)).take 8).foldr (fun c n => c + 16 * n) 0)
/-- R142: PACK4: of the output lanes of a beat with an effective lane, those active are written. -/
def execPack4 (d a b : RegNum) (s : State) : Host.Outcome State Fault Refusal :=
  let k := s.nmRnd 4
  let t := s.nmSat 4
  let has := fun n => s.eff &&& beat n != 0x0#96
  let scales := s.f.own &&& maskOf fun l => l % 32 == 0 && has (l / 32)
  let W := s.active &&& maskOf fun l => decide (l % 32 < 5) && has (l / 32)
  let beats := (List.range 3).map fun n => packBeat s a b k t n
  let out := fun l =>
    let p := beats[l / 32]?.getD ([], 0)
    if l % 32 = 4 then p.2.setWidth 32 else codeWord p.1 (l % 32)
  finish s (s.clean [.v a s.eff, .v b scales] (.done ((s.wrLanes d W out (s.bndOf [.v a s.eff, .v b scales])).advance k)))
/-- R142: UNPK4. -/
def execUnpk4 (d a b : RegNum) (s : State) : Host.Outcome State Fault Refusal :=
  let codes := s.f.own &&& maskOf fun l => decide (l % 32 < 4) && (lanesIn s.eff).any fun j => j / 32 == l / 32 && j % 32 / 8 == l % 32
  let scales := s.f.own &&& maskOf fun l => l % 32 == 0 && s.eff &&& beat (l / 32) != 0x0#96
  let out := fun l =>
    let c := (s.ownLane a (32 * (l / 32) + l % 32 / 8)).toNat / 16 ^ (l % 8) % 16
    toF32 .rne (q4Val ((s.ownLane b (32 * (l / 32))).setWidth 8) c)
  finish s (s.clean [.v a codes, .v b scales] (.done (s.wrV d out (s.bndOf [.v a codes, .v b scales]))))

end Sys2Proof.Machine
end

