-- ==== Sys2Proof/Machine/Entry.lean ====
section
/-! DEFINITION. Chain entries as the engines read them (R304), and the fills of operand slots that are outstanding (R171). -/

namespace Sys2Proof.Machine

/-- A field of an entry: the little-endian value of `n` bytes from an offset. -/
def entU (e : List Byte) (o n : Nat) : Nat := leNat ((e.drop o).take n)
/-- A signed field of an entry. -/
def entI (e : List Byte) (o n : Nat) : Int := (BitVec.ofNat (8 * n) (entU e o n)).toInt

/-- The kinds of entries (R304). -/
inductive EntKind where
  | fin | copy | gather | scatter | bobbin | loop | brif | link
  deriving DecidableEq, Repr

/-- R304: CE.KIND. -/
def kindOf (e : List Byte) : Option EntKind :=
  match entU e 0 1 with
  | 0x00 => some .fin
  | 0x01 => some .copy
  | 0x02 => some .gather
  | 0x03 => some .scatter
  | 0x04 => some .bobbin
  | 0x08 => some .loop
  | 0x09 => some .brif
  | 0x0A => some .link
  | _ => none

/-- R304: first byte that no field of a kind reaches. -/
def EntKind.tail (k : EntKind) : Nat :=
  match k with
  | .fin => 8
  | .copy => 51
  | .gather => 37
  | .scatter => 37
  | .bobbin => 21
  | .loop => 32
  | .brif => 15
  | .link => 12
/-- R304: whether a res0 bit of an entry is set. -/
def EntKind.reserved (k : EntKind) (e : List Byte) : Bool :=
  entU e 1 1 / 8 != 0 || entU e 2 1 / 16 != 0 || entU e 3 1 / 16 != 0 || entU e k.tail (64 - k.tail) != 0 ||
    (match k with
     | .copy => entU e 49 1 / 16 != 0 || entU e 50 1 / 4 != 0
     | .gather => entU e 34 1 / 4 != 0 || entU e 35 1 != 0
     | .scatter => entU e 34 1 / 4 != 0 || entU e 35 1 != 0
     | .loop => entU e 14 2 != 0
     | _ => false)
/-- R303: the kinds that an engine performs. -/
def EntKind.onEngine (k : EntKind) (engine : Nat) : Bool :=
  match k with
  | .copy => engine == 0 || engine == 1
  | .gather => engine == 1
  | .scatter => engine == 1
  | .bobbin => engine == 2
  | _ => true

/-- CE.FLAGS: an input buffer, an output buffer and a sync word named. -/
def entIn (e : List Byte) : Option Nat := if entU e 1 1 % 2 = 1 then some (entU e 2 1 % 16) else none
def entOut (e : List Byte) : Option Nat := if entU e 1 1 / 2 % 2 = 1 then some (entU e 3 1 % 16) else none
def entSync (e : List Byte) : Option Nat := if entU e 1 1 / 4 % 2 = 1 then some (entU e 4 4) else none

/-- R304: bytes that a row of elements takes in a format; Q4 blocks carry their scales inline (R36). -/
def rowBytes (fmt n : Nat) (raw : Bool) : Nat := if fmt = 5 then (if raw then n else (n + 31) / 32 * 17) else n * (fmtBits fmt / 8)

/-- R303: the 64 bytes of the entry at a generic offset, none outside the team's reservation. -/
def State.entryAt (s : State) (team at' : Nat) : Option (List Byte) :=
  let t := s.team team
  if t.alive ∧ at' + 64 ≤ t.size then some (s.bytesIn .scratch (scrKey t.coreKey (t.base + at')) 64) else none
/-- The entry that a command has reached; one in a range that SPMAP has mapped as it was read at its home (R20). -/
def State.reached (s : State) (c : Cmd) : Option (List Byte) :=
  match c.single, KMap.find c.seen c.at' with
  | some e, _ => some e
  | none, some e => some e
  | none, none => s.entryAt c.team c.at'
/-- R20: bytes that an engine reads at a generic offset, and whether they are read in error: of its team's scratchpad, or as they were read at the home
of a mapped range. -/
def State.engBytes (s : State) (c : Cmd) (off n : Nat) : List Byte :=
  (KMap.find c.seen off).getD (s.bytesIn .scratch (scrKey (s.team c.team).coreKey ((s.team c.team).base + off)) n)
def State.engBad (s : State) (c : Cmd) (off n : Nat) : Bool :=
  (KMap.find c.seen off).isNone && s.sramBad 1 (scrKey (s.team c.team).coreKey ((s.team c.team).base + off)) n

/-- The operand-memory ranges that an entry fills: first byte and length, row by row. -/
def fillsOf (e : List Byte) : List (Int × Nat) :=
  match kindOf e with
  | some .copy =>
    if entU e 49 1 % 4 = 3 ∧ (entOut e).isNone then
      let n := rowBytes (entU e 48 1 % 16) (entU e 28 4) (entU e 48 1 / 16 == entU e 48 1 % 16)
      (List.range (entU e 24 4)).map fun (r : Nat) => (((entU e 16 8 : Nat) : Int) + (r : Int) * entI e 36 4, n)
    else []
  | some .gather => if entU e 34 1 % 4 = 3 then [((entU e 16 8 : Nat), entU e 28 4 * entU e 32 2 * (fmtBits (entU e 36 1 % 16) / 8))] else []
  | _ => []
/-- Whether a range of operand memory meets a slot (R169). -/
def meetsSlot (r : Int × Nat) (n : Nat) : Bool := decide (r.1 < 2304 * (n + 1) ∧ (2304 * n : Int) < r.1 + r.2)
/-- R303: the offsets at which the walk can go on after an entry. -/
def nextsOf (at' : Nat) (e : List Byte) : List Nat :=
  let goal := fun (d : Int) => let x : Int := (at' : Int) + 64 * d; if x < 0 then [] else [x.toNat]
  match kindOf e with
  | none => []
  | some .fin => []
  | some .link => [entU e 8 4]
  | some .brif => (at' + 64) :: goal (entI e 12 2)
  | some .loop => (at' + 64) :: goal (-(entU e 12 2 : Nat))
  | _ => [at' + 64]
/-- R303: the offsets of the entries that a walk can reach from some; a reservation holds 4,096 entries, so `fuel` of 8,193 is enough. -/
def State.chainWalk (s : State) (team fuel : Nat) (todo seen : List Nat) : List Nat :=
  match fuel, todo with
  | 0, _ => seen
  | _ + 1, [] => seen
  | k + 1, a :: r =>
    if seen.contains a then s.chainWalk team k r seen
    else
      match s.entryAt team a with
      | none => s.chainWalk team k r seen
      | some e => s.chainWalk team k (nextsOf a e ++ r) (seen ++ [a])
/-- The entries that a command can reach from an offset of its chain, with their offsets. -/
def State.entriesFrom (s : State) (c : Cmd) (at' : Nat) : List (Nat × List Byte) :=
  match c.single with
  | some e => [(at', e)]
  | none => (s.chainWalk c.team 8193 [at'] []).filterMap fun a => (s.entryAt c.team a).map fun e => (a, e)
/-- R308, R313: what the entries of a command name, those that it has not reached included: sync words and buffers. -/
def State.cmdSyncs (s : State) (c : Cmd) : List Nat :=
  (c.syncs ++ (s.entriesFrom c c.head).filterMap fun e => if (kindOf e.2).isSome then entSync e.2 else none).eraseDups
def State.cmdCbs (s : State) (c : Cmd) : List Nat :=
  (c.cbs ++ (s.entriesFrom c c.head).flatMap fun e => if (kindOf e.2).isSome then (entIn e.2).toList ++ (entOut e.2).toList else []).eraseDups
/-- R304: whether a LOOP entry covers the entry at an offset. -/
def loopCovers (l : Nat × List Byte) (at' : Nat) : Bool := decide (at' < l.1 ∧ l.1 ≤ at' + 64 * entU l.2 12 2)
/-- R304: the LOOPs that can still move what the entry at an offset fills: how often each can at most, and by how much it moves it. One inside
others runs again in each of their iterations; in a chain that can jump back through a BRIF or a LINK none has a bound. -/
def Cmd.loopMoves (c : Cmd) (es : List (Nat × List Byte)) (at' : Nat) : List (Nat × Int) :=
  let loops := es.filter fun e => kindOf e.2 == some .loop
  let back := es.any fun e => (kindOf e.2 == some .brif && decide (entI e.2 12 2 ≤ 0)) || (kindOf e.2 == some .link && decide (entU e.2 8 4 ≤ e.1))
  (loops.filter fun l => loopCovers l at').map fun l =>
    let left := match c.loops.find? fun x => x.at' == l.1 with | some x => x.left | .none => entU l.2 8 4 - 1
    let outer := (loops.filter fun o => o.1 != l.1 && loopCovers o l.1).map fun o => entU o.2 8 4
    (if back then 2 ^ 64 else left + (entU l.2 8 4 - 1) * (outer.foldl (· * ·) 1 - 1), entI l.2 24 8)
/-- R169, R304: whether a range of operand memory, moved by LOOPs so often at most, meets a slot. A move past operand memory ends a command (R170), so
that none of a chain is made oftener than operand memory has room for it. -/
def movedMeets (r : Int × Nat) (moves : List (Nat × Int)) (slot : Nat) : Bool :=
  match moves with
  | [] => meetsSlot r slot
  | (n, d) :: rest =>
    if d = 0 then movedMeets r rest slot
    else (List.range (min n (294912 / d.natAbs) + 1)).any fun (k : Nat) => movedMeets (r.1 + (k : Int) * d, r.2) rest slot
/-- R305, R306: the fills of an entry, or, of the one that a command has reached, those rows and indices that are still to be moved. -/
def Cmd.fillsLeft (c : Cmd) (at' : Nat) (e : List Byte) : List (Int × Nat) :=
  if at' ≠ c.at' then fillsOf e
  else
    match kindOf e with
    | some .gather => (fillsOf e).map fun r =>
        let n := c.rows * entU e 32 2 * (fmtBits (entU e 36 1 % 16) / 8)
        (r.1 + (n : Int), r.2 - n)
    | _ => (fillsOf e).drop c.rows
/-- R171: whether a fill into a slot of a core is outstanding: one that an unended command can still come to, where its LOOPs may yet move it
(log 61). -/
def State.fillOutstanding (s : State) (core slot : Nat) : Bool :=
  s.cmds.any fun c => c.2.alive && !c.2.done && (s.team c.2.team).coreKey == core &&
    (let es := s.entriesFrom c.2 c.2.at'
     es.any fun e =>
      let d := (c.2.deltas.get (0, 0) e.1).2
      let moves := c.2.loopMoves es e.1
      ((c.2.fillsLeft e.1 e.2).any fun r => meetsSlot (r.1 + d, r.2) slot) ||
        (moves.any (fun m => decide (0 < m.1)) && (fillsOf e.2).any fun r => movedMeets (r.1 + d, r.2) moves slot))

end Sys2Proof.Machine
end

