-- ==== Sys2Proof/WellFormed.lean ====
section
/-! DEFINITION. Which instructions are well formed: the operand values that the encoding tables of R73 to R83 leave
undefined are not, nor is a step of the device that names a unit the device cannot have. -/

namespace Sys2Proof

/-- The special-register numbers of R85. -/
def isSpecialReg (n : BitVec 11) : Bool :=
  n ≤ 0x00B#11 || (0x010#11 ≤ n && n ≤ 0x014#11) || n = 0x018#11

/-- The order codes a load takes (R78, R221): plain, .acq at scope .dev, .acq at scope .sys. -/
def loadOrder (o : BitVec 3) : Bool := o = 0x0#3 || o = 0x1#3 || o = 0x5#3

/-- The order codes that ST, STP and ATP take (R78, R223, R228): plain, .rel at scope .dev, .rel at scope .sys. R224 does not say what an acquire
order on STP does: it is undefined there as R223 makes it for ST (DESIGN CHOICE, log 64). -/
def storeOrder (o : BitVec 3) : Bool := o = 0x0#3 || o = 0x2#3 || o = 0x6#3

/-- The destination formats of CST and CSTZ (R180). -/
def storeFormat (f : BitVec 4) : Bool :=
  f ≤ 0x4#4 || (0x8#4 ≤ f && f ≤ 0xA#4) || (0xC#4 ≤ f && f ≤ 0xE#4)

/-- Well-formedness of an instruction: every operand has a value that its encoding defines. -/
def Instr.wf (i : Instr) : Bool :=
  match i with
  | .nop => true
  | .pfx _ r _ _ _ => decide (r ≠ 0x6#3)
  | .iaddS64 _ _ _ => true
  | .iaddS32 _ _ _ => true
  | .iaddV _ _ _ _ => true
  | .isubS64 _ _ _ => true
  | .isubS32 _ _ _ => true
  | .isubV _ _ _ _ => true
  | .imulS64 _ _ _ => true
  | .imulS32 _ _ _ => true
  | .imulV _ _ _ _ => true
  | .imulhIS64 _ _ _ => true
  | .imulhIS32 _ _ _ => true
  | .imulhIV _ _ _ _ => true
  | .imulhNS64 _ _ _ => true
  | .imulhNS32 _ _ _ => true
  | .imulhNV _ _ _ _ => true
  | .imadS64 _ _ _ => true
  | .imadS32 _ _ _ => true
  | .imadV _ _ _ _ => true
  | .idivIS64 _ _ _ => true
  | .idivIS32 _ _ _ => true
  | .idivIV _ _ _ _ => true
  | .idivNS64 _ _ _ => true
  | .idivNS32 _ _ _ => true
  | .idivNV _ _ _ _ => true
  | .iremIS64 _ _ _ => true
  | .iremIS32 _ _ _ => true
  | .iremIV _ _ _ _ => true
  | .iremNS64 _ _ _ => true
  | .iremNS32 _ _ _ => true
  | .iremNV _ _ _ _ => true
  | .iminIS64 _ _ _ => true
  | .iminIS32 _ _ _ => true
  | .iminIV _ _ _ _ => true
  | .iminNS64 _ _ _ => true
  | .iminNS32 _ _ _ => true
  | .iminNV _ _ _ _ => true
  | .imaxIS64 _ _ _ => true
  | .imaxIS32 _ _ _ => true
  | .imaxIV _ _ _ _ => true
  | .imaxNS64 _ _ _ => true
  | .imaxNS32 _ _ _ => true
  | .imaxNV _ _ _ _ => true
  | .iabsS64 _ _ => true
  | .iabsS32 _ _ => true
  | .iabsV _ _ _ => true
  | .inegS64 _ _ => true
  | .inegS32 _ _ => true
  | .inegV _ _ _ => true
  | .andS64 _ _ _ => true
  | .andS32 _ _ _ => true
  | .andV _ _ _ _ => true
  | .orS64 _ _ _ => true
  | .orS32 _ _ _ => true
  | .orV _ _ _ _ => true
  | .xorS64 _ _ _ => true
  | .xorS32 _ _ _ => true
  | .xorV _ _ _ _ => true
  | .andnS64 _ _ _ => true
  | .andnS32 _ _ _ => true
  | .andnV _ _ _ _ => true
  | .notS64 _ _ => true
  | .notS32 _ _ => true
  | .notV _ _ _ => true
  | .shlS64 _ _ _ => true
  | .shlS32 _ _ _ => true
  | .shlV _ _ _ _ => true
  | .shrS64 _ _ _ => true
  | .shrS32 _ _ _ => true
  | .shrV _ _ _ _ => true
  | .sarS64 _ _ _ => true
  | .sarS32 _ _ _ => true
  | .sarV _ _ _ _ => true
  | .rotS64 _ _ _ => true
  | .rotS32 _ _ _ => true
  | .rotV _ _ _ _ => true
  | .bfxIS64 _ _ _ => true
  | .bfxIS32 _ _ _ => true
  | .bfxIV _ _ _ _ => true
  | .bfxNS64 _ _ _ => true
  | .bfxNS32 _ _ _ => true
  | .bfxNV _ _ _ _ => true
  | .bfiS64 _ _ _ => true
  | .bfiS32 _ _ _ => true
  | .bfiV _ _ _ _ => true
  | .popcS64 _ _ => true
  | .popcS32 _ _ => true
  | .popcV _ _ _ => true
  | .clzS64 _ _ => true
  | .clzS32 _ _ => true
  | .clzV _ _ _ => true
  | .brevS64 _ _ => true
  | .brevS32 _ _ => true
  | .brevV _ _ _ => true
  | .movS64 _ _ => true
  | .movS32 _ _ => true
  | .movV w _ a b => decide ((if w = 0x3#2 then a else b) = 0x00#6)
  | .icmpS64 _ _ _ k => decide (k ≤ 0x5#3)
  | .icmpS32 _ _ _ k => decide (k ≤ 0x5#3)
  | .icmpV _ _ _ _ k => decide (k ≤ 0x5#3)
  | .selS64 _ _ _ => true
  | .selS32 _ _ _ => true
  | .selV _ _ _ _ _ => true
  | .leaS64 _ _ _ _ => true
  | .leaS32 _ _ _ _ => true
  | .leaV _ _ _ _ _ => true
  | .iaddImmS _ _ _ => true
  | .iaddImmV _ _ _ => true
  | .moviS _ _ => true
  | .moviV _ _ => true
  | .movhiS _ _ => true
  | .movhiV _ _ => true
  | .sread _ n => isSpecialReg n
  | .swrite _ n => isSpecialReg n
  | .shlImmS _ _ _ => true
  | .shrImmS _ _ _ => true
  | .sarImmS _ _ _ => true
  | .rotImmS _ _ _ => true
  | .shlImmV _ _ _ => true
  | .shrImmV _ _ _ => true
  | .sarImmV _ _ _ => true
  | .rotImmV _ _ _ => true
  | .faddV _ _ _ _ => true
  | .faddS _ _ _ => true
  | .fsubV _ _ _ _ => true
  | .fsubS _ _ _ => true
  | .fmulV _ _ _ _ => true
  | .fmulS _ _ _ => true
  | .ffmaV _ _ _ _ => true
  | .ffmaS _ _ _ => true
  | .fminV _ _ _ _ => true
  | .fminS _ _ _ => true
  | .fmaxV _ _ _ _ => true
  | .fmaxS _ _ _ => true
  | .fsgnCpyV _ _ _ _ => true
  | .fsgnCpyS _ _ _ => true
  | .fsgnNegV _ _ _ _ => true
  | .fsgnNegS _ _ _ => true
  | .fsgnXorV _ _ _ _ => true
  | .fsgnXorS _ _ _ => true
  | .fcmpV _ _ _ _ k => decide (k ≤ 0x5#3)
  | .fcmpS _ _ _ k => decide (k ≤ 0x5#3)
  | .fclassV _ _ _ => true
  | .fclassS _ _ => true
  | .frndV _ _ _ k => decide (k ≤ 0x5#3)
  | .frndS _ _ k => decide (k ≤ 0x5#3)
  | .redf _ _ o => decide (o ≤ 0x2#2)
  | .scanfAddInc _ _ => true
  | .scanfAddExc _ _ => true
  | .scanfMinInc _ _ => true
  | .scanfMaxInc _ _ => true
  | .scanfMinExc _ _ => true
  | .scanfMaxExc _ _ => true
  | .setfmt _ => true
  | .getfmt _ => true
  | .setnm _ _ => true
  | .getnm _ => true
  | .cvtfNarrow _ _ _ => true
  | .cvtfWiden _ _ _ => true
  | .cvfi _ _ f => decide (f ≤ 0x5#3)
  | .cvti _ _ _ => true
  | .pack4 _ _ _ => true
  | .unpk4 _ _ _ => true
  | .frcp _ _ => true
  | .frsq _ _ => true
  | .fsqrt _ _ => true
  | .fexp2 _ _ => true
  | .flog2 _ _ => true
  | .fsin _ _ => true
  | .fcos _ _ => true
  | .ftanh _ _ => true
  | .br _ => true
  | .brc k _ => decide (k ≤ 0x0D#5)
  | .brm _ _ => true
  | .call _ _ _ => true
  | .ret => true
  | .jtab _ _ _ => true
  | .bset _ => true
  | .join _ => true
  | .barrt => true
  | .barrtPub => true
  | .spawn _ b => decide (b ≤ 0x38#6)
  | .exit => true
  | .park => true
  | .yield => true
  | .waitw _ _ => true
  | .preh _ _ => true
  | .ballot _ _ => true
  | .voteAny _ _ => true
  | .voteAll _ _ => true
  | .voteUni _ _ => true
  | .mpopc _ _ => true
  | .mfirst _ _ => true
  | .mand _ _ _ => true
  | .mor _ _ _ => true
  | .mxor _ _ _ => true
  | .mnot _ _ => true
  | .movMask _ _ => true
  | .laneid _ => true
  | .shflIdx _ _ _ => true
  | .shflUp _ _ _ => true
  | .shflDown _ _ _ => true
  | .shflXor _ _ _ => true
  | .bcast _ _ _ => true
  | .redi _ _ _ => true
  | .scaniInc _ _ _ => true
  | .scaniExc _ _ _ => true
  | .ldV _ _ _ w o => decide (loadOrder o ∧ w ≤ 0x4#3)
  | .stV _ _ _ w o => decide (storeOrder o ∧ w ≤ 0x4#3)
  | .stVNarrow _ _ _ w o => decide (storeOrder o ∧ w ≤ 0x3#3)
  | .stp _ _ _ w o => decide (storeOrder o ∧ w ≤ 0x4#3)
  | .ldS _ _ w o => decide (loadOrder o ∧ w ≤ 0x5#3)
  | .stS _ _ w o => decide (storeOrder o ∧ w ≤ 0x5#3)
  | .lds _ _ _ w o => decide (w ≤ 0x4#3 ∧ o ≤ 0x1#2)
  | .ldv _ _ _ w o => decide (w ≤ 0x4#3 ∧ o ≤ 0x1#2)
  | .sts _ _ _ w o => decide (w ≤ 0x4#3 ∧ o.extractLsb' 0 1 = 0x0#1)
  | .stv _ _ _ w o => decide (w ≤ 0x4#3 ∧ o.extractLsb' 0 1 = 0x0#1)
  | .fence k s => decide ((k ≠ 0x0#3 ∧ k ≤ 0x3#3) ∧ s ≤ 0x5#3)
  | .migr _ => true
  | .homeOf _ _ => true
  | .spmap _ _ => true
  | .spflush _ _ => true
  | .leaseq _ _ => true
  | .atom _ _ _ _ r => decide (r ≠ 0x4#3)
  | .atomF _ _ _ o r => decide (o ≤ 0x4#3 ∧ r ≠ 0x4#3)
  | .atp _ _ _ o r => decide (o ≠ 0x7#3 ∧ storeOrder r)
  | .xatom d b _ _ n => decide (d.toNat + 2 ^ n.toNat - 1 ≤ 63) && b != 0x3F#6
  | .launch _ _ => true
  | .lstat _ => true
  | .echain _ e => decide (e ≤ 0x02#6)
  | .estat _ e => decide (e ≤ 0x02#6)
  | .cbcfg _ n => decide (n ≤ 0x0F#6)
  | .cbput _ n => decide (n ≤ 0x0F#6)
  | .cbget _ n => decide (n ≤ 0x0F#6)
  | .cbwait _ n => decide (n ≤ 0x0F#6)
  | .cpy _ => true
  | .bseal _ => true
  | .bwait _ => true
  | .syncw _ _ => true
  | .swait _ _ => true
  | .wcfl => true
  | .mma _ _ _ _ => true
  | .oclaim f n => decide (f.toNat + n.toNat ≤ 127)
  | .orel f n => decide (f.toNat + n.toNat ≤ 127)
  | .msync _ => true
  | .czero _ => true
  | .crd _ _ _ => true
  | .cwr _ _ _ => true
  | .cst _ a f => storeFormat f && a != 0x3F#6
  | .cstz _ _ f => storeFormat f
  | .cscl _ _ => true
  | .bskip _ a _ => a != 0x3F#6
  | .openReg _ x => decide (x ≤ 0x0B#6)
  | .adv _ x => decide (x ≤ 0x0B#6)
  | .tend _ x => decide (x ≤ 0x0B#6)
  | .closeReg x => decide (x ≤ 0x0B#6)
  | .fldc _ x => decide (x ≤ 0x0B#6)
  | .cxsect _ _ _ _ => true
  | .cmerge _ _ _ _ => true
  | .cwait _ _ => true
  | .cursv _ => true
  | .curld _ => true
  | .xbld _ _ _ _ => true
  | .xbmv d _ _ _ => d != 0x3F#6
  | .xbcal _ _ _ => true
  | .xbst _ _ _ => true
  | .accept _ _ _ _ => true
  | .tldc _ _ _ => true
  | .tldb _ _ _ => true
  | .tsetl _ _ => true
  | .tsamp _ _ => true
  | .trd _ _ _ => true
  | .trdc _ _ _ => true
  | .tstat _ _ => true
  | .cyc _ => true
  | .gtim _ => true
  | .gtset _ => true
  | .perf _ _ => true
  | .ovtld _ => true
  | .htld _ _ => true
  | .keyld _ _ => true
  | .tlbsd _ _ => true
  | .ptgen _ => true
  | .trap _ => true
  | .tret => true
  | .tretAt _ => true
  | .saveq _ => true
  | .timerTrap => true
  | .parcelDepart _ => true
  | .parcelOffer core dest => decide (core < 3072 ∧ dest / 16 < 4096 ∧ dest % 16 < 12)
  | .parcelArrival _ => true
  | .parcelReoffer home => decide (home < 12)
  | .parcelPlacement home => decide (home < 12)
  | .parcelPortIngress _ => true
  | .parcelReturn _ => true
  | .remoteRequestIngress _ => true
  | .storeRequestPerform _ => true
  | .postedOpPerform _ => true
  | .ackReturn _ => true
  | .loadSectorReturn _ _ => true
  | .remoteReadReturn _ => true
  | .splitUpdateApply _ => true
  | .registerLineFill core _ _ => decide (core < 3072)
  | .residencyGrant core => decide (core < 3072)
  | .turnEnd core => decide (core < 3072)
  | .servicePassBound _ => true
  | .sfuEntryComplete core => decide (core < 3072)
  | .mmaPassComplete core _ => decide (core < 3072)
  | .msyncRelease _ => true
  | .slotClearDone core slot => decide (core < 3072 ∧ slot < 128)
  | .mapFill _ entry _ => decide (entry < 8)
  | .joinFusion _ bar => decide (bar < 16)
  | .barrtRelease _ => true
  | .waitwWake _ => true
  | .bwaitWake _ => true
  | .swaitWake _ => true
  | .cbwaitWake _ => true
  | .cwaitWake _ => true
  | .launchAppendResume _ => true
  | .lqTailDoorbell fn queue _ => decide (fn ≤ 12 ∧ queue < 64)
  | .lqEnWrite queue _ => decide (queue < 64)
  | .launchRecordRead queue => decide (queue < 64)
  | .gridDispatch _ core => decide (core < 3072)
  | .teamPlace _ core => decide (core < 3072)
  | .groupRetire _ => true
  | .gridRetire _ => true
  | .copyEntry _ => true
  | .gatherEntry _ => true
  | .scatterEntry _ => true
  | .bobbinEntry _ => true
  | .loopEntry _ => true
  | .brifEntry _ => true
  | .linkEntry _ => true
  | .endEntry _ => true
  | .cbStepFire _ => true
  | .batchComplete _ batch => decide (batch < 256)
  | .bobbinWalkStep _ => true
  | .bobbinFinish _ => true
  | .xbLoadProgram home array => decide (home < 12 ∧ array < 512)
  | .xbCalibrate home array => decide (home < 12 ∧ array < 512)
  | .xbProduct home array => decide (home < 12 ∧ array < 512)
  | .xbDriftReading home array => decide (home < 12 ∧ array < 512)
  | .tambLoadPerform home part => decide (home < 12 ∧ part < 4)
  | .tambSettleStart home part => decide (home < 12 ∧ part < 4)
  | .tambSampleStart home part => decide (home < 12 ∧ part < 4)
  | .tambSettleExpiry home part => decide (home < 12 ∧ part < 4)
  | .tambRailReached home part i => decide (home < 12 ∧ part < 4 ∧ i < 1024)
  | .tambSampleExpiry home part => decide (home < 12 ∧ part < 4)
  | .xatomElementArrival _ => true
  | .channelToCompute home chan => decide (home < 12 ∧ chan < 32)
  | .channelToNormal home chan => decide (home < 12 ∧ chan < 32)
  | .handlerRun home unit => decide (home < 12 ∧ unit < 128)
  | .htldInstall home unit => decide (home < 12 ∧ unit < 128)
  | .wcAgeExpiry core _ => decide (core < 3072)
  | .drainArrival _ => true
  | .orderedFlagArrival _ => true
  | .orderedFlagPerform _ => true
  | .closeMarker core dev => decide (core < 3072 ∧ dev < 4096)
  | .preemptRequest part _ => decide (part < 12)
  | .preemptEscalation part => decide (part < 12)
  | .restore _ core => decide (core < 3072)
  | .freezeComplete part => decide (part < 12)
  | .pcFreezeSet part _ => decide (part < 12)
  | .pcFreezeRelease part _ => decide (part < 12)
  | .shadowSwap part _ => decide (part < 12)
  | .pcHomesWrite part _ => decide (part < 12)
  | .pcEnSet part _ => decide (part < 12)
  | .pcEnClear part _ => decide (part < 12)
  | .pcVfWrite part _ => decide (part < 12)
  | .pcTdataCommit part _ => decide (part < 12)
  | .registerWrite fn _ _ => decide (fn ≤ 12)
  | .resync => true
  | .mailboxUnknown code => decide (code ≠ 0x01#8)
  | .hostWrite home addr bytes => decide (home < 12 ∧ addr + bytes.length ≤ 2 ^ 36)
  | .hostRead home addr count => decide (home < 12 ∧ addr + count ≤ 2 ^ 36)
  | .portTrain port _ => decide (port < 144)
  | .deviceReset => true
  | .powerCreditWindow home => decide (home < 12)
  | .thermalThrottle => true
  | .thermalRestore => true
  | .thermalTrip => true
  | .rootBoot _ => true
  | .getVersion => true
  | .getCapabilities => true
  | .negotiateAlgorithms => true
  | .getDigests => true
  | .getCertificate => true
  | .challenge _ => true
  | .getMeasurements index => decide (1 ≤ index ∧ index ≤ 4)
  | .tileStorageError _ tile part => decide (tile < 8 ∧ part < 12)
  | .remoteReadPerform _ => true

end Sys2Proof
end

