-- ==== Sys2Proof/Decode.lean ====
section
/-! DEFINITION. The decoder and the encoder, written from the encoding tables R56, R64, R67 to R84. A word is first cut
into its fields; decoding is total and refuses by name, with the fate that R72 and R8 give: an unassigned major, func,
sub-code or operand value is ILLEGAL_OP, a set res0 bit RESERVED_BITS, and the first is looked for first (R71). -/

namespace Sys2Proof

/-- Why a word is no instruction (R71, R72, R8). -/
inductive Reject where
  /-- unassigned major, func, sub-code or operand value: ILLEGAL_OP -/
  | illegalOp
  /-- a res0 bit is not zero: RESERVED_BITS -/
  | reservedBits
  deriving DecidableEq, Repr

/-- The fields every word shares (R56, R67): chain bit, park marker, major, and bits [23:18], [17:12], [11:6], [5:0]. -/
structure Fields where
  c : Bool
  p : Bool
  maj : BitVec 6
  d : BitVec 6
  a : BitVec 6
  b : BitVec 6
  f : BitVec 6
  deriving DecidableEq, Repr

/-- An instruction word as it stands in a packet: its chain bit, its park marker and the instruction (R56). -/
structure Slot where
  chain : Bool
  park : Bool
  instr : Instr
  deriving DecidableEq, Repr

/-- R56: cutting a word into its fields. -/
def Fields.ofWord (w : BitVec 32) : Fields where
  c := w.getLsbD 31
  p := w.getLsbD 30
  maj := w.extractLsb' 24 6
  d := w.extractLsb' 18 6
  a := w.extractLsb' 12 6
  b := w.extractLsb' 6 6
  f := w.extractLsb' 0 6

/-- R56: the word made of its fields. -/
def Fields.toWord (x : Fields) : BitVec 32 :=
  BitVec.ofBool x.c ++ BitVec.ofBool x.p ++ x.maj ++ x.d ++ x.a ++ x.b ++ x.f

/-! The decoders build instructions of 392 constructors; Lean's compiler numbers a constructor with fields by at most 244, so
they are not compiled, and the kernel alone evaluates them. -/
noncomputable section

/-- The instructions of major 0x00. -/
def decode00 (x : Fields) : Except Reject Instr :=
  if x.f = 0x00#6 then
    if x.d ≠ 0x00#6 ∨ x.a ≠ 0x00#6 ∨ x.b ≠ 0x00#6 then .error .reservedBits else .ok .nop
  else
  .error .illegalOp

/-- The instructions of major 0x3F. -/
def decode3F (x : Fields) : Except Reject Instr :=
  if x.d.extractLsb' 0 3 = 0x6#3 then .error .illegalOp else if x.b.extractLsb' 0 3 ≠ 0x0#3 ∨ x.f ≠ 0x00#6 ∨ x.c ∨ x.p then .error .reservedBits else .ok (.pfx (x.d.extractLsb' 3 3) (x.d.extractLsb' 0 3) x.a (x.b.extractLsb' 5 1) (x.b.extractLsb' 3 2))

/-- The instructions of major 0x01. -/
def decode01 (x : Fields) : Except Reject Instr :=
  if x.f = 0x00#6 then
    .ok (.iaddS64 x.d x.a x.b)
  else
  if x.f = 0x01#6 then
    .ok (.isubS64 x.d x.a x.b)
  else
  if x.f = 0x02#6 then
    .ok (.imulS64 x.d x.a x.b)
  else
  if x.f = 0x03#6 then
    .ok (.imulhIS64 x.d x.a x.b)
  else
  if x.f = 0x04#6 then
    .ok (.imulhNS64 x.d x.a x.b)
  else
  if x.f = 0x05#6 then
    .ok (.imadS64 x.d x.a x.b)
  else
  if x.f = 0x06#6 then
    .ok (.idivIS64 x.d x.a x.b)
  else
  if x.f = 0x07#6 then
    .ok (.idivNS64 x.d x.a x.b)
  else
  if x.f = 0x08#6 then
    .ok (.iremIS64 x.d x.a x.b)
  else
  if x.f = 0x09#6 then
    .ok (.iremNS64 x.d x.a x.b)
  else
  if x.f = 0x0A#6 then
    .ok (.iminIS64 x.d x.a x.b)
  else
  if x.f = 0x0B#6 then
    .ok (.iminNS64 x.d x.a x.b)
  else
  if x.f = 0x0C#6 then
    .ok (.imaxIS64 x.d x.a x.b)
  else
  if x.f = 0x0D#6 then
    .ok (.imaxNS64 x.d x.a x.b)
  else
  if x.f = 0x0E#6 then
    if x.b ≠ 0x00#6 then .error .reservedBits else .ok (.iabsS64 x.d x.a)
  else
  if x.f = 0x0F#6 then
    if x.b ≠ 0x00#6 then .error .reservedBits else .ok (.inegS64 x.d x.a)
  else
  if x.f = 0x10#6 then
    .ok (.andS64 x.d x.a x.b)
  else
  if x.f = 0x11#6 then
    .ok (.orS64 x.d x.a x.b)
  else
  if x.f = 0x12#6 then
    .ok (.xorS64 x.d x.a x.b)
  else
  if x.f = 0x13#6 then
    .ok (.andnS64 x.d x.a x.b)
  else
  if x.f = 0x14#6 then
    if x.b ≠ 0x00#6 then .error .reservedBits else .ok (.notS64 x.d x.a)
  else
  if x.f = 0x15#6 then
    .ok (.shlS64 x.d x.a x.b)
  else
  if x.f = 0x16#6 then
    .ok (.shrS64 x.d x.a x.b)
  else
  if x.f = 0x17#6 then
    .ok (.sarS64 x.d x.a x.b)
  else
  if x.f = 0x18#6 then
    .ok (.rotS64 x.d x.a x.b)
  else
  if x.f = 0x19#6 then
    .ok (.bfxIS64 x.d x.a x.b)
  else
  if x.f = 0x1A#6 then
    .ok (.bfxNS64 x.d x.a x.b)
  else
  if x.f = 0x1B#6 then
    .ok (.bfiS64 x.d x.a x.b)
  else
  if x.f = 0x1C#6 then
    if x.b ≠ 0x00#6 then .error .reservedBits else .ok (.popcS64 x.d x.a)
  else
  if x.f = 0x1D#6 then
    if x.b ≠ 0x00#6 then .error .reservedBits else .ok (.clzS64 x.d x.a)
  else
  if x.f = 0x1E#6 then
    if x.b ≠ 0x00#6 then .error .reservedBits else .ok (.brevS64 x.d x.a)
  else
  if x.f = 0x1F#6 then
    if x.b ≠ 0x00#6 then .error .reservedBits else .ok (.movS64 x.d x.a)
  else
  if x.f.extractLsb' 3 3 = 0x04#3 ∧ x.f.extractLsb' 0 3 ≤ 0x5#3 then
    .ok (.icmpS64 x.d x.a x.b (x.f.extractLsb' 0 3))
  else
  if x.f = 0x26#6 then
    .ok (.selS64 x.d x.a x.b)
  else
  if x.f.extractLsb' 2 4 = 0xA#4 then
    .ok (.leaS64 x.d x.a x.b (x.f.extractLsb' 0 2))
  else
  .error .illegalOp

/-- The instructions of major 0x02. -/
def decode02 (x : Fields) : Except Reject Instr :=
  if x.f = 0x00#6 then
    .ok (.iaddS32 x.d x.a x.b)
  else
  if x.f = 0x01#6 then
    .ok (.isubS32 x.d x.a x.b)
  else
  if x.f = 0x02#6 then
    .ok (.imulS32 x.d x.a x.b)
  else
  if x.f = 0x03#6 then
    .ok (.imulhIS32 x.d x.a x.b)
  else
  if x.f = 0x04#6 then
    .ok (.imulhNS32 x.d x.a x.b)
  else
  if x.f = 0x05#6 then
    .ok (.imadS32 x.d x.a x.b)
  else
  if x.f = 0x06#6 then
    .ok (.idivIS32 x.d x.a x.b)
  else
  if x.f = 0x07#6 then
    .ok (.idivNS32 x.d x.a x.b)
  else
  if x.f = 0x08#6 then
    .ok (.iremIS32 x.d x.a x.b)
  else
  if x.f = 0x09#6 then
    .ok (.iremNS32 x.d x.a x.b)
  else
  if x.f = 0x0A#6 then
    .ok (.iminIS32 x.d x.a x.b)
  else
  if x.f = 0x0B#6 then
    .ok (.iminNS32 x.d x.a x.b)
  else
  if x.f = 0x0C#6 then
    .ok (.imaxIS32 x.d x.a x.b)
  else
  if x.f = 0x0D#6 then
    .ok (.imaxNS32 x.d x.a x.b)
  else
  if x.f = 0x0E#6 then
    if x.b ≠ 0x00#6 then .error .reservedBits else .ok (.iabsS32 x.d x.a)
  else
  if x.f = 0x0F#6 then
    if x.b ≠ 0x00#6 then .error .reservedBits else .ok (.inegS32 x.d x.a)
  else
  if x.f = 0x10#6 then
    .ok (.andS32 x.d x.a x.b)
  else
  if x.f = 0x11#6 then
    .ok (.orS32 x.d x.a x.b)
  else
  if x.f = 0x12#6 then
    .ok (.xorS32 x.d x.a x.b)
  else
  if x.f = 0x13#6 then
    .ok (.andnS32 x.d x.a x.b)
  else
  if x.f = 0x14#6 then
    if x.b ≠ 0x00#6 then .error .reservedBits else .ok (.notS32 x.d x.a)
  else
  if x.f = 0x15#6 then
    .ok (.shlS32 x.d x.a x.b)
  else
  if x.f = 0x16#6 then
    .ok (.shrS32 x.d x.a x.b)
  else
  if x.f = 0x17#6 then
    .ok (.sarS32 x.d x.a x.b)
  else
  if x.f = 0x18#6 then
    .ok (.rotS32 x.d x.a x.b)
  else
  if x.f = 0x19#6 then
    .ok (.bfxIS32 x.d x.a x.b)
  else
  if x.f = 0x1A#6 then
    .ok (.bfxNS32 x.d x.a x.b)
  else
  if x.f = 0x1B#6 then
    .ok (.bfiS32 x.d x.a x.b)
  else
  if x.f = 0x1C#6 then
    if x.b ≠ 0x00#6 then .error .reservedBits else .ok (.popcS32 x.d x.a)
  else
  if x.f = 0x1D#6 then
    if x.b ≠ 0x00#6 then .error .reservedBits else .ok (.clzS32 x.d x.a)
  else
  if x.f = 0x1E#6 then
    if x.b ≠ 0x00#6 then .error .reservedBits else .ok (.brevS32 x.d x.a)
  else
  if x.f = 0x1F#6 then
    if x.b ≠ 0x00#6 then .error .reservedBits else .ok (.movS32 x.d x.a)
  else
  if x.f.extractLsb' 3 3 = 0x04#3 ∧ x.f.extractLsb' 0 3 ≤ 0x5#3 then
    .ok (.icmpS32 x.d x.a x.b (x.f.extractLsb' 0 3))
  else
  if x.f = 0x26#6 then
    .ok (.selS32 x.d x.a x.b)
  else
  if x.f.extractLsb' 2 4 = 0xA#4 then
    .ok (.leaS32 x.d x.a x.b (x.f.extractLsb' 0 2))
  else
  .error .illegalOp

/-- The instructions of majors 0x08 to 0x0B (R73). -/
def decodeVectorInt (x : Fields) : Except Reject Instr :=
  if x.f = 0x00#6 then
    .ok (.iaddV (x.maj.extractLsb' 0 2) x.d x.a x.b)
  else
  if x.f = 0x01#6 then
    .ok (.isubV (x.maj.extractLsb' 0 2) x.d x.a x.b)
  else
  if x.f = 0x02#6 then
    .ok (.imulV (x.maj.extractLsb' 0 2) x.d x.a x.b)
  else
  if x.f = 0x03#6 then
    .ok (.imulhIV (x.maj.extractLsb' 0 2) x.d x.a x.b)
  else
  if x.f = 0x04#6 then
    .ok (.imulhNV (x.maj.extractLsb' 0 2) x.d x.a x.b)
  else
  if x.f = 0x05#6 then
    .ok (.imadV (x.maj.extractLsb' 0 2) x.d x.a x.b)
  else
  if x.f = 0x06#6 then
    .ok (.idivIV (x.maj.extractLsb' 0 2) x.d x.a x.b)
  else
  if x.f = 0x07#6 then
    .ok (.idivNV (x.maj.extractLsb' 0 2) x.d x.a x.b)
  else
  if x.f = 0x08#6 then
    .ok (.iremIV (x.maj.extractLsb' 0 2) x.d x.a x.b)
  else
  if x.f = 0x09#6 then
    .ok (.iremNV (x.maj.extractLsb' 0 2) x.d x.a x.b)
  else
  if x.f = 0x0A#6 then
    .ok (.iminIV (x.maj.extractLsb' 0 2) x.d x.a x.b)
  else
  if x.f = 0x0B#6 then
    .ok (.iminNV (x.maj.extractLsb' 0 2) x.d x.a x.b)
  else
  if x.f = 0x0C#6 then
    .ok (.imaxIV (x.maj.extractLsb' 0 2) x.d x.a x.b)
  else
  if x.f = 0x0D#6 then
    .ok (.imaxNV (x.maj.extractLsb' 0 2) x.d x.a x.b)
  else
  if x.f = 0x0E#6 then
    if x.b ≠ 0x00#6 then .error .reservedBits else .ok (.iabsV (x.maj.extractLsb' 0 2) x.d x.a)
  else
  if x.f = 0x0F#6 then
    if x.b ≠ 0x00#6 then .error .reservedBits else .ok (.inegV (x.maj.extractLsb' 0 2) x.d x.a)
  else
  if x.f = 0x10#6 then
    .ok (.andV (x.maj.extractLsb' 0 2) x.d x.a x.b)
  else
  if x.f = 0x11#6 then
    .ok (.orV (x.maj.extractLsb' 0 2) x.d x.a x.b)
  else
  if x.f = 0x12#6 then
    .ok (.xorV (x.maj.extractLsb' 0 2) x.d x.a x.b)
  else
  if x.f = 0x13#6 then
    .ok (.andnV (x.maj.extractLsb' 0 2) x.d x.a x.b)
  else
  if x.f = 0x14#6 then
    if x.b ≠ 0x00#6 then .error .reservedBits else .ok (.notV (x.maj.extractLsb' 0 2) x.d x.a)
  else
  if x.f = 0x15#6 then
    .ok (.shlV (x.maj.extractLsb' 0 2) x.d x.a x.b)
  else
  if x.f = 0x16#6 then
    .ok (.shrV (x.maj.extractLsb' 0 2) x.d x.a x.b)
  else
  if x.f = 0x17#6 then
    .ok (.sarV (x.maj.extractLsb' 0 2) x.d x.a x.b)
  else
  if x.f = 0x18#6 then
    .ok (.rotV (x.maj.extractLsb' 0 2) x.d x.a x.b)
  else
  if x.f = 0x19#6 then
    .ok (.bfxIV (x.maj.extractLsb' 0 2) x.d x.a x.b)
  else
  if x.f = 0x1A#6 then
    .ok (.bfxNV (x.maj.extractLsb' 0 2) x.d x.a x.b)
  else
  if x.f = 0x1B#6 then
    .ok (.bfiV (x.maj.extractLsb' 0 2) x.d x.a x.b)
  else
  if x.f = 0x1C#6 then
    if x.b ≠ 0x00#6 then .error .reservedBits else .ok (.popcV (x.maj.extractLsb' 0 2) x.d x.a)
  else
  if x.f = 0x1D#6 then
    if x.b ≠ 0x00#6 then .error .reservedBits else .ok (.clzV (x.maj.extractLsb' 0 2) x.d x.a)
  else
  if x.f = 0x1E#6 then
    if x.b ≠ 0x00#6 then .error .reservedBits else .ok (.brevV (x.maj.extractLsb' 0 2) x.d x.a)
  else
  if x.f = 0x1F#6 then
    if (if x.maj.extractLsb' 0 2 = 0x3#2 then x.a else x.b) ≠ 0x00#6 then .error .reservedBits else .ok (.movV (x.maj.extractLsb' 0 2) x.d x.a x.b)
  else
  if x.f.extractLsb' 3 3 = 0x04#3 ∧ x.f.extractLsb' 0 3 ≤ 0x5#3 then
    if x.d.extractLsb' 3 3 ≠ 0x0#3 then .error .reservedBits else .ok (.icmpV (x.maj.extractLsb' 0 2) (x.d.extractLsb' 0 3) x.a x.b (x.f.extractLsb' 0 3))
  else
  if x.f.extractLsb' 3 3 = 0x07#3 then
    .ok (.selV (x.maj.extractLsb' 0 2) x.d x.a x.b (x.f.extractLsb' 0 3))
  else
  if x.f.extractLsb' 2 4 = 0xA#4 then
    .ok (.leaV (x.maj.extractLsb' 0 2) x.d x.a x.b (x.f.extractLsb' 0 2))
  else
  .error .illegalOp

/-- The instructions of major 0x03. -/
def decode03 (x : Fields) : Except Reject Instr :=
  .ok (.iaddImmS x.d x.a (x.b ++ x.f))

/-- The instructions of major 0x0C. -/
def decode0C (x : Fields) : Except Reject Instr :=
  .ok (.iaddImmV x.d x.a (x.b ++ x.f))

/-- The instructions of major 0x04. -/
def decode04 (x : Fields) : Except Reject Instr :=
  .ok (.moviS x.d (x.a ++ x.b ++ x.f))

/-- The instructions of major 0x0D. -/
def decode0D (x : Fields) : Except Reject Instr :=
  .ok (.moviV x.d (x.a ++ x.b ++ x.f))

/-- The instructions of major 0x05. -/
def decode05 (x : Fields) : Except Reject Instr :=
  .ok (.movhiS x.d (x.a ++ x.b ++ x.f))

/-- The instructions of major 0x0E. -/
def decode0E (x : Fields) : Except Reject Instr :=
  .ok (.movhiV x.d (x.a ++ x.b ++ x.f))

/-- The instructions of major 0x06. -/
def decode06 (x : Fields) : Except Reject Instr :=
  if x.b.extractLsb' 5 1 = 0x0#1 then
    if ¬ isSpecialReg (x.b.extractLsb' 0 5 ++ x.f) then .error .illegalOp else if x.a ≠ 0x00#6 then .error .reservedBits else .ok (.sread x.d (x.b.extractLsb' 0 5 ++ x.f))
  else
  if x.b.extractLsb' 5 1 = 0x1#1 then
    if ¬ isSpecialReg (x.b.extractLsb' 0 5 ++ x.f) then .error .illegalOp else if x.d ≠ 0x00#6 then .error .reservedBits else .ok (.swrite x.a (x.b.extractLsb' 0 5 ++ x.f))
  else
  .error .illegalOp

/-- The instructions of major 0x07. -/
def decode07 (x : Fields) : Except Reject Instr :=
  if x.b.extractLsb' 4 2 = 0x00#2 then
    if x.b.extractLsb' 0 4 ≠ 0x0#4 then .error .reservedBits else .ok (.shlImmS x.d x.a x.f)
  else
  if x.b.extractLsb' 4 2 = 0x01#2 then
    if x.b.extractLsb' 0 4 ≠ 0x0#4 then .error .reservedBits else .ok (.shrImmS x.d x.a x.f)
  else
  if x.b.extractLsb' 4 2 = 0x02#2 then
    if x.b.extractLsb' 0 4 ≠ 0x0#4 then .error .reservedBits else .ok (.sarImmS x.d x.a x.f)
  else
  if x.b.extractLsb' 4 2 = 0x03#2 then
    if x.b.extractLsb' 0 4 ≠ 0x0#4 then .error .reservedBits else .ok (.rotImmS x.d x.a x.f)
  else
  .error .illegalOp

/-- The instructions of major 0x0F. -/
def decode0F (x : Fields) : Except Reject Instr :=
  if x.b.extractLsb' 4 2 = 0x00#2 then
    if x.b.extractLsb' 0 4 ≠ 0x0#4 ∨ x.f.extractLsb' 5 1 ≠ 0x0#1 then .error .reservedBits else .ok (.shlImmV x.d x.a (x.f.extractLsb' 0 5))
  else
  if x.b.extractLsb' 4 2 = 0x01#2 then
    if x.b.extractLsb' 0 4 ≠ 0x0#4 ∨ x.f.extractLsb' 5 1 ≠ 0x0#1 then .error .reservedBits else .ok (.shrImmV x.d x.a (x.f.extractLsb' 0 5))
  else
  if x.b.extractLsb' 4 2 = 0x02#2 then
    if x.b.extractLsb' 0 4 ≠ 0x0#4 ∨ x.f.extractLsb' 5 1 ≠ 0x0#1 then .error .reservedBits else .ok (.sarImmV x.d x.a (x.f.extractLsb' 0 5))
  else
  if x.b.extractLsb' 4 2 = 0x03#2 then
    if x.b.extractLsb' 0 4 ≠ 0x0#4 ∨ x.f.extractLsb' 5 1 ≠ 0x0#1 then .error .reservedBits else .ok (.rotImmV x.d x.a (x.f.extractLsb' 0 5))
  else
  .error .illegalOp

/-- The instructions of majors 0x10 and 0x11 (R75). -/
def decodeVectorFloat (x : Fields) : Except Reject Instr :=
  if x.f = 0x00#6 then
    .ok (.faddV (x.maj.extractLsb' 0 1) x.d x.a x.b)
  else
  if x.f = 0x01#6 then
    .ok (.fsubV (x.maj.extractLsb' 0 1) x.d x.a x.b)
  else
  if x.f = 0x02#6 then
    .ok (.fmulV (x.maj.extractLsb' 0 1) x.d x.a x.b)
  else
  if x.f = 0x03#6 then
    .ok (.ffmaV (x.maj.extractLsb' 0 1) x.d x.a x.b)
  else
  if x.f = 0x04#6 then
    .ok (.fminV (x.maj.extractLsb' 0 1) x.d x.a x.b)
  else
  if x.f = 0x05#6 then
    .ok (.fmaxV (x.maj.extractLsb' 0 1) x.d x.a x.b)
  else
  if x.f = 0x06#6 then
    .ok (.fsgnCpyV (x.maj.extractLsb' 0 1) x.d x.a x.b)
  else
  if x.f = 0x07#6 then
    .ok (.fsgnNegV (x.maj.extractLsb' 0 1) x.d x.a x.b)
  else
  if x.f = 0x08#6 then
    .ok (.fsgnXorV (x.maj.extractLsb' 0 1) x.d x.a x.b)
  else
  if x.f.extractLsb' 3 3 = 0x02#3 ∧ x.f.extractLsb' 0 3 ≤ 0x5#3 then
    if x.d.extractLsb' 3 3 ≠ 0x0#3 then .error .reservedBits else .ok (.fcmpV (x.maj.extractLsb' 0 1) (x.d.extractLsb' 0 3) x.a x.b (x.f.extractLsb' 0 3))
  else
  if x.f = 0x18#6 then
    if x.b ≠ 0x00#6 then .error .reservedBits else .ok (.fclassV (x.maj.extractLsb' 0 1) x.d x.a)
  else
  if x.f.extractLsb' 3 3 = 0x04#3 ∧ x.f.extractLsb' 0 3 ≤ 0x5#3 then
    if x.b ≠ 0x00#6 then .error .reservedBits else .ok (.frndV (x.maj.extractLsb' 0 1) x.d x.a (x.f.extractLsb' 0 3))
  else
  .error .illegalOp

/-- The instructions of major 0x12. -/
def decode12 (x : Fields) : Except Reject Instr :=
  if x.f = 0x00#6 then
    .ok (.faddS x.d x.a x.b)
  else
  if x.f = 0x01#6 then
    .ok (.fsubS x.d x.a x.b)
  else
  if x.f = 0x02#6 then
    .ok (.fmulS x.d x.a x.b)
  else
  if x.f = 0x03#6 then
    .ok (.ffmaS x.d x.a x.b)
  else
  if x.f = 0x04#6 then
    .ok (.fminS x.d x.a x.b)
  else
  if x.f = 0x05#6 then
    .ok (.fmaxS x.d x.a x.b)
  else
  if x.f = 0x06#6 then
    .ok (.fsgnCpyS x.d x.a x.b)
  else
  if x.f = 0x07#6 then
    .ok (.fsgnNegS x.d x.a x.b)
  else
  if x.f = 0x08#6 then
    .ok (.fsgnXorS x.d x.a x.b)
  else
  if x.f.extractLsb' 3 3 = 0x02#3 ∧ x.f.extractLsb' 0 3 ≤ 0x5#3 then
    .ok (.fcmpS x.d x.a x.b (x.f.extractLsb' 0 3))
  else
  if x.f = 0x18#6 then
    if x.b ≠ 0x00#6 then .error .reservedBits else .ok (.fclassS x.d x.a)
  else
  if x.f.extractLsb' 3 3 = 0x04#3 ∧ x.f.extractLsb' 0 3 ≤ 0x5#3 then
    if x.b ≠ 0x00#6 then .error .reservedBits else .ok (.frndS x.d x.a (x.f.extractLsb' 0 3))
  else
  .error .illegalOp

/-- The instructions of major 0x13. -/
def decode13 (x : Fields) : Except Reject Instr :=
  if x.f.extractLsb' 2 4 = 0x0#4 ∧ x.f.extractLsb' 0 2 ≤ 0x2#2 then
    if x.b ≠ 0x00#6 then .error .reservedBits else .ok (.redf x.d x.a (x.f.extractLsb' 0 2))
  else
  if x.f = 0x08#6 then
    if x.b ≠ 0x00#6 then .error .reservedBits else .ok (.scanfAddInc x.d x.a)
  else
  if x.f = 0x09#6 then
    if x.b ≠ 0x00#6 then .error .reservedBits else .ok (.scanfAddExc x.d x.a)
  else
  if x.f = 0x0A#6 then
    if x.b ≠ 0x00#6 then .error .reservedBits else .ok (.scanfMinInc x.d x.a)
  else
  if x.f = 0x0B#6 then
    if x.b ≠ 0x00#6 then .error .reservedBits else .ok (.scanfMaxInc x.d x.a)
  else
  if x.f = 0x0C#6 then
    if x.b ≠ 0x00#6 then .error .reservedBits else .ok (.scanfMinExc x.d x.a)
  else
  if x.f = 0x0D#6 then
    if x.b ≠ 0x00#6 then .error .reservedBits else .ok (.scanfMaxExc x.d x.a)
  else
  .error .illegalOp

/-- The instructions of major 0x14. -/
def decode14 (x : Fields) : Except Reject Instr :=
  if x.f = 0x00#6 then
    if x.d ≠ 0x00#6 ∨ x.b ≠ 0x00#6 then .error .reservedBits else .ok (.setfmt x.a)
  else
  if x.f = 0x01#6 then
    if x.a ≠ 0x00#6 ∨ x.b ≠ 0x00#6 then .error .reservedBits else .ok (.getfmt x.d)
  else
  if x.f = 0x02#6 then
    if x.d ≠ 0x00#6 then .error .reservedBits else .ok (.setnm x.a x.b)
  else
  if x.f = 0x03#6 then
    if x.a ≠ 0x00#6 ∨ x.b ≠ 0x00#6 then .error .reservedBits else .ok (.getnm x.d)
  else
  .error .illegalOp

/-- The instructions of major 0x16. -/
def decode16 (x : Fields) : Except Reject Instr :=
  if x.f.extractLsb' 2 4 = 0x0#4 then
    if x.b ≠ 0x00#6 then .error .reservedBits else .ok (.cvtfNarrow x.d x.a (x.f.extractLsb' 0 2))
  else
  if x.f.extractLsb' 2 4 = 0x1#4 then
    if x.b ≠ 0x00#6 then .error .reservedBits else .ok (.cvtfWiden x.d x.a (x.f.extractLsb' 0 2))
  else
  if x.f.extractLsb' 3 3 = 0x01#3 ∧ x.f.extractLsb' 0 3 ≤ 0x5#3 then
    if x.b ≠ 0x00#6 then .error .reservedBits else .ok (.cvfi x.d x.a (x.f.extractLsb' 0 3))
  else
  if x.f.extractLsb' 1 5 = 0x08#5 then
    if x.b ≠ 0x00#6 then .error .reservedBits else .ok (.cvti x.d x.a (x.f.extractLsb' 0 1))
  else
  if x.f = 0x18#6 then
    .ok (.pack4 x.d x.a x.b)
  else
  if x.f = 0x20#6 then
    .ok (.unpk4 x.d x.a x.b)
  else
  .error .illegalOp

/-- The instructions of major 0x17. -/
def decode17 (x : Fields) : Except Reject Instr :=
  if x.f = 0x00#6 then
    if x.b ≠ 0x00#6 then .error .reservedBits else .ok (.frcp x.d x.a)
  else
  if x.f = 0x01#6 then
    if x.b ≠ 0x00#6 then .error .reservedBits else .ok (.frsq x.d x.a)
  else
  if x.f = 0x02#6 then
    if x.b ≠ 0x00#6 then .error .reservedBits else .ok (.fsqrt x.d x.a)
  else
  if x.f = 0x03#6 then
    if x.b ≠ 0x00#6 then .error .reservedBits else .ok (.fexp2 x.d x.a)
  else
  if x.f = 0x04#6 then
    if x.b ≠ 0x00#6 then .error .reservedBits else .ok (.flog2 x.d x.a)
  else
  if x.f = 0x05#6 then
    if x.b ≠ 0x00#6 then .error .reservedBits else .ok (.fsin x.d x.a)
  else
  if x.f = 0x06#6 then
    if x.b ≠ 0x00#6 then .error .reservedBits else .ok (.fcos x.d x.a)
  else
  if x.f = 0x07#6 then
    if x.b ≠ 0x00#6 then .error .reservedBits else .ok (.ftanh x.d x.a)
  else
  .error .illegalOp

/-- The instructions of major 0x18. -/
def decode18 (x : Fields) : Except Reject Instr :=
  .ok (.br (x.d ++ x.a ++ x.b ++ x.f))

/-- The instructions of major 0x19. -/
def decode19 (x : Fields) : Except Reject Instr :=
  if x.d.extractLsb' 5 1 = 0x0#1 then
    if 0x0D#5 < x.d.extractLsb' 0 5 then .error .illegalOp else .ok (.brc (x.d.extractLsb' 0 5) (x.a ++ x.b ++ x.f))
  else
  if x.d.extractLsb' 5 1 = 0x1#1 then
    if x.d.extractLsb' 0 2 ≠ 0x0#2 then .error .reservedBits else .ok (.brm (x.d.extractLsb' 2 3) (x.a ++ x.b ++ x.f))
  else
  .error .illegalOp

/-- The instructions of major 0x1A. -/
def decode1A (x : Fields) : Except Reject Instr :=
  .ok (.call (x.d.extractLsb' 3 3) (x.d.extractLsb' 0 3) (x.a ++ x.b ++ x.f))

/-- The instructions of major 0x1B. -/
def decode1B (x : Fields) : Except Reject Instr :=
  if x.f = 0x00#6 then
    if x.d ≠ 0x00#6 ∨ x.a ≠ 0x00#6 ∨ x.b ≠ 0x00#6 then .error .reservedBits else .ok .ret
  else
  if x.f = 0x01#6 then
    .ok (.jtab x.d x.a x.b)
  else
  if x.f = 0x02#6 then
    if x.d.extractLsb' 4 2 ≠ 0x0#2 ∨ x.a ≠ 0x00#6 ∨ x.b ≠ 0x00#6 then .error .reservedBits else .ok (.bset (x.d.extractLsb' 0 4))
  else
  if x.f = 0x03#6 then
    if x.d.extractLsb' 4 2 ≠ 0x0#2 ∨ x.a ≠ 0x00#6 ∨ x.b ≠ 0x00#6 then .error .reservedBits else .ok (.join (x.d.extractLsb' 0 4))
  else
  if x.f = 0x04#6 then
    if x.d ≠ 0x00#6 ∨ x.a ≠ 0x00#6 ∨ x.b ≠ 0x00#6 then .error .reservedBits else .ok .barrt
  else
  if x.f = 0x05#6 then
    if x.d ≠ 0x00#6 ∨ x.a ≠ 0x00#6 ∨ x.b ≠ 0x00#6 then .error .reservedBits else .ok .barrtPub
  else
  if x.f = 0x06#6 then
    if 0x38#6 < x.b then .error .illegalOp else if x.d ≠ 0x00#6 then .error .reservedBits else .ok (.spawn x.a x.b)
  else
  if x.f = 0x07#6 then
    if x.d ≠ 0x00#6 ∨ x.a ≠ 0x00#6 ∨ x.b ≠ 0x00#6 then .error .reservedBits else .ok .exit
  else
  if x.f = 0x08#6 then
    if x.d ≠ 0x00#6 ∨ x.a ≠ 0x00#6 ∨ x.b ≠ 0x00#6 then .error .reservedBits else .ok .park
  else
  if x.f = 0x09#6 then
    if x.d ≠ 0x00#6 ∨ x.a ≠ 0x00#6 ∨ x.b ≠ 0x00#6 then .error .reservedBits else .ok .yield
  else
  if x.f = 0x0A#6 then
    if x.d ≠ 0x00#6 then .error .reservedBits else .ok (.waitw x.a x.b)
  else
  if x.f = 0x0B#6 then
    .ok (.preh (x.d ++ x.a) x.b)
  else
  .error .illegalOp

/-- The instructions of major 0x1C. -/
def decode1C (x : Fields) : Except Reject Instr :=
  if x.f = 0x00#6 then
    if x.d.extractLsb' 3 3 ≠ 0x0#3 ∨ x.b ≠ 0x00#6 then .error .reservedBits else .ok (.ballot (x.d.extractLsb' 0 3) x.a)
  else
  if x.f = 0x01#6 then
    if x.b ≠ 0x00#6 then .error .reservedBits else .ok (.voteAny x.d x.a)
  else
  if x.f = 0x02#6 then
    if x.b ≠ 0x00#6 then .error .reservedBits else .ok (.voteAll x.d x.a)
  else
  if x.f = 0x03#6 then
    if x.b ≠ 0x00#6 then .error .reservedBits else .ok (.voteUni x.d x.a)
  else
  if x.f = 0x04#6 then
    if x.a.extractLsb' 3 3 ≠ 0x0#3 ∨ x.b ≠ 0x00#6 then .error .reservedBits else .ok (.mpopc x.d (x.a.extractLsb' 0 3))
  else
  if x.f = 0x05#6 then
    if x.a.extractLsb' 3 3 ≠ 0x0#3 ∨ x.b ≠ 0x00#6 then .error .reservedBits else .ok (.mfirst x.d (x.a.extractLsb' 0 3))
  else
  if x.f = 0x08#6 then
    if x.d.extractLsb' 3 3 ≠ 0x0#3 ∨ x.a.extractLsb' 3 3 ≠ 0x0#3 ∨ x.b.extractLsb' 3 3 ≠ 0x0#3 then .error .reservedBits else .ok (.mand (x.d.extractLsb' 0 3) (x.a.extractLsb' 0 3) (x.b.extractLsb' 0 3))
  else
  if x.f = 0x09#6 then
    if x.d.extractLsb' 3 3 ≠ 0x0#3 ∨ x.a.extractLsb' 3 3 ≠ 0x0#3 ∨ x.b.extractLsb' 3 3 ≠ 0x0#3 then .error .reservedBits else .ok (.mor (x.d.extractLsb' 0 3) (x.a.extractLsb' 0 3) (x.b.extractLsb' 0 3))
  else
  if x.f = 0x0A#6 then
    if x.d.extractLsb' 3 3 ≠ 0x0#3 ∨ x.a.extractLsb' 3 3 ≠ 0x0#3 ∨ x.b.extractLsb' 3 3 ≠ 0x0#3 then .error .reservedBits else .ok (.mxor (x.d.extractLsb' 0 3) (x.a.extractLsb' 0 3) (x.b.extractLsb' 0 3))
  else
  if x.f = 0x0B#6 then
    if x.d.extractLsb' 3 3 ≠ 0x0#3 ∨ x.a.extractLsb' 3 3 ≠ 0x0#3 ∨ x.b ≠ 0x00#6 then .error .reservedBits else .ok (.mnot (x.d.extractLsb' 0 3) (x.a.extractLsb' 0 3))
  else
  if x.f = 0x0C#6 then
    if x.d.extractLsb' 3 3 ≠ 0x0#3 ∨ x.a.extractLsb' 3 3 ≠ 0x0#3 ∨ x.b ≠ 0x00#6 then .error .reservedBits else .ok (.movMask (x.d.extractLsb' 0 3) (x.a.extractLsb' 0 3))
  else
  .error .illegalOp

/-- The instructions of major 0x1D. -/
def decode1D (x : Fields) : Except Reject Instr :=
  if x.f = 0x00#6 then
    if x.a ≠ 0x00#6 ∨ x.b ≠ 0x00#6 then .error .reservedBits else .ok (.laneid x.d)
  else
  if x.f = 0x01#6 then
    .ok (.shflIdx x.d x.a x.b)
  else
  if x.f = 0x02#6 then
    .ok (.shflUp x.d x.a x.b)
  else
  if x.f = 0x03#6 then
    .ok (.shflDown x.d x.a x.b)
  else
  if x.f = 0x04#6 then
    .ok (.shflXor x.d x.a x.b)
  else
  if x.f = 0x05#6 then
    .ok (.bcast x.d x.a x.b)
  else
  .error .illegalOp

/-- The instructions of major 0x1E. -/
def decode1E (x : Fields) : Except Reject Instr :=
  if x.f.extractLsb' 3 3 = 0x00#3 then
    if x.b ≠ 0x00#6 then .error .reservedBits else .ok (.redi x.d x.a (x.f.extractLsb' 0 3))
  else
  if x.f.extractLsb' 3 3 = 0x01#3 then
    if x.b ≠ 0x00#6 then .error .reservedBits else .ok (.scaniInc x.d x.a (x.f.extractLsb' 0 3))
  else
  if x.f.extractLsb' 3 3 = 0x02#3 then
    if x.b ≠ 0x00#6 then .error .reservedBits else .ok (.scaniExc x.d x.a (x.f.extractLsb' 0 3))
  else
  .error .illegalOp

/-- The instructions of major 0x20. -/
def decode20 (x : Fields) : Except Reject Instr :=
  if ¬ loadOrder (x.f.extractLsb' 0 3) ∨ 0x4#3 < x.f.extractLsb' 3 3 then .error .illegalOp else .ok (.ldV x.d x.a x.b (x.f.extractLsb' 3 3) (x.f.extractLsb' 0 3))

/-- The instructions of major 0x21. -/
def decode21 (x : Fields) : Except Reject Instr :=
  if ¬ storeOrder (x.f.extractLsb' 0 3) ∨ 0x4#3 < x.f.extractLsb' 3 3 then .error .illegalOp else .ok (.stV x.d x.a x.b (x.f.extractLsb' 3 3) (x.f.extractLsb' 0 3))

/-- The instructions of major 0x22. -/
def decode22 (x : Fields) : Except Reject Instr :=
  if ¬ storeOrder (x.f.extractLsb' 0 3) ∨ 0x3#3 < x.f.extractLsb' 3 3 then .error .illegalOp else .ok (.stVNarrow x.d x.a x.b (x.f.extractLsb' 3 3) (x.f.extractLsb' 0 3))

/-- The instructions of major 0x23. -/
def decode23 (x : Fields) : Except Reject Instr :=
  if ¬ storeOrder (x.f.extractLsb' 0 3) ∨ 0x4#3 < x.f.extractLsb' 3 3 then .error .illegalOp else .ok (.stp x.d x.a x.b (x.f.extractLsb' 3 3) (x.f.extractLsb' 0 3))

/-- The instructions of major 0x24. -/
def decode24 (x : Fields) : Except Reject Instr :=
  if x.b = 0x00#6 then
    if ¬ loadOrder (x.f.extractLsb' 0 3) ∨ 0x5#3 < x.f.extractLsb' 3 3 then .error .illegalOp else .ok (.ldS x.d x.a (x.f.extractLsb' 3 3) (x.f.extractLsb' 0 3))
  else
  if x.b = 0x01#6 then
    if ¬ storeOrder (x.f.extractLsb' 0 3) ∨ 0x5#3 < x.f.extractLsb' 3 3 then .error .illegalOp else .ok (.stS x.d x.a (x.f.extractLsb' 3 3) (x.f.extractLsb' 0 3))
  else
  .error .illegalOp

/-- The instructions of major 0x25. -/
def decode25 (x : Fields) : Except Reject Instr :=
  if x.f.extractLsb' 2 1 = 0x00#1 then
    if 0x4#3 < x.f.extractLsb' 3 3 ∨ 0x1#2 < x.f.extractLsb' 0 2 then .error .illegalOp else .ok (.lds x.d x.a x.b (x.f.extractLsb' 3 3) (x.f.extractLsb' 0 2))
  else
  if x.f.extractLsb' 2 1 = 0x01#1 then
    if 0x4#3 < x.f.extractLsb' 3 3 ∨ 0x1#2 < x.f.extractLsb' 0 2 then .error .illegalOp else .ok (.ldv x.d x.a x.b (x.f.extractLsb' 3 3) (x.f.extractLsb' 0 2))
  else
  .error .illegalOp

/-- The instructions of major 0x26. -/
def decode26 (x : Fields) : Except Reject Instr :=
  if x.f.extractLsb' 2 1 = 0x00#1 then
    if 0x4#3 < x.f.extractLsb' 3 3 ∨ x.f.extractLsb' 0 1 ≠ 0x0#1 then .error .illegalOp else .ok (.sts x.d x.a x.b (x.f.extractLsb' 3 3) (x.f.extractLsb' 0 2))
  else
  if x.f.extractLsb' 2 1 = 0x01#1 then
    if 0x4#3 < x.f.extractLsb' 3 3 ∨ x.f.extractLsb' 0 1 ≠ 0x0#1 then .error .illegalOp else .ok (.stv x.d x.a x.b (x.f.extractLsb' 3 3) (x.f.extractLsb' 0 2))
  else
  .error .illegalOp

/-- The instructions of major 0x27. -/
def decode27 (x : Fields) : Except Reject Instr :=
  if x.f = 0x00#6 then
    if x.d.extractLsb' 3 3 = 0x0#3 ∨ 0x3#3 < x.d.extractLsb' 3 3 ∨ 0x5#3 < x.d.extractLsb' 0 3 then .error .illegalOp else if x.a ≠ 0x00#6 ∨ x.b ≠ 0x00#6 then .error .reservedBits else .ok (.fence (x.d.extractLsb' 3 3) (x.d.extractLsb' 0 3))
  else
  if x.f = 0x01#6 then
    if x.d ≠ 0x00#6 ∨ x.b ≠ 0x00#6 then .error .reservedBits else .ok (.migr x.a)
  else
  if x.f = 0x02#6 then
    if x.b ≠ 0x00#6 then .error .reservedBits else .ok (.homeOf x.d x.a)
  else
  if x.f = 0x03#6 then
    if x.d ≠ 0x00#6 then .error .reservedBits else .ok (.spmap x.a x.b)
  else
  if x.f = 0x04#6 then
    if x.d ≠ 0x00#6 then .error .reservedBits else .ok (.spflush x.a x.b)
  else
  if x.f = 0x05#6 then
    if x.b ≠ 0x00#6 then .error .reservedBits else .ok (.leaseq x.d x.a)
  else
  .error .illegalOp

/-- The instructions of major 0x28. -/
def decode28 (x : Fields) : Except Reject Instr :=
  if x.f.extractLsb' 0 3 = 0x4#3 then .error .illegalOp else .ok (.atom x.d x.a x.b (x.f.extractLsb' 3 3) (x.f.extractLsb' 0 3))

/-- The instructions of major 0x29. -/
def decode29 (x : Fields) : Except Reject Instr :=
  if 0x4#3 < x.f.extractLsb' 3 3 ∨ x.f.extractLsb' 0 3 = 0x4#3 then .error .illegalOp else .ok (.atomF x.d x.a x.b (x.f.extractLsb' 3 3) (x.f.extractLsb' 0 3))

/-- The instructions of major 0x2A. -/
def decode2A (x : Fields) : Except Reject Instr :=
  if x.f.extractLsb' 3 3 = 0x7#3 ∨ ¬ storeOrder (x.f.extractLsb' 0 3) then .error .illegalOp else .ok (.atp x.d x.a x.b (x.f.extractLsb' 3 3) (x.f.extractLsb' 0 3))

/-- The instructions of major 0x2B. -/
def decode2B (x : Fields) : Except Reject Instr :=
  if 63 < x.d.toNat + 2 ^ (x.f.extractLsb' 0 2).toNat - 1 ∨ x.a = 0x3F#6 then .error .illegalOp else .ok (.xatom x.d x.a x.b (x.f.extractLsb' 2 4) (x.f.extractLsb' 0 2))

/-- The instructions of major 0x2C. -/
def decode2C (x : Fields) : Except Reject Instr :=
  if x.f = 0x00#6 then
    if x.b ≠ 0x00#6 then .error .reservedBits else .ok (.launch x.d x.a)
  else
  if x.f = 0x01#6 then
    if x.a ≠ 0x00#6 ∨ x.b ≠ 0x00#6 then .error .reservedBits else .ok (.lstat x.d)
  else
  if x.f = 0x02#6 then
    if 0x02#6 < x.b then .error .illegalOp else if x.d ≠ 0x00#6 then .error .reservedBits else .ok (.echain x.a x.b)
  else
  if x.f = 0x03#6 then
    if 0x02#6 < x.b then .error .illegalOp else if x.a ≠ 0x00#6 then .error .reservedBits else .ok (.estat x.d x.b)
  else
  .error .illegalOp

/-- The instructions of major 0x2D. -/
def decode2D (x : Fields) : Except Reject Instr :=
  if x.f = 0x00#6 then
    if 0x0F#6 < x.b then .error .illegalOp else if x.d ≠ 0x00#6 then .error .reservedBits else .ok (.cbcfg x.a x.b)
  else
  if x.f = 0x01#6 then
    if 0x0F#6 < x.b then .error .illegalOp else if x.d ≠ 0x00#6 then .error .reservedBits else .ok (.cbput x.a x.b)
  else
  if x.f = 0x02#6 then
    if 0x0F#6 < x.b then .error .illegalOp else if x.a ≠ 0x00#6 then .error .reservedBits else .ok (.cbget x.d x.b)
  else
  if x.f = 0x03#6 then
    if 0x0F#6 < x.b then .error .illegalOp else if x.d ≠ 0x00#6 then .error .reservedBits else .ok (.cbwait x.a x.b)
  else
  .error .illegalOp

/-- The instructions of major 0x2E. -/
def decode2E (x : Fields) : Except Reject Instr :=
  if x.f = 0x00#6 then
    if x.d ≠ 0x00#6 ∨ x.b ≠ 0x00#6 then .error .reservedBits else .ok (.cpy x.a)
  else
  if x.f = 0x01#6 then
    if x.a ≠ 0x00#6 ∨ x.b ≠ 0x00#6 then .error .reservedBits else .ok (.bseal x.d)
  else
  if x.f = 0x02#6 then
    if x.d ≠ 0x00#6 ∨ x.b ≠ 0x00#6 then .error .reservedBits else .ok (.bwait x.a)
  else
  if x.f = 0x03#6 then
    if x.b ≠ 0x00#6 then .error .reservedBits else .ok (.syncw x.d x.a)
  else
  if x.f = 0x04#6 then
    if x.b ≠ 0x00#6 then .error .reservedBits else .ok (.swait x.d x.a)
  else
  if x.f = 0x05#6 then
    if x.d ≠ 0x00#6 ∨ x.a ≠ 0x00#6 ∨ x.b ≠ 0x00#6 then .error .reservedBits else .ok .wcfl
  else
  .error .illegalOp

/-- The instructions of major 0x30. -/
def decode30 (x : Fields) : Except Reject Instr :=
  if x.f.extractLsb' 0 5 ≠ 0x00#5 then .error .reservedBits else .ok (.mma (x.d.extractLsb' 3 3) (x.d.extractLsb' 0 3 ++ x.a.extractLsb' 2 4) (x.a.extractLsb' 0 2 ++ x.b.extractLsb' 1 5) (x.b.extractLsb' 0 1 ++ x.f.extractLsb' 5 1))

/-- The instructions of major 0x31. -/
def decode31 (x : Fields) : Except Reject Instr :=
  if x.d.extractLsb' 4 2 = 0x00#2 then
    if 127 < (x.d.extractLsb' 0 4 ++ x.a.extractLsb' 3 3).toNat + (x.a.extractLsb' 0 3 ++ x.b.extractLsb' 2 4).toNat then .error .illegalOp else if x.b.extractLsb' 0 2 ≠ 0x0#2 ∨ x.f ≠ 0x00#6 then .error .reservedBits else .ok (.oclaim (x.d.extractLsb' 0 4 ++ x.a.extractLsb' 3 3) (x.a.extractLsb' 0 3 ++ x.b.extractLsb' 2 4))
  else
  if x.d.extractLsb' 4 2 = 0x01#2 then
    if 127 < (x.d.extractLsb' 0 4 ++ x.a.extractLsb' 3 3).toNat + (x.a.extractLsb' 0 3 ++ x.b.extractLsb' 2 4).toNat then .error .illegalOp else if x.b.extractLsb' 0 2 ≠ 0x0#2 ∨ x.f ≠ 0x00#6 then .error .reservedBits else .ok (.orel (x.d.extractLsb' 0 4 ++ x.a.extractLsb' 3 3) (x.a.extractLsb' 0 3 ++ x.b.extractLsb' 2 4))
  else
  if x.d.extractLsb' 4 2 = 0x2#2 then
    if x.a ≠ 0x00#6 ∨ x.b ≠ 0x00#6 ∨ x.f ≠ 0x00#6 then .error .reservedBits else .ok (.msync (x.d.extractLsb' 0 4))
  else
  .error .illegalOp

/-- The instructions of major 0x32. -/
def decode32 (x : Fields) : Except Reject Instr :=
  if x.f = 0x00#6 then
    if x.d.extractLsb' 3 3 ≠ 0x0#3 ∨ x.a ≠ 0x00#6 ∨ x.b ≠ 0x00#6 then .error .reservedBits else .ok (.czero (x.d.extractLsb' 0 3))
  else
  if x.f = 0x01#6 then
    if x.a.extractLsb' 3 3 ≠ 0x0#3 then .error .reservedBits else .ok (.crd x.d (x.a.extractLsb' 0 3) x.b)
  else
  if x.f = 0x02#6 then
    if x.d.extractLsb' 3 3 ≠ 0x0#3 then .error .reservedBits else .ok (.cwr (x.d.extractLsb' 0 3) x.a x.b)
  else
  if x.f = 0x03#6 then
    if ¬ storeFormat (x.b.extractLsb' 2 4) ∨ x.a = 0x3F#6 then .error .illegalOp else if x.d.extractLsb' 3 3 ≠ 0x0#3 ∨ x.b.extractLsb' 0 2 ≠ 0x0#2 then .error .reservedBits else .ok (.cst (x.d.extractLsb' 0 3) x.a (x.b.extractLsb' 2 4))
  else
  if x.f = 0x04#6 then
    if ¬ storeFormat (x.b.extractLsb' 2 4) then .error .illegalOp else if x.d.extractLsb' 3 3 ≠ 0x0#3 ∨ x.b.extractLsb' 0 2 ≠ 0x0#2 then .error .reservedBits else .ok (.cstz (x.d.extractLsb' 0 3) x.a (x.b.extractLsb' 2 4))
  else
  if x.f = 0x05#6 then
    if x.d.extractLsb' 3 3 ≠ 0x0#3 ∨ x.b ≠ 0x00#6 then .error .reservedBits else .ok (.cscl (x.d.extractLsb' 0 3) x.a)
  else
  if x.f = 0x06#6 then
    if x.a = 0x3F#6 then .error .illegalOp else if x.d.extractLsb' 3 3 ≠ 0x0#3 then .error .reservedBits else .ok (.bskip (x.d.extractLsb' 0 3) x.a x.b)
  else
  .error .illegalOp

/-- The instructions of major 0x34. -/
def decode34 (x : Fields) : Except Reject Instr :=
  if x.f = 0x00#6 then
    if 0x0B#6 < x.b then .error .illegalOp else if x.d ≠ 0x00#6 then .error .reservedBits else .ok (.openReg x.a x.b)
  else
  if x.f = 0x01#6 then
    if 0x0B#6 < x.b then .error .illegalOp else if x.d ≠ 0x00#6 then .error .reservedBits else .ok (.adv x.a x.b)
  else
  if x.f = 0x02#6 then
    if 0x0B#6 < x.b then .error .illegalOp else if x.d.extractLsb' 3 3 ≠ 0x0#3 ∨ x.a ≠ 0x00#6 then .error .reservedBits else .ok (.tend (x.d.extractLsb' 0 3) x.b)
  else
  if x.f = 0x03#6 then
    if 0x0B#6 < x.b then .error .illegalOp else if x.d ≠ 0x00#6 ∨ x.a ≠ 0x00#6 then .error .reservedBits else .ok (.closeReg x.b)
  else
  if x.f = 0x04#6 then
    if 0x0B#6 < x.b then .error .illegalOp else if x.a ≠ 0x00#6 then .error .reservedBits else .ok (.fldc x.d x.b)
  else
  .error .illegalOp

/-- The instructions of major 0x35. -/
def decode35 (x : Fields) : Except Reject Instr :=
  if x.f = 0x00#6 then
    .ok (.cxsect x.d x.a (x.b.extractLsb' 3 3) (x.b.extractLsb' 0 3))
  else
  if x.f = 0x01#6 then
    .ok (.cmerge x.d x.a (x.b.extractLsb' 3 3) (x.b.extractLsb' 0 3))
  else
  if x.f = 0x02#6 then
    if x.b ≠ 0x00#6 then .error .reservedBits else .ok (.cwait x.d x.a)
  else
  if x.f = 0x03#6 then
    if x.d ≠ 0x00#6 ∨ x.b ≠ 0x00#6 then .error .reservedBits else .ok (.cursv x.a)
  else
  if x.f = 0x04#6 then
    if x.d ≠ 0x00#6 ∨ x.b ≠ 0x00#6 then .error .reservedBits else .ok (.curld x.a)
  else
  .error .illegalOp

/-- The instructions of major 0x36. -/
def decode36 (x : Fields) : Except Reject Instr :=
  if x.f.extractLsb' 0 2 = 0x00#2 then
    if x.b.extractLsb' 5 1 ≠ 0x0#1 then .error .reservedBits else .ok (.xbld x.d x.a (x.b.extractLsb' 1 4) (x.b.extractLsb' 0 1 ++ x.f.extractLsb' 2 4))
  else
  if x.f.extractLsb' 0 2 = 0x01#2 then
    if x.d = 0x3F#6 then .error .illegalOp else if x.b.extractLsb' 5 1 ≠ 0x0#1 then .error .reservedBits else .ok (.xbmv x.d x.a (x.b.extractLsb' 1 4) (x.b.extractLsb' 0 1 ++ x.f.extractLsb' 2 4))
  else
  if x.f.extractLsb' 0 2 = 0x02#2 then
    if x.a ≠ 0x00#6 ∨ x.b.extractLsb' 5 1 ≠ 0x0#1 then .error .reservedBits else .ok (.xbcal x.d (x.b.extractLsb' 1 4) (x.b.extractLsb' 0 1 ++ x.f.extractLsb' 2 4))
  else
  if x.f.extractLsb' 0 2 = 0x03#2 then
    if x.a ≠ 0x00#6 ∨ x.b.extractLsb' 5 1 ≠ 0x0#1 then .error .reservedBits else .ok (.xbst x.d (x.b.extractLsb' 1 4) (x.b.extractLsb' 0 1 ++ x.f.extractLsb' 2 4))
  else
  .error .illegalOp

/-- The instructions of major 0x37. -/
def decode37 (x : Fields) : Except Reject Instr :=
  if x.f.extractLsb' 0 2 = 0x00#2 then
    if x.b.extractLsb' 5 1 ≠ 0x0#1 then .error .reservedBits else .ok (.accept x.d x.a (x.b.extractLsb' 1 4) (x.b.extractLsb' 0 1 ++ x.f.extractLsb' 2 4))
  else
  .error .illegalOp

/-- The instructions of major 0x38. -/
def decode38 (x : Fields) : Except Reject Instr :=
  if x.f.extractLsb' 0 2 = 0x00#2 then
    if x.b ≠ 0x00#6 ∨ x.f.extractLsb' 4 2 ≠ 0x0#2 then .error .reservedBits else .ok (.tldc x.d x.a (x.f.extractLsb' 2 2))
  else
  if x.f.extractLsb' 0 2 = 0x01#2 then
    if x.b ≠ 0x00#6 ∨ x.f.extractLsb' 4 2 ≠ 0x0#2 then .error .reservedBits else .ok (.tldb x.d x.a (x.f.extractLsb' 2 2))
  else
  if x.f.extractLsb' 0 2 = 0x02#2 then
    if x.d ≠ 0x00#6 ∨ x.b ≠ 0x00#6 ∨ x.f.extractLsb' 4 2 ≠ 0x0#2 then .error .reservedBits else .ok (.tsetl x.a (x.f.extractLsb' 2 2))
  else
  if x.f.extractLsb' 0 2 = 0x03#2 then
    if x.d ≠ 0x00#6 ∨ x.b ≠ 0x00#6 ∨ x.f.extractLsb' 4 2 ≠ 0x0#2 then .error .reservedBits else .ok (.tsamp x.a (x.f.extractLsb' 2 2))
  else
  .error .illegalOp

/-- The instructions of major 0x39. -/
def decode39 (x : Fields) : Except Reject Instr :=
  if x.f.extractLsb' 0 2 = 0x00#2 then
    if x.b ≠ 0x00#6 ∨ x.f.extractLsb' 4 2 ≠ 0x0#2 then .error .reservedBits else .ok (.trd x.d x.a (x.f.extractLsb' 2 2))
  else
  if x.f.extractLsb' 0 2 = 0x01#2 then
    if x.b ≠ 0x00#6 ∨ x.f.extractLsb' 4 2 ≠ 0x0#2 then .error .reservedBits else .ok (.trdc x.d x.a (x.f.extractLsb' 2 2))
  else
  if x.f.extractLsb' 0 2 = 0x02#2 then
    if x.a ≠ 0x00#6 ∨ x.b ≠ 0x00#6 ∨ x.f.extractLsb' 4 2 ≠ 0x0#2 then .error .reservedBits else .ok (.tstat x.d (x.f.extractLsb' 2 2))
  else
  .error .illegalOp

/-- The instructions of major 0x3A. -/
def decode3A (x : Fields) : Except Reject Instr :=
  if x.f = 0x00#6 then
    if x.a ≠ 0x00#6 ∨ x.b ≠ 0x00#6 then .error .reservedBits else .ok (.cyc x.d)
  else
  if x.f = 0x01#6 then
    if x.a ≠ 0x00#6 ∨ x.b ≠ 0x00#6 then .error .reservedBits else .ok (.gtim x.d)
  else
  if x.f = 0x02#6 then
    if x.d ≠ 0x00#6 ∨ x.b ≠ 0x00#6 then .error .reservedBits else .ok (.gtset x.a)
  else
  if x.f = 0x03#6 then
    if x.b ≠ 0x00#6 then .error .reservedBits else .ok (.perf x.d x.a)
  else
  .error .illegalOp

/-- The instructions of major 0x3B. -/
def decode3B (x : Fields) : Except Reject Instr :=
  if x.f = 0x00#6 then
    if x.d ≠ 0x00#6 ∨ x.b ≠ 0x00#6 then .error .reservedBits else .ok (.ovtld x.a)
  else
  if x.f = 0x01#6 then
    if x.d ≠ 0x00#6 then .error .reservedBits else .ok (.htld x.a x.b)
  else
  if x.f = 0x02#6 then
    if x.d ≠ 0x00#6 then .error .reservedBits else .ok (.keyld x.a x.b)
  else
  if x.f = 0x03#6 then
    if x.d ≠ 0x00#6 then .error .reservedBits else .ok (.tlbsd x.a x.b)
  else
  if x.f = 0x04#6 then
    if x.d ≠ 0x00#6 ∨ x.b ≠ 0x00#6 then .error .reservedBits else .ok (.ptgen x.a)
  else
  .error .illegalOp

/-- The instructions of major 0x3C. -/
def decode3C (x : Fields) : Except Reject Instr :=
  if x.f = 0x00#6 then
    if x.b ≠ 0x00#6 then .error .reservedBits else .ok (.trap (x.d ++ x.a))
  else
  if x.f = 0x01#6 ∧ x.d = 0x00#6 then
    if x.a ≠ 0x00#6 ∨ x.b ≠ 0x00#6 then .error .reservedBits else .ok .tret
  else
  if x.f = 0x01#6 ∧ x.d = 0x01#6 then
    if x.b ≠ 0x00#6 then .error .reservedBits else .ok (.tretAt x.a)
  else
  if x.f = 0x02#6 then
    if x.d ≠ 0x00#6 ∨ x.b ≠ 0x00#6 then .error .reservedBits else .ok (.saveq x.a)
  else
  .error .illegalOp

/-- R72: the instruction a word's fields stand for, or the fault they raise. -/
def decodeFields (x : Fields) : Except Reject Instr :=
  if x.maj = 0x00#6 then decode00 x else
  if x.maj = 0x3F#6 then decode3F x else
  if x.maj = 0x01#6 then decode01 x else
  if x.maj = 0x02#6 then decode02 x else
  if x.maj.extractLsb' 2 4 = 0x2#4 then decodeVectorInt x else
  if x.maj = 0x03#6 then decode03 x else
  if x.maj = 0x0C#6 then decode0C x else
  if x.maj = 0x04#6 then decode04 x else
  if x.maj = 0x0D#6 then decode0D x else
  if x.maj = 0x05#6 then decode05 x else
  if x.maj = 0x0E#6 then decode0E x else
  if x.maj = 0x06#6 then decode06 x else
  if x.maj = 0x07#6 then decode07 x else
  if x.maj = 0x0F#6 then decode0F x else
  if x.maj.extractLsb' 1 5 = 0x08#5 then decodeVectorFloat x else
  if x.maj = 0x12#6 then decode12 x else
  if x.maj = 0x13#6 then decode13 x else
  if x.maj = 0x14#6 then decode14 x else
  if x.maj = 0x16#6 then decode16 x else
  if x.maj = 0x17#6 then decode17 x else
  if x.maj = 0x18#6 then decode18 x else
  if x.maj = 0x19#6 then decode19 x else
  if x.maj = 0x1A#6 then decode1A x else
  if x.maj = 0x1B#6 then decode1B x else
  if x.maj = 0x1C#6 then decode1C x else
  if x.maj = 0x1D#6 then decode1D x else
  if x.maj = 0x1E#6 then decode1E x else
  if x.maj = 0x20#6 then decode20 x else
  if x.maj = 0x21#6 then decode21 x else
  if x.maj = 0x22#6 then decode22 x else
  if x.maj = 0x23#6 then decode23 x else
  if x.maj = 0x24#6 then decode24 x else
  if x.maj = 0x25#6 then decode25 x else
  if x.maj = 0x26#6 then decode26 x else
  if x.maj = 0x27#6 then decode27 x else
  if x.maj = 0x28#6 then decode28 x else
  if x.maj = 0x29#6 then decode29 x else
  if x.maj = 0x2A#6 then decode2A x else
  if x.maj = 0x2B#6 then decode2B x else
  if x.maj = 0x2C#6 then decode2C x else
  if x.maj = 0x2D#6 then decode2D x else
  if x.maj = 0x2E#6 then decode2E x else
  if x.maj = 0x30#6 then decode30 x else
  if x.maj = 0x31#6 then decode31 x else
  if x.maj = 0x32#6 then decode32 x else
  if x.maj = 0x34#6 then decode34 x else
  if x.maj = 0x35#6 then decode35 x else
  if x.maj = 0x36#6 then decode36 x else
  if x.maj = 0x37#6 then decode37 x else
  if x.maj = 0x38#6 then decode38 x else
  if x.maj = 0x39#6 then decode39 x else
  if x.maj = 0x3A#6 then decode3A x else
  if x.maj = 0x3B#6 then decode3B x else
  if x.maj = 0x3C#6 then decode3C x else
  .error .illegalOp

/-- The word of an instruction, with its chain bit and park marker. -/
def decodeWord (w : BitVec 32) : Except Reject Slot :=
  let x := Fields.ofWord w
  match decodeFields x with
  | .ok i => .ok ⟨x.c, x.p, i⟩
  | .error r => .error r

end

/-- The fields of a word instruction, chain bit and park marker clear, under the layouts of R64 and R73 to R83; a step of the
device has no word. -/
def Instr.fields (i : Instr) : Option Fields :=
  match i with
  | .nop => some ⟨false, false, 0x00#6, 0x00#6, 0x00#6, 0x00#6, 0x00#6⟩
  | .pfx m r s z t => some ⟨false, false, 0x3F#6, m ++ r, s, z ++ t ++ 0x0#3, 0x00#6⟩
  | .iaddS64 d a b => some ⟨false, false, 0x01#6, d, a, b, 0x00#6⟩
  | .iaddS32 d a b => some ⟨false, false, 0x02#6, d, a, b, 0x00#6⟩
  | .iaddV w d a b => some ⟨false, false, 0x2#4 ++ w, d, a, b, 0x00#6⟩
  | .isubS64 d a b => some ⟨false, false, 0x01#6, d, a, b, 0x01#6⟩
  | .isubS32 d a b => some ⟨false, false, 0x02#6, d, a, b, 0x01#6⟩
  | .isubV w d a b => some ⟨false, false, 0x2#4 ++ w, d, a, b, 0x01#6⟩
  | .imulS64 d a b => some ⟨false, false, 0x01#6, d, a, b, 0x02#6⟩
  | .imulS32 d a b => some ⟨false, false, 0x02#6, d, a, b, 0x02#6⟩
  | .imulV w d a b => some ⟨false, false, 0x2#4 ++ w, d, a, b, 0x02#6⟩
  | .imulhIS64 d a b => some ⟨false, false, 0x01#6, d, a, b, 0x03#6⟩
  | .imulhIS32 d a b => some ⟨false, false, 0x02#6, d, a, b, 0x03#6⟩
  | .imulhIV w d a b => some ⟨false, false, 0x2#4 ++ w, d, a, b, 0x03#6⟩
  | .imulhNS64 d a b => some ⟨false, false, 0x01#6, d, a, b, 0x04#6⟩
  | .imulhNS32 d a b => some ⟨false, false, 0x02#6, d, a, b, 0x04#6⟩
  | .imulhNV w d a b => some ⟨false, false, 0x2#4 ++ w, d, a, b, 0x04#6⟩
  | .imadS64 d a b => some ⟨false, false, 0x01#6, d, a, b, 0x05#6⟩
  | .imadS32 d a b => some ⟨false, false, 0x02#6, d, a, b, 0x05#6⟩
  | .imadV w d a b => some ⟨false, false, 0x2#4 ++ w, d, a, b, 0x05#6⟩
  | .idivIS64 d a b => some ⟨false, false, 0x01#6, d, a, b, 0x06#6⟩
  | .idivIS32 d a b => some ⟨false, false, 0x02#6, d, a, b, 0x06#6⟩
  | .idivIV w d a b => some ⟨false, false, 0x2#4 ++ w, d, a, b, 0x06#6⟩
  | .idivNS64 d a b => some ⟨false, false, 0x01#6, d, a, b, 0x07#6⟩
  | .idivNS32 d a b => some ⟨false, false, 0x02#6, d, a, b, 0x07#6⟩
  | .idivNV w d a b => some ⟨false, false, 0x2#4 ++ w, d, a, b, 0x07#6⟩
  | .iremIS64 d a b => some ⟨false, false, 0x01#6, d, a, b, 0x08#6⟩
  | .iremIS32 d a b => some ⟨false, false, 0x02#6, d, a, b, 0x08#6⟩
  | .iremIV w d a b => some ⟨false, false, 0x2#4 ++ w, d, a, b, 0x08#6⟩
  | .iremNS64 d a b => some ⟨false, false, 0x01#6, d, a, b, 0x09#6⟩
  | .iremNS32 d a b => some ⟨false, false, 0x02#6, d, a, b, 0x09#6⟩
  | .iremNV w d a b => some ⟨false, false, 0x2#4 ++ w, d, a, b, 0x09#6⟩
  | .iminIS64 d a b => some ⟨false, false, 0x01#6, d, a, b, 0x0A#6⟩
  | .iminIS32 d a b => some ⟨false, false, 0x02#6, d, a, b, 0x0A#6⟩
  | .iminIV w d a b => some ⟨false, false, 0x2#4 ++ w, d, a, b, 0x0A#6⟩
  | .iminNS64 d a b => some ⟨false, false, 0x01#6, d, a, b, 0x0B#6⟩
  | .iminNS32 d a b => some ⟨false, false, 0x02#6, d, a, b, 0x0B#6⟩
  | .iminNV w d a b => some ⟨false, false, 0x2#4 ++ w, d, a, b, 0x0B#6⟩
  | .imaxIS64 d a b => some ⟨false, false, 0x01#6, d, a, b, 0x0C#6⟩
  | .imaxIS32 d a b => some ⟨false, false, 0x02#6, d, a, b, 0x0C#6⟩
  | .imaxIV w d a b => some ⟨false, false, 0x2#4 ++ w, d, a, b, 0x0C#6⟩
  | .imaxNS64 d a b => some ⟨false, false, 0x01#6, d, a, b, 0x0D#6⟩
  | .imaxNS32 d a b => some ⟨false, false, 0x02#6, d, a, b, 0x0D#6⟩
  | .imaxNV w d a b => some ⟨false, false, 0x2#4 ++ w, d, a, b, 0x0D#6⟩
  | .iabsS64 d a => some ⟨false, false, 0x01#6, d, a, 0x00#6, 0x0E#6⟩
  | .iabsS32 d a => some ⟨false, false, 0x02#6, d, a, 0x00#6, 0x0E#6⟩
  | .iabsV w d a => some ⟨false, false, 0x2#4 ++ w, d, a, 0x00#6, 0x0E#6⟩
  | .inegS64 d a => some ⟨false, false, 0x01#6, d, a, 0x00#6, 0x0F#6⟩
  | .inegS32 d a => some ⟨false, false, 0x02#6, d, a, 0x00#6, 0x0F#6⟩
  | .inegV w d a => some ⟨false, false, 0x2#4 ++ w, d, a, 0x00#6, 0x0F#6⟩
  | .andS64 d a b => some ⟨false, false, 0x01#6, d, a, b, 0x10#6⟩
  | .andS32 d a b => some ⟨false, false, 0x02#6, d, a, b, 0x10#6⟩
  | .andV w d a b => some ⟨false, false, 0x2#4 ++ w, d, a, b, 0x10#6⟩
  | .orS64 d a b => some ⟨false, false, 0x01#6, d, a, b, 0x11#6⟩
  | .orS32 d a b => some ⟨false, false, 0x02#6, d, a, b, 0x11#6⟩
  | .orV w d a b => some ⟨false, false, 0x2#4 ++ w, d, a, b, 0x11#6⟩
  | .xorS64 d a b => some ⟨false, false, 0x01#6, d, a, b, 0x12#6⟩
  | .xorS32 d a b => some ⟨false, false, 0x02#6, d, a, b, 0x12#6⟩
  | .xorV w d a b => some ⟨false, false, 0x2#4 ++ w, d, a, b, 0x12#6⟩
  | .andnS64 d a b => some ⟨false, false, 0x01#6, d, a, b, 0x13#6⟩
  | .andnS32 d a b => some ⟨false, false, 0x02#6, d, a, b, 0x13#6⟩
  | .andnV w d a b => some ⟨false, false, 0x2#4 ++ w, d, a, b, 0x13#6⟩
  | .notS64 d a => some ⟨false, false, 0x01#6, d, a, 0x00#6, 0x14#6⟩
  | .notS32 d a => some ⟨false, false, 0x02#6, d, a, 0x00#6, 0x14#6⟩
  | .notV w d a => some ⟨false, false, 0x2#4 ++ w, d, a, 0x00#6, 0x14#6⟩
  | .shlS64 d a b => some ⟨false, false, 0x01#6, d, a, b, 0x15#6⟩
  | .shlS32 d a b => some ⟨false, false, 0x02#6, d, a, b, 0x15#6⟩
  | .shlV w d a b => some ⟨false, false, 0x2#4 ++ w, d, a, b, 0x15#6⟩
  | .shrS64 d a b => some ⟨false, false, 0x01#6, d, a, b, 0x16#6⟩
  | .shrS32 d a b => some ⟨false, false, 0x02#6, d, a, b, 0x16#6⟩
  | .shrV w d a b => some ⟨false, false, 0x2#4 ++ w, d, a, b, 0x16#6⟩
  | .sarS64 d a b => some ⟨false, false, 0x01#6, d, a, b, 0x17#6⟩
  | .sarS32 d a b => some ⟨false, false, 0x02#6, d, a, b, 0x17#6⟩
  | .sarV w d a b => some ⟨false, false, 0x2#4 ++ w, d, a, b, 0x17#6⟩
  | .rotS64 d a b => some ⟨false, false, 0x01#6, d, a, b, 0x18#6⟩
  | .rotS32 d a b => some ⟨false, false, 0x02#6, d, a, b, 0x18#6⟩
  | .rotV w d a b => some ⟨false, false, 0x2#4 ++ w, d, a, b, 0x18#6⟩
  | .bfxIS64 d a b => some ⟨false, false, 0x01#6, d, a, b, 0x19#6⟩
  | .bfxIS32 d a b => some ⟨false, false, 0x02#6, d, a, b, 0x19#6⟩
  | .bfxIV w d a b => some ⟨false, false, 0x2#4 ++ w, d, a, b, 0x19#6⟩
  | .bfxNS64 d a b => some ⟨false, false, 0x01#6, d, a, b, 0x1A#6⟩
  | .bfxNS32 d a b => some ⟨false, false, 0x02#6, d, a, b, 0x1A#6⟩
  | .bfxNV w d a b => some ⟨false, false, 0x2#4 ++ w, d, a, b, 0x1A#6⟩
  | .bfiS64 d a b => some ⟨false, false, 0x01#6, d, a, b, 0x1B#6⟩
  | .bfiS32 d a b => some ⟨false, false, 0x02#6, d, a, b, 0x1B#6⟩
  | .bfiV w d a b => some ⟨false, false, 0x2#4 ++ w, d, a, b, 0x1B#6⟩
  | .popcS64 d a => some ⟨false, false, 0x01#6, d, a, 0x00#6, 0x1C#6⟩
  | .popcS32 d a => some ⟨false, false, 0x02#6, d, a, 0x00#6, 0x1C#6⟩
  | .popcV w d a => some ⟨false, false, 0x2#4 ++ w, d, a, 0x00#6, 0x1C#6⟩
  | .clzS64 d a => some ⟨false, false, 0x01#6, d, a, 0x00#6, 0x1D#6⟩
  | .clzS32 d a => some ⟨false, false, 0x02#6, d, a, 0x00#6, 0x1D#6⟩
  | .clzV w d a => some ⟨false, false, 0x2#4 ++ w, d, a, 0x00#6, 0x1D#6⟩
  | .brevS64 d a => some ⟨false, false, 0x01#6, d, a, 0x00#6, 0x1E#6⟩
  | .brevS32 d a => some ⟨false, false, 0x02#6, d, a, 0x00#6, 0x1E#6⟩
  | .brevV w d a => some ⟨false, false, 0x2#4 ++ w, d, a, 0x00#6, 0x1E#6⟩
  | .movS64 d a => some ⟨false, false, 0x01#6, d, a, 0x00#6, 0x1F#6⟩
  | .movS32 d a => some ⟨false, false, 0x02#6, d, a, 0x00#6, 0x1F#6⟩
  | .movV w d a b => some ⟨false, false, 0x2#4 ++ w, d, a, b, 0x1F#6⟩
  | .icmpS64 d a b k => some ⟨false, false, 0x01#6, d, a, b, 0x4#3 ++ k⟩
  | .icmpS32 d a b k => some ⟨false, false, 0x02#6, d, a, b, 0x4#3 ++ k⟩
  | .icmpV w d a b k => some ⟨false, false, 0x2#4 ++ w, 0x0#3 ++ d, a, b, 0x4#3 ++ k⟩
  | .selS64 d a b => some ⟨false, false, 0x01#6, d, a, b, 0x26#6⟩
  | .selS32 d a b => some ⟨false, false, 0x02#6, d, a, b, 0x26#6⟩
  | .selV w d a b k => some ⟨false, false, 0x2#4 ++ w, d, a, b, 0x7#3 ++ k⟩
  | .leaS64 d a b k => some ⟨false, false, 0x01#6, d, a, b, 0xA#4 ++ k⟩
  | .leaS32 d a b k => some ⟨false, false, 0x02#6, d, a, b, 0xA#4 ++ k⟩
  | .leaV w d a b k => some ⟨false, false, 0x2#4 ++ w, d, a, b, 0xA#4 ++ k⟩
  | .iaddImmS d a i => some ⟨false, false, 0x03#6, d, a, i.extractLsb' 6 6, i.extractLsb' 0 6⟩
  | .iaddImmV d a i => some ⟨false, false, 0x0C#6, d, a, i.extractLsb' 6 6, i.extractLsb' 0 6⟩
  | .moviS d i => some ⟨false, false, 0x04#6, d, i.extractLsb' 12 6, i.extractLsb' 6 6, i.extractLsb' 0 6⟩
  | .moviV d i => some ⟨false, false, 0x0D#6, d, i.extractLsb' 12 6, i.extractLsb' 6 6, i.extractLsb' 0 6⟩
  | .movhiS d i => some ⟨false, false, 0x05#6, d, i.extractLsb' 12 6, i.extractLsb' 6 6, i.extractLsb' 0 6⟩
  | .movhiV d i => some ⟨false, false, 0x0E#6, d, i.extractLsb' 12 6, i.extractLsb' 6 6, i.extractLsb' 0 6⟩
  | .sread d n => some ⟨false, false, 0x06#6, d, 0x00#6, 0x0#1 ++ n.extractLsb' 6 5, n.extractLsb' 0 6⟩
  | .swrite a n => some ⟨false, false, 0x06#6, 0x00#6, a, 0x1#1 ++ n.extractLsb' 6 5, n.extractLsb' 0 6⟩
  | .shlImmS d a n => some ⟨false, false, 0x07#6, d, a, 0x00#2 ++ 0x0#4, n⟩
  | .shrImmS d a n => some ⟨false, false, 0x07#6, d, a, 0x01#2 ++ 0x0#4, n⟩
  | .sarImmS d a n => some ⟨false, false, 0x07#6, d, a, 0x02#2 ++ 0x0#4, n⟩
  | .rotImmS d a n => some ⟨false, false, 0x07#6, d, a, 0x03#2 ++ 0x0#4, n⟩
  | .shlImmV d a n => some ⟨false, false, 0x0F#6, d, a, 0x00#2 ++ 0x0#4, 0x0#1 ++ n⟩
  | .shrImmV d a n => some ⟨false, false, 0x0F#6, d, a, 0x01#2 ++ 0x0#4, 0x0#1 ++ n⟩
  | .sarImmV d a n => some ⟨false, false, 0x0F#6, d, a, 0x02#2 ++ 0x0#4, 0x0#1 ++ n⟩
  | .rotImmV d a n => some ⟨false, false, 0x0F#6, d, a, 0x03#2 ++ 0x0#4, 0x0#1 ++ n⟩
  | .faddV v d a b => some ⟨false, false, 0x08#5 ++ v, d, a, b, 0x00#6⟩
  | .faddS d a b => some ⟨false, false, 0x12#6, d, a, b, 0x00#6⟩
  | .fsubV v d a b => some ⟨false, false, 0x08#5 ++ v, d, a, b, 0x01#6⟩
  | .fsubS d a b => some ⟨false, false, 0x12#6, d, a, b, 0x01#6⟩
  | .fmulV v d a b => some ⟨false, false, 0x08#5 ++ v, d, a, b, 0x02#6⟩
  | .fmulS d a b => some ⟨false, false, 0x12#6, d, a, b, 0x02#6⟩
  | .ffmaV v d a b => some ⟨false, false, 0x08#5 ++ v, d, a, b, 0x03#6⟩
  | .ffmaS d a b => some ⟨false, false, 0x12#6, d, a, b, 0x03#6⟩
  | .fminV v d a b => some ⟨false, false, 0x08#5 ++ v, d, a, b, 0x04#6⟩
  | .fminS d a b => some ⟨false, false, 0x12#6, d, a, b, 0x04#6⟩
  | .fmaxV v d a b => some ⟨false, false, 0x08#5 ++ v, d, a, b, 0x05#6⟩
  | .fmaxS d a b => some ⟨false, false, 0x12#6, d, a, b, 0x05#6⟩
  | .fsgnCpyV v d a b => some ⟨false, false, 0x08#5 ++ v, d, a, b, 0x06#6⟩
  | .fsgnCpyS d a b => some ⟨false, false, 0x12#6, d, a, b, 0x06#6⟩
  | .fsgnNegV v d a b => some ⟨false, false, 0x08#5 ++ v, d, a, b, 0x07#6⟩
  | .fsgnNegS d a b => some ⟨false, false, 0x12#6, d, a, b, 0x07#6⟩
  | .fsgnXorV v d a b => some ⟨false, false, 0x08#5 ++ v, d, a, b, 0x08#6⟩
  | .fsgnXorS d a b => some ⟨false, false, 0x12#6, d, a, b, 0x08#6⟩
  | .fcmpV v d a b k => some ⟨false, false, 0x08#5 ++ v, 0x0#3 ++ d, a, b, 0x2#3 ++ k⟩
  | .fcmpS d a b k => some ⟨false, false, 0x12#6, d, a, b, 0x2#3 ++ k⟩
  | .fclassV v d a => some ⟨false, false, 0x08#5 ++ v, d, a, 0x00#6, 0x18#6⟩
  | .fclassS d a => some ⟨false, false, 0x12#6, d, a, 0x00#6, 0x18#6⟩
  | .frndV v d a k => some ⟨false, false, 0x08#5 ++ v, d, a, 0x00#6, 0x4#3 ++ k⟩
  | .frndS d a k => some ⟨false, false, 0x12#6, d, a, 0x00#6, 0x4#3 ++ k⟩
  | .redf d a o => some ⟨false, false, 0x13#6, d, a, 0x00#6, 0x0#4 ++ o⟩
  | .scanfAddInc d a => some ⟨false, false, 0x13#6, d, a, 0x00#6, 0x08#6⟩
  | .scanfAddExc d a => some ⟨false, false, 0x13#6, d, a, 0x00#6, 0x09#6⟩
  | .scanfMinInc d a => some ⟨false, false, 0x13#6, d, a, 0x00#6, 0x0A#6⟩
  | .scanfMaxInc d a => some ⟨false, false, 0x13#6, d, a, 0x00#6, 0x0B#6⟩
  | .scanfMinExc d a => some ⟨false, false, 0x13#6, d, a, 0x00#6, 0x0C#6⟩
  | .scanfMaxExc d a => some ⟨false, false, 0x13#6, d, a, 0x00#6, 0x0D#6⟩
  | .setfmt a => some ⟨false, false, 0x14#6, 0x00#6, a, 0x00#6, 0x00#6⟩
  | .getfmt d => some ⟨false, false, 0x14#6, d, 0x00#6, 0x00#6, 0x01#6⟩
  | .setnm a b => some ⟨false, false, 0x14#6, 0x00#6, a, b, 0x02#6⟩
  | .getnm d => some ⟨false, false, 0x14#6, d, 0x00#6, 0x00#6, 0x03#6⟩
  | .cvtfNarrow d a f => some ⟨false, false, 0x16#6, d, a, 0x00#6, 0x0#4 ++ f⟩
  | .cvtfWiden d a f => some ⟨false, false, 0x16#6, d, a, 0x00#6, 0x1#4 ++ f⟩
  | .cvfi d a f => some ⟨false, false, 0x16#6, d, a, 0x00#6, 0x1#3 ++ f⟩
  | .cvti d a f => some ⟨false, false, 0x16#6, d, a, 0x00#6, 0x08#5 ++ f⟩
  | .pack4 d a b => some ⟨false, false, 0x16#6, d, a, b, 0x18#6⟩
  | .unpk4 d a b => some ⟨false, false, 0x16#6, d, a, b, 0x20#6⟩
  | .frcp d a => some ⟨false, false, 0x17#6, d, a, 0x00#6, 0x00#6⟩
  | .frsq d a => some ⟨false, false, 0x17#6, d, a, 0x00#6, 0x01#6⟩
  | .fsqrt d a => some ⟨false, false, 0x17#6, d, a, 0x00#6, 0x02#6⟩
  | .fexp2 d a => some ⟨false, false, 0x17#6, d, a, 0x00#6, 0x03#6⟩
  | .flog2 d a => some ⟨false, false, 0x17#6, d, a, 0x00#6, 0x04#6⟩
  | .fsin d a => some ⟨false, false, 0x17#6, d, a, 0x00#6, 0x05#6⟩
  | .fcos d a => some ⟨false, false, 0x17#6, d, a, 0x00#6, 0x06#6⟩
  | .ftanh d a => some ⟨false, false, 0x17#6, d, a, 0x00#6, 0x07#6⟩
  | .br i => some ⟨false, false, 0x18#6, i.extractLsb' 18 6, i.extractLsb' 12 6, i.extractLsb' 6 6, i.extractLsb' 0 6⟩
  | .brc k i => some ⟨false, false, 0x19#6, 0x0#1 ++ k, i.extractLsb' 12 6, i.extractLsb' 6 6, i.extractLsb' 0 6⟩
  | .brm m i => some ⟨false, false, 0x19#6, 0x1#1 ++ m ++ 0x0#2, i.extractLsb' 12 6, i.extractLsb' 6 6, i.extractLsb' 0 6⟩
  | .call v s i => some ⟨false, false, 0x1A#6, v ++ s, i.extractLsb' 12 6, i.extractLsb' 6 6, i.extractLsb' 0 6⟩
  | .ret => some ⟨false, false, 0x1B#6, 0x00#6, 0x00#6, 0x00#6, 0x00#6⟩
  | .jtab d a b => some ⟨false, false, 0x1B#6, d, a, b, 0x01#6⟩
  | .bset k => some ⟨false, false, 0x1B#6, 0x0#2 ++ k, 0x00#6, 0x00#6, 0x02#6⟩
  | .join k => some ⟨false, false, 0x1B#6, 0x0#2 ++ k, 0x00#6, 0x00#6, 0x03#6⟩
  | .barrt => some ⟨false, false, 0x1B#6, 0x00#6, 0x00#6, 0x00#6, 0x04#6⟩
  | .barrtPub => some ⟨false, false, 0x1B#6, 0x00#6, 0x00#6, 0x00#6, 0x05#6⟩
  | .spawn a b => some ⟨false, false, 0x1B#6, 0x00#6, a, b, 0x06#6⟩
  | .exit => some ⟨false, false, 0x1B#6, 0x00#6, 0x00#6, 0x00#6, 0x07#6⟩
  | .park => some ⟨false, false, 0x1B#6, 0x00#6, 0x00#6, 0x00#6, 0x08#6⟩
  | .yield => some ⟨false, false, 0x1B#6, 0x00#6, 0x00#6, 0x00#6, 0x09#6⟩
  | .waitw a b => some ⟨false, false, 0x1B#6, 0x00#6, a, b, 0x0A#6⟩
  | .preh n b => some ⟨false, false, 0x1B#6, n.extractLsb' 6 6, n.extractLsb' 0 6, b, 0x0B#6⟩
  | .ballot d a => some ⟨false, false, 0x1C#6, 0x0#3 ++ d, a, 0x00#6, 0x00#6⟩
  | .voteAny d a => some ⟨false, false, 0x1C#6, d, a, 0x00#6, 0x01#6⟩
  | .voteAll d a => some ⟨false, false, 0x1C#6, d, a, 0x00#6, 0x02#6⟩
  | .voteUni d a => some ⟨false, false, 0x1C#6, d, a, 0x00#6, 0x03#6⟩
  | .mpopc d a => some ⟨false, false, 0x1C#6, d, 0x0#3 ++ a, 0x00#6, 0x04#6⟩
  | .mfirst d a => some ⟨false, false, 0x1C#6, d, 0x0#3 ++ a, 0x00#6, 0x05#6⟩
  | .mand d a b => some ⟨false, false, 0x1C#6, 0x0#3 ++ d, 0x0#3 ++ a, 0x0#3 ++ b, 0x08#6⟩
  | .mor d a b => some ⟨false, false, 0x1C#6, 0x0#3 ++ d, 0x0#3 ++ a, 0x0#3 ++ b, 0x09#6⟩
  | .mxor d a b => some ⟨false, false, 0x1C#6, 0x0#3 ++ d, 0x0#3 ++ a, 0x0#3 ++ b, 0x0A#6⟩
  | .mnot d a => some ⟨false, false, 0x1C#6, 0x0#3 ++ d, 0x0#3 ++ a, 0x00#6, 0x0B#6⟩
  | .movMask d a => some ⟨false, false, 0x1C#6, 0x0#3 ++ d, 0x0#3 ++ a, 0x00#6, 0x0C#6⟩
  | .laneid d => some ⟨false, false, 0x1D#6, d, 0x00#6, 0x00#6, 0x00#6⟩
  | .shflIdx d a b => some ⟨false, false, 0x1D#6, d, a, b, 0x01#6⟩
  | .shflUp d a b => some ⟨false, false, 0x1D#6, d, a, b, 0x02#6⟩
  | .shflDown d a b => some ⟨false, false, 0x1D#6, d, a, b, 0x03#6⟩
  | .shflXor d a b => some ⟨false, false, 0x1D#6, d, a, b, 0x04#6⟩
  | .bcast d a b => some ⟨false, false, 0x1D#6, d, a, b, 0x05#6⟩
  | .redi d a o => some ⟨false, false, 0x1E#6, d, a, 0x00#6, 0x00#3 ++ o⟩
  | .scaniInc d a o => some ⟨false, false, 0x1E#6, d, a, 0x00#6, 0x01#3 ++ o⟩
  | .scaniExc d a o => some ⟨false, false, 0x1E#6, d, a, 0x00#6, 0x02#3 ++ o⟩
  | .ldV d b i w o => some ⟨false, false, 0x20#6, d, b, i, w ++ o⟩
  | .stV d b i w o => some ⟨false, false, 0x21#6, d, b, i, w ++ o⟩
  | .stVNarrow d b i w o => some ⟨false, false, 0x22#6, d, b, i, w ++ o⟩
  | .stp d b i w o => some ⟨false, false, 0x23#6, d, b, i, w ++ o⟩
  | .ldS d b w o => some ⟨false, false, 0x24#6, d, b, 0x00#6, w ++ o⟩
  | .stS d b w o => some ⟨false, false, 0x24#6, d, b, 0x01#6, w ++ o⟩
  | .lds d b i w o => some ⟨false, false, 0x25#6, d, b, i, w ++ 0x00#1 ++ o⟩
  | .ldv d b i w o => some ⟨false, false, 0x25#6, d, b, i, w ++ 0x01#1 ++ o⟩
  | .sts d b i w o => some ⟨false, false, 0x26#6, d, b, i, w ++ 0x00#1 ++ o⟩
  | .stv d b i w o => some ⟨false, false, 0x26#6, d, b, i, w ++ 0x01#1 ++ o⟩
  | .fence k s => some ⟨false, false, 0x27#6, k ++ s, 0x00#6, 0x00#6, 0x00#6⟩
  | .migr a => some ⟨false, false, 0x27#6, 0x00#6, a, 0x00#6, 0x01#6⟩
  | .homeOf d a => some ⟨false, false, 0x27#6, d, a, 0x00#6, 0x02#6⟩
  | .spmap a b => some ⟨false, false, 0x27#6, 0x00#6, a, b, 0x03#6⟩
  | .spflush a b => some ⟨false, false, 0x27#6, 0x00#6, a, b, 0x04#6⟩
  | .leaseq d a => some ⟨false, false, 0x27#6, d, a, 0x00#6, 0x05#6⟩
  | .atom d b i o r => some ⟨false, false, 0x28#6, d, b, i, o ++ r⟩
  | .atomF d b i o r => some ⟨false, false, 0x29#6, d, b, i, o ++ r⟩
  | .atp d b i o r => some ⟨false, false, 0x2A#6, d, b, i, o ++ r⟩
  | .xatom d b i h n => some ⟨false, false, 0x2B#6, d, b, i, h ++ n⟩
  | .launch d a => some ⟨false, false, 0x2C#6, d, a, 0x00#6, 0x00#6⟩
  | .lstat d => some ⟨false, false, 0x2C#6, d, 0x00#6, 0x00#6, 0x01#6⟩
  | .echain a e => some ⟨false, false, 0x2C#6, 0x00#6, a, e, 0x02#6⟩
  | .estat d e => some ⟨false, false, 0x2C#6, d, 0x00#6, e, 0x03#6⟩
  | .cbcfg a n => some ⟨false, false, 0x2D#6, 0x00#6, a, n, 0x00#6⟩
  | .cbput a n => some ⟨false, false, 0x2D#6, 0x00#6, a, n, 0x01#6⟩
  | .cbget d n => some ⟨false, false, 0x2D#6, d, 0x00#6, n, 0x02#6⟩
  | .cbwait a n => some ⟨false, false, 0x2D#6, 0x00#6, a, n, 0x03#6⟩
  | .cpy a => some ⟨false, false, 0x2E#6, 0x00#6, a, 0x00#6, 0x00#6⟩
  | .bseal d => some ⟨false, false, 0x2E#6, d, 0x00#6, 0x00#6, 0x01#6⟩
  | .bwait a => some ⟨false, false, 0x2E#6, 0x00#6, a, 0x00#6, 0x02#6⟩
  | .syncw d a => some ⟨false, false, 0x2E#6, d, a, 0x00#6, 0x03#6⟩
  | .swait d a => some ⟨false, false, 0x2E#6, d, a, 0x00#6, 0x04#6⟩
  | .wcfl => some ⟨false, false, 0x2E#6, 0x00#6, 0x00#6, 0x00#6, 0x05#6⟩
  | .mma t a b s => some ⟨false, false, 0x30#6, t ++ a.extractLsb' 4 3, a.extractLsb' 0 4 ++ b.extractLsb' 5 2, b.extractLsb' 0 5 ++ s.extractLsb' 1 1, s.extractLsb' 0 1 ++ 0x00#5⟩
  | .oclaim f n => some ⟨false, false, 0x31#6, 0x00#2 ++ f.extractLsb' 3 4, f.extractLsb' 0 3 ++ n.extractLsb' 4 3, n.extractLsb' 0 4 ++ 0x0#2, 0x00#6⟩
  | .orel f n => some ⟨false, false, 0x31#6, 0x01#2 ++ f.extractLsb' 3 4, f.extractLsb' 0 3 ++ n.extractLsb' 4 3, n.extractLsb' 0 4 ++ 0x0#2, 0x00#6⟩
  | .msync s => some ⟨false, false, 0x31#6, 0x2#2 ++ s, 0x00#6, 0x00#6, 0x00#6⟩
  | .czero t => some ⟨false, false, 0x32#6, 0x0#3 ++ t, 0x00#6, 0x00#6, 0x00#6⟩
  | .crd d t b => some ⟨false, false, 0x32#6, d, 0x0#3 ++ t, b, 0x01#6⟩
  | .cwr t a b => some ⟨false, false, 0x32#6, 0x0#3 ++ t, a, b, 0x02#6⟩
  | .cst t a f => some ⟨false, false, 0x32#6, 0x0#3 ++ t, a, f ++ 0x0#2, 0x03#6⟩
  | .cstz t a f => some ⟨false, false, 0x32#6, 0x0#3 ++ t, a, f ++ 0x0#2, 0x04#6⟩
  | .cscl t a => some ⟨false, false, 0x32#6, 0x0#3 ++ t, a, 0x00#6, 0x05#6⟩
  | .bskip m a b => some ⟨false, false, 0x32#6, 0x0#3 ++ m, a, b, 0x06#6⟩
  | .openReg a x => some ⟨false, false, 0x34#6, 0x00#6, a, x, 0x00#6⟩
  | .adv a x => some ⟨false, false, 0x34#6, 0x00#6, a, x, 0x01#6⟩
  | .tend d x => some ⟨false, false, 0x34#6, 0x0#3 ++ d, 0x00#6, x, 0x02#6⟩
  | .closeReg x => some ⟨false, false, 0x34#6, 0x00#6, 0x00#6, x, 0x03#6⟩
  | .fldc d x => some ⟨false, false, 0x34#6, d, 0x00#6, x, 0x04#6⟩
  | .cxsect d a u w => some ⟨false, false, 0x35#6, d, a, u ++ w, 0x00#6⟩
  | .cmerge d a u w => some ⟨false, false, 0x35#6, d, a, u ++ w, 0x01#6⟩
  | .cwait d a => some ⟨false, false, 0x35#6, d, a, 0x00#6, 0x02#6⟩
  | .cursv a => some ⟨false, false, 0x35#6, 0x00#6, a, 0x00#6, 0x03#6⟩
  | .curld a => some ⟨false, false, 0x35#6, 0x00#6, a, 0x00#6, 0x04#6⟩
  | .xbld d a x y => some ⟨false, false, 0x36#6, d, a, 0x0#1 ++ x ++ y.extractLsb' 4 1, y.extractLsb' 0 4 ++ 0x00#2⟩
  | .xbmv d a x y => some ⟨false, false, 0x36#6, d, a, 0x0#1 ++ x ++ y.extractLsb' 4 1, y.extractLsb' 0 4 ++ 0x01#2⟩
  | .xbcal d x y => some ⟨false, false, 0x36#6, d, 0x00#6, 0x0#1 ++ x ++ y.extractLsb' 4 1, y.extractLsb' 0 4 ++ 0x02#2⟩
  | .xbst d x y => some ⟨false, false, 0x36#6, d, 0x00#6, 0x0#1 ++ x ++ y.extractLsb' 4 1, y.extractLsb' 0 4 ++ 0x03#2⟩
  | .accept d a x y => some ⟨false, false, 0x37#6, d, a, 0x0#1 ++ x ++ y.extractLsb' 4 1, y.extractLsb' 0 4 ++ 0x00#2⟩
  | .tldc d a t => some ⟨false, false, 0x38#6, d, a, 0x00#6, 0x0#2 ++ t ++ 0x00#2⟩
  | .tldb d a t => some ⟨false, false, 0x38#6, d, a, 0x00#6, 0x0#2 ++ t ++ 0x01#2⟩
  | .tsetl a t => some ⟨false, false, 0x38#6, 0x00#6, a, 0x00#6, 0x0#2 ++ t ++ 0x02#2⟩
  | .tsamp a t => some ⟨false, false, 0x38#6, 0x00#6, a, 0x00#6, 0x0#2 ++ t ++ 0x03#2⟩
  | .trd d a t => some ⟨false, false, 0x39#6, d, a, 0x00#6, 0x0#2 ++ t ++ 0x00#2⟩
  | .trdc d a t => some ⟨false, false, 0x39#6, d, a, 0x00#6, 0x0#2 ++ t ++ 0x01#2⟩
  | .tstat d t => some ⟨false, false, 0x39#6, d, 0x00#6, 0x00#6, 0x0#2 ++ t ++ 0x02#2⟩
  | .cyc d => some ⟨false, false, 0x3A#6, d, 0x00#6, 0x00#6, 0x00#6⟩
  | .gtim d => some ⟨false, false, 0x3A#6, d, 0x00#6, 0x00#6, 0x01#6⟩
  | .gtset a => some ⟨false, false, 0x3A#6, 0x00#6, a, 0x00#6, 0x02#6⟩
  | .perf d a => some ⟨false, false, 0x3A#6, d, a, 0x00#6, 0x03#6⟩
  | .ovtld a => some ⟨false, false, 0x3B#6, 0x00#6, a, 0x00#6, 0x00#6⟩
  | .htld a b => some ⟨false, false, 0x3B#6, 0x00#6, a, b, 0x01#6⟩
  | .keyld a b => some ⟨false, false, 0x3B#6, 0x00#6, a, b, 0x02#6⟩
  | .tlbsd a b => some ⟨false, false, 0x3B#6, 0x00#6, a, b, 0x03#6⟩
  | .ptgen a => some ⟨false, false, 0x3B#6, 0x00#6, a, 0x00#6, 0x04#6⟩
  | .trap n => some ⟨false, false, 0x3C#6, n.extractLsb' 6 6, n.extractLsb' 0 6, 0x00#6, 0x00#6⟩
  | .tret => some ⟨false, false, 0x3C#6, 0x00#6, 0x00#6, 0x00#6, 0x01#6⟩
  | .tretAt a => some ⟨false, false, 0x3C#6, 0x01#6, a, 0x00#6, 0x01#6⟩
  | .saveq a => some ⟨false, false, 0x3C#6, 0x00#6, a, 0x00#6, 0x02#6⟩
  | .timerTrap => none
  | .parcelDepart _ => none
  | .parcelOffer _ _ => none
  | .parcelArrival _ => none
  | .parcelReoffer _ => none
  | .parcelPlacement _ => none
  | .parcelPortIngress _ => none
  | .parcelReturn _ => none
  | .remoteRequestIngress _ => none
  | .storeRequestPerform _ => none
  | .postedOpPerform _ => none
  | .ackReturn _ => none
  | .loadSectorReturn _ _ => none
  | .remoteReadReturn _ => none
  | .splitUpdateApply _ => none
  | .registerLineFill _ _ _ => none
  | .residencyGrant _ => none
  | .turnEnd _ => none
  | .servicePassBound _ => none
  | .sfuEntryComplete _ => none
  | .mmaPassComplete _ _ => none
  | .msyncRelease _ => none
  | .slotClearDone _ _ => none
  | .mapFill _ _ _ => none
  | .joinFusion _ _ => none
  | .barrtRelease _ => none
  | .waitwWake _ => none
  | .bwaitWake _ => none
  | .swaitWake _ => none
  | .cbwaitWake _ => none
  | .cwaitWake _ => none
  | .launchAppendResume _ => none
  | .lqTailDoorbell _ _ _ => none
  | .lqEnWrite _ _ => none
  | .launchRecordRead _ => none
  | .gridDispatch _ _ => none
  | .teamPlace _ _ => none
  | .groupRetire _ => none
  | .gridRetire _ => none
  | .copyEntry _ => none
  | .gatherEntry _ => none
  | .scatterEntry _ => none
  | .bobbinEntry _ => none
  | .loopEntry _ => none
  | .brifEntry _ => none
  | .linkEntry _ => none
  | .endEntry _ => none
  | .cbStepFire _ => none
  | .batchComplete _ _ => none
  | .bobbinWalkStep _ => none
  | .bobbinFinish _ => none
  | .xbLoadProgram _ _ => none
  | .xbCalibrate _ _ => none
  | .xbProduct _ _ => none
  | .xbDriftReading _ _ => none
  | .tambLoadPerform _ _ => none
  | .tambSettleStart _ _ => none
  | .tambSampleStart _ _ => none
  | .tambSettleExpiry _ _ => none
  | .tambRailReached _ _ _ => none
  | .tambSampleExpiry _ _ => none
  | .xatomElementArrival _ => none
  | .channelToCompute _ _ => none
  | .channelToNormal _ _ => none
  | .handlerRun _ _ => none
  | .htldInstall _ _ => none
  | .wcAgeExpiry _ _ => none
  | .drainArrival _ => none
  | .orderedFlagArrival _ => none
  | .orderedFlagPerform _ => none
  | .closeMarker _ _ => none
  | .preemptRequest _ _ => none
  | .preemptEscalation _ => none
  | .restore _ _ => none
  | .freezeComplete _ => none
  | .pcFreezeSet _ _ => none
  | .pcFreezeRelease _ _ => none
  | .shadowSwap _ _ => none
  | .pcHomesWrite _ _ => none
  | .pcEnSet _ _ => none
  | .pcEnClear _ _ => none
  | .pcVfWrite _ _ => none
  | .pcTdataCommit _ _ => none
  | .registerWrite _ _ _ => none
  | .resync => none
  | .mailboxUnknown _ => none
  | .hostWrite _ _ _ => none
  | .hostRead _ _ _ => none
  | .portTrain _ _ => none
  | .deviceReset => none
  | .powerCreditWindow _ => none
  | .thermalThrottle => none
  | .thermalRestore => none
  | .thermalTrip => none
  | .rootBoot _ => none
  | .getVersion => none
  | .getCapabilities => none
  | .negotiateAlgorithms => none
  | .getDigests => none
  | .getCertificate => none
  | .challenge _ => none
  | .getMeasurements _ => none
  | .tileStorageError _ _ _ => none
  | .remoteReadPerform _ => none

/-- The word of a slot (R56): its instruction's fields with the slot's chain bit and park marker. -/
def encodeWord (s : Slot) : Option (BitVec 32) :=
  s.instr.fields.map fun x => { x with c := s.chain, p := s.park }.toWord

/-- The words of an instruction: one word, with chain bit and park marker clear (R56). -/
def encode (i : Instr) : List (BitVec 32) :=
  (encodeWord ⟨false, false, i⟩).toList

/-- R6: the four bytes of a word, lowest address first. -/
def wordBytes (w : BitVec 32) : List (BitVec 8) :=
  [w.extractLsb' 0 8, w.extractLsb' 8 8, w.extractLsb' 16 8, w.extractLsb' 24 8]

/-- R6: the word whose four bytes stand in memory at ascending addresses. -/
def bytesWord (bs : List (BitVec 8)) : BitVec 32 :=
  bs.foldr (fun b acc => (acc <<< 8) ||| b.setWidth 32) 0x00000000#32

/-- The instruction that the decoder reads from the bytes of a word, as the device stores it (R56). Every instruction is
one word; the bits above `nbits` are zero. -/
noncomputable def decodeTableWord (nbits w : Nat) : Option Instr :=
  match decodeWord (bytesWord (wordBytes (BitVec.ofNat 32 (w % 2 ^ nbits)))) with
  | .ok s => some s.instr
  | .error _ => none

end Sys2Proof
end

