-- ==== Sys2Proof/Machine/Uses.lean ====
section
/-! DEFINITION. Which pipe each word belongs to (R59) and which registers it reads and writes, as the chain-group and hazard rules
count them (R60, R62, R121). -/

namespace Sys2Proof.Machine

/-- What a word uses: its pipe, the vectors, scalars and masks it reads and writes, whether it sets a flag of CFLAGS, and whether
it works under the effective mask. -/
structure Uses where
  pipe : Pipe
  rv : List RegNum
  rs : List RegNum
  rm : List (BitVec 3)
  wv : List RegNum
  ws : List RegNum
  wm : List (BitVec 3)
  flags : Bool
  masked : Bool
  deriving DecidableEq, Repr

def Uses.none : Uses := ⟨.none, [], [], [], [], [], [], false, false⟩

/-- R217: the index register of an access, if it has one. -/
def idx (i : RegNum) : List RegNum := if i = 0x00#6 then [] else [i]

/-- R59, R66, R67: what each word uses; `third` is its third source. -/
def usesOf (i : Instr) (third : RegNum) : Uses :=
  match i with
  | .nop => ⟨.none, [], [], [], [], [], [], false, false⟩
  | .pfx _ _ _ _ _ => ⟨.none, [], [], [], [], [], [], false, false⟩
  | .iaddS64 d a b => ⟨.sc, [], [a, b], [], [], [d], [], false, false⟩
  | .iaddS32 d a b => ⟨.sc, [], [a, b], [], [], [d], [], false, false⟩
  | .iaddV w d a b => if w = 0x3#2 then ⟨.vi, [a], [b], [], [d], [], [], false, true⟩ else ⟨.vi, [a, b], [], [], [d], [], [], false, true⟩
  | .isubS64 d a b => ⟨.sc, [], [a, b], [], [], [d], [], false, false⟩
  | .isubS32 d a b => ⟨.sc, [], [a, b], [], [], [d], [], false, false⟩
  | .isubV w d a b => if w = 0x3#2 then ⟨.vi, [a], [b], [], [d], [], [], false, true⟩ else ⟨.vi, [a, b], [], [], [d], [], [], false, true⟩
  | .imulS64 d a b => ⟨.sc, [], [a, b], [], [], [d], [], false, false⟩
  | .imulS32 d a b => ⟨.sc, [], [a, b], [], [], [d], [], false, false⟩
  | .imulV w d a b => if w = 0x3#2 then ⟨.vi, [a], [b], [], [d], [], [], false, true⟩ else ⟨.vi, [a, b], [], [], [d], [], [], false, true⟩
  | .imulhIS64 d a b => ⟨.sc, [], [a, b], [], [], [d], [], false, false⟩
  | .imulhIS32 d a b => ⟨.sc, [], [a, b], [], [], [d], [], false, false⟩
  | .imulhIV w d a b => if w = 0x3#2 then ⟨.vi, [a], [b], [], [d], [], [], false, true⟩ else ⟨.vi, [a, b], [], [], [d], [], [], false, true⟩
  | .imulhNS64 d a b => ⟨.sc, [], [a, b], [], [], [d], [], false, false⟩
  | .imulhNS32 d a b => ⟨.sc, [], [a, b], [], [], [d], [], false, false⟩
  | .imulhNV w d a b => if w = 0x3#2 then ⟨.vi, [a], [b], [], [d], [], [], false, true⟩ else ⟨.vi, [a, b], [], [], [d], [], [], false, true⟩
  | .imadS64 d a b => ⟨.sc, [], [a, b, d], [], [], [d], [], false, false⟩
  | .imadS32 d a b => ⟨.sc, [], [a, b, d], [], [], [d], [], false, false⟩
  | .imadV w d a b => if w = 0x3#2 then ⟨.vi, [a, third], [b], [], [d], [], [], false, true⟩ else ⟨.vi, [a, b, third], [], [], [d], [], [], false, true⟩
  | .idivIS64 d a b => ⟨.sc, [], [a, b], [], [], [d], [], false, false⟩
  | .idivIS32 d a b => ⟨.sc, [], [a, b], [], [], [d], [], false, false⟩
  | .idivIV w d a b => if w = 0x3#2 then ⟨.vi, [a], [b], [], [d], [], [], false, true⟩ else ⟨.vi, [a, b], [], [], [d], [], [], false, true⟩
  | .idivNS64 d a b => ⟨.sc, [], [a, b], [], [], [d], [], false, false⟩
  | .idivNS32 d a b => ⟨.sc, [], [a, b], [], [], [d], [], false, false⟩
  | .idivNV w d a b => if w = 0x3#2 then ⟨.vi, [a], [b], [], [d], [], [], false, true⟩ else ⟨.vi, [a, b], [], [], [d], [], [], false, true⟩
  | .iremIS64 d a b => ⟨.sc, [], [a, b], [], [], [d], [], false, false⟩
  | .iremIS32 d a b => ⟨.sc, [], [a, b], [], [], [d], [], false, false⟩
  | .iremIV w d a b => if w = 0x3#2 then ⟨.vi, [a], [b], [], [d], [], [], false, true⟩ else ⟨.vi, [a, b], [], [], [d], [], [], false, true⟩
  | .iremNS64 d a b => ⟨.sc, [], [a, b], [], [], [d], [], false, false⟩
  | .iremNS32 d a b => ⟨.sc, [], [a, b], [], [], [d], [], false, false⟩
  | .iremNV w d a b => if w = 0x3#2 then ⟨.vi, [a], [b], [], [d], [], [], false, true⟩ else ⟨.vi, [a, b], [], [], [d], [], [], false, true⟩
  | .iminIS64 d a b => ⟨.sc, [], [a, b], [], [], [d], [], false, false⟩
  | .iminIS32 d a b => ⟨.sc, [], [a, b], [], [], [d], [], false, false⟩
  | .iminIV w d a b => if w = 0x3#2 then ⟨.vi, [a], [b], [], [d], [], [], false, true⟩ else ⟨.vi, [a, b], [], [], [d], [], [], false, true⟩
  | .iminNS64 d a b => ⟨.sc, [], [a, b], [], [], [d], [], false, false⟩
  | .iminNS32 d a b => ⟨.sc, [], [a, b], [], [], [d], [], false, false⟩
  | .iminNV w d a b => if w = 0x3#2 then ⟨.vi, [a], [b], [], [d], [], [], false, true⟩ else ⟨.vi, [a, b], [], [], [d], [], [], false, true⟩
  | .imaxIS64 d a b => ⟨.sc, [], [a, b], [], [], [d], [], false, false⟩
  | .imaxIS32 d a b => ⟨.sc, [], [a, b], [], [], [d], [], false, false⟩
  | .imaxIV w d a b => if w = 0x3#2 then ⟨.vi, [a], [b], [], [d], [], [], false, true⟩ else ⟨.vi, [a, b], [], [], [d], [], [], false, true⟩
  | .imaxNS64 d a b => ⟨.sc, [], [a, b], [], [], [d], [], false, false⟩
  | .imaxNS32 d a b => ⟨.sc, [], [a, b], [], [], [d], [], false, false⟩
  | .imaxNV w d a b => if w = 0x3#2 then ⟨.vi, [a], [b], [], [d], [], [], false, true⟩ else ⟨.vi, [a, b], [], [], [d], [], [], false, true⟩
  | .iabsS64 d a => ⟨.sc, [], [a], [], [], [d], [], false, false⟩
  | .iabsS32 d a => ⟨.sc, [], [a], [], [], [d], [], false, false⟩
  | .iabsV _ d a => ⟨.vi, [a], [], [], [d], [], [], false, true⟩
  | .inegS64 d a => ⟨.sc, [], [a], [], [], [d], [], false, false⟩
  | .inegS32 d a => ⟨.sc, [], [a], [], [], [d], [], false, false⟩
  | .inegV _ d a => ⟨.vi, [a], [], [], [d], [], [], false, true⟩
  | .andS64 d a b => ⟨.sc, [], [a, b], [], [], [d], [], false, false⟩
  | .andS32 d a b => ⟨.sc, [], [a, b], [], [], [d], [], false, false⟩
  | .andV w d a b => if w = 0x3#2 then ⟨.vi, [a], [b], [], [d], [], [], false, true⟩ else ⟨.vi, [a, b], [], [], [d], [], [], false, true⟩
  | .orS64 d a b => ⟨.sc, [], [a, b], [], [], [d], [], false, false⟩
  | .orS32 d a b => ⟨.sc, [], [a, b], [], [], [d], [], false, false⟩
  | .orV w d a b => if w = 0x3#2 then ⟨.vi, [a], [b], [], [d], [], [], false, true⟩ else ⟨.vi, [a, b], [], [], [d], [], [], false, true⟩
  | .xorS64 d a b => ⟨.sc, [], [a, b], [], [], [d], [], false, false⟩
  | .xorS32 d a b => ⟨.sc, [], [a, b], [], [], [d], [], false, false⟩
  | .xorV w d a b => if w = 0x3#2 then ⟨.vi, [a], [b], [], [d], [], [], false, true⟩ else ⟨.vi, [a, b], [], [], [d], [], [], false, true⟩
  | .andnS64 d a b => ⟨.sc, [], [a, b], [], [], [d], [], false, false⟩
  | .andnS32 d a b => ⟨.sc, [], [a, b], [], [], [d], [], false, false⟩
  | .andnV w d a b => if w = 0x3#2 then ⟨.vi, [a], [b], [], [d], [], [], false, true⟩ else ⟨.vi, [a, b], [], [], [d], [], [], false, true⟩
  | .notS64 d a => ⟨.sc, [], [a], [], [], [d], [], false, false⟩
  | .notS32 d a => ⟨.sc, [], [a], [], [], [d], [], false, false⟩
  | .notV _ d a => ⟨.vi, [a], [], [], [d], [], [], false, true⟩
  | .shlS64 d a b => ⟨.sc, [], [a, b], [], [], [d], [], false, false⟩
  | .shlS32 d a b => ⟨.sc, [], [a, b], [], [], [d], [], false, false⟩
  | .shlV w d a b => if w = 0x3#2 then ⟨.vi, [a], [b], [], [d], [], [], false, true⟩ else ⟨.vi, [a, b], [], [], [d], [], [], false, true⟩
  | .shrS64 d a b => ⟨.sc, [], [a, b], [], [], [d], [], false, false⟩
  | .shrS32 d a b => ⟨.sc, [], [a, b], [], [], [d], [], false, false⟩
  | .shrV w d a b => if w = 0x3#2 then ⟨.vi, [a], [b], [], [d], [], [], false, true⟩ else ⟨.vi, [a, b], [], [], [d], [], [], false, true⟩
  | .sarS64 d a b => ⟨.sc, [], [a, b], [], [], [d], [], false, false⟩
  | .sarS32 d a b => ⟨.sc, [], [a, b], [], [], [d], [], false, false⟩
  | .sarV w d a b => if w = 0x3#2 then ⟨.vi, [a], [b], [], [d], [], [], false, true⟩ else ⟨.vi, [a, b], [], [], [d], [], [], false, true⟩
  | .rotS64 d a b => ⟨.sc, [], [a, b], [], [], [d], [], false, false⟩
  | .rotS32 d a b => ⟨.sc, [], [a, b], [], [], [d], [], false, false⟩
  | .rotV w d a b => if w = 0x3#2 then ⟨.vi, [a], [b], [], [d], [], [], false, true⟩ else ⟨.vi, [a, b], [], [], [d], [], [], false, true⟩
  | .bfxIS64 d a b => ⟨.sc, [], [a, b], [], [], [d], [], false, false⟩
  | .bfxIS32 d a b => ⟨.sc, [], [a, b], [], [], [d], [], false, false⟩
  | .bfxIV w d a b => if w = 0x3#2 then ⟨.vi, [a], [b], [], [d], [], [], false, true⟩ else ⟨.vi, [a, b], [], [], [d], [], [], false, true⟩
  | .bfxNS64 d a b => ⟨.sc, [], [a, b], [], [], [d], [], false, false⟩
  | .bfxNS32 d a b => ⟨.sc, [], [a, b], [], [], [d], [], false, false⟩
  | .bfxNV w d a b => if w = 0x3#2 then ⟨.vi, [a], [b], [], [d], [], [], false, true⟩ else ⟨.vi, [a, b], [], [], [d], [], [], false, true⟩
  | .bfiS64 d a b => ⟨.sc, [], [a, b, d], [], [], [d], [], false, false⟩
  | .bfiS32 d a b => ⟨.sc, [], [a, b, d], [], [], [d], [], false, false⟩
  | .bfiV w d a b => if w = 0x3#2 then ⟨.vi, [a, third], [b], [], [d], [], [], false, true⟩ else ⟨.vi, [a, b, third], [], [], [d], [], [], false, true⟩
  | .popcS64 d a => ⟨.sc, [], [a], [], [], [d], [], false, false⟩
  | .popcS32 d a => ⟨.sc, [], [a], [], [], [d], [], false, false⟩
  | .popcV _ d a => ⟨.vi, [a], [], [], [d], [], [], false, true⟩
  | .clzS64 d a => ⟨.sc, [], [a], [], [], [d], [], false, false⟩
  | .clzS32 d a => ⟨.sc, [], [a], [], [], [d], [], false, false⟩
  | .clzV _ d a => ⟨.vi, [a], [], [], [d], [], [], false, true⟩
  | .brevS64 d a => ⟨.sc, [], [a], [], [], [d], [], false, false⟩
  | .brevS32 d a => ⟨.sc, [], [a], [], [], [d], [], false, false⟩
  | .brevV _ d a => ⟨.vi, [a], [], [], [d], [], [], false, true⟩
  | .movS64 d a => ⟨.sc, [], [a], [], [], [d], [], false, false⟩
  | .movS32 d a => ⟨.sc, [], [a], [], [], [d], [], false, false⟩
  | .movV w d a b => if w = 0x3#2 then ⟨.vi, [], [b], [], [d], [], [], false, true⟩ else ⟨.vi, [a], [], [], [d], [], [], false, true⟩
  | .icmpS64 d a b _ => ⟨.sc, [], [a, b], [], [], [d], [], true, false⟩
  | .icmpS32 d a b _ => ⟨.sc, [], [a, b], [], [], [d], [], true, false⟩
  | .icmpV w d a b _ => if w = 0x3#2 then ⟨.vi, [a], [b], [], [], [], [d], false, true⟩ else ⟨.vi, [a, b], [], [], [], [], [d], false, true⟩
  | .selS64 d a b => ⟨.sc, [], [a, b, d], [], [], [d], [], false, false⟩
  | .selS32 d a b => ⟨.sc, [], [a, b, d], [], [], [d], [], false, false⟩
  | .selV w d a b k => if w = 0x3#2 then ⟨.vi, [a], [b], [k], [d], [], [], false, true⟩ else ⟨.vi, [a, b], [], [k], [d], [], [], false, true⟩
  | .leaS64 d a b _ => ⟨.sc, [], [a, b], [], [], [d], [], false, false⟩
  | .leaS32 d a b _ => ⟨.sc, [], [a, b], [], [], [d], [], false, false⟩
  | .leaV w d a b _ => if w = 0x3#2 then ⟨.vi, [a], [b], [], [d], [], [], false, true⟩ else ⟨.vi, [a, b], [], [], [d], [], [], false, true⟩
  | .iaddImmS d a _ => ⟨.sc, [], [a], [], [], [d], [], false, false⟩
  | .iaddImmV d a _ => ⟨.vi, [a], [], [], [d], [], [], false, true⟩
  | .moviS d _ => ⟨.sc, [], [], [], [], [d], [], false, false⟩
  | .moviV d _ => ⟨.vi, [], [], [], [d], [], [], false, true⟩
  | .movhiS d _ => ⟨.sc, [], [d], [], [], [d], [], false, false⟩
  | .movhiV d _ => ⟨.vi, [d], [], [], [d], [], [], false, true⟩
  | .sread d _ => ⟨.sc, [], [], [], [], [d], [], false, false⟩
  | .swrite a n => ⟨.sc, [], [a], [], [], [], [], n == 0x018#11, false⟩
  | .shlImmS d a _ => ⟨.sc, [], [a], [], [], [d], [], false, false⟩
  | .shrImmS d a _ => ⟨.sc, [], [a], [], [], [d], [], false, false⟩
  | .sarImmS d a _ => ⟨.sc, [], [a], [], [], [d], [], false, false⟩
  | .rotImmS d a _ => ⟨.sc, [], [a], [], [], [d], [], false, false⟩
  | .shlImmV d a _ => ⟨.vi, [a], [], [], [d], [], [], false, true⟩
  | .shrImmV d a _ => ⟨.vi, [a], [], [], [d], [], [], false, true⟩
  | .sarImmV d a _ => ⟨.vi, [a], [], [], [d], [], [], false, true⟩
  | .rotImmV d a _ => ⟨.vi, [a], [], [], [d], [], [], false, true⟩
  | .faddV v d a b => if v = 0x1#1 then ⟨.vf, [a], [b], [], [d], [], [], false, true⟩ else ⟨.vf, [a, b], [], [], [d], [], [], false, true⟩
  | .faddS d a b => ⟨.vf, [], [a, b], [], [], [d], [], false, false⟩
  | .fsubV v d a b => if v = 0x1#1 then ⟨.vf, [a], [b], [], [d], [], [], false, true⟩ else ⟨.vf, [a, b], [], [], [d], [], [], false, true⟩
  | .fsubS d a b => ⟨.vf, [], [a, b], [], [], [d], [], false, false⟩
  | .fmulV v d a b => if v = 0x1#1 then ⟨.vf, [a], [b], [], [d], [], [], false, true⟩ else ⟨.vf, [a, b], [], [], [d], [], [], false, true⟩
  | .fmulS d a b => ⟨.vf, [], [a, b], [], [], [d], [], false, false⟩
  | .ffmaV v d a b => if v = 0x1#1 then ⟨.vf, [a, third], [b], [], [d], [], [], false, true⟩ else ⟨.vf, [a, b, third], [], [], [d], [], [], false, true⟩
  | .ffmaS d a b => ⟨.vf, [], [a, b, third], [], [], [d], [], false, false⟩
  | .fminV v d a b => if v = 0x1#1 then ⟨.vf, [a], [b], [], [d], [], [], false, true⟩ else ⟨.vf, [a, b], [], [], [d], [], [], false, true⟩
  | .fminS d a b => ⟨.vf, [], [a, b], [], [], [d], [], false, false⟩
  | .fmaxV v d a b => if v = 0x1#1 then ⟨.vf, [a], [b], [], [d], [], [], false, true⟩ else ⟨.vf, [a, b], [], [], [d], [], [], false, true⟩
  | .fmaxS d a b => ⟨.vf, [], [a, b], [], [], [d], [], false, false⟩
  | .fsgnCpyV v d a b => if v = 0x1#1 then ⟨.vf, [a], [b], [], [d], [], [], false, true⟩ else ⟨.vf, [a, b], [], [], [d], [], [], false, true⟩
  | .fsgnCpyS d a b => ⟨.vf, [], [a, b], [], [], [d], [], false, false⟩
  | .fsgnNegV v d a b => if v = 0x1#1 then ⟨.vf, [a], [b], [], [d], [], [], false, true⟩ else ⟨.vf, [a, b], [], [], [d], [], [], false, true⟩
  | .fsgnNegS d a b => ⟨.vf, [], [a, b], [], [], [d], [], false, false⟩
  | .fsgnXorV v d a b => if v = 0x1#1 then ⟨.vf, [a], [b], [], [d], [], [], false, true⟩ else ⟨.vf, [a, b], [], [], [d], [], [], false, true⟩
  | .fsgnXorS d a b => ⟨.vf, [], [a, b], [], [], [d], [], false, false⟩
  | .fcmpV v d a b _ => if v = 0x1#1 then ⟨.vf, [a], [b], [], [], [], [d], false, true⟩ else ⟨.vf, [a, b], [], [], [], [], [d], false, true⟩
  | .fcmpS d a b _ => ⟨.vf, [], [a, b], [], [], [d], [], true, false⟩
  | .fclassV _ d a => ⟨.vf, [a], [], [], [d], [], [], false, true⟩
  | .fclassS d a => ⟨.vf, [], [a], [], [], [d], [], false, false⟩
  | .frndV _ d a _ => ⟨.vf, [a], [], [], [d], [], [], false, true⟩
  | .frndS d a _ => ⟨.vf, [], [a], [], [], [d], [], false, false⟩
  | .redf d a _ => ⟨.vf, [a], [], [], [], [d], [], true, true⟩
  | .scanfAddInc d a => ⟨.vf, [a], [], [], [d], [], [], true, true⟩
  | .scanfAddExc d a => ⟨.vf, [a], [], [], [d], [], [], true, true⟩
  | .scanfMinInc d a => ⟨.vf, [a], [], [], [d], [], [], true, true⟩
  | .scanfMaxInc d a => ⟨.vf, [a], [], [], [d], [], [], true, true⟩
  | .scanfMinExc d a => ⟨.vf, [a], [], [], [d], [], [], true, true⟩
  | .scanfMaxExc d a => ⟨.vf, [a], [], [], [d], [], [], true, true⟩
  | .setfmt a => ⟨.vf, [], [a], [], [], [], [], false, false⟩
  | .getfmt d => ⟨.vf, [], [], [], [], [d], [], false, false⟩
  | .setnm a b => ⟨.vf, [], [a, b], [], [], [], [], false, false⟩
  | .getnm d => ⟨.vf, [], [], [], [], [d], [], false, false⟩
  | .cvtfNarrow d a _ => ⟨.vf, [a], [], [], [d], [], [], false, true⟩
  | .cvtfWiden d a _ => ⟨.vf, [a], [], [], [d], [], [], false, true⟩
  | .cvfi d a _ => ⟨.vf, [a], [], [], [d], [], [], false, true⟩
  | .cvti d a _ => ⟨.vf, [a], [], [], [d], [], [], false, true⟩
  | .pack4 d a b => ⟨.vf, [a, b], [], [], [d], [], [], false, true⟩
  | .unpk4 d a b => ⟨.vf, [a, b], [], [], [d], [], [], false, true⟩
  | .frcp d a => ⟨.sf, [a], [], [], [d], [], [], false, true⟩
  | .frsq d a => ⟨.sf, [a], [], [], [d], [], [], false, true⟩
  | .fsqrt d a => ⟨.sf, [a], [], [], [d], [], [], false, true⟩
  | .fexp2 d a => ⟨.sf, [a], [], [], [d], [], [], false, true⟩
  | .flog2 d a => ⟨.sf, [a], [], [], [d], [], [], false, true⟩
  | .fsin d a => ⟨.sf, [a], [], [], [d], [], [], false, true⟩
  | .fcos d a => ⟨.sf, [a], [], [], [d], [], [], false, true⟩
  | .ftanh d a => ⟨.sf, [a], [], [], [d], [], [], false, true⟩
  | .br _ => ⟨.ct, [], [], [], [], [], [], false, false⟩
  | .brc _ _ => ⟨.ct, [], [], [], [], [], [], false, false⟩
  | .brm m _ => ⟨.ct, [], [], [0, m], [], [], [], false, false⟩
  | .call _ _ _ => ⟨.ct, [], [], [], [], [], [], false, false⟩
  | .ret => ⟨.ct, [], [0x3C], [], [], [], [], false, false⟩
  | .jtab d a b => ⟨.ct, [d], [a, b], [0], [], [], [], false, false⟩
  | .bset _ => ⟨.ct, [], [], [], [], [], [], false, false⟩
  | .join _ => ⟨.ct, [], [], [], [], [], [], false, false⟩
  | .barrt => ⟨.ct, [], [], [], [], [], [], false, false⟩
  | .barrtPub => ⟨.ct, [], [], [], [], [], [], false, false⟩
  | .spawn a b => ⟨.ct, [], [a, b, b + 1, b + 2, b + 3, b + 4, b + 5, b + 6, b + 7], [], [], [], [], true, false⟩
  | .exit => ⟨.ct, [], [], [0], [], [], [0], false, false⟩
  | .park => ⟨.ct, [], [], [], [], [], [], false, false⟩
  | .yield => ⟨.ct, [], [], [], [], [], [], false, false⟩
  | .waitw a b => ⟨.ct, [], [a, b], [], [], [], [], true, false⟩
  | .preh _ b => ⟨.ct, [], [b], [], [], [], [], false, false⟩
  | .ballot d a => ⟨.vi, [a], [], [0], [], [], [d], false, false⟩
  | .voteAny d a => ⟨.vi, [a], [], [0], [], [d], [], true, false⟩
  | .voteAll d a => ⟨.vi, [a], [], [0], [], [d], [], true, false⟩
  | .voteUni d a => ⟨.vi, [a], [], [0], [], [d], [], true, false⟩
  | .mpopc d a => ⟨.vi, [], [], [a], [], [d], [], false, false⟩
  | .mfirst d a => ⟨.vi, [], [], [a], [], [d], [], true, false⟩
  | .mand d a b => ⟨.vi, [], [], [a, b], [], [], [d], false, false⟩
  | .mor d a b => ⟨.vi, [], [], [a, b], [], [], [d], false, false⟩
  | .mxor d a b => ⟨.vi, [], [], [a, b], [], [], [d], false, false⟩
  | .mnot d a => ⟨.vi, [], [], [a], [], [], [d], false, false⟩
  | .movMask d a => ⟨.vi, [], [], [a], [], [], [d], false, false⟩
  | .laneid d => ⟨.vi, [], [], [0], [d], [], [], false, false⟩
  | .shflIdx d a b => ⟨.vi, [a, b], [], [0], [d], [], [], false, false⟩
  | .shflUp d a b => ⟨.vi, [a], [b], [0], [d], [], [], false, false⟩
  | .shflDown d a b => ⟨.vi, [a], [b], [0], [d], [], [], false, false⟩
  | .shflXor d a b => ⟨.vi, [a], [b], [0], [d], [], [], false, false⟩
  | .bcast d a b => ⟨.vi, [a], [b], [0], [d], [], [], true, false⟩
  | .redi d a _ => ⟨.vi, [a], [], [0], [], [d], [], true, false⟩
  | .scaniInc d a _ => ⟨.vi, [a], [], [0], [d], [], [], true, false⟩
  | .scaniExc d a _ => ⟨.vi, [a], [], [0], [d], [], [], true, false⟩
  | .ldV d b i _ _ => ⟨.me, idx i, [b], [], [d], [], [], false, true⟩
  | .stV d b i _ _ => ⟨.me, d :: idx i, [b], [], [], [], [], false, true⟩
  | .stVNarrow d b i _ _ => ⟨.me, d :: idx i, [b], [], [], [], [], false, true⟩
  | .stp d b i _ _ => ⟨.me, d :: idx i, [b], [], [], [], [], false, true⟩
  | .ldS d b _ _ => ⟨.me, [], [b], [], [], [d], [], false, false⟩
  | .stS d b _ _ => ⟨.me, [], [d, b], [], [], [], [], false, false⟩
  | .lds d b i _ _ => ⟨.me, idx i, [b], [], [d], [], [], false, true⟩
  | .ldv d b i _ _ => ⟨.me, idx i, [b], [], [d], [], [], false, true⟩
  | .sts d b i _ _ => ⟨.me, d :: idx i, [b], [], [], [], [], false, true⟩
  | .stv d b i _ _ => ⟨.me, d :: idx i, [b], [], [], [], [], false, true⟩
  | .fence _ _ => ⟨.me, [], [], [], [], [], [], false, false⟩
  | .migr a => ⟨.me, [], [a], [], [], [], [], false, false⟩
  | .homeOf d a => ⟨.me, [], [a], [], [], [d], [], true, false⟩
  | .spmap a b => ⟨.me, [], [a, b], [], [], [], [], true, false⟩
  | .spflush a b => ⟨.me, [], [a, b], [], [], [], [], false, false⟩
  | .leaseq d a => ⟨.me, [], [a], [], [], [d], [], true, false⟩
  | .atom d b i o _ => ⟨.me, d :: idx i ++ (if o = 0x7#3 then [third] else []), [b], [], [d], [], [], false, true⟩
  | .atomF d b i _ _ => ⟨.me, d :: idx i, [b], [], [d], [], [], false, true⟩
  | .atp d b i _ _ => ⟨.me, d :: idx i, [b], [], [], [], [], false, true⟩
  | .xatom d b i _ n => ⟨.me, (List.range (2 ^ n.toNat)).map (fun j => d + BitVec.ofNat 6 j) ++ idx i, [b, b + 0x01#6], [], [], [], [], false, true⟩
  | .launch d a => ⟨.en, [], [a], [], [], [d], [], true, false⟩
  | .lstat d => ⟨.en, [], [], [], [], [d], [], false, false⟩
  | .echain a _ => ⟨.en, [], [a], [], [], [], [], false, false⟩
  | .estat d _ => ⟨.en, [], [], [], [], [d], [], false, false⟩
  | .cbcfg a _ => ⟨.en, [], [a], [], [], [], [], false, false⟩
  | .cbput a _ => ⟨.en, [], [a], [], [], [], [], false, false⟩
  | .cbget d _ => ⟨.en, [], [], [], [], [d], [], false, false⟩
  | .cbwait a _ => ⟨.en, [], [a], [], [], [], [], false, false⟩
  | .cpy a => ⟨.en, [], [a], [], [], [], [], false, false⟩
  | .bseal d => ⟨.en, [], [], [], [], [d], [], false, false⟩
  | .bwait a => ⟨.en, [], [a], [], [], [], [], true, false⟩
  | .syncw d a => ⟨.en, [], [a], [], [], [d], [], false, false⟩
  | .swait d a => ⟨.en, [], [d, a], [], [], [d], [], false, false⟩
  | .wcfl => ⟨.en, [], [], [], [], [], [], false, false⟩
  | .mma _ _ _ _ => ⟨.mx, [], [], [0], [], [], [], false, false⟩
  | .oclaim _ _ => ⟨.mx, [], [], [], [], [], [], true, false⟩
  | .orel _ _ => ⟨.mx, [], [], [], [], [], [], false, false⟩
  | .msync _ => ⟨.mx, [], [], [], [], [], [], false, false⟩
  | .czero _ => ⟨.mx, [], [], [], [], [], [], false, false⟩
  | .crd d _ b => ⟨.mx, [], [b], [0], [d], [], [], false, false⟩
  | .cwr _ a b => ⟨.mx, [a], [b], [0], [], [], [], false, false⟩
  | .cst _ a _ => ⟨.mx, [], [a, a + 1], [0], [], [], [], false, false⟩
  | .cstz _ a _ => ⟨.mx, [], [a], [0], [], [], [], false, false⟩
  | .cscl _ a => ⟨.mx, [a], [], [0], [], [], [], false, false⟩
  | .bskip m a b => ⟨.mx, [a, a + 1], [b], [0], [], [], [m], true, false⟩
  | .openReg a _ => ⟨.en, [], [a], [], [], [], [], false, false⟩
  | .adv a _ => ⟨.en, [], [a], [], [], [], [], true, false⟩
  | .tend d _ => ⟨.en, [], [], [0], [], [], [d], true, false⟩
  | .closeReg _ => ⟨.en, [], [], [], [], [], [], false, false⟩
  | .fldc d _ => ⟨.en, [], [], [0], [d], [], [], false, false⟩
  | .cxsect d a _ _ => ⟨.en, [], [a], [], [], [d], [], true, false⟩
  | .cmerge d a _ _ => ⟨.en, [], [a], [], [], [d], [], true, false⟩
  | .cwait d a => ⟨.en, [], [a], [], [], [d], [], true, false⟩
  | .cursv a => ⟨.en, [], [a], [], [], [], [], true, false⟩
  | .curld a => ⟨.en, [], [a], [], [], [], [], true, false⟩
  | .xbld d a _ _ => ⟨.an, [], [a], [], [], [d], [], false, false⟩
  | .xbmv d a _ _ => ⟨.an, [a], [], [0], [d, d + 1], [], [], false, false⟩
  | .xbcal d _ _ => ⟨.an, [], [], [], [], [d], [], true, false⟩
  | .xbst d _ _ => ⟨.an, [], [], [], [], [d], [], false, false⟩
  | .accept d a _ _ => ⟨.an, [a], [], [0], [d], [], [], true, false⟩
  | .tldc d a _ => ⟨.an, [], [a], [], [], [d], [], false, false⟩
  | .tldb d a _ => ⟨.an, [], [a], [], [], [d], [], false, false⟩
  | .tsetl a _ => ⟨.an, [], [a], [], [], [], [], false, false⟩
  | .tsamp a _ => ⟨.an, [], [a], [], [], [], [], false, false⟩
  | .trd d a _ => ⟨.an, [], [a], [0], [d], [], [], false, false⟩
  | .trdc d a _ => ⟨.an, [], [a], [0], [d], [], [], false, false⟩
  | .tstat d _ => ⟨.an, [], [], [], [], [d], [], false, false⟩
  | .cyc d => ⟨.sc, [], [], [], [], [d], [], false, false⟩
  | .gtim d => ⟨.sc, [], [], [], [], [d], [], false, false⟩
  | .gtset a => ⟨.sc, [], [a], [], [], [], [], false, false⟩
  | .perf d a => ⟨.sc, [], [a], [], [], [d], [], false, false⟩
  | .ovtld a => ⟨.ct, [], [a], [], [], [], [], false, false⟩
  | .htld a b => ⟨.ct, [], [a, b], [], [], [], [], false, false⟩
  | .keyld a b => ⟨.ct, [], [a, b], [], [], [], [], false, false⟩
  | .tlbsd a b => ⟨.ct, [], [a, b], [], [], [], [], false, false⟩
  | .ptgen a => ⟨.ct, [], [a], [], [], [], [], false, false⟩
  | .trap _ => ⟨.ct, [], [], [], [], [], [], false, false⟩
  | .tret => ⟨.ct, [], [], [], [], [], [0], true, false⟩
  | .tretAt a => ⟨.ct, [], [a], [], [], [], [0], true, false⟩
  | .saveq a => ⟨.ct, [], [a], [], [], [], [], false, false⟩
  | .timerTrap => Uses.none
  | .parcelDepart _ => Uses.none
  | .parcelOffer _ _ => Uses.none
  | .parcelArrival _ => Uses.none
  | .parcelReoffer _ => Uses.none
  | .parcelPlacement _ => Uses.none
  | .parcelPortIngress _ => Uses.none
  | .parcelReturn _ => Uses.none
  | .remoteRequestIngress _ => Uses.none
  | .storeRequestPerform _ => Uses.none
  | .postedOpPerform _ => Uses.none
  | .ackReturn _ => Uses.none
  | .loadSectorReturn _ _ => Uses.none
  | .remoteReadReturn _ => Uses.none
  | .splitUpdateApply _ => Uses.none
  | .registerLineFill _ _ _ => Uses.none
  | .residencyGrant _ => Uses.none
  | .turnEnd _ => Uses.none
  | .servicePassBound _ => Uses.none
  | .sfuEntryComplete _ => Uses.none
  | .mmaPassComplete _ _ => Uses.none
  | .msyncRelease _ => Uses.none
  | .slotClearDone _ _ => Uses.none
  | .mapFill _ _ _ => Uses.none
  | .joinFusion _ _ => Uses.none
  | .barrtRelease _ => Uses.none
  | .waitwWake _ => Uses.none
  | .bwaitWake _ => Uses.none
  | .swaitWake _ => Uses.none
  | .cbwaitWake _ => Uses.none
  | .cwaitWake _ => Uses.none
  | .launchAppendResume _ => Uses.none
  | .lqTailDoorbell _ _ _ => Uses.none
  | .lqEnWrite _ _ => Uses.none
  | .launchRecordRead _ => Uses.none
  | .gridDispatch _ _ => Uses.none
  | .teamPlace _ _ => Uses.none
  | .groupRetire _ => Uses.none
  | .gridRetire _ => Uses.none
  | .copyEntry _ => Uses.none
  | .gatherEntry _ => Uses.none
  | .scatterEntry _ => Uses.none
  | .bobbinEntry _ => Uses.none
  | .loopEntry _ => Uses.none
  | .brifEntry _ => Uses.none
  | .linkEntry _ => Uses.none
  | .endEntry _ => Uses.none
  | .cbStepFire _ => Uses.none
  | .batchComplete _ _ => Uses.none
  | .bobbinWalkStep _ => Uses.none
  | .bobbinFinish _ => Uses.none
  | .xbLoadProgram _ _ => Uses.none
  | .xbCalibrate _ _ => Uses.none
  | .xbProduct _ _ => Uses.none
  | .xbDriftReading _ _ => Uses.none
  | .tambLoadPerform _ _ => Uses.none
  | .tambSettleStart _ _ => Uses.none
  | .tambSampleStart _ _ => Uses.none
  | .tambSettleExpiry _ _ => Uses.none
  | .tambRailReached _ _ _ => Uses.none
  | .tambSampleExpiry _ _ => Uses.none
  | .xatomElementArrival _ => Uses.none
  | .channelToCompute _ _ => Uses.none
  | .channelToNormal _ _ => Uses.none
  | .handlerRun _ _ => Uses.none
  | .htldInstall _ _ => Uses.none
  | .wcAgeExpiry _ _ => Uses.none
  | .drainArrival _ => Uses.none
  | .orderedFlagArrival _ => Uses.none
  | .orderedFlagPerform _ => Uses.none
  | .closeMarker _ _ => Uses.none
  | .preemptRequest _ _ => Uses.none
  | .preemptEscalation _ => Uses.none
  | .restore _ _ => Uses.none
  | .freezeComplete _ => Uses.none
  | .pcFreezeSet _ _ => Uses.none
  | .pcFreezeRelease _ _ => Uses.none
  | .shadowSwap _ _ => Uses.none
  | .pcHomesWrite _ _ => Uses.none
  | .pcEnSet _ _ => Uses.none
  | .pcEnClear _ _ => Uses.none
  | .pcVfWrite _ _ => Uses.none
  | .pcTdataCommit _ _ => Uses.none
  | .registerWrite _ _ _ => Uses.none
  | .resync => Uses.none
  | .mailboxUnknown _ => Uses.none
  | .hostWrite _ _ _ => Uses.none
  | .hostRead _ _ _ => Uses.none
  | .portTrain _ _ => Uses.none
  | .deviceReset => Uses.none
  | .powerCreditWindow _ => Uses.none
  | .thermalThrottle => Uses.none
  | .thermalRestore => Uses.none
  | .thermalTrip => Uses.none
  | .rootBoot _ => Uses.none
  | .getVersion => Uses.none
  | .getCapabilities => Uses.none
  | .negotiateAlgorithms => Uses.none
  | .getDigests => Uses.none
  | .getCertificate => Uses.none
  | .challenge _ => Uses.none
  | .getMeasurements _ => Uses.none
  | .tileStorageError _ _ _ => Uses.none
  | .remoteReadPerform _ => Uses.none

/-- The registers a word reads, with the number R339 reports for each, as the word names it (log 55). -/
def Uses.reads (u : Uses) (r : Regs) : List (RegId × Nat) :=
  u.rv.map (fun n => (r.vId n, n.toNat)) ++ u.rs.map (fun n => (r.sId n, 64 + n.toNat)) ++
    u.rm.map (fun k => (RegId.m k.toNat, 128 + k.toNat)) ++ (if u.masked then [(RegId.m 0, 128)] else [])
/-- R102: the registers that CALL writes: s60 of the window it slides to, reported as s60. -/
def callWrites (i : Instr) (r : Regs) : List (RegId × Nat) :=
  match i with
  | .call _ x _ => [(.s (r.wbS.toNat + 8 * x.toNat + 60), 124)]
  | _ => []
/-- The registers a word writes. -/
def Uses.writes (u : Uses) (r : Regs) : List (RegId × Nat) :=
  u.wv.map (fun n => (r.vId n, n.toNat)) ++ u.ws.map (fun n => (r.sId n, 64 + n.toNat)) ++
    u.wm.map (fun k => (RegId.m k.toNat, 128 + k.toNat)) ++ (if u.flags then [(RegId.flags, 136)] else [])

end Sys2Proof.Machine
end

