-- ==== Sys2Proof/Machine/Issue.lean ====
section
/-! DEFINITION. Issue: which fragment may issue (R109, R149, R150, R347, R356), the passing of time (R106, R332), the fetch (R58,
R392), the timer (R333), and the checks of R71, up to the point where a word's own meaning begins. -/

namespace Sys2Proof.Machine

/-! Time -/

/-- Whether a fragment is ready to issue (R62, R63, R147). MSYNC waits only after its chain group (R178). -/
def Frag.ready (f : Frag) : Bool := f.alive && f.resident && f.state == .ready && !f.parked && (f.msync.isNone || f.grp.isSome)
/-- R106, R332: the fragments whose GTIMER counts: those that hold a context-state entry here. -/
def State.counts (s : State) (n : Nat) (f : Frag) : Bool := f.alive && f.resident && f.dev == s.fabric.toNat && !s.setAside n
/-- R335: a clock of a core with a fragment ready is counted for PERF 0x0008; one that stalls is not ready (R149). -/
def State.countReady (s : State) (core d : Nat) : State :=
  if (s.core core).rot.any fun n => (s.frag n).ready && !(s.frag n).held then s.count core 8 (BitVec.ofNat 64 d) else s
/-- R106, R332, R335: clocks pass: GTIMER of every resident fragment advances. -/
def State.tick (s : State) (d : Nat) : State :=
  let s := s.cores.keys.foldl (fun s c => s.countReady c d) s
  { s with clock := s.clock + d, frags := s.frags.map fun e => (e.1, if s.counts e.1 e.2 then { e.2 with gtimer := e.2.gtimer + BitVec.ofNat 64 d } else e.2) }
/-- R331: clocks of one core alone pass: the counters of different cores are not synchronised. -/
def State.tickCore (s : State) (core d : Nat) : State :=
  let s := s.countReady core d
  let s := s.setCore core { s.core core with ahead := (s.core core).ahead + BitVec.ofNat 64 d }
  { s with frags := s.frags.map fun e => (e.1, if s.counts e.1 e.2 && e.2.coreKey == core then { e.2 with gtimer := e.2.gtimer + BitVec.ofNat 64 d } else e.2) }
/-- The clocks that the next move takes (R13: the spec fixes none): the head of the pace, 1 where it is empty. -/
def State.paced (s : State) : State := { s with pace := s.pace.tail }.tick (s.pace.headD 1)

/-! Readiness -/

/-- R348, R354, R356: whether the fragment's grid or partition is frozen. -/
def State.frozen (s : State) (n : Nat) : Bool :=
  let g := s.group (s.frag n).group
  let p := s.part g.rights.part
  p.freeze || p.frozen || p.swapping || p.held.contains (s.team g.team).grid || p.shadow.contains (s.team g.team).grid
/-- R354: whether the fragment's grid was asked to save 50 µs ago or more, so that its cores are frozen. -/
def State.tooLate (s : State) (n : Nat) : Bool :=
  let t := s.team (s.group (s.frag n).group).team
  match (s.grid t.grid).preempted with
  | some c => t.alive && !t.saved && lasts (s.clock - c) 50000
  | none => false
/-- R150: whether the head of a service list has issued its 16,384 beat slots, so that service passes. -/
def State.spent (s : State) (n : Nat) : Bool := (s.core (s.frag n).coreKey).heads n && decide (16384 ≤ (s.frag n).served)
/-- R347: whether the fragment's grid has ended. -/
def State.gridStopped (s : State) (n : Nat) : Bool :=
  let g := s.group (s.frag n).group
  (s.frag n).stopping || (s.keeps g && (s.grid (s.team g.team).grid).stopped)
/-- Whether a fragment could issue a word now: it is ready, its core and grid are not frozen or ended, and it does not stand behind the head of a
service list (R150). Freezes, ends and passes of service fall between chain groups (R347, R356): a group that has begun goes on. -/
def State.canIssue (s : State) (n : Nat) : Bool :=
  let f := s.frag n
  f.ready && f.dev == s.fabric.toNat && s.thermal != .tripped && !(s.core f.coreKey).behind n &&
    (f.begun || (!s.frozen n && !s.tooLate n && !s.spent n && !s.gridStopped n))
/-- Whether a fragment could issue and its word is not held at issue. -/
def State.unheld (s : State) (n : Nat) : Bool := s.canIssue n && !(s.frag n).held
/-- R149: the fragment of a rotation that is in its turn and could go on with it. -/
def State.inTurn (s : State) (rot : List Nat) : Option Nat := rot.find? fun m => (s.frag m).turn != 0 && s.unheld m
/-- R149: whether a fragment may issue a word now: it is in its turn; or none is, and no fragment before it in the rotation could issue. One whose
word is held is passed over, and may try again where it would not be. -/
def State.mayIssue (s : State) (n : Nat) : Bool :=
  let rot := (s.core (s.frag n).coreKey).rot
  s.canIssue n && rot.contains n &&
    (match s.inTurn rot with | some m => m == n | none => !(rot.takeWhile (· != n)).any s.unheld)
/-- R60, R61: a fragment in the middle of a chain group, or between a prefix word and its word, goes on before any other agent. -/
def State.forced (s : State) : Option Nat :=
  let f := s.f
  if f.ready && !f.held && (f.grp.isSome || f.pfx.isSome) then some s.cur else none

/-! Fetch -/

/-- R16, R20: the word at a place of device memory as a core fetches it: from its instruction cache where that holds it (log 56). -/
def State.codeWord (s : State) (core key : Nat) : Word :=
  match (s.core core).icache.find? fun e => e.1 == key with
  | some e => e.2
  | none => BitVec.ofNat 32 (s.valIn .dram key 4)
/-- R16, R20: the instruction cache once a core has fetched a word: 16,384 words, the oldest making room (log 56). -/
def State.keepCode (s : State) (core asid : Nat) (pc : DWord) : State :=
  let x := s.leafOf core asid pc
  let key := s.cellOf x pc
  let c := s.core core
  if c.icache.any fun e => e.1 == key then s
  else s.setCore core { c with icache := (c.icache ++ [(key, s.codeWord core key)]).drop (c.icache.length + 1 - 16384) }
/-- R20: the scheduler empties the instruction caches of a partition's cores. -/
def State.dropCode (s : State) (cores : Nat → Bool) : State :=
  { s with cores := s.cores.map fun (c : Nat × Core) => (c.1, if cores c.1 then { c.2 with icache := [] } else c.2) }
/-- R58, R392: the word at an address, or the reason of PROT. -/
def State.fetch (s : State) (n : Nat) (pc : DWord) : Except Nat Word :=
  let f := s.frag n
  let r := (s.group f.group).rights
  if fld pc 57 7 ≠ 0 then .error 4
  else if fld pc 0 2 ≠ 0 then .error 8
  else if (s.segOf r.part r.asid pc).isNone then .error 7
  else
    match s.trCore f.coreKey r.asid pc with
    | .error (.prot k) => .error k
    | .error .poison => .error 100
    | .ok x => if x.x = false then .error 2 else .ok (s.codeWord f.coreKey (s.cellOf x pc))
/-- R57: the slot of an address in its packet. -/
def State.slotOf (s : State) (n : Nat) (pc : DWord) : Nat :=
  let r := (s.group (s.frag n).group).rights
  match s.segOf r.part r.asid pc with
  | some seg => (pc.toNat - fld seg 192 64) / 4 % 3
  | none => 0

/-! The checks of R71 -/

/-- The major of a word. -/
def majorOf (w : Word) : Nat := fld w 24 6
/-- R65: the majors a prefix may precede. -/
def takesPfx (m : Nat) : Bool := (8 ≤ m && m ≤ 0x17) || (0x20 ≤ m && m ≤ 0x23) || (0x25 ≤ m && m ≤ 0x2B)
/-- R64: a prefix word's fields. -/
def pfxOf (w : Word) : Pfx := ⟨w.extractLsb' 21 3, w.extractLsb' 18 3, w.extractLsb' 12 6, w.extractLsb' 11 1, w.extractLsb' 9 2, w⟩
/-- R64, R66: a prefix word that makes its word ILLEGAL_OP, and one with a res0 bit set. -/
def Pfx.illegal (p : Pfx) : Bool := p.r == 0x6#3
def Pfx.reserved (p : Pfx) : Bool := fld p.word 0 9 != 0 || p.word.getLsbD 31 || p.word.getLsbD 30
/-- R66: ATOM cas takes its comparison value from a prefix. -/
def needsPfx (w : Word) : Bool := majorOf w == 0x28 && fld w 3 3 == 7

/-- The registers a word reads and writes, with the numbers that R339 reports for them; `m` is its PFX.M. -/
def readsOf (f : Frag) (u : Uses) (m : BitVec 3) : List (RegId × Nat) :=
  u.reads f.src ++ (if u.masked then [(RegId.m m.toNat, 128 + m.toNat)] else [])
def writesOf (f : Frag) (i : Instr) (u : Uses) : List (RegId × Nat) := u.writes f.src ++ callWrites i f.src
/-- R62: the registers pending before the chain group. -/
def Frag.pending (f : Frag) : List RegId :=
  match f.grp with
  | some g => g.pending
  | none => f.outs.map (·.dest)
/-- R60, R121: the registers that earlier words of the chain group write. -/
def Frag.written (f : Frag) : List RegId :=
  match f.grp with
  | some g => g.written.flatten
  | none => []
/-- R62: the first register that is pending from a word before the chain group; R60, R121: or that two words of the group write. -/
def hazardOf (f : Frag) (i : Instr) (u : Uses) (m : BitVec 3) : Option Nat :=
  match (readsOf f u m ++ writesOf f i u).find? fun x => f.pending.contains x.1 with
  | some x => some x.2
  | none => ((writesOf f i u).find? fun x => f.written.contains x.1).map (·.2)

/-- R71: the first check that a word fails, in order; the word's own checks come later. A word that has already made some of its accesses has passed
them; what it itself has pending is no hazard to it. -/
def State.check71 (s : State) (n : Nat) (w : Word) (x : Except Reject Slot) : Option FaultRec :=
  let f := s.frag n
  let pfx := f.pfx
  let illegal := match x with | .error .illegalOp => true | _ => false
  let reserved := match x with | .error .reservedBits => true | _ => false
  if illegal || pfx.any Pfx.illegal || (needsPfx w && pfx.isNone) then some (faultOf 0x01#8)
  else if reserved || pfx.any Pfx.reserved || (w.getLsbD 31 && s.slotOf n f.pc == 2) then some (faultOf 0x02#8)
  else if majorOf w == 0x3B && !(s.group f.group).rights.priv then some (faultOf 0x06#8)
  else
    match x with
    | .error _ => none
    | .ok slot =>
      let third := match pfx with | some p => p.s | none => BitVec.ofNat 6 (fld w 18 6)
      let u := usesOf slot.instr third
      let used := match f.grp with | some g => g.pipes | none => []
      if (u.pipe == .ct && slot.chain) || (u.pipe != .none && used.contains u.pipe) then some (faultOf 0x04#8)
      else if f.sent ≠ 0 then none
      else (hazardOf f slot.instr u (match pfx with | some p => p.m | none => 0)).map fun k => faultOf 0x07#8 (BitVec.ofNat 64 k)

/-- R59, R123, R132, R149: beat slots a word takes: a VI word one for each beat of its effective mask, whether or not it writes under it. -/
def State.beatsOf (s : State) (u : Uses) : Nat :=
  if u.masked || u.pipe == .vi then max 1 ((List.range 3).filter fun b => s.eff &&& beat b != 0x0#96).length else 1

/-- What the issue stage comes to: a word to be executed, or a state in which none is. -/
inductive Issued where
  | go (s : State) (i : Instr)
  | did (s : State)

/-- R66: the third source that a word names. -/
def Frag.thirdOf (f : Frag) (w : Word) : RegNum := match f.pfx with | some p => p.s | none => BitVec.ofNat 6 (fld w 18 6)
/-- The chain group before its first word: the registers as they stand, the pending bits and the clock (R60, R62, R334). -/
def State.newGroup (s : State) : GroupCtx :=
  ⟨s.f.regs, s.f.rpc, s.cyclesOf s.f.coreKey, s.f.gtimer, s.f.outs.map (·.dest), [], [], 0, false, none⟩
/-- A word of the fragment at issue that has passed R71: it is latched, takes its pipe, registers and lines, and is counted once, each word of a
chain group with its own beats (R149; DESIGN CHOICE, log 64: a group issues whole whatever is left of a turn). -/
def State.latch (s : State) (w : Word) (slot : Slot) : State :=
  let f := s.f
  let u := usesOf slot.instr (f.thirdOf w)
  let g := f.grp.getD s.newGroup
  let writes := (writesOf f slot.instr u).map (·.1)
  let g' : GroupCtx := { g with pipes := g.pipes ++ [u.pipe], written := g.written ++ [writes], park := g.park || slot.park }
  let s1 := (s.useLines s.cur ((readsOf f u 0).map (·.1)) writes).setF { f with word := w, chain := slot.chain, park := slot.park, held := false, waitsAt := [], advances := none, grp := some g' }
  if f.counted then s1
  else
    let b := s1.beatsOf u
    let s2 := s1.setF { s1.f with counted := true, turn := f.turn + b, served := f.served + b, issued := s1.clock }
    (s2.count f.coreKey 1 1).count f.coreKey 2 (BitVec.ofNat 64 b)
/-- R108, R110: whether the registers that a word writes, and that have no line, find one each. -/
def State.newLines (s : State) (n : Nat) (w : Word) (i : Instr) : Bool :=
  let f := s.frag n
  let new := (((writesOf f i (usesOf i (f.thirdOf w))).filterMap (·.1.line f.regs.wbS.toNat)).filter fun k => decide (k < 256) && !(s.core f.coreKey).holdsLine n k).eraseDups
  new.isEmpty || s.linesFit f.coreKey new.length
/-- R110: the lines that a word of a fragment needs and its core lacks. -/
def State.lacks (s : State) (n : Nat) (w : Word) (i : Instr) : List Nat :=
  let f := s.frag n
  let u := usesOf i (f.thirdOf w)
  s.missingLines n ((readsOf f u 0 ++ writesOf f i u).map (·.1))

/-- Whether a word of the fragment has issued and awaits what it has asked of another device. -/
def State.asking (s : State) (n : Nat) : Bool := (s.frag n).grant != .none || (s.frag n).sent != 0 || (s.remote.any fun r => r.asker == some (Asker.frag n)) || s.answers.any fun a => a.asker == Asker.frag n
/-- R333: whether the comparison before a chain group raises TIMER. -/
def Frag.timerDue (f : Frag) : Bool := f.trap.isNone && f.gtcmp.ule f.gtimer
/-- R333: TIMER at the first word of a chain group, whose address is `pc`. -/
def State.timerFault (s : State) (n : Nat) (pc ti0 : DWord) : State :=
  let f := s.frag n
  s.faultOn n ti0 pc pc (faultOf 0x50#8 f.gtcmp f.gtimer)

/-- R333, R339: TRAPINFO0 of a report at the first word of a chain group, whose prefix word may be `w`. -/
def State.groupTi0 (s : State) (n : Nat) (w : Word) : DWord :=
  if majorOf w = 0x3F ∧ s.slotOf n (s.frag n).pc < 2 then
    match s.fetch n ((s.frag n).pc + 4) with
    | .ok v => if takesPfx (majorOf v) then w ++ v else w.setWidth 64
    | .error _ => w.setWidth 64
  else w.setWidth 64

/-- R65, R71: a prefix word: misplaced, or latched for its word. -/
noncomputable def State.issuePfx (s : State) (w : Word) : Issued :=
  let f := s.f
  let next := s.fetch s.cur (f.pc + 4)
  let misplaced := s.slotOf s.cur f.pc == 2 || f.pfx.isSome || (match next with | .ok v => !takesPfx (majorOf v) | .error _ => false)
  if misplaced then .did (s.faultOn s.cur (w.setWidth 64) f.pc f.pc (faultOf 0x03#8))
  else
    match decodeWord w with
    | .ok slot => .go (s.setF { f with word := w }) slot.instr
    | .error _ => .did (s.setF { f with pfx := some (pfxOf w), pc := f.pc + 4, word := w })

/-- R58, R71, R110, R333: fragment `n` issues its next word; one that was held is taken up afresh. -/
noncomputable def State.issue (s : State) (n : Nat) : Issued :=
  let s := { s with cur := n }
  let f := s.f
  match s.fetch n f.pc with
  | .error k =>
    .did (s.faultOn n 0 f.pc f.pc (if k = 100 then faultOf 0x19#8 f.pc else faultOf 0x12#8 f.pc 0 (BitVec.ofNat 64 (k * 2 ^ 40))))
  | .ok w =>
    let asid := (s.group f.group).rights.asid
    let s := (s.cache f.coreKey asid [f.pc]).keepCode f.coreKey asid f.pc
    if f.grp.isNone && f.timerDue && (f.pfx.isNone || f.held) && !s.asking n then
      .did (if f.pfx.isNone then s.timerFault n f.pc (s.groupTi0 n w) else s.timerFault n f.rpc f.ti0)
    else if majorOf w = 0x3F then s.issuePfx w
    else
      let x := decodeWord w
      let s := s.setF { f with word := w, chain := false, park := false }
      match s.check71 n w x, x with
      | some r, _ => .did (s.takeFault r)
      | none, .ok slot => if s.lacks n w slot.instr = [] ∧ s.newLines n w slot.instr then .go (s.latch w slot) slot.instr else .did ((s.setF { s.f with held := true }).endTurnOf n)
      | none, .error _ => .did s

end Sys2Proof.Machine
end

