-- ==== Sys2Proof/Machine/Matrix.lean ====
section
/-! DEFINITION. Accumulator tiles, operand slots and the matrix words of majors 0x30 to 0x32 (R166 to R185). -/

namespace Sys2Proof.Machine

/-! Tiles and placement -/

def Group.tile (g : Group) (n : Nat) : Tile := g.tiles.get Tile.fresh n
def Group.setTile (g : Group) (n : Nat) (t : Tile) : Group := { g with tiles := g.tiles.put Tile.fresh n t }
/-- R166: element (r, n) of a tile. -/
def Tile.elem (t : Tile) (r n : Nat) : Word := t.elems.get 0 (32 * r + n)
def Tile.setElem (t : Tile) (r n : Nat) (x : Word) : Tile := { t with elems := t.elems.put 0 (32 * r + n) x }

/-- Whether a fragment is on its team's core. -/
def State.onCore (s : State) (f : Frag) : Bool :=
  let t := s.team (s.group f.group).team
  s.keeps (s.group f.group) && f.dev == s.fabric.toNat && f.home == t.home && f.core == t.core && (match f.state with | .transit .. => false | _ => true)
/-- R173: the placement check; `anchors` is set for a word that would anchor the group. -/
def State.placement (s : State) (anchors : Bool) : Option FaultRec :=
  if !s.onCore s.f then some (faultOf 0x39#8 (BitVec.ofNat 64 s.f.home))
  else if anchors && s.anchorBits s.f.group &&& 7 == 0 then
    ((s.fragsOf s.f.group).find? fun e => e.1 != s.cur && !s.onCore e.2).map fun e => faultOf 0x39#8 (BitVec.ofNat 64 (16 + e.2.home))
  else none
/-- R179: the placement check and the check of the tile's number. -/
def State.tileCheck (s : State) (anchors : Bool) (n : BitVec 3) : Option FaultRec :=
  match s.placement anchors with
  | some x => some x
  | none => if s.g.ntiles ≤ n.toNat then some (faultOf 0x38#8 1 (n.setWidth 64)) else none
/-- A check before an action. -/
def orFault (x : Option FaultRec) (k : Act) : Act :=
  match x with
  | some r => .fault r
  | none => k
/-- R183: the octet parts of a tile that are poisoned and hold a row of given lanes. -/
def Tile.poisonFault (t : Tile) (n : BitVec 3) (lanes : Mask) : Option FaultRec :=
  if (List.range 12).any fun q => t.poison.getLsbD q && lanes &&& octet q != 0x0#96 then
    some (faultOf 0x19#8 (0x80#64 ||| n.setWidth 64) (t.poison.setWidth 64))
  else none

/-! Operand slots -/

def State.slot (s : State) (core n : Nat) : SlotSt := (s.core core).slots.get .free n
def State.setSlot (s : State) (core n : Nat) (x : SlotSt) : State :=
  s.setCore core { s.core core with slots := (s.core core).slots.put .free n x }
/-- R170: whether a slot is claimed by a group of a team. -/
def State.slotOfTeam (s : State) (core n team : Nat) : Bool :=
  match s.slot core n with
  | .claimed g => (s.group g).team == team
  | _ => false
/-- Slots of a range. -/
def slotRange (first n : BitVec 7) : List Nat := (List.range (n.toNat + 1)).map fun i => first.toNat + i

/-- R171: OCLAIM. -/
def execOclaim (first n : BitVec 7) (s : State) : Host.Outcome State Fault Refusal :=
  let c := s.f.coreKey
  let S := slotRange first n
  let other := S.any fun i => match s.slot c i with | .claimed g => g != s.f.group | _ => false
  let fresh := S.any fun i => s.slot c i != .claimed s.f.group
  finish s (if 128 < first.toNat + (n.toNat + 1) then .fault (faultOf 0x01#8)
    else orFault (s.placement fresh)
      (if other then .done (s.setE true)
       else if S.any fun i => s.slot c i == .clearing then .hold s
       else .done ((S.foldl (fun s i => s.setSlot c i (.claimed s.f.group)) s).setE false)))
/-- R171: OREL. -/
def execOrel (first n : BitVec 7) (s : State) : Host.Outcome State Fault Refusal :=
  let c := s.f.coreKey
  let S := (slotRange first n).filter fun i => s.slot c i == .claimed s.f.group
  let busy := ((s.core c).mmaQ.any fun e => S.contains e.aSlot || S.contains e.bSlot) || S.any fun i => s.fillOutstanding c i
  finish s (if 128 < first.toNat + (n.toNat + 1) then .fault (faultOf 0x01#8)
    else orFault (s.placement false) (if busy then .hold s else .done (S.foldl (fun s i => s.setSlot c i .clearing) s)))

/-! MMA -/

/-- R174: the contraction length of a pair of formats, none for a pair that MMA does not accept. -/
def mmaK (a b : BitVec 4) : Option Nat :=
  let half := fun (x : BitVec 4) => x = 0x1#4 ∨ x = 0x2#4
  let quarter := fun (x : BitVec 4) => x = 0x3#4 ∨ x = 0x4#4
  if half a ∧ half b then some 32 else if quarter a ∧ quarter b then some 64 else if a = 0x5#4 ∧ b = 0x5#4 then some 128 else none
/-- R176: the passes of an op: rows by beat, fused where three or four octets of the beat are active. -/
def passes (act : Mask) : List (Nat × Mask) :=
  (List.range 3).flatMap fun b =>
    let os := (List.range 4).filter fun q => act &&& octet (4 * b + q) != 0x0#96
    if os.length = 0 then [] else if 3 ≤ os.length then [(b, act &&& beat b)] else os.map fun q => (b, act &&& octet (4 * b + q))
/-- R175: the slot checks of MMA. -/
def State.mmaSlots (s : State) (a b : BitVec 7) : Option FaultRec :=
  let c := s.f.coreKey
  (List.range 3).findSome? fun k =>
    if s.active &&& beat k = 0x0#96 then none
    else if 127 < a.toNat + k then some (faultOf 0x38#8 3 (BitVec.ofNat 64 (a.toNat + k)))
    else if !s.slotOfTeam c (a.toNat + k) s.g.team then some (faultOf 0x38#8 2 (BitVec.ofNat 64 (a.toNat + k)))
    else if !s.slotOfTeam c b.toNat s.g.team then some (faultOf 0x38#8 2 (b.setWidth 64))
    else none
/-- R175: MMA, up to its acceptance by the array. -/
def execMma (t : BitVec 3) (a b : BitVec 7) (st : BitVec 2) (s : State) : Host.Outcome State Fault Refusal :=
  let c := s.f.coreKey
  let fmt := s.src.fmt
  let fa := fmt.extractLsb' 0 6
  let fb := fmt.extractLsb' 8 6
  let ps := passes s.active
  finish s (if s.active = 0x0#96 then .done s
    else if mmaK (fmt.extractLsb' 0 4) (fmt.extractLsb' 8 4) = none then .fault (faultOf 0x01#8 fmt)
    else orFault (s.tileCheck true t) (orFault (s.mmaSlots a b)
      (if 16 < (s.core c).mmaQ.length + ps.length then .hold s
       else
        let es := ps.map fun p => MmaEntry.mk s.f.group st.toNat s.g.mmaSeq t.toNat p.2 (a.toNat + p.1) b.toNat fa fb
        let s1 := s.setCore c { s.core c with mmaQ := (s.core c).mmaQ ++ es }
        let g := s1.g
        .done (s1.setG { (g.setTile t.toNat { g.tile t.toNat with empty := false }) with mmaSeq := g.mmaSeq + 1 }))))

/-- R169: element `i` of a slot under an operand's FMT field. -/
def State.slotElem (s : State) (core slot : Nat) (fmt : BitVec 6) (i : Nat) : FVal :=
  let at' := fun (o : Nat) => s.opmem.get 0x00#8 (opKey core (2304 * slot + o))
  let code := (fmt.extractLsb' 0 4).toNat
  if code = 5 then
    let byte := (at' (i / 2)).toNat
    q4Val (at' (2048 + i / (if fmt.getLsbD 4 then 16 else 32))) (if i % 2 = 0 then byte % 16 else byte / 16)
  else if code = 1 ∨ code = 2 then fmtVal code ((at' (2 * i)).toNat + 256 * (at' (2 * i + 1)).toNat)
  else fmtVal code (at' i).toNat
/-- R183: whether bytes of an element, its scale among them, are in error. -/
def State.slotBad (s : State) (core slot : Nat) (fmt : BitVec 6) (i : Nat) : Bool :=
  let bad := fun (o n : Nat) => s.sramBad 3 (opKey core (2304 * slot + o)) n
  let code := (fmt.extractLsb' 0 4).toNat
  if code = 5 then bad (i / 2) 1 || bad (2048 + i / (if fmt.getLsbD 4 then 16 else 32)) 1
  else if code = 1 ∨ code = 2 then bad (2 * i) 2
  else bad i 1
/-- R183: the rows of a pass that read bytes in error. -/
def State.badRows (s : State) (core : Nat) (e : MmaEntry) (k : Nat) : List Nat :=
  if s.sramErr = [] then []
  else
    let b := (List.range 32).any fun n => (List.range k).any fun j => s.slotBad core e.bSlot e.fmtB (n * k + j)
    (lanesIn e.rows).filter fun r => b || (List.range k).any fun j => s.slotBad core e.aSlot e.fmtA (r % 32 * k + j)
/-- R52, R175: one element of a pass. -/
def State.mmaElem (s : State) (core : Nat) (e : MmaEntry) (k : Nat) (r n : Nat) (c : Word) : Word :=
  toF32 .rne (sumExact (ofF32 c :: (List.range k).map fun j =>
    (s.slotElem core e.aSlot e.fmtA (r % 32 * k + j)).mul (s.slotElem core e.bSlot e.fmtB (n * k + j))))
/-- R375: credits that a pass takes: two for a fused pass, one for an unfused one. -/
def MmaEntry.credits (e : MmaEntry) : Nat := if 3 ≤ ((List.range 12).filter fun q => e.rows &&& octet q != 0x0#96).length then 2 else 1
/-- R176, R177: an entry of the array's queue writes its rows, once every earlier op of its group and stream has. -/
def execMmaPassComplete (core n : Nat) (s : State) : Host.Outcome State Fault Refusal :=
  .next (match takeAt (s.core core).mmaQ n with
    | none => s
    | some (e, rest) =>
      let h := s.home (core / 256)
      if rest.any fun x => x.group == e.group && x.stream == e.stream && decide (x.seq < e.seq) then s
      else if h.credPass < e.credits then s
      else
        let k := (mmaK (e.fmtA.extractLsb' 0 4) (e.fmtB.extractLsb' 0 4)).getD 0
        let g := s.group e.group
        let t := (lanesIn e.rows).foldl (fun t r => (List.range 32).foldl (fun t i => t.setElem r i (s.mmaElem core e k r i (t.elem r i))) t) (g.tile e.tile)
        let t := { t with empty := false, poison := (s.badRows core e k).foldl (fun p r => p ||| BitVec.twoPow 12 (r / 8)) t.poison }
        let s1 := s.setHome (core / 256) { h with credPass := h.credPass - e.credits }
        let s2 := (s1.setCore core { s1.core core with mmaQ := rest }).count core 7 1
        s2.setGroup e.group (g.setTile e.tile t))
/-- R170: a released slot has been cleared. -/
def execSlotClearDone (core slot : Nat) (s : State) : Host.Outcome State Fault Refusal :=
  .next (if s.slot core slot = .clearing then
      (s.writeOp ((List.range 2304).map fun i => (opKey core (2304 * slot + i), 0x00#8))).setSlot core slot .free
    else s)

/-- R178: MSYNC: the wait begins with the end of its chain group. -/
def execMsync (st : BitVec 4) (s : State) : Host.Outcome State Fault Refusal :=
  let c := s.f.coreKey
  finish s (orFault (s.placement false)
    (if (s.core c).mmaQ.any fun e => e.group == s.f.group && st.getLsbD e.stream then .done (s.setF { s.f with msync := some (st, s.g.mmaSeq) })
     else .done s))
/-- R178: the wait of an MSYNC ends. -/
def execMsyncRelease (frag : Nat) (s : State) : Host.Outcome State Fault Refusal :=
  let f := s.frag frag
  .next (match f.msync with
    | some (st, upto) =>
      if f.grp.isSome || (s.core f.coreKey).mmaQ.any fun e => e.group == f.group && st.getLsbD e.stream && decide (e.seq < upto) then s
      else s.setFrag frag { f with msync := none }
    | none => s)

/-! Accumulator words -/

/-- R179: the column a word names. -/
def State.colCheck (s : State) (b : RegNum) : Option FaultRec := if 31 < (s.sv b).toNat then some (faultOf 0x01#8 (s.sv b)) else none
/-- R179: CZERO. -/
def execCzero (t : BitVec 3) (s : State) : Host.Outcome State Fault Refusal :=
  finish s (orFault (s.tileCheck false t) (.done (s.setG (s.g.setTile t.toNat Tile.fresh))))
/-- R179: CRD. The tile's number, operand poison, the column and tile poison are checked in this order (DESIGN CHOICE, log 37). -/
def execCrd (d : RegNum) (t : BitVec 3) (b : RegNum) (s : State) : Host.Outcome State Fault Refusal :=
  let c := s.g.tile t.toNat
  let n := (s.sv b).toNat
  finish s (orFault (s.tileCheck false t) (s.clean [.s b] (orFault (s.colCheck b) (orFault (c.poisonFault t s.active)
    (if s.active = 0x0#96 then .done s
     else .done (s.addOut s.cur ⟨.unit, .v (s.src.vEnt d), s.active, s.active, lanesOf fun l => c.elem l n, 0, c.bnd, 0x0#96⟩))))))
/-- R179: CWR. -/
def execCwr (t : BitVec 3) (a b : RegNum) (s : State) : Host.Outcome State Fault Refusal :=
  let c := s.g.tile t.toNat
  let n := (s.sv b).toNat
  finish s (orFault (s.tileCheck true t) (s.clean [.v a s.active, .s b] (orFault (s.colCheck b)
    (let c1 := (lanesIn s.active).foldl (fun c l => c.setElem l n (s.vl a l)) c
     .done (s.setG (s.g.setTile t.toNat { c1 with empty := false, bnd := c.bnd || (s.vreg a).bnd }))))))
/-- R179: CSCL. -/
def execCscl (t : BitVec 3) (a : RegNum) (s : State) : Host.Outcome State Fault Refusal :=
  let c := s.g.tile t.toNat
  finish s (orFault (s.tileCheck false t) (s.clean [.v a s.active] (orFault (c.poisonFault t s.active)
    (if c.empty then .done s
     else
      let c1 := (lanesIn s.active).foldl (fun c l => (List.range 32).foldl (fun c n => c.setElem l n (fmul .rne (c.elem l n) (s.vl a l))) c) c
      .done (s.setG (s.g.setTile t.toNat { c1 with bnd := c.bnd || (s.vreg a).bnd }))))))

/-- R45, R49, R180: an accumulator element narrowed under the OVT; to FP32 only its NaNs become canonical. -/
def tileOut (ovt : BitVec 16) (fmt : Nat) (x : Word) : Nat := convOvt ovt 0 fmt x.toNat
/-- R180: bytes of an element of a destination format. -/
def outSize (fmt : BitVec 4) : Nat := fmtBits fmt.toNat / 8
/-- R180, R217: the checks of a tile store over its elements, with the poison of the tile last; then the stores are posted. -/
def State.tileStore (s : State) (t : BitVec 3) (e : Nat) (es : List Elem) : Act :=
  let c := s.g.tile t.toNat
  match s.checkGlobal s.f.coreKey s.g.rights .write e c.bnd (es.map fun x => Addr.mk x.lane x.va x.size) with
  | some x => .fault x
  | none => orFault (if s.f.sent = 0 then c.poisonFault t s.active else none) (s.storeWord true .write 0 e c.bnd (es.mapIdx fun i x => { x with lane := i }) id)

/-- R180: CST. Where P alone is misaligned, ALIGN reports every active row (DESIGN CHOICE, log 62). -/
def execCst (t : BitVec 3) (a : RegNum) (f : BitVec 4) (s : State) : Host.Outcome State Fault Refusal :=
  let c := s.g.tile t.toNat
  let e := outSize f
  let sa := s.sv a
  let x := s.sv (a + 1)
  let cols := if fld x 32 6 = 0 then 32 else fld x 32 6
  let pitch := fld x 0 32
  let rows := lanesIn s.active
  let row := fun r => sa + BitVec.ofNat 64 (r * pitch)
  let mis := rows.filter fun r => (row r).toNat % e != 0
  finish s (if a = 63#6 then .fault (faultOf 0x01#8)
    else orFault (s.tileCheck false t) (s.clean [.s a, .s (a + 1)]
      (if 32 < cols then .fault (faultOf 0x01#8 (BitVec.ofNat 64 cols))
       else if rows = [] then .done s
       else if sa.toNat % e ≠ 0 ∨ pitch % e ≠ 0 then .fault (faultAt 0x13#8 0 ((if mis = [] then rows else mis).map fun r => ⟨r, row r, e⟩))
       else s.tileStore t e (rows.flatMap fun r => (List.range cols).map fun n =>
         ⟨r, .dram, 0, e, BitVec.ofNat 64 (tileOut s.g.ovt f.toNat (c.elem r n)), row r + BitVec.ofNat 64 (n * e), none, 0⟩))))

/-- R181: whether an encoding is one of +0 or −0. -/
def isZeroCode (fmt : BitVec 4) (e y : Nat) : Bool := if fmt ≤ 0x4#4 then y % 2 ^ (8 * e - 1) == 0 else y == 0
/-- R181: CSTZ. -/
def execCstz (t : BitVec 3) (a : RegNum) (f : BitVec 4) (s : State) : Host.Outcome State Fault Refusal :=
  let c := s.g.tile t.toNat
  let e := outSize f
  let sa := s.sv a
  let y := fun r n => tileOut s.g.ovt f.toNat (c.elem r n)
  let keep := fun r n => s.active.getLsbD r && !isZeroCode f e (y r n)
  let vals := (List.range 96).flatMap fun r => ((List.range 32).filter fun n => keep r n).map fun n => (r, y r n)
  let bits := fun r => (List.range 32).foldl (fun (x : Nat) n => if keep r n then x + 2 ^ n else x) 0
  let head : Elem := ⟨0, .dram, 0, 4, BitVec.ofNat 64 vals.length, sa, none, 0⟩
  let map := (List.range 96).map fun r => Elem.mk r .dram 0 4 (BitVec.ofNat 64 (bits r)) (sa + BitVec.ofNat 64 (64 + 4 * r)) none 0
  let body := vals.mapIdx fun i v => Elem.mk v.1 .dram 0 e (BitVec.ofNat 64 v.2) (sa + BitVec.ofNat 64 (448 + i * e)) none 0
  finish s (orFault (s.tileCheck false t) (s.clean [.s a]
    (if sa.toNat % 64 ≠ 0 then .fault (faultAt 0x13#8 0 [⟨0, sa, 4⟩]) else s.tileStore t 1 (head :: (map ++ body)))))

/-- R182: whether a row's key block can be skipped. -/
def skipRow (bound mx mu : Word) : Bool :=
  let t := (ofF32 mx).add .rne (ofF32 mu).neg
  !(ofF32 bound).isNan && !(ofF32 mx).isNan && !(ofF32 mu).isNan && !t.isNan && (ofF32 bound).lt t
/-- R182: BSKIP. -/
def execBskip (m : BitVec 3) (a b : RegNum) (s : State) : Host.Outcome State Fault Refusal :=
  let val := fun l => !skipRow (s.vl a l) (s.vl (a + 1) l) ((s.sv b).setWidth 32)
  finish s (if a = 63#6 then .fault (faultOf 0x01#8)
    else s.clean [.v a s.active, .v (a + 1) s.active, .s b]
      (.done ((s.wrCond m val).setE (!(lanesIn s.active).any val))))

/-- R183, R373: an uncorrectable error in tile storage poisons its octet part, and is counted. -/
def execTileStorageError (group tile part : Nat) (s : State) : Host.Outcome State Fault Refusal :=
  let g := s.group group
  .next (if g.alive && decide (tile < g.ntiles) && decide (part < 12) then
      let home := (s.team g.team).home
      (s.setHome home { s.home home with sramErrs := (s.home home).sramErrs + 1 }).setGroup group
        (g.setTile tile { g.tile tile with poison := (g.tile tile).poison ||| BitVec.twoPow 12 part })
    else s)

end Sys2Proof.Machine
end

