-- ==== Sys2Proof/Machine/Control.lean ====
section
/-! DEFINITION. NOP and the prefix word (R64, R84), and the control words of majors 0x18 to 0x1B (R102, R151 to R163): branches,
divisions, calls, barriers, group creation, ending and waiting. -/

namespace Sys2Proof.Machine

/-- R84: NOP. -/
def execNop (s : State) : Host.Outcome State Fault Refusal := finish s (.done s)
/-- R64: the prefix word waits for its word. -/
def execPfx (m r : BitVec 3) (x : RegNum) (z : BitVec 1) (t : BitVec 2) (s : State) : Host.Outcome State Fault Refusal :=
  finish s (.away (s.setF { s.f with pfx := some ⟨m, r, x, z, t, s.f.word⟩, pc := s.f.pc + 4 }))

/-- R69: target of a displacement of words. -/
def target {w : Nat} (pc : DWord) (disp : BitVec w) : DWord := pc + 4 * disp.signExtend 64
/-- R151: BR. -/
def execBr (i : BitVec 24) (s : State) : Host.Outcome State Fault Refusal := finish s (.jump s (target s.f.pc i))
/-- R151: BRC, on CFLAGS as they stood before the chain group (R121). -/
def execBrc (k : BitVec 5) (i : BitVec 18) (s : State) : Host.Outcome State Fault Refusal :=
  finish s (if brcCond k s.src.cflags then .jump s (target s.f.pc i) else .done s)

/-! Parks inside a word -/

/-- R63: a word that parks: it is held while a result is outstanding; a division due in its chain group is made first, and the word
goes on for the part that stays. -/
def parkThen (s : State) (k : State → Act) : Act :=
  let f := s.f
  if f.outs ≠ [] then .hold s
  else
    match f.grp with
    | some g =>
      match g.leave with
      | some L =>
        let s1 := (s.setF { f with grp := some { g with leave := none }, leave := some { L with park := g.park || f.park }, pc := f.pc + 4 }).settle s.cur
        if s1.f.state = .ready ∧ s1.f.due = none ∧ s1.f.trap = f.trap then .hold (s1.setF { s1.f with pc := f.pc }) else .away s1
      | none => k s
    | none => k s

/-- R342: words that trap mode forbids. -/
def noTrapMode (s : State) (k : Act) : Act := if s.f.trap.isSome then .fault (faultOf 0x01#8 3) else k

/-! Division by a branch (R148, R150) -/

/-- A child of a division: its owned and active lanes and its address. -/
def Frag.childOf (f : Frag) (idx : Nat) (own act : Mask) (pc : DWord) : Frag :=
  { f with
    idx := idx, own := own, pc := pc, regs := { f.regs with m := f.regs.m.setIfInBounds 0 act }, grp := none, pfx := none, counted := false, chain := false
    park := false, held := false, turn := 0, served := 0, grant := .none }

/-- R148: division at the fragment's core into parts, each an address and its active lanes, in the order of their addresses; part
`keep` keeps the entry and the owned lanes outside m0. -/
def State.divideHere (s : State) (parts : List (DWord × Mask)) (keep : Nat) : State :=
  let n := s.cur
  let f := s.f
  let others := (parts.eraseIdx keep).foldl (fun m p => m ||| p.2) 0x0#96
  let made := parts.foldl (fun (a : State × List Nat × Nat) p =>
    if a.2.2 = keep then (a.1, a.2.1 ++ [n], a.2.2 + 1)
    else
      match a.1.entriesOf n with
      | i :: _ => ((a.1.useEntry n i).setFrag (fragNo f.group i) { f.childOf i p.2 p.2 p.1 with resident := false }, a.2.1 ++ [fragNo f.group i], a.2.2 + 1)
      | [] => (a.1, a.2.1, a.2.2 + 1)) (s, [], 0)
  let kept := (parts[keep]?).getD (0, 0)
  let s := made.1.setFrag n (f.childOf f.idx (without f.own others) kept.2 kept.1)
  let kids := made.2.1
  let s := (s.inherit n kids).reportParts n (made.1.reserved n)
  let s := (kids.filter (· != n)).foldl (fun s k => s.acquire k) s
  s.setCore f.coreKey ((s.core f.coreKey).divideSvc n kids)

/-- R146: what forbids a division at a core into `kids` new entries: an entry of 16 to 95 while a sibling is away from the primary
home. -/
def State.divideBar (s : State) (kids : Nat) : Option FaultRec :=
  let g := s.g
  let entries := (s.entriesOf s.cur).take kids
  let away := !s.keeps g || (s.fragsOf s.f.group).any fun e => e.2.home != g.home || e.2.dev != s.fabric.toNat || (match e.2.state with | .transit .. => true | _ => false)
  if away && (entries.length < kids || entries.any fun i => decide (16 ≤ i)) then some (faultOf 0x21#8 0x8000000000000000#64)
  else none

/-- R148, R151, R152: a division, once the fragment has parked; it writes m0, which no earlier word of its chain group may write (R60, R121;
DESIGN CHOICE, log 64: HAZARD comes after JTAB's own faults and before trap mode's ILLEGAL_OP). It waits for an entry while ended siblings hold
theirs (R161). -/
def divideAct (s : State) (parts : List (DWord × Mask)) (keep : Nat) : Act :=
  let kids := parts.length - 1
  let go := fun (s : State) => if (s.entriesOf s.cur).length < kids then Act.hold s else .away (s.divideHere parts keep)
  if s.f.written.contains (.m 0) then .fault (faultOf 0x07#8 128)
  else if s.f.trap.isSome then .fault (faultOf 0x01#8 3)
  else if s.keeps s.g then
    match s.divideBar kids with
    | some r => .fault r
    | none => parkThen s go
  else parkThen s fun s => s.tableAct kids fun s => match s.divideBar kids with | some r => .fault r | none => go s

/-- R148, R151: BRM. -/
def execBrm (m : BitVec 3) (i : BitVec 18) (s : State) : Host.Outcome State Fault Refusal :=
  let T := s.active &&& s.mreg m
  let U := without s.active T
  let t := target s.f.pc i
  let next := s.f.pc + 4
  finish s (if T = 0x0#96 then .done s else if U = 0x0#96 then .jump s t
    else if t.ult next then divideAct s [(t, T), (next, U)] 1 else divideAct s [(next, U), (t, T)] 0)

/-- R102, R153: CALL; the slides in registers are eight times the fields. -/
def execCall (v x : BitVec 3) (i : BitVec 18) (s : State) : Host.Outcome State Fault Refusal :=
  let f := s.f
  let link : DWord := 0x0#1 ++ x ++ v ++ (f.pc + 4).setWidth 57
  finish s (if 192 < f.regs.wbV.toNat + 8 * v.toNat ∨ 64 < f.regs.wbS.toNat + 8 * x.toNat then .fault (faultOf 0x23#8 1)
    else .jump (s.modRegs fun r =>
      let r' := { r with wbV := r.wbV + 8 * v.setWidth 8, wbS := r.wbS + 8 * x.setWidth 7 }
      r'.writeS (r'.sEnt 60#6) ⟨link, false, false⟩) (target f.pc i))
/-- R102, R153: RET. -/
def execRet (s : State) : Host.Outcome State Fault Refusal :=
  let link := s.sv 60#6
  let vs := 8 * fld link 57 3
  let ss := 8 * fld link 60 3
  finish s (s.clean [.s 60#6]
    (if link.getLsbD 63 ∨ fld link 0 2 ≠ 0 then .fault (faultOf 0x01#8)
     else if s.f.regs.wbV.toNat < vs ∨ s.f.regs.wbS.toNat < ss then .fault (faultOf 0x23#8 2)
     else .jump (s.modRegs fun r => { r with wbV := r.wbV - BitVec.ofNat 8 vs, wbS := r.wbS - BitVec.ofNat 7 ss }) ((link.extractLsb' 0 57).setWidth 64)))

/-- Lanes joining a part by its address, parts in ascending address. -/
def addPart (ps : List (DWord × Mask)) (t : DWord) (l : Nat) : List (DWord × Mask) :=
  match ps with
  | [] => [(t, BitVec.twoPow 96 l)]
  | p :: r => if p.1 = t then (t, p.2 ||| BitVec.twoPow 96 l) :: r else if t.ult p.1 then (t, BitVec.twoPow 96 l) :: p :: r else p :: addPart r t l
/-- R152: JTAB. Its ALIGN and PROT report no lanes (DESIGN CHOICE, log 62). -/
def execJtab (d a b : RegNum) (s : State) : Host.Outcome State Fault Refusal :=
  let lanes := lanesIn s.active
  let base := s.sv a
  let bad := lanes.filter fun l => decide ((s.sv b).toNat ≤ (s.vl d l).toNat)
  let badM := maskOf fun l => bad.contains l
  let at' := fun l => base + 4 * (s.vl d l).setWidth 64
  finish s (if lanes = [] then .done s
    else s.clean [.v d s.active, .s a, .s b]
      (match bad with
       | l :: _ => .fault (faultOf 0x22#8 (lanesLo badM) (lanesHi badM) (BitVec.ofNat 64 (l * 2 ^ 32) ||| (s.vl d l).setWidth 64))
       | [] =>
         if fld base 0 2 ≠ 0 then .fault (faultOf 0x13#8 base)
         else
           match lanes.findSome? fun l => match s.fetch s.cur (at' l) with | .error k => some (at' l, k) | .ok _ => none with
           | some (x, k) => .fault (if k = 100 then faultOf 0x19#8 x else faultOf 0x12#8 x 0 (BitVec.ofNat 64 (k * 2 ^ 40)))
           | none =>
             let t := fun l => match s.fetch s.cur (at' l) with | .ok w => base + 4 * w.signExtend 64 | .error _ => 0
             match lanes.foldl (fun ps l => addPart ps (t l) l) [] with
             | [p] => .jump s p.1
             | ps => divideAct s ps 0))

/-! Barriers -/

/-- R146: a barrier as a fragment's own updates, those still travelling included, have left it. -/
def State.barView (s : State) (n k : Nat) : Bar :=
  let mine := s.net.filterMap fun m => match m with | .split j _ u _ => if j = n then some u else none | _ => none
  (mine.foldl (fun g u => g.applyUpd u) (s.group (s.frag n).group)).bar k

/-- R155: BSET. It does not wait for the record: where that is on another device, an armed one is reported when the update is applied there. -/
def execBset (k : BitVec 4) (s : State) : Host.Outcome State Fault Refusal :=
  finish s (if s.keeps s.g && (s.barView s.cur k.toNat).armed then .fault (faultOf 0x24#8 1) else .done (s.splitUpdate s.cur (.bset k.toNat s.f.own)))

/-- R109, R150: the fragment at issue begins to wait: it gives up its residency and its place in a service list. -/
def State.beginWait (s : State) (st : FState) : State :=
  (s.setF { s.f with state := st, grp := none, pfx := none, held := false, counted := false }).release s.cur

/-- The fragments of a group that wait at JOIN on a barrier. -/
def State.waiters (s : State) (group bar : Nat) : List (Nat × Frag) := (s.fragsOf group).filter fun e => e.2.state == .join bar
/-- R156, R157, R219: a waiter leaves for the place where the anchor waits; a fault of its move is reported at its JOIN. -/
def State.joinMove (s : State) (n bar dev home : Nat) : State :=
  let f := s.frag n
  let r := (s.group f.group).rights
  let lanes := f.regs.mask 0
  let fault := fun (s : State) (x : FaultRec) =>
    (((s.setFrag n { s.frag n with state := .ready }).acquire n).report n).faultOn n (f.word.setWidth 64) f.pc f.pc x
  match s.liveOf r.part r.asid f.pc with
  | none => fault s (faultOf 0x20#8)
  | some e =>
    let L : LeaveDue := ⟨.join bar, [⟨dev, home, lanes⟩], lanes, f.pc, f.word.setWidth 64, e.smap, e.vmap, f.regs, f.dev, f.home, false, [], []⟩
    let s := s.fillCarried n L
    let f := s.frag n
    if f.state = .ended then s
    else match L.poisoned f.regs with
    | some x => fault s x
    | none =>
      if lanes = 0x0#96 then s.retireLanes n f.own
      else
        let out := without f.own lanes
        let s1 := s.setFrag n (f.departing f.idx ⟨dev, home, lanes⟩ L)
        if out = 0x0#96 then s1 else s1.splitUpdate n (.retire out)
/-- R156: a waiter goes to the place where the anchor waits; one on another device is sent word by the primary home (R146). -/
def State.sendWaiter (s : State) (n bar dev home : Nat) : State :=
  let f := s.frag n
  if s.elsewhere f then (s.tell n (.go bar dev home)).setFrag n { f with state := .transit dev home true } else s.joinMove n bar dev home
/-- R156: a fragment that begins to wait at JOIN goes at once to the anchor, if that waits elsewhere. The primary home's device knows where. -/
def State.joinArrive (s : State) (n k : Nat) : State :=
  let f := s.frag n
  let b := s.barView n k
  match (s.waiters f.group k).find? fun w => w.2.own.getLsbD b.alane with
  | some (a, A) =>
    if s.keeps (s.group f.group) = false ∨ a = n ∨ s.asleep a ∨ (A.dev = f.dev ∧ A.home = f.home) then s else s.sendWaiter n k A.dev A.home
  | none => s
/-- R156, R237: JOIN, up to the wait. -/
def execJoin (k : BitVec 4) (s : State) : Host.Outcome State Fault Refusal :=
  finish s (noTrapMode s (parkThen s fun s => s.tableAct 0 fun s =>
    let own := s.f.own
    let b := s.barView s.cur k.toNat
    let out := without own b.expect
    if !s.released s.cur false then .hold s
    else if b.armed = false then .fault (faultOf 0x24#8 2)
    else if out ≠ 0x0#96 then .fault (faultOf 0x24#8 3 (lanesLo out) (lanesHi out))
    else .away ((((s.splitUpdate s.cur (.arrive k.toNat own)).beginWait (.join k.toNat)).report s.cur).joinArrive s.cur k.toNat)))

/-- R158: BARRT and BARRT.pub, up to the wait. -/
def barrtAct (s : State) (pub : Bool) : Act :=
  noTrapMode s (parkThen s fun s =>
    if (pub || !s.keeps s.g) && !s.released s.cur false then .hold s
    else
      let s1 := (s.beginWait (.barrt pub)).report s.cur
      .away (s1.setF { s1.f with pc := s1.f.pc + 4 }))
/-- R158: BARRT. -/
def execBarrt (s : State) : Host.Outcome State Fault Refusal := finish s (barrtAct s false)
/-- R158: BARRT.pub. -/
def execBarrtPub (s : State) : Host.Outcome State Fault Refusal := finish s (barrtAct s true)

/-! Groups -/

/-- Live fragments with a context record on a core. -/
def State.recordsUsed (s : State) (core : Nat) : Nat := (s.frags.filter fun e => e.2.alive && e.2.coreKey == core && !s.elsewhere e.2 && !(s.team (s.group e.2.group).team).saved).length
/-- R209, R318: ASGEN of an address space, and the key index its contexts carry. -/
def State.genOf (s : State) (asid : Nat) : Nat := fld (s.asEnt asid) 224 32
def State.keyOf (s : State) (asid : Nat) : Nat := fld (s.asEnt asid) 40 12
/-- The lowest group index free in a team (R160). -/
def State.freeGidx (s : State) (team : Nat) : Nat :=
  ((List.range 16).find? fun i => !(s.groupsOf team).any fun e => e.2.gidx == i).getD 0
/-- R159: a new group `n` with one fragment in entry 0 at its team's core, all lanes active, at `pc` with given registers. -/
def State.startGroup (s : State) (n : Nat) (g : Group) (lanes : Mask) (pc : DWord) (r : Regs) : State :=
  let t := s.team g.team
  let f := { Frag.free with
    alive := true, group := n, idx := 0, own := lanes, pc := pc, dev := s.fabric.toNat, home := t.home, core := t.core
    regs := { r with m := r.m.setIfInBounds 0 lanes } }
  ((s.setGroup n g).setFrag (fragNo n 0) f).acquire (fragNo n 0)

/-- R160: a group created in the team of group `gn` on the team's core: its entry address and s0 to s7; none where there is no room. -/
def State.spawnGroup (s : State) (gn : Nat) (pc : DWord) (regs : List SReg) : Option State :=
  let g := s.group gn
  let t := s.team g.team
  if 16 ≤ (s.groupsOf g.team).length ∨ s.records ≤ s.recordsUsed t.coreKey then none
  else
    let g' := { Group.none with
      alive := true, team := g.team, gidx := s.freeGidx g.team, dev := s.fabric.toNat, rights := { g.rights with keyidx := s.keyOf g.rights.asid }, depth := g.depth
      teamid := g.teamid, gridid := g.gridid, home := t.home, weight := g.weight, ovt := g.ovt }
    some (s.newId.2.startGroup s.newId.1 g' allLanes pc ((List.range 8).foldl (fun (r : Regs) i => r.writeS i (regs[i]?.getD SReg.zero)) Regs.created))
/-- R160: SPAWN; away from its group's device it waits until the primary home has decided. -/
def execSpawn (a b : RegNum) (s : State) : Host.Outcome State Fault Refusal :=
  let regs := (List.range 8).map fun i => b + BitVec.ofNat 6 i
  let vals := regs.map fun r => SReg.mk (s.sv r) (s.sreg r).bnd false
  finish s (noTrapMode s (s.clean (.s a :: regs.map Src.s)
    (if s.keeps s.g then
       match s.spawnGroup s.f.group (s.sv a) vals with
       | none => .done (s.setE true)
       | some s1 => .done (s1.setE false)
     else s.roundTrip (.spawn (s.sv a) vals) fun x => .done ((s.setF { s.f with grant := .none }).setE (x != .spawned true)))))

/-! Ending, pausing and waiting -/

/-- R161: EXIT. -/
def execExit (s : State) : Host.Outcome State Fault Refusal :=
  finish s (parkThen s fun s => s.tableAct 0 fun s =>
    let f := s.f
    let L := if s.active = 0x0#96 then f.own else s.active
    let s1 := s.retireLanes s.cur L
    if without f.own L = 0x0#96 then .away s1
    else
      let heads := (s1.core f.coreKey).heads s.cur
      let s2 := s1.setF { s1.f with
        pc := f.pc + 4, grp := none, pfx := none, held := false, counted := false, chain := false
        turn := if heads then 0 else s1.f.turn
        served := if heads then 0 else s1.f.served }
      .away ((s2.setCore f.coreKey ((s2.core f.coreKey).passSvc s.cur)).endTurnOf s.cur))
/-- R162: PARK, as the park marker. -/
def execPark (s : State) : Host.Outcome State Fault Refusal := finish s (.done (s.setF { s.f with park := true }))
/-- R162: YIELD. -/
def execYield (s : State) : Host.Outcome State Fault Refusal :=
  let f := s.f
  let c := (s.core f.coreKey).passSvc s.cur
  finish s (.done ((s.setF { f with turn := 0, served := 0 }).setCore f.coreKey (c.endTurn s.cur)))

/-- R163: watches registered at a home. -/
def State.watches (s : State) (home : Nat) : Nat :=
  (s.awayWatches.filter fun w => w.2.key / 2 ^ 36 % 16 == home).length + (s.frags.filter fun e => e.2.alive && (match e.2.state with | .waitw k _ _ _ _ => k / 2 ^ 36 % 16 == home | _ => false)).length
/-- R163, R315, R337: a word on another device that is to be compared, and where it holds the value watched, there: the request. -/
def State.askWatch (s : State) (dev : Nat) (va : DWord) (val : Word) : State :=
  let tag := s.newId.1
  let r := s.g.rights
  let core := s.f.coreKey
  let path := s.pathNo s.f.home tag
  let s := s.newId.2.countPath core r dev path
  ({ s with remote := s.remote ++ [s.await tag dev [s.cur] false false r.asid 0 (some (.frag s.cur)) [va] (some core)] } : State).toPort s.f.home dev
    (.watch s.fabric.toNat dev (s.leafOf core r.asid va).home core r.keyidx r.asid r.asgen r.priv va val (s.pathOf core dev).epoch path tag) (s.portRefusal tag [0])
/-- R163: WAITW of a word on another device: it is held, with its residency, until that device answers that the word differs (1), that its home can
watch no more (0), or that the word is watched (2), when it begins to wait. -/
def watchAway (s : State) (dev : Nat) (va : DWord) (val : Word) : Act :=
  match s.answered (.frag s.cur) with
  | a :: _ =>
    let at' := fun k => (KMap.find a.reply.vals k).getD 0
    let s1 := { s with answers := s.answers.filter fun x => x.asker != Asker.frag s.cur }
    if a.reply.code ≠ 0 then .fault (faultAt a.reply.code a.reply.reason [⟨0, va, 4⟩])
    else if at' 0 = 2 then .away (s1.beginWait (.waitAway (at' 1).toNat va none))
    else .done (s1.setE (at' 0 == 1))
  | [] => .hold (if s.remote.any fun x => x.asker == some (Asker.frag s.cur) then s else s.askWatch dev va val)
/-- R163: WAITW. -/
def execWaitw (a b : RegNum) (s : State) : Host.Outcome State Fault Refusal :=
  finish s (noTrapMode s (s.clean [.s a, .s b] (parkThen s fun s =>
    let va := s.sv a
    let r := s.g.rights
    match s.checkGlobal s.f.coreKey r .read 4 false [⟨0, va, 4⟩] with
    | some x => .fault x
    | none =>
      let s := s.cache s.f.coreKey r.asid [va]
      let x := s.leafOf s.f.coreKey r.asid va
      let key := s.cellOf x va
      if s.accessHeld s.cur || (x.ord == 0 && !s.released s.cur true) then .hold s
      else if x.dev ≠ s.fabric.toNat then watchAway s x.dev va ((s.sv b).setWidth 32)
      else if s.valIn .dram key 4 ≠ fld (s.sv b) 0 32 then .done (s.setE true)
      else if 4096 ≤ s.watches x.home then .done (s.setE false)
      else .away (s.beginWait (.waitw key ((s.sv b).setWidth 32) va x.gen false)))))

end Sys2Proof.Machine
end

