-- ==== Sys2Proof/Machine/MemWords.lean ====
section
/-! DEFINITION. The access words of majors 0x20 to 0x2A (R214 to R230, R314): loads, stores, scratchpad and vault words, FENCE,
migration and query words, the map unit's words, and the atomics. -/

namespace Sys2Proof.Machine

/-! Loads -/

/-- Sources of an address (R103, R217): the base, and the index lanes. -/
def addrSrcs (b i : RegNum) (lanes : Mask) : List Src := .s b :: if i = 0x00#6 then [] else [.v i lanes]

/-- R221: vector LD. -/
def execLdV (d b i : RegNum) (w o : BitVec 3) (s : State) : Host.Outcome State Fault Refusal :=
  finish s (s.clean (addrSrcs b i s.eff) (s.migrateWord (.loadV d b i w o s.zeroed) s.eff))

/-- R112, R219: whether every earlier ST and ATOM and every write-back of a fragment has been acknowledged. -/
def State.storesAcked (s : State) (n : Nat) : Bool :=
  !(s.net.any fun m => match m with
    | .store r => r.owners.contains n && r.elems.any fun e => e.space == .dram
    | .ack os _ g => g && os.contains n
    | .read r _ => r.owners.contains n
    | .data k _ _ _ => k == n
    | _ => false) && !(s.remote.any fun r => r.owners.contains n) && (s.wcLinesOf n).isEmpty
/-- R236, R247: the lines for a device with bytes of a fragment drain. -/
def State.drainTo (s : State) (n dev : Nat) : State :=
  ((s.wcLinesOf n).filter fun l => l.2.dev == dev).foldl (fun s l => s.drainLine l.1 l.2) s

/-- R221: a scalar LD with m0 empty: away from home, the element is read without moving the fragment. -/
def loadStay (d b : RegNum) (w o : BitVec 3) (s : State) : Act :=
  let f := s.f
  let r := s.g.rights
  let va := s.sv b
  match s.checkGlobal f.coreKey r .read (widthOf w) false [⟨0, va, widthOf w⟩] with
  | some x => .fault x
  | none =>
    let x := s.leafOf f.coreKey r.asid va
    if x.dev = s.fabric.toNat ∧ x.home = f.home then s.migrateWord (.loadS d b w o) s.eff
    else
      let s := s.cache f.coreKey r.asid [va]
      if s.accessHeld s.cur || (x.ord == 0 && !s.released s.cur true) then .hold s
      else parkThen s fun s =>
        if !s.storesAcked s.cur then .hold (s.drainTo s.cur x.dev)
        else
          if x.dev = s.fabric.toNat then
            let id := s.newId.1
            let s := s.newId.2
            let e : Elem := ⟨0, .dram, s.cellOf x va, widthOf w, 0, va, none, 0⟩
            let s := s.addOut s.cur (s.src.scalarOut (.remote id true w.toNat) d 0 x.bnd false)
            .done { s with net := s.net ++ [.read ⟨s.cur, f.group, f.pc, r, x.home, [e], x.ord, [s.cur]⟩ id] }
          else
            match s.gather (.frag s.cur) f.coreKey r [⟨0, va, widthOf w⟩] with
            | .val xs s =>
              let y := xs.headD (0, false)
              .done (s.addOut s.cur (s.src.scalarOut (.sector true) d (widen w y.1) x.bnd y.2))
            | .wait s => .hold s
            | .stop e => .fault e
/-- R221: scalar LD. -/
def execLdS (d b : RegNum) (w o : BitVec 3) (s : State) : Host.Outcome State Fault Refusal :=
  finish s (s.clean [.s b] (if s.active = 0x0#96 then loadStay d b w o s else s.migrateWord (.loadS d b w o) s.eff))

/-! Stores -/

/-- R47, R223: what a lane stores under a width code of the integer stores, with a saturation control. -/
def storeVal (w : BitVec 3) (ctl : BitVec 2) (x : Word) : Nat :=
  if 4 ≤ w.toNat then x.toNat
  else
    let sg := w.toNat % 2 = 0
    narrowInt (ctl == 0x0#2) (8 * widthOf w) (decide sg) (if sg then x.toInt else (x.toNat : Int))
/-- R46: the NMODE class of a narrow integer store. -/
def storeClass (w : BitVec 3) : Nat := if w.toNat < 2 then 5 else 6
/-- R217, R223: the elements of a vector store, each lane's value given. -/
def vecElems (s : State) (b i : RegNum) (size : Nat) (val : Nat → Nat) : List Elem :=
  (lanesIn s.eff).map fun l => ⟨l, .dram, 0, size, BitVec.ofNat 64 (val l), s.src.addr b i size l, none, 0⟩
/-- R223: the values of an integer store. -/
def intStore (s : State) (d : RegNum) (w : BitVec 3) (l : Nat) : Nat := storeVal w (s.nmSat (storeClass w)) (s.vl d l)

/-- R223, R224: ST and STP of major 0x21 and 0x23. -/
def storeAct (posted : Bool) (d b i : RegNum) (w o : BitVec 3) (s : State) : Act :=
  s.clean (addrSrcs b i s.eff ++ [.v d s.eff])
    (s.storeWord posted .write o (widthOf w) (s.vreg d).bnd (vecElems s b i (widthOf w) (intStore s d w)) id)
/-- R223: ST. -/
def execStV (d b i : RegNum) (w o : BitVec 3) (s : State) : Host.Outcome State Fault Refusal := finish s (storeAct false d b i w o s)
/-- R224: STP. -/
def execStp (d b i : RegNum) (w o : BitVec 3) (s : State) : Host.Outcome State Fault Refusal := finish s (storeAct true d b i w o s)
/-- R223, R141: ST to a narrow floating format; under rs it advances NSTEP. -/
def execStVNarrow (d b i : RegNum) (w o : BitVec 3) (s : State) : Host.Outcome State Fault Refusal :=
  let f := w.setWidth 2
  let F := narrowFmt f
  let k := s.nmRnd (classOf (narrowCode f))
  let t := s.nmSat (classOf (narrowCode f))
  finish s (s.clean (addrSrcs b i s.eff ++ [.v d s.eff])
    (s.storeWord false .write o (F.width / 8) (s.vreg d).bnd
      (vecElems s b i (F.width / 8) fun l => F.narrow (s.rnd k l) t (ofF32 (s.vl d l))) fun s => s.advance k))
/-- R223: scalar ST. -/
def execStS (d b : RegNum) (w o : BitVec 3) (s : State) : Host.Outcome State Fault Refusal :=
  finish s (s.clean [.s b, .s d]
    (s.storeWord false .write o (widthOf w) (s.sreg d).bnd
      [⟨0, .dram, 0, widthOf w, BitVec.ofNat 64 ((s.sv d).toNat % 2 ^ (8 * widthOf w)), s.sv b, none, 0⟩] id))

/-! Scratchpad and vault words -/

/-- R217: the checks of scratchpad and vault words up to protection, over resolved addresses: alignment, BANK_RANGE, then
SCRATCH_STALE or PROT. -/
def teamChecks {α : Type} (size : Nat) (as : List (Addr × Except (BitVec 8 × Nat) α)) : Option FaultRec :=
  let mis := as.filter fun a => a.1.va.toNat % size != 0
  let range := as.filter fun a => match a.2 with | .error e => e.1 == 0x11#8 | .ok _ => false
  let code := as.findSome? fun a => match a.2 with | .error e => some e | .ok _ => none
  if !mis.isEmpty then some (faultAt 0x13#8 0 (mis.map (·.1)))
  else if !range.isEmpty then some (faultAt 0x11#8 0 (range.map (·.1)))
  else code.map fun e => faultAt e.1 e.2 ((as.filter fun a => match a.2 with | .error x => x == e | .ok _ => false).map (·.1))
/-- The resolved places. -/
def places {α : Type} (as : List (Addr × Except (BitVec 8 × Nat) α)) : List (Addr × α) :=
  as.filterMap fun a => match a.2 with | .ok x => some (a.1, x) | .error _ => none

/-- R214: the map entry behind a place. -/
def State.mapOf (s : State) (t : ScrTgt) : Option MapEnt :=
  match t.map with
  | some (k, e) => (s.team k).maps.find e
  | none => none
/-- R218: whether a place lies in a mapped range that holds bounded data. -/
def State.mapBnd (s : State) (t : ScrTgt) : Bool := match s.mapOf t with | some m => m.bnd | none => false
/-- Generic offset of a place in the team that holds it. -/
def State.genOff (s : State) (t : ScrTgt) : Nat :=
  match t.map with
  | some (k, _) => t.off - (s.team k).base
  | none => 0
/-- R214: a line still to be filled before a place can be reached: team, entry and line. -/
def State.needsFill (s : State) (t : ScrTgt) : Option (Nat × Nat × Nat) :=
  match t.map, s.mapOf t with
  | some (k, e), some m => let l := (s.genOff t - m.off) / 256; if m.filled.contains l then none else some (k, e, l)
  | _, _ => none
/-- R214: fills asked of the map unit. -/
def State.askFills (s : State) (xs : List (Nat × Nat × Nat)) : State :=
  xs.foldl (fun s x => if (s.team x.1).fills.contains x.2 then s else s.setTeam x.1 { s.team x.1 with fills := (s.team x.1).fills ++ [x.2] }) s

/-- R222, R225: whether the order of a scratchpad or vault word lets it issue. -/
def State.teamOrder (s : State) (o : BitVec 2) (loads : Bool) : Bool :=
  let o3 := o.setWidth 3
  !s.accessHeld s.cur && (!isRel o3 || s.released s.cur false) && (!(loads && s.eff == 0x0#96) || s.fenceMet s.cur (isAcq o3) false false)

/-- R212, R222: the value of an element read of the team window. -/
def windowVal (t : Team) (off size : Nat) : DWord := BitVec.ofNat 64 (t.window / 256 ^ off % 256 ^ size)

/-- R242: whether accesses to places of this core's scratchpad may be performed now: no request of the fragment to it is still under way. -/
def State.coreOrder (s : State) (ps : List ScrTgt) : Bool :=
  let f := s.f
  let here := ps.filter fun p => !p.window && p.core == f.coreKey
  here.isEmpty || s.mayArrive s.net.length (.store ⟨s.cur, f.group, f.pc, s.g.rights, f.home, here.map fun p => ⟨0, .scratch, scrKey p.core p.off, 1, 0, 0, none, 0⟩, 1, [s.cur]⟩) none
/-- R242: a word that reads or writes `n` bytes of a scratchpad waits while a request of the fragment to it is still under way. -/
def State.afterStores (s : State) (key n : Nat) (k : Act) : Act :=
  if s.mayArrive s.net.length (.store ⟨s.cur, s.f.group, s.f.pc, s.g.rights, s.f.home, [⟨0, .scratch, key, n, 0, 0, none, 0⟩], 1, [s.cur]⟩) none then k else .hold s
/-- R214, R238: the lines that a word needs are asked of the map unit; of an SO page only when the fragment's earlier accesses have been performed. -/
def State.needLines (s : State) (need : List (Nat × Nat × Nat)) : State :=
  let so := need.any fun x => match (s.team x.1).maps.find x.2.1 with
    | some m => (s.leafOf (s.team x.1).coreKey m.rights.asid (m.gva + BitVec.ofNat 64 (256 * x.2.2))).ord == 0
    | none => false
  if so && !s.released s.cur true then s.drainFrag s.cur else s.askFills need
/-- R213, R222: a scratchpad read in a list of places: those at this core or in the window at once, the others from their cores. -/
def State.readPlaces (s : State) (d : RegNum) (w : BitVec 3) (acq : Bool) (ps : List (Addr × ScrTgt)) : State :=
  let n := s.cur
  let f := s.f
  let bnd := ps.any fun p => s.mapBnd p.2
  let whole := s.eff ||| s.zeroed
  let here := ps.filter fun p => p.2.window || p.2.core == f.coreKey
  let vals := here.map fun p => (p.1.lane, widen w
    (if p.2.window then windowVal s.t p.2.off p.1.size else BitVec.ofNat 64 (s.valIn .scratch (scrKey p.2.core p.2.off) p.1.size)))
  let bad := maskOf fun l => here.any fun p => p.1.lane == l && !p.2.window && s.errIn .scratch (scrKey p.2.core p.2.off) p.1.size
  let e := s.src.vEnt d
  let cores := ((ps.filter fun p => !(p.2.window || p.2.core == f.coreKey)).map fun p => p.2.core).eraseDups
  let s := s.sectorOuts n e (.sector acq) (maskOf fun l => here.any fun p => p.1.lane == l) s.zeroed whole vals bnd bad
  cores.foldl (fun s c =>
    let mine := ps.filter fun p => !p.2.window && p.2.core == c
    let id := s.newId.1
    let s := s.newId.2.addOut n ⟨.remote id acq w.toNat, .v e, maskOf fun l => mine.any fun p => p.1.lane == l, whole, lanesOf fun _ => 0, 0, bnd, 0x0#96⟩
    { s with net := s.net ++ [.read ⟨n, f.group, f.pc, s.g.rights, c / 256, mine.map fun p =>
        ⟨p.1.lane, .scratch, scrKey p.2.core p.2.off, p.1.size, 0, p.1.va, none, 0⟩, 1, [n]⟩ id] }) s

/-- R217: the check of alignment, which comes before elements go to another device. -/
def orMisaligned (es : List Elem) (k : Act) : Act :=
  let mis := es.filter fun e => e.va.toNat % e.size != 0
  if mis.isEmpty then k else .fault (faultAt 0x13#8 0 (mis.map fun e => ⟨e.lane, e.va, e.size⟩))
/-- R222: LDS. -/
def execLds (d b i : RegNum) (w : BitVec 3) (o : BitVec 2) (s : State) : Host.Outcome State Fault Refusal :=
  finish s (s.clean (addrSrcs b i s.eff)
    (if s.g.dev ≠ s.fabric.toNat then
      (if !s.teamOrder o true then .hold s
       else
         let out := fun (s : State) (x : Reply) => s.sectorOuts s.cur (s.src.vEnt d) (.sector (isAcq (o.setWidth 3))) s.eff s.zeroed (s.eff ||| s.zeroed)
           (x.vals.map fun v => (v.1, widen w v.2)) x.bnd (maskOf x.badAt)
         if s.eff = 0x0#96 then .done (out s (Reply.ok []))
         else
           let es := (vecElems s b i (widthOf w) fun _ => 0).map fun e => { e with space := .scratch }
           orMisaligned es ((s.scratchAway .load es).act fun x s => .done (out s x)))
     else
     let as := ((MigAcc.loadV d b i w 0 0).addrs s.src s.eff).map fun a => (a, s.scrAt s.g.team s.g.rights.asid a.va a.size false)
     match teamChecks (widthOf w) as with
     | some x => .fault x
     | none =>
       let ps := places as
       let need := ps.filterMap fun p => s.needsFill p.2
       if !s.teamOrder o true || !s.coreOrder (ps.map (·.2)) then .hold s
       else if !need.isEmpty then .hold (s.needLines need)
       else .done (s.readPlaces d w (isAcq (o.setWidth 3)) ps)))

/-- R218: STS and STV of a bounded source store only where a mapped range admits it. -/
def bndFault (bnd : Bool) (as : List (Addr × Bool)) : Option FaultRec :=
  let bad := (as.filter fun a => bnd && !a.2).map (·.1)
  if bad.isEmpty then none else some (faultAt 0x18#8 0 bad)

/-- R213, R224: resolved elements are stored: at this core at once, at others as store requests. -/
def State.storePlaces (s : State) (es : List (Elem × ScrTgt)) : State :=
  let f := s.f
  let els := es.map fun x => (x.2.core, { x.1 with space := .scratch, key := scrKey x.2.core x.2.off })
  let s1 := s.storeElems f.group f.home f.pc ((els.filter fun x => x.1 == f.coreKey).map (·.2))
  let cores := ((els.filter fun x => x.1 != f.coreKey).map (·.1)).eraseDups
  cores.foldl (fun s c => { s with net := s.net ++
    [.store ⟨s.cur, f.group, f.pc, s.g.rights, c / 256, (els.filter fun x => x.1 == c).map (·.2), 1, [s.cur]⟩] }) s1
/-- R214, R215, R217, R218: the checks of a store of scratchpad elements, resolved, which `bnd` says to be bounded. -/
def State.stsFault (s : State) (size : Nat) (as : List (Addr × Except (BitVec 8 × Nat) ScrTgt)) (bnd : Bool) : Option FaultRec :=
  match teamChecks size as with
  | some x => some x
  | none =>
    let ro := (places as).filter fun p => match s.mapOf p.2 with | some m => !m.writable | none => false
    if !ro.isEmpty then some (faultAt 0x12#8 3 (ro.map (·.1)))
    else bndFault bnd ((places as).map fun p => (p.1, s.mapBnd p.2))
/-- R213, R214, R217, R218, R224: a store of scratchpad elements, which `bnd` says to be bounded. -/
def stsAct (s : State) (es : List Elem) (bnd : Bool) (o : BitVec 2) : Act :=
  if s.g.dev ≠ s.fabric.toNat then
    if !s.teamOrder o false then .hold s
    else if es.isEmpty then .done s
    else
      let es := es.map fun e => { e with space := .scratch }
      orMisaligned es ((s.scratchAway (.store bnd) es).act fun _ s => .done s)
  else
    let as := es.map fun e => (Addr.mk e.lane e.va e.size, s.scrAt s.g.team s.g.rights.asid e.va e.size true)
    let ps := places as
    match s.stsFault ((es.head?.map (·.size)).getD 1) as bnd with
    | some x => .fault x
    | none =>
      let need := ps.filterMap fun p => s.needsFill p.2
      if !s.teamOrder o false || !s.coreOrder (ps.map (·.2)) then .hold s
      else if !need.isEmpty then .hold (s.needLines need)
      else .done (s.storePlaces ((es.zip ps).map fun x => (x.1, x.2.2)))

/-- R224: STS. -/
def execSts (d b i : RegNum) (w : BitVec 3) (o : BitVec 2) (s : State) : Host.Outcome State Fault Refusal :=
  finish s (s.clean (addrSrcs b i s.eff ++ [.v d s.eff]) (stsAct s (vecElems s b i (widthOf w) (intStore s d w)) (s.vreg d).bnd o))

/-- R222, R231, R232: a vault read travels to its vault, where it is performed on arrival; lanes that PFX.ZERO names are written at once. -/
def State.readVaults (s : State) (d : RegNum) (w : BitVec 3) (acq : Bool) (ps : List (Addr × Nat)) : State :=
  let n := s.cur
  let f := s.f
  let whole := s.eff ||| s.zeroed
  let e := s.src.vEnt d
  let lanes := maskOf fun l => ps.any fun p => p.1.lane == l
  let s := s.sectorOuts n e (.sector acq) 0x0#96 s.zeroed whole [] false 0x0#96
  if ps = [] then s
  else
    let id := s.newId.1
    let s := s.newId.2.addOut n ⟨.remote id acq w.toNat, .v e, lanes, whole, lanesOf fun _ => 0, 0, false, 0x0#96⟩
    { s with net := s.net ++ [.read ⟨n, f.group, f.pc, s.g.rights, f.home, ps.map fun p => ⟨p.1.lane, .vault, p.2, p.1.size, 0, p.1.va, none, 0⟩, 1, [n]⟩ id] }
/-- R224, R231, R232: a vault store travels to its vault and is acknowledged when it has been performed. -/
def State.storeVaults (s : State) (es : List Elem) : State :=
  let f := s.f
  if es = [] then s else { s with net := s.net ++ [.store ⟨s.cur, f.group, f.pc, s.g.rights, f.home, es, 1, [s.cur]⟩] }
/-- R222: LDV. -/
def execLdv (d b i : RegNum) (w : BitVec 3) (o : BitVec 2) (s : State) : Host.Outcome State Fault Refusal :=
  finish s (s.clean (addrSrcs b i s.eff)
    (let as := ((MigAcc.loadV d b i w 0 0).addrs s.src s.eff).map fun a => (a, s.vaultAt s.f.home s.g.rights.asid a.va)
     match teamChecks (widthOf w) as with
     | some x => .fault x
     | none =>
       if !s.teamOrder o true then .hold s
       else .done (s.readVaults d w (isAcq (o.setWidth 3)) (places as))))
/-- R224: STV. -/
def execStv (d b i : RegNum) (w : BitVec 3) (o : BitVec 2) (s : State) : Host.Outcome State Fault Refusal :=
  finish s (s.clean (addrSrcs b i s.eff ++ [.v d s.eff])
    (let es := vecElems s b i (widthOf w) (intStore s d w)
     let as := es.map fun e => (Addr.mk e.lane e.va e.size, s.vaultAt s.f.home s.g.rights.asid e.va)
     match teamChecks (widthOf w) as with
     | some x => .fault x
     | none =>
       match bndFault (s.vreg d).bnd (as.map fun a => (a.1, false)) with
       | some x => .fault x
       | none =>
         if !s.teamOrder o false then .hold s
         else .done (s.storeVaults ((es.zip (places as)).map fun x => { x.1 with space := .vault, key := x.2.2 }))))

/-! FENCE, MIGR and the queries -/

/-- R226, R247: FENCE; at scope .sys it drains the fragment's lines. -/
def execFence (k x : BitVec 3) (s : State) : Host.Outcome State Fault Refusal :=
  let sys := x == 0x5#3
  let s1 := if sys then s.drainFrag s.cur else s
  finish s (if s.fenceMet s.cur (isAcq k) (isRel k) sys then .done s1 else .hold s1)
/-- R229: MIGR. -/
def execMigr (a : RegNum) (s : State) : Host.Outcome State Fault Refusal :=
  finish s (s.clean [.s a]
    (if s.active = 0x0#96 then
      match s.checkGlobal s.f.coreKey s.g.rights .move 1 false [⟨0, s.sv a, 1⟩] with
      | some x => .fault x
      | none => .done (s.cache s.f.coreKey s.g.rights.asid [s.sv a])
     else s.migrateWord (.migr a) s.eff))

/-- A word of variable latency with a scalar result (R59, R62). -/
def State.later (s : State) (d : RegNum) (x : DWord) (bnd : Bool) : State := s.addOut s.cur (s.src.scalarOut .unit d x bnd false)
/-- R230: the result of HOME. -/
def homeWord (x : Except TrErr Leaf) : DWord × Bool :=
  match x with
  | .ok x => (BitVec.ofNat 64 (x.home + 16 * x.dev + 2 ^ 16 * x.ord + 2 ^ 18 * (if x.bnd then 1 else 0)), false)
  | .error _ => (0xFFFFFFFFFFFFFFFF#64, true)
/-- R230: HOME. -/
def execHomeOf (d a : RegNum) (s : State) : Host.Outcome State Fault Refusal :=
  let x := homeWord (s.trCore s.f.coreKey s.g.rights.asid (s.sv a))
  finish s (s.clean [.s a] (.done (((s.cache s.f.coreKey s.g.rights.asid [s.sv a]).later d x.1 false).setE x.2)))

/-- R230, R322: a better lease to report: rw over ro, then the lower index. -/
def leaseBetter (x y : BitVec 256) : Bool :=
  decide (fld y 226 2 < fld x 226 2) || (fld x 226 2 == fld y 226 2 && decide (fld x 200 8 < fld y 200 8))
/-- R230: the lease of a fragment's grid that LEASEQ reports. -/
def State.bestLease (s : State) (r : Rights) (va : DWord) : Option (BitVec 256) :=
  let hits := (s.leases.filter fun e => r.dev == s.fabric.toNat && e.1 / 4096 == r.part && e.2.getLsbD 224 && fld e.2 228 28 == r.grid && fld e.2 208 16 == r.asid &&
    decide (fld e.2 0 64 ≤ va.toNat ∧ va.toNat < fld e.2 0 64 + fld e.2 64 48)).map (·.2)
  hits.foldl (fun b e => match b with | some x => if leaseBetter e x then some e else some x | none => some e) none
/-- R230: the result of LEASEQ. -/
def leaseWord (x : Option (BitVec 256)) : DWord × Bool :=
  match x with
  | some e => (BitVec.ofNat 64 (fld e 226 2 + 4 * fld e 225 1 + 256 * fld e 200 8), false)
  | none => (0, true)
/-- R230: LEASEQ. -/
def execLeaseq (d a : RegNum) (s : State) : Host.Outcome State Fault Refusal :=
  let x := leaseWord (s.bestLease s.g.rights (s.sv a))
  finish s (s.clean [.s a] (.done ((s.later d x.1 false).setE x.2)))

/-! The map unit -/

/-- R211, R214: the write-back of the dirty bytes of lines of a map entry, as plain stores under a rw lease; their acknowledgements go to
`owners`. -/
def State.writeBack (s : State) (team e : Nat) (lines : Nat → Bool) (frag group : Nat) (pc : DWord) (owners : List Nat) : State :=
  let t := s.team team
  match t.maps.find e with
  | none => s
  | some m =>
    let out := m.dirty.filter fun o => lines (o / 256)
    let s1 := s.setTeam team { t with maps := t.maps.ins e { m with dirty := m.dirty.filter fun o => !lines (o / 256) } }
    (sortBy (fun a b => decide (a ≤ b)) (out.map (· / 256)).eraseDups).foldl (fun s l =>
      let va := fun o => m.gva + BitVec.ofNat 64 o
      match s.trCore t.coreKey m.rights.asid (va (256 * l)) with
      | .error _ => s.postedFault group 0x12#8 t.home (va (256 * l)) pc
      | .ok x =>
        let es := (out.filter fun o => o / 256 == l).map fun o =>
          Elem.mk 0 .dram (s.cellOf x (va o)) 1 ((s.byteIn .scratch (scrKey t.coreKey (t.base + m.off + o))).setWidth 64) (va o) none 0
        if x.dev = s.fabric.toNat then
          let held := es.filter fun e => s.leased m.rights .write e.va 1
          let s := if held.length = es.length then s else s.postedFault group 0x10#8 t.home (va (256 * l)) pc
          if held = [] then s else { s with net := s.net ++ [.store ⟨frag, group, pc, m.rights, x.home, held, x.ord, owners⟩] }
        else s.fabSend t.coreKey m.rights x.dev 0x04#5 es owners false (x.ord == 0) 0 none x.bnd) s1
/-- R214, R215: whether a write-back that no fragment here waits for, of an address space, has bytes from `va` on that are not yet performed: of a
save, a retirement or a fragment away. -/
def State.backPending (s : State) (asid : Nat) (va : DWord) (n : Nat) : Bool :=
  let meets := fun (x : DWord) => decide (va.toNat ≤ x.toNat ∧ x.toNat < va.toNat + n)
  (s.net.any fun m => match m with | .store r => r.owners.isEmpty && r.rights.asid == asid && r.elems.any fun e => meets e.va | _ => false) ||
    s.remote.any fun r => r.owners.isEmpty && r.asker.isNone && r.asid == asid && r.vas.any meets

/-- R215: the pages of a global range: the part of the range on each 64 KiB page. -/
def rangeParts (g : DWord) (n : Nat) : List Addr :=
  let first := 2 ^ 16 - g.toNat % 2 ^ 16
  if n ≤ first then [⟨0, g, n⟩]
  else ⟨0, g, first⟩ :: (List.range ((n - first + 2 ^ 16 - 1) / 2 ^ 16)).map fun i =>
    ⟨0, g + BitVec.ofNat 64 (first + i * 2 ^ 16), min (2 ^ 16) (n - first - i * 2 ^ 16)⟩
/-- R215: the checks of a mapped range, as a load: lease, protection, generation and straddle. -/
def State.checkRange (s : State) (core : Nat) (r : Rights) (as : List Addr) : Option FaultRec :=
  match s.checkGlobal core r .read 1 false as with
  | some x => some x
  | none =>
    let b0 := (as.head?.map fun a => (s.leafOf core r.asid a.va).bnd).getD false
    let mixed := as.filter fun a => (s.leafOf core r.asid a.va).bnd != b0
    if mixed.isEmpty then none else some (faultAt 0x14#8 0 mixed)

/-- R215: SPMAP for a team, with the core that translates, the rights of the range, and the fragment, group, address and owners of what it writes
back: the state after it and CFLAGS.E, or its fault. -/
def State.spmap (s : State) (team core : Nat) (r : Rights) (frag group : Nat) (pc : DWord) (owners : List Nat) (g b : DWord) : Except FaultRec (State × Bool) :=
  let o := fld b 0 32
  let n := fld b 32 32
  let t := s.team team
  if g.toNat % 256 ≠ 0 ∨ o % 256 ≠ 0 ∨ n % 256 ≠ 0 then .error (faultAt 0x13#8 0 [⟨0, g, 1⟩])
  else if n = 0 then
    match t.maps.find? fun e => e.2.off == o with
    | some (e, _) =>
      let s1 := s.writeBack team e (fun _ => true) frag group pc owners
      .ok (s1.setTeam team { s1.team team with maps := (s1.team team).maps.del e, fills := (s1.team team).fills.filter fun x => x.1 != e }, false)
    | none => .ok (s, true)
  else if t.size < o + n then .error (faultAt 0x11#8 0 [⟨0, BitVec.ofNat 64 o, 1⟩])
  else
    let as := rangeParts g n
    match s.checkRange core r as with
    | some x => .error x
    | none =>
      let s1 := s.cache core r.asid (as.map (·.va))
      let free := (List.range 8).find? fun e => (t.maps.find e).isNone
      let clash := t.maps.any fun e => decide (e.2.off < o + n ∧ o < e.2.off + e.2.len)
      match free with
      | some e =>
        if clash then .ok (s1, true)
        else
          let w := as.all fun x => s.leased r .write x.va x.size && (s.leafOf core r.asid x.va).w
          .ok (s1.setTeam team { t with maps := t.maps.ins e ⟨o, n, g, (s.leafOf core r.asid g).bnd, w, [], [], r⟩ }, false)
      | none => .ok (s1, true)
/-- R215: SPMAP. -/
def execSpmap (a b : RegNum) (s : State) : Host.Outcome State Fault Refusal :=
  finish s (s.clean [.s a, .s b]
    (if s.g.dev ≠ s.fabric.toNat then
      (s.scratchAway (.spmap (s.sv a) (s.sv b)) []).act fun x s => .done (s.setE ((KMap.find x.vals 0).getD 0 != 0))
     else
      match s.spmap s.g.team s.f.coreKey s.g.rights s.cur s.f.group s.f.pc [s.cur] (s.sv a) (s.sv b) with
      | .error x => .fault x
      | .ok x => .done (x.1.setE x.2)))

/-- R215: whether a line of a mapped range meets the range of SPFLUSH. -/
def MapEnt.meets (m : MapEnt) (a b : DWord) (l : Nat) : Bool :=
  decide (0 < b.toNat ∧ a.toNat < m.off + 256 * l + 256 ∧ m.off + 256 * l < a.toNat + b.toNat)
/-- R215: whether a range has dirty bytes still to be written back. -/
def State.flushDue (s : State) (team : Nat) (a b : DWord) : Bool := (s.team team).maps.any fun e => e.2.dirty.any fun o => e.2.meets a b (o / 256)
/-- R215: the write-back of a range. -/
def State.flushRange (s : State) (team frag group : Nat) (pc : DWord) (owners : List Nat) (a b : DWord) : State :=
  (s.team team).maps.foldl (fun s e => s.writeBack team e.1 (e.2.meets a b) frag group pc owners) s
/-- R238: of the dirty lines in a range that lie on SO pages, the entry and page of the lowest global address. -/
def State.soLine (s : State) (team : Nat) (a b : DWord) : Option (Nat × Nat) :=
  let t := s.team team
  let xs := t.maps.flatMap fun e => (e.2.dirty.filter fun o => e.2.meets a b (o / 256)).filterMap fun o =>
    let va := e.2.gva + BitVec.ofNat 64 o
    let x := s.leafOf t.coreKey e.2.rights.asid va
    if x.ord = 0 then some (e.1, va.toNat - va.toNat % (if x.big then 2 ^ 21 else 2 ^ 16)) else none
  match (xs.map (·.2)).min? with
  | some p => xs.find? fun x => x.2 == p
  | none => none
/-- R215, R238: the next write-backs of a range: those of the lowest SO page, once `clear` says that the accesses before them have been performed;
with none left on SO pages, all. -/
def State.flushNext (s : State) (team frag group : Nat) (pc : DWord) (owners : List Nat) (a b : DWord) (clear : Bool) : State :=
  match s.soLine team a b with
  | none => s.flushRange team frag group pc owners a b
  | some (e, p) =>
    let m := (s.team team).maps.find e
    let onPage := fun (l : Nat) => match m with
      | some m =>
        let va := m.gva + BitVec.ofNat 64 (256 * l)
        m.meets a b l && va.toNat - va.toNat % (if (s.leafOf (s.team team).coreKey m.rights.asid va).big then 2 ^ 21 else 2 ^ 16) == p
      | none => false
    if clear then s.writeBack team e onPage frag group pc owners else s
/-- R215: whether a write-back of a range for a fragment away is not yet performed. -/
def State.flushBusy (s : State) (team : Nat) (a b : DWord) : Bool :=
  (s.team team).maps.any fun e => (List.range (e.2.len / 256)).any fun l => e.2.meets a b l && s.backPending e.2.rights.asid (e.2.gva + BitVec.ofNat 64 (256 * l)) 256
/-- R215: SPFLUSH: it is held until what it writes back has been performed. -/
def execSpflush (a b : RegNum) (s : State) : Host.Outcome State Fault Refusal :=
  let x := s.sv a
  let y := s.sv b
  finish s (s.clean [.s a, .s b]
    (if s.g.dev ≠ s.fabric.toNat then (s.scratchAway (.spflush x y) []).act fun _ s => .done s
     else if s.flushDue s.g.team x y then
       .hold ((if (s.soLine s.g.team x y).isSome then s.drainFrag s.cur else s).flushNext s.g.team s.cur s.f.group s.f.pc [s.cur] x y (s.released s.cur true))
     else if s.storesAcked s.cur || !(s.net.any fun m => m.ofFrag s.cur) && !(s.remote.any fun r => r.owners.contains s.cur && !r.wc) then .done s
     else .hold s))

/-- R314: WCFL drains every line that holds the fragment's bytes. -/
def execWcfl (s : State) : Host.Outcome State Fault Refusal := finish s (.done (s.drainFrag s.cur))

/-! Atomics -/

/-- R227: ATOM of either set. -/
def atomAct (d b i : RegNum) (second : Bool) (op o : BitVec 3) (s : State) : Act :=
  let c := s.third d
  let cas := !second && op == 0x7#3
  s.clean (addrSrcs b i s.eff ++ [.v d s.eff] ++ (if cas then [.v c s.eff] else []))
    (s.migrateWord (.atom d b i second op o c s.zeroed) s.eff)
/-- R227: ATOM of the first set; in the word the operation stands in the width field (R79). -/
def execAtom (d b i : RegNum) (o r : BitVec 3) (s : State) : Host.Outcome State Fault Refusal := finish s (atomAct d b i false o r s)
/-- R227: ATOM of the second set. -/
def execAtomF (d b i : RegNum) (o r : BitVec 3) (s : State) : Host.Outcome State Fault Refusal := finish s (atomAct d b i true o r s)
/-- R228: ATP. -/
def execAtp (d b i : RegNum) (o r : BitVec 3) (s : State) : Host.Outcome State Fault Refusal :=
  finish s (s.clean (addrSrcs b i s.eff ++ [.v d s.eff])
    (s.storeWord true .atom r 4 (s.vreg d).bnd
      ((vecElems s b i 4 fun l => (s.vl d l).toNat).map fun e => { e with op := some (atpOf o) }) id))

end Sys2Proof.Machine
end

