-- ==== Sys2Proof/Machine/Far.lean ====
section
/-! DEFINITION. Reads that engines, walks, the map unit and held words make as plain .dev loads at the homes of their addresses
(R189, R198, R214, R303, R305): at this device at once, at another as a request whose answer they await. -/

namespace Sys2Proof.Machine

/-- The checks of reads, then the reads. Their lane is 0 (R217). -/
def State.readVas (s : State) (k : Asker) (core : Nat) (r : Rights) (size : Nat) (vas : List DWord) : Got (List (DWord × Bool)) :=
  let as := vas.map fun va => Addr.mk 0 va size
  match s.checkGlobal core r .read size false as with
  | some x => .stop x
  | none => s.gather k core r as

/-- The first value read in error as POISON with its address (R202, R308). -/
def badRead (vas : List DWord) (xs : List (DWord × Bool)) : Option FaultRec :=
  ((vas.zip xs).find? fun x => x.2.2).map fun x => faultOf 0x19#8 x.1

/-- Bytes of scratchpad at a generic address, or the fault of reaching them (R212, R217, R255, R298). -/
def State.scrBytes (s : State) (team asid : Nat) (a : DWord) (n : Nat) (store : Bool) : Except FaultRec Nat :=
  if 2 ^ 19 ≤ a.toNat then .error (faultAt 0x11#8 0 [⟨0, a, n⟩])
  else match s.scrAt team asid a n store with
  | .ok t => if t.window then .error (faultAt 0x11#8 0 [⟨0, a, n⟩]) else .ok (scrKey t.core t.off)
  | .error e => .error (faultAt e.1 e.2 [⟨0, a, n⟩])

end Sys2Proof.Machine
end

