-- ==== Sys2Proof/Machine/Fibre.lean ====
section
/-! DEFINITION. Fibre and stream registers (R186 to R194) and the words OPEN, ADV, TEND, CLOSE and FLDC. -/

namespace Sys2Proof.Machine

/-! Descriptors -/

/-- R187: a descriptor's image as a number. -/
def Fib.ofBits (x : BitVec 512) : Fib where
  kind := x.extractLsb' 4 4
  fmt := x.extractLsb' 0 4
  ptr := x.extractLsb' 448 64
  arr := x.extractLsb' 384 64
  row0 := x.extractLsb' 352 32
  nrow := x.extractLsb' 320 32
  len := x.extractLsb' 288 32
  aux := x.extractLsb' 256 32
  crow := x.extractLsb' 224 32
  pos := x.extractLsb' 192 32
  fin := x.extractLsb' 160 32
  scan := x.extractLsb' 128 32
/-- R187: the image of a register. -/
def Fib.bits (f : Fib) : BitVec 512 :=
  f.ptr ++ f.arr ++ f.row0 ++ f.nrow ++ f.len ++ f.aux ++ f.crow ++ f.pos ++ f.fin ++ f.scan ++ 0x0#120 ++ f.kind ++ f.fmt

/-- R186: CSR or CSC. -/
def Fib.rows (f : Fib) : Bool := f.kind == 0x1#4 || f.kind == 0x2#4
/-- R188: whether a sel names a stream register. -/
def isStream (x : BitVec 6) : Bool := decide (8 ≤ x.toNat)
/-- R194: why a descriptor is refused, for a register of a class; `res0` is whether a res0 bit is set. Where several conditions hold, the lowest
reason is reported (DESIGN CHOICE, log 59). -/
def Fib.refusal (f : Fib) (stream res0 : Bool) : Option Nat :=
  let k := f.kind.toNat
  if !(if stream then k == 8 else 1 ≤ k && k ≤ 5) then some 1
  else if (if stream then f.fmt == 0x5#4 || f.fmt == 0x6#4 || f.fmt == 0x7#4 || f.fmt == 0xB#4 || f.fmt == 0xF#4 else f.fmt != 0xD#4 && f.fmt != 0xE#4) then some 2
  else if res0 || (!f.rows && f.ptr != 0) || (k != 4 && f.aux != 0) || (f.rows && f.len != 0) || (!f.rows && f.nrow != 1) then some 3
  else if (f.rows && (f.nrow == 0 || decide (2 ^ 24 < f.nrow.toNat))) || (k == 4 && decide (2 ^ 20 < f.len.toNat)) || (k == 5 && decide (65536 < f.len.toNat)) then some 5
  else none
/-- R194: FIBRE_FMT with a reason and a sel. -/
def fibFault (reason : Nat) (sel : BitVec 6) : FaultRec := faultOf 0x32#8 (BitVec.ofNat 64 (reason + 256 * sel.toNat))
/-- R190: ROWPTR with a sel and a row. -/
def rowFault (sel : BitVec 6) (row : Nat) : FaultRec := faultOf 0x30#8 (sel.setWidth 64) (BitVec.ofNat 64 row)

/-! Arrays -/

/-- R186: bytes of a coordinate or pointer, and of a stream's value. -/
def Fib.width (f : Fib) : Nat := if f.kind = 0x8#4 then fmtBits f.fmt.toNat / 8 else if f.fmt = 0xD#4 then 2 else 4
/-- R186: address of pointer `i`. -/
def Fib.ptrAt (f : Fib) (i : Nat) : DWord := f.ptr + BitVec.ofNat 64 (f.width * i)
/-- R186: element size and addresses of the array over its full length, for a kind without rows. -/
def Fib.whole (f : Fib) : Nat × List DWord :=
  match f.kind.toNat with
  | 4 => (1, (List.range ((f.len.toNat + 7) / 8)).map fun i => f.arr + BitVec.ofNat 64 i)
  | 5 => (8, (List.range f.len.toNat).map fun i => f.arr + BitVec.ofNat 64 (8 * i))
  | _ => (f.width, (List.range f.len.toNat).map fun i => f.arr + BitVec.ofNat 64 (f.width * i))
/-- R186: the elements from `a` to `b − 1` of a coordinate array. -/
def Fib.span (f : Fib) (a b : Nat) : List DWord := (List.range (b - a)).map fun i => f.arr + BitVec.ofNat 64 (f.width * (a + i))

/-- R186: whether a bit of a bitmap, its bytes given, is set. -/
def bitOf (bytes : List (DWord × Bool)) (j : Nat) : Bool := ((bytes[j / 8]?).getD (0, false)).1.getLsbD (j % 8)
/-- R186: the set bits of a bitmap. -/
def Fib.setBits (f : Fib) (bytes : List (DWord × Bool)) : List Nat := (List.range f.len.toNat).filter fun j => bitOf bytes j
/-- R186: the sum of the run lengths. -/
def runSum (blocks : List (DWord × Bool)) : Nat := blocks.foldl (fun n b => n + fld b.1 32 32) 0
/-- R186: the coordinate at a position of run-length blocks, and whether its block was read in error. -/
def runCoord (blocks : List (DWord × Bool)) (p : Nat) : Word × Bool :=
  match blocks with
  | [] => (0, false)
  | b :: r => if p < fld b.1 32 32 then (BitVec.ofNat 32 (fld b.1 0 32 + p), b.2) else runCoord r (p - fld b.1 32 32)

/-- R186: element size and addresses to be read for the element at a position: of a bitmap or run-length array, all of it each time (DESIGN CHOICE,
log 59). -/
def Fib.reads (f : Fib) (p : Nat) : Nat × List DWord :=
  match f.kind.toNat with
  | 4 => f.whole
  | 5 => f.whole
  | _ => (f.width, [f.arr + BitVec.ofNat 64 (f.width * p)])
/-- R186: the element at a position from what was read, and whether it was read in error. -/
def Fib.coord (f : Fib) (p : Nat) (xs : List (DWord × Bool)) : Word × Bool :=
  match f.kind.toNat with
  | 4 =>
    match (f.setBits xs)[p]? with
    | some j => (f.aux + BitVec.ofNat 32 j, ((xs[j / 8]?).getD (0, false)).2)
    | none => (0, false)
  | 5 => runCoord xs p
  | _ =>
    match xs with
    | x :: _ => (x.1.setWidth 32, x.2)
    | [] => (0, false)
/-- R31, R51, R191: a stream's value widened to a lane. -/
def widenFmt (fmt : BitVec 4) (x : Word) : Word :=
  match fpOf fmt.toNat, intOf fmt.toNat with
  | some F, _ => if fmt = 0 then x else toF32 .rne (F.decode (x.toNat % 2 ^ F.width))
  | none, some (w, sg) => BitVec.ofInt 32 (intVal w sg (x.toNat % 2 ^ w))
  | none, none => x

/-! The words -/

def Group.fib (g : Group) (n : Nat) : Fib := g.fibs.get Fib.closed n
def Group.setFib (g : Group) (n : Nat) (f : Fib) : Group := { g with fibs := g.fibs.put Fib.closed n f }
/-- R188, R193: whether a word of another fragment of the group, which names a register, has issued and awaits its reads: later words of the register
see it after that word. -/
def State.fibBusy (s : State) (x : Nat) : Bool :=
  (s.fragsOf s.f.group).any fun e => e.1 != s.cur && e.2.held && (e.2.advances == some x || s.asking e.1 && majorOf e.2.word == 0x34 && fld e.2.word 6 6 == x)
/-- R188: a word of an open register: placement, poison, then the register must be open. -/
def openCheck (s : State) (srcs : List Src) (x : BitVec 6) (k : Act) : Act :=
  orFault (s.placement false) (s.clean srcs
    (if s.fibBusy x.toNat then .hold s else if (s.g.fib x.toNat).kind = 0 then .fault (fibFault 4 x) else k))
/-- R191: whether accesses of fibre words wait (R238). -/
def fibHeld (s : State) (as : List DWord) : Bool :=
  s.accessHeld s.cur || ((as.head?.map fun a => (s.leafOf s.f.coreKey s.g.rights.asid a).ord == 0).getD false && !s.released s.cur true)

/-- R189: OPEN of a CSR or CSC descriptor. -/
def openRows (s : State) (D : Fib) (x : BitVec 6) : Act :=
  let core := s.f.coreKey
  let r := s.g.rights
  let n := D.nrow.toNat
  let ends := [D.ptrAt 0, D.ptrAt n, D.ptrAt 1]
  match s.checkGlobal core r .read D.width false ((List.range (n + 1)).map fun i => ⟨0, D.ptrAt i, D.width⟩) with
  | some e => .fault e
  | none =>
    if fibHeld s ends then .hold s
    else (s.readVas (.frag s.cur) core r D.width ends).act fun xs s =>
      let v := fun i => ((xs[i]?).getD (0, false)).1.toNat
      orFault (badRead ends xs)
        (if v 1 < v 0 then .fault (rowFault x (D.row0.toNat + n - 1))
         else orFault (s.checkGlobal core r .read D.width false ((D.span (v 0) (v 1)).map fun a => ⟨0, a, D.width⟩))
          (if v 2 < v 0 ∨ v 1 < v 2 then .fault (rowFault x D.row0.toNat)
           else .done (s.setG (s.g.setFib x.toNat { D with crow := D.row0, scan := 0, pos := BitVec.ofNat 32 (v 0), fin := BitVec.ofNat 32 (v 2) }))))
/-- R189: OPEN of a descriptor of one row. -/
def openRow (s : State) (D : Fib) (x : BitVec 6) : Act :=
  let core := s.f.coreKey
  let r := s.g.rights
  let w := D.whole
  let set := fun (s : State) (n : Nat) => Act.done (s.setG (s.g.setFib x.toNat { D with crow := D.row0, scan := 0, pos := 0, fin := BitVec.ofNat 32 n }))
  match s.checkGlobal core r .read w.1 false (w.2.map fun a => ⟨0, a, w.1⟩) with
  | some e => .fault e
  | none =>
    if fibHeld s w.2 then .hold s
    else if D.kind = 0x4#4 then
      (s.readVas (.frag s.cur) core r 1 w.2).act fun xs s => orFault (badRead w.2 xs) (set s (D.setBits xs).length)
    else if D.kind = 0x5#4 then
      (s.readVas (.frag s.cur) core r 8 w.2).act fun xs s =>
        orFault (badRead w.2 xs) (if 2 ^ 32 - 1 < runSum xs then .fault (fibFault 5 x) else set s (runSum xs))
    else set s D.len.toNat
/-- R189: OPEN. -/
def execOpenReg (a : RegNum) (x : BitVec 6) (s : State) : Host.Outcome State Fault Refusal :=
  let sa := s.sv a
  finish s (orFault (s.placement true) (s.clean [.s a]
    (if sa.toNat % 64 ≠ 0 then .fault (faultAt 0x13#8 0 [⟨0, sa, 64⟩])
     else
      match s.scrBytes s.g.team s.g.rights.asid sa 64 false with
      | .error e => .fault e
      | .ok key =>
        let img : BitVec 512 := BitVec.ofNat 512 (s.valIn .scratch key 64)
        let D := Fib.ofBits img
        s.afterStores key 64 (match D.refusal (isStream x) (fld img 8 120 != 0) with
          | some n => .fault (fibFault n x)
          | none => if s.fibBusy x.toNat then .hold s else if D.rows then openRows s D x else openRow s D x))))

/-- R190: the end of ADV. -/
def advSet (s : State) (x : BitVec 6) (f : Fib) : Act := .done ((s.setG (s.g.setFib x.toNat f)).setE (f.pos == f.fin))
/-- R190: ADV. No word moves SCAN, which is for the device's use; and a CROW of ROW0 + NROW beyond 2^32 − 1 is held modulo 2^32 (DESIGN CHOICE,
log 59). -/
def execAdv (a : RegNum) (x : BitVec 6) (s : State) : Host.Outcome State Fault Refusal :=
  let f := s.g.fib x.toNat
  let sa := s.sv a
  let n := fld sa 0 32
  let r := f.crow.toNat + n
  let last := f.row0.toNat + f.nrow.toNat
  finish s (openCheck s [.s a] x
    (if sa.getLsbD 63 = false then advSet s x { f with pos := BitVec.ofNat 32 (min (f.pos.toNat + n) f.fin.toNat) }
     else if last ≤ r then advSet s x { f with crow := BitVec.ofNat 32 last, pos := f.fin }
     else if f.rows then
      let i := r - f.row0.toNat
      let vas := [f.ptrAt 0, f.ptrAt f.nrow.toNat, f.ptrAt i, f.ptrAt (i + 1)]
      if fibHeld s vas then .hold (s.setF { s.f with advances := some x.toNat })
      else (s.readVas (.frag s.cur) s.f.coreKey s.g.rights f.width vas).act fun xs s =>
        let v := fun i => ((xs[i]?).getD (0, false)).1.toNat
        orFault (badRead vas xs)
          (if v 3 < v 2 ∨ v 2 < v 0 ∨ v 1 < v 3 then .fault (rowFault x r)
           else advSet s x { f with crow := BitVec.ofNat 32 r, pos := BitVec.ofNat 32 (v 2), fin := BitVec.ofNat 32 (v 3) })
     else advSet s x { f with pos := 0 }))

/-- R188: the rank of a lane among the active lanes. -/
def rankOf (act : Mask) (l : Nat) : Nat := ((List.range l).filter fun i => act.getLsbD i).length
/-- R191: TEND. -/
def execTend (d : BitVec 3) (x : BitVec 6) (s : State) : Host.Outcome State Fault Refusal :=
  let f := s.g.fib x.toNat
  finish s (openCheck s [] x (.done ((s.wrCond d fun l => decide (f.pos.toNat + rankOf s.active l < f.fin.toNat)).setE (f.pos == f.fin))))
/-- R192: CLOSE. -/
def execCloseReg (x : BitVec 6) (s : State) : Host.Outcome State Fault Refusal :=
  finish s (orFault (s.placement false) (if s.fibBusy x.toNat then .hold s else .done (s.setG (s.g.setFib x.toNat
    (if (s.g.fib x.toNat).kind = 0 then s.g.fib x.toNat else Fib.closed)))))

/-- R191: FLDC of a bitmap or run-length register: the array is read to find the coordinates. -/
def fldcScan (s : State) (d : RegNum) (f : Fib) (lanes : Mask) (posOf : Nat → Nat) : Act :=
  let core := s.f.coreKey
  let r := s.g.rights
  let w := f.whole
  (s.readVas (.frag s.cur) core r w.1 w.2).act fun xs s =>
    let got := (lanesIn lanes).map fun l => (l, f.coord (posOf l) xs)
    .done (s.sectorOuts s.cur (s.src.vEnt d) (.sector false) lanes 0 lanes (got.map fun g => (g.1, g.2.1.setWidth 64)) false
      (maskOf fun l => got.any fun g => g.1 == l && g.2.2))

/-- R191, R221: reads at homes, a request for each list of elements; `conv` as OutKind has it. -/
def State.sendReads (s : State) (e : Nat) (whole : Mask) (acq : Bool) (conv ord : Nat) (bnd : Bool) (reqs : List (Nat × List Elem)) : State :=
  let n := s.cur
  let f := s.f
  let r := s.g.rights
  reqs.foldl (fun s q =>
    let id := s.newId.1
    let s := s.newId.2.addOut n ⟨.remote id acq conv, .v e, maskOf fun l => q.2.any fun x => x.lane == l, whole, lanesOf fun _ => 0, 0, bnd, 0x0#96⟩
    { s with net := s.net ++ [.read ⟨n, f.group, f.pc, r, q.1, q.2, ord, [n]⟩ id] }) s

/-- R191, R238: FLDC of elements on SO pages: page by page, in ascending page address, each when what was read before has returned. -/
def fldcSo (s : State) (d : RegNum) (f : Fib) (lanes : Mask) (ps : List PageReq) : Act :=
  let whole := if s.f.sent = 0 then lanes else 0x0#96
  let next := fun (s : State) (rest : List PageReq) =>
    if rest = [] then Act.done (s.setF { s.f with sent := 0, kept := [] }) else .hold (s.setF { s.f with sent := s.f.sent + 1, kept := ps.flatMap (·.elems) })
  match ps.drop s.f.sent with
  | [] => .done (s.setF { s.f with sent := 0, kept := [] })
  | p :: rest =>
    if p.dev = s.fabric.toNat then next (s.sendReads (s.src.vEnt d) whole true (16 + f.fmt.toNat) 0 false [(p.home, p.elems)]) rest
    else (s.gather (.frag s.cur) s.f.coreKey s.g.rights (p.elems.map fun e => ⟨e.lane, e.va, e.size⟩)).act fun xs s =>
      let got := (p.elems.zip xs).map fun x => (x.1.lane, x.2)
      next (s.sectorOuts s.cur (s.src.vEnt d) (.sector true) (maskOf fun l => got.any fun g => g.1 == l) 0 whole
        (got.map fun g => (g.1, (widenFmt f.fmt (g.2.1.setWidth 32)).setWidth 64)) false (maskOf fun l => got.any fun g => g.1 == l && g.2.2)) rest
/-- R191, R238: FLDC of an array of elements: each is read at its home; those on SO pages page by page. -/
def fldcEach (s : State) (d : RegNum) (f : Fib) (lanes : Mask) (posOf : Nat → Nat) : Act :=
  let core := s.f.coreKey
  let r := s.g.rights
  let as := if s.f.sent = 0 then (lanesIn lanes).map fun l => Addr.mk l (f.arr + BitVec.ofNat 64 (f.width * posOf l)) f.width
    else s.f.kept.map fun e => ⟨e.lane, e.va, e.size⟩
  match s.checkGlobal core r .read f.width false as with
  | some e => .fault e
  | none =>
    if fibHeld s (as.map (·.va)) then .hold s
    else
      let near := as.filter fun a => (s.leafOf core r.asid a.va).dev == s.fabric.toNat
      let far := as.filter fun a => (s.leafOf core r.asid a.va).dev != s.fabric.toNat
      let ps := s.pages core r (near.map fun a => Elem.mk a.lane .dram 0 a.size 0 a.va none 0)
      let so := ((as.head?.map fun a => (s.leafOf core r.asid a.va).ord).getD 1) == 0
      let here := fun (p : PageReq) => p.home == s.f.home
      let away := ps.filter fun p => !here p
      let reqs := (away.map (·.home)).eraseDups.map fun h => (h, (away.filter fun p => p.home == h).flatMap (·.elems))
      if so then fldcSo (s.cache core r.asid (as.map (·.va))) d f lanes (s.pages core r (as.map fun a => Elem.mk a.lane .dram 0 a.size 0 a.va none 0))
      else if !s.served ((ps.filter here).flatMap (·.elems)) then .hold (s.waitFor ps)
      else (s.gather (.frag s.cur) core r far).act fun xs s =>
        let got := ((ps.filter here).flatMap (·.elems)).map (fun e => (e.lane, s.readElem e)) ++ (far.zip xs).map fun x => (x.1.lane, x.2)
        let s1 := s.sectorOuts s.cur (s.src.vEnt d) (.sector false) (maskOf fun l => got.any fun g => g.1 == l) 0 lanes
          (got.map fun g => (g.1, (widenFmt f.fmt (g.2.1.setWidth 32)).setWidth 64)) false (maskOf fun l => got.any fun g => g.1 == l && g.2.2)
        .done ((s1.sendReads (s.src.vEnt d) lanes false (16 + f.fmt.toNat) ((ps.head?.map (·.ord)).getD 1) false reqs).cache core r.asid (near.map (·.va)))

/-- R191: FLDC: the lanes that have an element are written. -/
def execFldc (d : RegNum) (x : BitVec 6) (s : State) : Host.Outcome State Fault Refusal :=
  let f := s.g.fib x.toNat
  let posOf := fun l => f.pos.toNat + rankOf s.active l
  let lanes := maskOf fun l => s.active.getLsbD l && decide (posOf l < f.fin.toNat)
  finish s (openCheck s [] x
    (if lanes = 0x0#96 then .done s
     else if f.kind = 0x4#4 ∨ f.kind = 0x5#4 then
      (if fibHeld s f.whole.2 then .hold s else fldcScan s d f lanes posOf)
     else fldcEach s d f lanes posOf))

end Sys2Proof.Machine
end

