-- ==== Sys2Proof/Machine/Launch.lean ====
section
/-! DEFINITION. Launch (R288 to R298, R322, R327): launch records and lease lists, the host queues, the creation, dispatch, placement
and retirement of grids, teams and groups, and the words LAUNCH and LSTAT. -/

namespace Sys2Proof.Machine

/-! Records -/

/-- R290: a launch record from its 64 bytes. -/
def LaunchRec.ofBits (x : BitVec 512) : LaunchRec where
  entry := x.extractLsb' 448 64
  args := x.extractLsb' 384 64
  lease := x.extractLsb' 320 64
  done := x.extractLsb' 256 64
  inc := x.extractLsb' 224 32
  scratch := fld x 192 32
  teams := fld x 176 16 + 1
  weight := max 1 (fld x 168 8)
  prio := fld x 166 2
  groups := fld x 162 4 + 1
  tiles := fld x 158 4
  nlease := fld x 152 6
  depv := x.getLsbD 151
  depGrid := fld x 100 28
  depMul := fld x 80 16
  depOff := (x.extractLsb' 48 32).toInt
  depWidth := fld x 32 16
/-- R291: a lease-list entry, and whether it is refused. -/
def leaseEnt (x : BitVec 128) : LeaseEnt × Bool :=
  (⟨fld x 64 64, fld x 0 48, fld x 62 2 == 2⟩, fld x 62 2 == 0 || fld x 62 2 == 3 || fld x 48 14 != 0 || fld x 0 48 == 0)

/-- R292, R298: why a record is refused: reason, and the offset that TRAPINFO2 reports. `parent` holds the leases of the parent grid
of a child, `next` the partition's next GRIDID. -/
def refusal (x : BitVec 512) (ls : List (LeaseEnt × Bool)) (parent : Option (List LeaseEnt)) (next : Nat) : Option (Nat × Nat) :=
  let r := LaunchRec.ofBits x
  let bad := (ls.findIdx? fun e => e.2)
  let loose := match parent with
    | some ps => ls.findIdx? fun e => !ps.any fun p => decide (p.base ≤ e.1.base ∧ e.1.base + e.1.len ≤ p.base + p.len) && (p.rw || !e.1.rw)
    | none => none
  if fld x 0 32 != 0 then some (2, 0)
  else if fld x 96 4 != 0 then some (2, 12)
  else if fld x 128 23 != 0 then some (2, 16)
  else if 8 < r.tiles then some (2, 19)
  else if r.scratch % 64 ≠ 0 ∨ 262144 < r.scratch then some (2, 24)
  else if r.lease.toNat % 16 ≠ 0 then some (2, 40)
  else
    match bad with
    | some i => some (2, 2 ^ 63 + 16 * i)
    | none =>
      if r.done.toNat % 4 ≠ 0 then some (2, 32)
      else if 16 < r.tiles * r.groups then some (3, 19)
      else
        match loose with
        | some i => some (4, 2 ^ 63 + 16 * i)
        | none => if r.depv ∧ (r.depGrid = 0 ∨ next ≤ r.depGrid) then some (5, 12) else none

/-! Grids -/

/-- R294: a grid takes the next GRIDID of its partition and its completion bitmap. -/
def State.nameGrid (s : State) (k : Nat) (g : Grid) : State :=
  let id := (s.part g.part).nextGrid
  (s.setPart g.part { s.part g.part with nextGrid := id + 1 }).setGrid k
    { g with alive := true, gridid := BitVec.ofNat 28 id, bitmap := [], rights := { g.rights with grid := if g.formation then g.rights.grid else id } }

/-- R322: a lease-table entry. -/
def leaseBits (gridid asid idx : Nat) (e : LeaseEnt) : BitVec 256 :=
  BitVec.ofNat 256 (gridid * 2 ^ 228 + (if e.rw then 2 else 1) * 2 ^ 226 + 2 ^ 224 + asid * 2 ^ 208 + idx * 2 ^ 200 + e.len * 2 ^ 64 + e.base)
/-- R322: free entries of a partition's lease table, ascending. -/
def State.freeLeases (s : State) (part : Nat) : List Nat :=
  ((List.range 4096).map fun i => 4096 * part + i).filter fun k => (s.leases.find k).isNone
/-- R322: whether the table has room for a grid's leases. -/
def State.leaseRoom (s : State) (g : Grid) : Bool := decide (g.leases.length ≤ (s.freeLeases g.part).length)
/-- R322: a grid's leases are entered. -/
def State.enterLeases (s : State) (g : Grid) : State :=
  let rows := (s.freeLeases g.part).zip (g.leases.mapIdx fun i e => leaseBits g.gridid.toNat g.rights.asid i e)
  { s with leases := rows.foldl (fun m r => m.ins r.1 r.2) s.leases }
/-- R322: a grid's leases are freed. -/
def State.dropLeases (s : State) (g : Grid) : State :=
  { s with leases := s.leases.filter fun e => !(e.1 / 4096 == g.part && fld e.2 228 28 == g.gridid.toNat) }
/-- R211: whether every page from an address on has a valid leaf; `fuel` bounds the pages. -/
def State.pagesValid (s : State) (asid : Nat) (va stop fuel : Nat) : Bool :=
  match fuel with
  | 0 => true
  | n + 1 =>
    if stop ≤ va then true
    else
      match s.walk asid (BitVec.ofNat 64 va) with
      | .ok x => let p := if x.big then 2 ^ 21 else 2 ^ 16; s.pagesValid asid (va - va % p + p) stop n
      | .error _ => false
/-- R211: whether every range of a grid's lease list is resident. -/
def State.leasesResident (s : State) (g : Grid) : Bool :=
  g.leases.all fun e => s.pagesValid g.rights.asid e.base (e.base + e.len) (e.len / 2 ^ 16 + 2)

/-- R295: whether a team of a grid may be placed as far as its producer goes. -/
def State.depMet (s : State) (g : Grid) (t : Nat) : Bool :=
  !g.rcd.depv ||
    (match s.grids.find? fun e => e.2.alive && e.2.part == g.part && e.2.gridid.toNat == g.rcd.depGrid with
     | some (_, p) =>
       let at' : Int := (g.rcd.depMul * t : Nat) + g.rcd.depOff
       let lo := at'.toNat
       let hi := min ((p.rcd.teams : Int) - 1) (at' + g.rcd.depWidth)
       (List.range p.rcd.teams).all fun i => !(decide (lo ≤ i ∧ (i : Int) ≤ hi)) || p.bitmap.contains i
     | none => true)

/-! Cores -/

/-- R365, R374: whether a core is present and belongs to a partition. -/
def State.coreOf (s : State) (part core : Nat) : Bool :=
  decide (core < 3072) && (s.part part).homes.getLsbD (core / 256) && (s.fuseOf (core / 256)).home && (s.fuseOf (core / 256)).cores.getLsbD (core % 256)
/-- R294: the teams that hold a core. -/
def State.teamsOn (s : State) (core : Nat) : List (Nat × Team) := s.teams.filter fun e => s.holdsCore e.2 && e.2.coreKey == core
/-- R167: tile frames in use on a core. -/
def State.framesUsed (s : State) (core : Nat) : Nat :=
  ((s.groups.filter fun g => g.2.alive && (s.teamsOn core).any fun t => t.1 == g.2.team).map (·.2.ntiles)).foldl (· + ·) 0
/-- R294: the lowest place for a reservation of a size, if there is one. -/
def State.fitAt (s : State) (core size : Nat) : Option Nat :=
  let ts := (s.teamsOn core).map fun t => (t.2.base, t.2.base + t.2.size)
  (sortBy (fun a b => decide (a ≤ b)) (0 :: ts.map (·.2))).find? fun b => decide (b + size ≤ 262144) && ts.all fun t => decide (b + size ≤ t.1 ∨ t.2 ≤ b)
/-- R294: whether a core has room for a team of a grid. -/
def State.roomFor (s : State) (core : Nat) (r : LaunchRec) : Bool :=
  (s.fitAt core r.scratch).isSome && decide (s.framesUsed core + r.tiles * r.groups ≤ 16) && decide (s.recordsUsed core + r.groups ≤ s.records)

/-- R294: a team's reservation on a core, filled with zeros. -/
def State.openTeam (s : State) (n gridKey tidx core size : Nat) (forming : Bool) : State :=
  let b := (s.fitAt core size).getD 0
  let s := { s with scratch := s.scratch.filter fun e => decide (e.1 < scrKey core b ∨ scrKey core (b + size) ≤ e.1) }
  s.setTeam n ⟨true, gridKey, tidx, core / 256, core % 256, b, size, 0, [], [], [], forming, false, TeamImage.none, []⟩
/-- R48, R159, R294, R318, R326: a new group of a team. One of a host grid takes PC.OVT as it stands. -/
def State.groupFor (s : State) (team : Nat) (gidx : Nat) (g : Grid) (ntiles weight : Nat) : Group :=
  let t := s.team team
  { Group.none with
    alive := true, team := team, gidx := gidx, dev := s.fabric.toNat, depth := g.depth, teamid := BitVec.ofNat 16 t.tidx, gridid := g.gridid
    home := t.home, weight := max 1 weight, ntiles := ntiles, ovt := if g.queue.isSome then (s.part g.part).ovt else g.ovt
    rights := { g.rights with asgen := s.genOf g.rights.asid, keyidx := s.keyOf g.rights.asid, dev := s.fabric.toNat } }
/-- R294: scalars given to a group. -/
def withScalars (xs : List DWord) : Regs := xs.zipIdx.foldl (fun (r : Regs) x => r.writeS x.2 ⟨x.1, false, false⟩) Regs.created
/-- R294: team `tidx` of a grid is placed and its groups start. -/
def State.placeTeam (s : State) (k core tidx : Nat) : State :=
  let g := s.grid k
  let team := s.newId.1
  let s := s.newId.2.openTeam team k tidx core g.rcd.scratch false
  let s := s.setGrid k { s.grid k with placed := tidx + 1 }
  (List.range g.rcd.groups).foldl (fun s i =>
    let n := s.newId.1
    s.newId.2.startGroup n (s.groupFor team i g g.rcd.tiles g.rcd.weight) allLanes g.rcd.entry
      (withScalars [g.rcd.args, BitVec.ofNat 64 tidx, BitVec.ofNat 64 i, BitVec.ofNat 64 g.rcd.teams])) s

/-! Host queues -/

/-- R288: the partition that runs a queue. -/
def State.lqPart (s : State) (q : Lq) : Option Nat :=
  if q.fn = 0 then some q.part.toNat else (List.range 12).find? fun p => (s.part p).vf == q.fn
/-- R289: a record of a queue is done; LQ.HEAD is the oldest that is not. -/
def Lq.finish (q : Lq) (idx : Nat) : Lq := advance { q with done := q.done ++ [idx] } q.done.length.succ
where
  /-- LQ.HEAD passes the records done -/
  advance (q : Lq) (fuel : Nat) : Lq :=
    match fuel with
    | 0 => q
    | n + 1 => if q.done.contains q.head.toNat then advance { q with head := q.head + 1, done := q.done.filter (· != q.head.toNat) } n else q
/-- R293: whether records that a doorbell write exposed are still to be read. -/
def Lq.bellOpen (q : Lq) (a : Nat × Nat) : Bool := decide (1 ≤ (BitVec.ofNat 32 a.1 - q.next).toNat ∧ (BitVec.ofNat 32 a.1 - q.next).toNat < 2 ^ 31)
/-- R289: LQ_TAIL_DOORBELL. -/
def execLqTailDoorbell (fn queue : Nat) (value : BitVec 32) (s : State) : Host.Outcome State Fault Refusal :=
  let q := s.lq queue
  .next (if 64 ≤ queue ∨ (fn ≠ 0 ∧ fn ≠ q.fn.toNat) then s
    else if value = q.tail ∨ 2 ^ 31 ≤ (value - q.tail).toNat then s
    else if 2 ^ q.log2.toNat < (value - q.head).toNat then
      let s := s.setLq queue { q with en := false }
      let s := match s.lqPart q with
        | some p => s.raiseEvent p fun seq => eventRecord 0x85#8 0 0 0 s.fabric.toNat 0 0 seq 0 (BitVec.ofNat 64 queue)
        | none => s
      s.msixFn q.fn.toNat 1
    else s.newId.2.setLq queue { q with tail := value, ages := (q.ages.filter q.bellOpen) ++ [(value.toNat, s.newId.1)] })
/-- R288: LQ_EN_WRITE. -/
def execLqEnWrite (queue : Nat) (value : Bool) (s : State) : Host.Outcome State Fault Refusal :=
  .next (if 64 ≤ queue then s else s.setLq queue { s.lq queue with en := value })

/-- R293: the age of a record: that of the doorbell write that exposed it, then its index. -/
def Lq.ageOf (q : Lq) (idx : Word) : Nat :=
  match q.ages.find? fun a => decide (1 ≤ (BitVec.ofNat 32 a.1 - idx).toNat ∧ (BitVec.ofNat 32 a.1 - idx).toNat < 2 ^ 31) with
  | some (n, age) => age * 2 ^ 33 + (2 ^ 32 - (BitVec.ofNat 32 n - idx).toNat)
  | none => 0
/-- R288: bytes of a ring's address space, as the scheduler reads them. -/
def State.hostBytes (s : State) (asid : Nat) (va : DWord) (n : Nat) : Option Nat := (s.codeBytes asid va n).map leNat
/-- R288, R289: whether a queue's next record can be read. -/
def State.lqReady (s : State) (q : Lq) : Option Nat :=
  match s.lqPart q with
  | some p =>
    let e := s.asEnt q.asid.toNat
    if q.en && q.next != q.tail && (s.part p).en && e.getLsbD 191 && fld e 184 4 == p then some p else none
  | none => none
/-- R289, R292: LAUNCH_RECORD_READ: the next pending record creates its grid or is refused. -/
def execLaunchRecordRead (queue : Nat) (s : State) : Host.Outcome State Fault Refusal :=
  let q := s.lq queue
  .next (match s.lqReady q with
    | none => s
    | some p =>
      let asid := q.asid.toNat
      let s1 := s.setLq queue { q with next := q.next + 1 }
      let refused := (s1.setLq queue (Lq.finish { q with next := q.next + 1 } q.next.toNat)).raiseEvent p fun seq =>
        eventRecord 0x84#8 0 0 0 s.fabric.toNat 0 0 seq 0 (BitVec.ofNat 64 (queue * 2 ^ 32 + q.next.toNat))
      match s.hostBytes asid (q.base + BitVec.ofNat 64 (64 * (q.next.toNat % 2 ^ q.log2.toNat))) 64 with
      | none => refused
      | some x =>
        let bits : BitVec 512 := BitVec.ofNat 512 x
        let r := LaunchRec.ofBits bits
        match (List.range r.nlease).mapM fun i => (s.hostBytes asid (r.lease + BitVec.ofNat 64 (16 * i)) 16).map fun y => leaseEnt (BitVec.ofNat 128 y) with
        | none => refused
        | some ls =>
          match refusal bits ls none (s.part p).nextGrid with
          | some _ => refused
          | none =>
            let k := s1.newId.1
            s1.newId.2.nameGrid k { Grid.none with
              part := p, rights := ⟨asid, s.genOf asid, q.fn == 0, s.keyOf asid, 0, p, s.fabric.toNat⟩, depth := 1, rcd := r
              leases := ls.map (·.1), prio := q.prio.toNat, age := q.ageOf q.next, ovt := (s.part p).ovt, queue := some (queue, q.next.toNat) })

/-! Dispatch -/

/-- R293: the entry of a queue that held a grid frees. -/
def State.freeEntry (s : State) (k : Nat) : State :=
  let g := s.grid k
  let s := match g.queue with | some (q, i) => s.setLq q ((s.lq q).finish i) | none => s
  match g.byTeam with
  | some t => s.setTeam t { s.team t with pend := (s.team t).pend.filter (· != k) }
  | none => s
/-- R354, R356, R357: whether a grid's teams may be placed: its partition is not frozen, and it is neither held nor set aside. -/
def State.mayPlace (s : State) (k : Nat) : Bool :=
  let p := s.part (s.grid k).part
  !p.frozen && !p.swapping && !p.held.contains k && !p.shadow.contains k
/-- R298, R352, R353: whether a child grid's launch or placement waits for a restore: the team that made it is saved, or is to be. -/
def State.issuerHeld (s : State) (g : Grid) : Bool :=
  match g.byTeam with
  | some t => (s.team t).alive && ((s.team t).saved || (s.grid (s.team t).grid).preempted.isSome)
  | none => false
/-- R293: whether a grid is a candidate that could be dispatched with its team 0 on a core. -/
def State.mayDispatch (s : State) (k core : Nat) : Bool :=
  let g := s.grid k
  g.alive && !g.dispatched && !g.stopped && !g.formation && g.preempted.isNone && !s.issuerHeld g && s.mayPlace k &&
    s.coreOf g.part core && s.leaseRoom g && s.leasesResident g && s.depMet g 0 && s.roomFor core g.rcd
/-- R272: an array is erased; its write count stays (R338). -/
def Xar.erase (X : Xar) : Xar := { Xar.fresh with lgen := X.lgen + 1, cgen := X.cgen, writes := X.writes }
/-- R272: the arrays and Tambour systems of homes are erased. -/
def State.erase (s : State) (homes : List Nat) : State :=
  let arrays := homes.flatMap fun h => ((List.range 512).filter fun i => (s.fuseOf h).arrays.getLsbD i).map (512 * h + ·)
  let tambs := homes.flatMap fun h => (List.range 4).map (4 * h + ·)
  let s1 := arrays.foldl (fun s k => s.setXar k (s.xar k).erase) s
  tambs.foldl (fun s k => s.setTamb k { Tamb.fresh with lgen := (s.tamb k).lgen + 1 }) s1
/-- AS.TENANT of a grid. -/
def State.tenantOf (s : State) (k : Nat) : BitVec 12 := BitVec.ofNat 12 (fld (s.asEnt (s.grid k).rights.asid) 208 12)
/-- R272: a tenant's work comes onto a partition's units: the arrays and Tambour systems that another tenant's work last had are erased (log 60). -/
def State.passTo (s : State) (part : Nat) (t : BitVec 12) : State :=
  let p := s.part part
  let s1 := s.setPart part { p with tenant := some t }
  match p.tenant with
  | some u => if u = t then s else s1.erase ((List.range 12).filter fun h => p.homes.getLsbD h)
  | none => s1
/-- R293: a grid goes before another of its partition. -/
def Grid.before (g h : Grid) : Bool := decide (h.prio < g.prio) || (g.prio == h.prio && decide (g.age < h.age))
/-- R293: GRID_DISPATCH. -/
def execGridDispatch (grid core : Nat) (s : State) : Host.Outcome State Fault Refusal :=
  let g := s.grid grid
  .next (if s.mayDispatch grid core ∧ !(s.grids.any fun e => e.2.part == g.part && e.2.before g && (List.range 3072).any (s.mayDispatch e.1)) then
      let s := (s.enterLeases g).setGrid grid { g with dispatched := true }
      ((s.freeEntry grid).placeTeam grid core 0).passTo g.part (s.tenantOf grid)
    else s)

/-- R200, R209: a group formed into a placed team starts on its core; its ASGEN is its command's. -/
def State.startFormed (s : State) (team : Nat) (g : Grid) (c : Formation) (w : Formed) : State :=
  let svs := w.survs
  let n := svs.length
  let lanes := maskOf fun l => decide (l < n)
  let vec := fun (h : Surv → Word) => VReg.mk (lanesOf fun l => ((svs[l]?).map h).getD 0) false 0x0#96
  let r0 := withScalars (c.block.args ++ [BitVec.ofNat 64 w.seq, BitVec.ofNat 64 n])
  let r1 := { r0 with v := (((r0.v.put VReg.zero 0 (vec (·.coord))).put VReg.zero 1 (vec (·.pa))).put VReg.zero 2 (vec (·.pb))).put VReg.zero 3 (vec (·.row)) }
  let r := { r1 with m := (r1.m.setIfInBounds 1 (maskOf fun l => ((svs[l]?).map (·.hasA)).getD false)).setIfInBounds 2 (maskOf fun l => ((svs[l]?).map (·.hasB)).getD false) }
  let k := s.newId.1
  let new := s.groupFor team w.gidx g 0 c.block.weight
  s.newId.2.startGroup k { new with ovt := c.ovt, rights := { new.rights with asgen := g.rights.asgen } } lanes c.block.entry r
/-- R200: placing the next formation team of a command. -/
def State.placeFormation (s : State) (k core : Nat) : State :=
  let g := s.grid k
  match g.form with
  | none => s
  | some c =>
    let mine := c.waiting.filter fun w => w.team == g.placed
    if mine = [] ∨ core / 256 ≠ c.home ∨ (s.fitAt core c.block.scratch).isNone ∨ s.records < s.recordsUsed core + mine.length then s
    else
      let team := s.newId.1
      let s := s.newId.2.openTeam team k g.placed core c.block.scratch (g.placed == c.team && !g.closed)
      let s := s.setGrid k { g with placed := g.placed + 1, form := some { c with waiting := c.waiting.filter fun w => w.team != g.placed } }
      mine.foldl (fun s w => s.startFormed team g c w) s
/-- R294, R295, R200: TEAM_PLACE. -/
def execTeamPlace (grid core : Nat) (s : State) : Host.Outcome State Fault Refusal :=
  let g := s.grid grid
  .next (if !(g.alive && !g.stopped && g.preempted.isNone && !s.issuerHeld g && s.mayPlace grid && s.coreOf g.part core) then s
    else if g.formation then s.placeFormation grid core
    else if g.dispatched && decide (g.placed < g.rcd.teams) && s.depMet g g.placed && s.roomFor core g.rcd then s.placeTeam grid core g.placed
    else s)

/-! Retirement -/

/-- R296, R327: a team whose last group has retired retires: its lines are written back and its descriptors released. A grid that has no team
left waits for no restore (R352). -/
def State.teamRetire (s : State) (n : Nat) : State :=
  let t := s.team n
  if !t.alive || t.forming || !(s.groupsOf n).isEmpty then s
  else
    let last := ((s.groups.filter fun e => e.2.team == n).getLast?.map (·.1)).getD 0
    let s := t.maps.foldl (fun s e => s.writeBack n e.1 (fun _ => true) 0 last 0 []) s
    let s := s.setCore t.coreKey { s.core t.coreKey with cbs := (s.core t.coreKey).cbs.filter fun c => c.2.team != n }
    let s := s.setTeam n { s.team n with alive := false, maps := [] }
    let g := s.grid t.grid
    s.setGrid t.grid { g with bitmap := g.bitmap ++ [t.tidx], preempted := if (s.teamsOf t.grid).isEmpty then none else g.preempted }
/-- R308: the status word of a command. -/
def Cmd.status (c : Cmd) : DWord :=
  BitVec.ofNat 64 (c.fault.toNat * 2 ^ 56 + (if c.done then 2 ^ 55 else 0) + (if c.delivered then 2 ^ 54 else 0) + min c.idx (2 ^ 22 - 1) * 2 ^ 32 + min c.bytes (2 ^ 32 - 1))
/-- R201: the status word of a Bobbin command. -/
def BobSlot.status (b : BobSlot) : DWord :=
  match b.cmd with
  | some c => BitVec.ofNat 64 (c.fault.toNat * 2 ^ 56 + (if b.state = .stopped then 2 ^ 55 else 0) + min c.groups (2 ^ 23 - 1) * 2 ^ 32 + min c.surv (2 ^ 32 - 1))
  | none => 0
/-- R202, R308: faults that no word has delivered become events when the group retires. -/
def State.orphan (s : State) (n : Nat) : State :=
  let g := s.group n
  let mine := s.cmds.filter fun c => c.2.alive && c.2.group == n && c.2.done && c.2.fault != 0 && !c.2.delivered
  let s := mine.foldl (fun s c => (s.groupEvent n 0x81#8 c.2.fault 0 c.2.home c.2.faultAddr c.2.status).setCmd c.1 { c.2 with delivered := true }) s
  if g.bob.owed then
    (s.groupEvent n 0x81#8 ((g.bob.cmd.map (·.fault)).getD 0) 0 ((g.bob.cmd.map (·.home)).getD 0) 0 g.bob.status).setGroup n
      { g with bob := { g.bob with owed := false } }
  else s
/-- R347: fragments of a group whose grid has ended are retired once they stand between chain groups. -/
def State.retireStopped (s : State) (group : Nat) : State :=
  ((s.fragsOf group).filter fun e => !s.elsewhere e.2 && e.2.state != .ended && s.gridStopped e.1 && !e.2.begun).foldl
    (fun s e => s.retireLanes e.1 (s.frag e.1).own) s
/-- R161: GROUP_RETIRE: counted once every fragment has performed its last release and the group's matrix ops are complete. -/
def execGroupRetire (group : Nat) (s : State) : Host.Outcome State Fault Refusal :=
  let s := s.retireStopped group
  let g := s.group group
  .next (if !g.alive || !(s.fragsOf group).isEmpty || s.cores.any fun c => c.2.mmaQ.any fun e => e.group == group then s
    else
      if g.dev ≠ s.fabric.toNat then s.setGroup group { g with alive := false }
      else
      let s := s.orphan group
      let s := { s with cores := s.cores.map fun (c : Nat × Core) =>
        (c.1, { c.2 with slots := c.2.slots.map fun (x : Nat × SlotSt) => (x.1, if x.2 = SlotSt.claimed group then SlotSt.clearing else x.2) }) }
      let s := s.setGroup group { s.group group with alive := false, tiles := [], fibs := [], bars := [] }
      s.teamRetire g.team)

/-- R296, R336: the addition to the completion counter; at a home that is fused off nothing arrives (R19). -/
def State.complete (s : State) (k : Nat) : State :=
  let g := s.grid k
  let va := g.rcd.done
  let home := (List.range 12).find? fun h => (s.part g.part).homes.getLsbD h
  let fail := s.completionFault k
  if va = 0 then s
  else if fld va 57 7 ≠ 0 then fail 0x12#8
  else
    match s.walk g.rights.asid va with
    | .error .poison => fail 0x19#8
    | .error (.prot _) => fail 0x12#8
    | .ok x =>
      let e : Elem := ⟨0, .dram, s.cellOf x va, 4, g.rcd.inc.setWidth 64, va, some .add, 0⟩
      if !(x.r && x.w) then fail 0x12#8
      else if x.dev = s.fabric.toNat then
        if s.delivered [e] = false then s
        else if s.readErr e.key 4 then fail 0x19#8 else (s.atomElem e).1
      else s.fabSend (256 * home.getD 0) { g.rights with priv := true, asgen := s.genOf g.rights.asid } x.dev 0x08#5 [e] [] false false 0 (some (.done k))
/-- R296: whether all of a grid has retired. -/
def State.gridDone (s : State) (k : Nat) : Bool :=
  let g := s.grid k
  g.alive && (s.teamsOf k).isEmpty && !(s.grids.any fun e => e.2.alive && e.2.parent == some k) &&
    !(s.net.any fun m => match m with | .store r => r.owners.isEmpty && r.rights.grid == g.rights.grid && r.rights.part == g.part | _ => false) &&
    (g.stopped || (if g.formation then g.closed && (match g.form with | some c => c.waiting.isEmpty | none => true) else decide (g.rcd.teams ≤ g.placed)))
/-- R296: GRID_RETIRE. -/
def execGridRetire (grid : Nat) (s : State) : Host.Outcome State Fault Refusal :=
  let g := s.grid grid
  .next (if s.gridDone grid then
      let s := if g.stopped || g.formation then s else s.complete grid
      let s := if g.dispatched || g.formation then s else s.freeEntry grid
      let s := if g.formation then s else s.dropLeases g
      s.setGrid grid { s.grid grid with alive := false, retired := true, bitmap := [] }
    else s)

/-! LAUNCH and LSTAT -/

/-- R298: a child grid is appended to its team's pending-launch queue. -/
def State.append (s : State) (team k : Nat) : State :=
  let age := s.newId.1 * 2 ^ 33
  let s := s.newId.2.nameGrid k { s.grid k with age := age }
  s.setTeam team { s.team team with pend := (s.team team).pend ++ [k] }
/-- R298: the record that a LAUNCH read, as a grid that is not yet created. -/
def State.draft (s : State) (gn : Nat) (r : LaunchRec) (ls : List LeaseEnt) : Grid :=
  let g := s.group gn
  let pk := (s.team g.team).grid
  { Grid.none with
    part := g.rights.part, rights := { g.rights with dev := s.fabric.toNat }, parent := some pk, byTeam := some g.team, depth := g.depth + 1
    rcd := r, leases := ls, prio := min r.prio (s.grid pk).prio, ovt := g.ovt }
/-- R298: a draft is appended where its team's queue has room, and its GRIDID is the answer. -/
def State.appendIf (s : State) (team k : Nat) (else' : WordReply) : State × WordReply :=
  if (s.team team).pend.length < 4 then (s.append team k, .done (((s.append team k).grid k).gridid.setWidth 64)) else (s, else')
/-- R292, R298: the record and list that a LAUNCH of a group read: refused, appended, or a draft that waits for room. -/
def State.launchFor (s : State) (gn : Nat) (bits : BitVec 512) (ls : List (LeaseEnt × Bool)) : State × WordReply :=
  let g := s.group gn
  match refusal bits ls (some (s.grid (s.team g.team).grid).leases) (s.part g.rights.part).nextGrid with
  | some (n, off) => (s, .fault (faultOf 0x01#8 (BitVec.ofNat 64 n) (BitVec.ofNat 64 off)))
  | none =>
    let k := s.newId.1
    (s.newId.2.setGrid k (s.draft gn (LaunchRec.ofBits bits) (ls.map (·.1)))).appendIf g.team k (.later k)
/-- R110, R298: a fragment parks in LAUNCH with the record that it has read: it keeps its context-state entry, and a division that is due in its
chain group is made when no result is outstanding. -/
def State.parkLaunch (s : State) (k : Nat) (d : RegNum) : State :=
  let f := s.f
  let due := match f.grp with | some g => g.leave.map fun (l : LeaveDue) => { l with park := g.park || f.park } | none => none
  let s1 := s.setF { f with
    state := .launch k d, pc := f.pc + 4, grp := none, pfx := none, held := false, counted := false, chain := false, parked := true, turn := 0
    leave := match due with | some l => some l | none => f.leave }
  (s1.setCore f.coreKey ((s1.core f.coreKey).endTurn s.cur)).settle s.cur
/-- R298: what LAUNCH comes to: it is done, or parks. -/
def launchEnd (d : RegNum) (r : WordReply) (s : State) : Act :=
  match r with
  | .done v => .done ((s.wrS d v false).setE false)
  | .later k => .away (s.parkLaunch k d)
  | .fault x => .fault x
  | _ => .hold s
/-- R298: LAUNCH, its record and list read. -/
def launchAct (s : State) (d : RegNum) (bits : BitVec 512) (ls : List (LeaseEnt × Bool)) : Act :=
  match s.launchFor s.f.group bits ls with
  | (_, .fault x) => .fault x
  | (s1, r) => if !s.released s.cur false then .hold s else launchEnd d r s1
/-- R298: the lease list as 16-byte entries from the 8-byte reads. -/
def pairUp (xs : List (DWord × Bool)) : List (LeaseEnt × Bool) :=
  match xs with
  | a :: b :: r => leaseEnt (b.1 ++ a.1) :: pairUp r
  | _ => []
/-- R298: LAUNCH of a fragment on another device: its team's core sends the record, the fragment reads the lease list, and the append is made
there (log 58). -/
def launchAway (s : State) (d : RegNum) (sa : DWord) : Act :=
  match s.f.grant with
  | .word (.record bits) =>
    if s.accessHeld s.cur || !s.released s.cur false then .hold s
    else
      let r := LaunchRec.ofBits bits
      let vas := (List.range (2 * r.nlease)).map fun i => r.lease + BitVec.ofNat 64 (8 * i)
      (s.readVas (.frag s.cur) s.f.coreKey s.g.rights 8 vas).act fun xs s => orFault (badRead vas xs) (.hold (s.sendWord s.cur (.launch bits (pairUp xs))))
  | _ => s.wordAway (.record sa) (launchEnd d)
/-- R298: LAUNCH. -/
def execLaunch (d a : RegNum) (s : State) : Host.Outcome State Fault Refusal :=
  let g := s.g
  let sa := s.sv a
  finish s (noTrapMode s
    (if g.gidx ≠ 0 then .fault (faultOf 0x01#8 1)
     else if g.depth = 10 then .fault (faultOf 0x23#8)
     else s.clean [.s a]
      (if sa.toNat % 64 ≠ 0 then .fault (faultAt 0x13#8 0 [⟨0, sa, 64⟩])
       else if s.keeps g = false then launchAway s d sa
       else
        match s.scrBytes g.team g.rights.asid sa 64 false with
        | .error e => .fault e
        | .ok key =>
          s.afterStores key 64 <| if s.accessHeld s.cur then .hold s
          else
            let bits : BitVec 512 := BitVec.ofNat 512 (s.valIn .scratch key 64)
            let r := LaunchRec.ofBits bits
            let vas := (List.range (2 * r.nlease)).map fun i => r.lease + BitVec.ofNat 64 (8 * i)
            (s.readVas (.frag s.cur) s.f.coreKey g.rights 8 vas).act fun xs s => orFault (badRead vas xs) (launchAct s d bits (pairUp xs)))))
/-- R298: LAUNCH_APPEND_RESUME: the fragment goes on; one that was evicted waits for an entry again (R165). -/
def execLaunchAppendResume (frag : Nat) (s : State) : Host.Outcome State Fault Refusal :=
  let f := s.frag frag
  .next (match f.state with
    | .launch k d =>
      let go := fun (s : State) =>
        let s1 := s.setFrag frag { s.frag frag with state := .ready, grant := .none }
        if f.resident then s1 else s1.acquire frag
      let fin := fun (s : State) (v : DWord) => go ((({ s with cur := frag } : State).wrS d v false).setE false)
      if s.asleep frag ∨ f.outs ≠ [] ∨ f.leave ≠ none then s
      else if s.keeps (s.group f.group) then
        match s.appendIf (s.group f.group).team k .wait with
        | (s1, .done v) => fin s1 v
        | _ => s
      else
        match f.grant with
        | .asked => s
        | .word (.done v) => fin s v
        | .refused => (go s).faultOn frag (f.word.setWidth 64) (f.pc - 4) (f.pc - 4) (keyFault f.own (s.group f.group).dev (s.group f.group).home)
        | _ => s.sendWord frag (.append k)
    | _ => s)
/-- R298: what LSTAT reads of a team. -/
def State.lstatOf (s : State) (team : Nat) : DWord :=
  BitVec.ofNat 64 (min (s.grids.filter fun e => e.2.alive && e.2.byTeam == some team).length 65535 * 2 ^ 16 + (s.team team).pend.length)
/-- R298: LSTAT. -/
def execLstat (d : RegNum) (s : State) : Host.Outcome State Fault Refusal :=
  finish s (if s.keeps s.g then .done (s.later d (s.lstatOf s.g.team) false) else s.wordAway .lstat (onDone fun v s => .done (s.later d v false)))

end Sys2Proof.Machine
end

