-- ==== Sys2Proof/Machine/Bobbin.lean ====
section
/-! DEFINITION. Bobbin (R195 to R205): command blocks and cursor records, the walk, the formation of groups, and the words CXSECT,
CMERGE, CWAIT, CURSV and CURLD. -/

namespace Sys2Proof.Machine

/-! Blocks and records -/

/-- R196: a command block from its 128 bytes. -/
def BobBlock.ofBytes (bs : List Byte) : BobBlock :=
  let x : BitVec 1024 := BitVec.ofNat 1024 (leNat bs)
  { args := (List.range 8).map fun i => x.extractLsb' (512 + 64 * i) 64
    entry := x.extractLsb' 448 64
    scratch := fld x 416 32
    weight := max 1 (fld x 408 8)
    gsize := if fld x 400 8 = 0 then 96 else fld x 400 8
    team := if fld x 396 4 = 0 then 16 else fld x 396 4
    rowgrp := x.getLsbD 395
    raw := bs }
/-- R196: why a block is refused. -/
def blockRefusal (bs : List Byte) : Option Nat :=
  let x : BitVec 1024 := BitVec.ofNat 1024 (leNat bs)
  if fld x 0 395 ≠ 0 then some 3
  else if 96 < fld x 400 8 ∨ fld x 416 32 % 64 ≠ 0 ∨ 262144 < fld x 416 32 then some 7
  else none
/-- R197: why a pair of snapshots is refused. -/
def pairRefusal (fa fb : Fib) : Option Nat :=
  if fa.kind = 0x0#4 ∨ fb.kind = 0x0#4 then some 4
  else if fb.nrow ≠ 1 ∧ fb.nrow ≠ fa.nrow then some 6
  else none

/-- R203: a cursor header. -/
def BobCmd.header (c : BobCmd) (ticket : BitVec 8) (st : BitVec 2) : BitVec 512 :=
  BitVec.ofNat 32 c.row ++ BitVec.ofNat 32 c.pa ++ BitVec.ofNat 32 c.pb ++ BitVec.ofNat 32 c.gseq ++ BitVec.ofNat 32 (c.surv0 + c.surv) ++
    c.fault ++ ticket ++ (if c.side then 0x1#1 else 0x0#1) ++ (if c.merge then 0x1#1 else 0x0#1) ++ st ++ 0x0#332
/-- R203: the 320 bytes of a record. -/
def BobCmd.record (c : BobCmd) (ticket : BitVec 8) (st : BitVec 2) : List Byte :=
  leBytes 64 (c.header ticket st).toNat ++ c.block.raw ++ leBytes 64 c.fa.bits.toNat ++ leBytes 64 c.fb.bits.toNat

/-! Forming groups -/

/-- R198: last row of A, and the row of B that is paired with a row of A. -/
def BobCmd.lastRow (c : BobCmd) : Nat := c.fa.row0.toNat + c.fa.nrow.toNat - 1
def BobCmd.rowB (c : BobCmd) (r : Nat) : Nat := if c.fb.nrow = 1 then c.fb.row0.toNat else c.fb.row0.toNat + (r - c.fa.row0.toNat)

def State.setBob (s : State) (gn : Nat) (b : BobSlot) : State := s.setGroup gn { s.group gn with bob := b }
def State.setBobCmd (s : State) (gn : Nat) (c : BobCmd) : State := s.setBob gn { (s.group gn).bob with cmd := some c }
/-- R195: the groups whose commands a home's Bobbin holds, without one. -/
def State.leaveBobbin (s : State) (home gn : Nat) : State := s.setHome home { s.home home with bobbinQ := (s.home home).bobbinQ.filter (· != gn) }
/-- R195: after it has formed a group, a command waits for its next turn. -/
def State.passBobbin (s : State) (home gn : Nat) : State :=
  s.setHome home { s.home home with bobbinQ := (s.home home).bobbinQ.filter (· != gn) ++ [gn] }

/-- R200: the formation grid of a command, named when its first group is formed. -/
def State.formation (s : State) (gn : Nat) (c : BobCmd) : Nat × State :=
  if c.grid ≠ 0 then (c.grid, s)
  else
    let p := s.grid c.byGrid
    let k := s.newId.1
    (k, s.newId.2.nameGrid k { Grid.none with
      part := c.rights.part, rights := c.rights, parent := some c.byGrid, byTeam := some c.byTeam, depth := c.depth + 1, leases := p.leases
      prio := p.prio, age := p.age, ovt := c.ovt, formation := true
      form := some ⟨gn, (s.group gn).bob.ticket, c.block, c.ovt, c.home, 0, 0, []⟩ })
/-- R200: the placed team of a number in a grid. -/
def State.formTeam (s : State) (k tidx : Nat) : Option Nat := ((s.teamsOf k).find? fun t => t.2.tidx == tidx).map (·.1)
/-- R200: the team being filled gets no further group. -/
def State.shutTeam (s : State) (k tidx : Nat) : State :=
  match s.formTeam k tidx with
  | some t => (s.setTeam t { s.team t with forming := false }).teamRetire t
  | none => s
/-- R198 to R200: the group being assembled is formed. -/
def State.formGroup (s : State) (gn : Nat) (c : BobCmd) : State × BobCmd :=
  if c.pend = [] then (s, c)
  else
    let k := (s.formation gn c).1
    let s := (s.formation gn c).2
    let c' := { c with pend := [], gseq := c.gseq + 1, groups := c.groups + 1, grid := k }
    match (s.grid k).form with
    | none => (s, c')
    | some F =>
      let w : Formed := ⟨F.team, F.inTeam, c.gseq, c.pend⟩
      let full := decide (c.block.team ≤ F.inTeam + 1)
      let F' := if full then { F with team := F.team + 1, inTeam := 0 } else { F with inTeam := F.inTeam + 1 }
      let s := match s.formTeam k F.team with
        | some t => (s.startFormed t (s.grid k) F w).setGrid k { s.grid k with form := some F' }
        | none => s.setGrid k { s.grid k with form := some { F' with waiting := F.waiting ++ [w] } }
      ((if full then s.shutTeam k F.team else s).passBobbin c.home gn, c')
/-- R198, R200: the walk ends: the partial group is formed, the open team is closed, and Bobbin holds the command no longer. -/
def State.endWalk (s : State) (gn : Nat) (c : BobCmd) : State × BobCmd :=
  let x := s.formGroup gn c
  let s := x.1.leaveBobbin c.home gn
  let c' := { x.2 with walked := true }
  match (s.grid c'.grid).form with
  | some F =>
    if c'.grid = 0 then (s, c')
    else ((s.setGrid c'.grid { s.grid c'.grid with closed := true }).shutTeam c'.grid F.team, c')
  | none => (s, c')
/-- R202: what other devices have answered a walk goes with it. -/
def State.dropReads (s : State) (gn : Nat) : State := { s with answers := s.answers.filter fun a => a.asker != Asker.bobbin gn }
/-- R202: whether reads of a walk at other devices are under way. -/
def State.walkReads (s : State) (gn : Nat) : Bool := s.remote.any fun r => r.asker == some (Asker.bobbin gn)
/-- R202: a fault of the walk stops it, with the cursor given. -/
def State.stopWalk (s : State) (gn : Nat) (c : BobCmd) (code : BitVec 8) (side : Bool) (row pa pb : Nat) : State :=
  let x := (s.dropReads gn).endWalk gn c
  let c' := { x.2 with fault := code, side := side, row := row, pa := pa, pb := pb }
  let s := x.1.setBob gn { (x.1.group gn).bob with state := .stopped, cmd := some c', owed := true }
  if (s.group gn).alive then s else s.orphan gn

/-! The walk -/

/-- Reads of several arrays: their checks, then the reads (R198). -/
def State.readSides (s : State) (k : Asker) (core : Nat) (r : Rights) (sides : List (Nat × List DWord)) : Got (List (DWord × Bool)) :=
  match sides.findSome? fun x => s.checkGlobal core r .read x.1 false (x.2.map fun va => ⟨0, va, x.1⟩) with
  | some e => .stop e
  | none => s.gather k core r (sides.flatMap fun x => x.2.map fun va => ⟨0, va, x.1⟩)
/-- R190, R198: addresses of the pointers that bound a row. -/
def Fib.ptrs (f : Fib) (row : Nat) : List DWord :=
  if f.rows then [f.ptrAt 0, f.ptrAt f.nrow.toNat, f.ptrAt (row - f.row0.toNat), f.ptrAt (row - f.row0.toNat + 1)] else []
/-- R190: a row's start and end from what was read, and whether the pair is in order. -/
def Fib.bounds (f : Fib) (xs : List (DWord × Bool)) : Nat × Nat × Bool :=
  if f.rows then
    let v := fun i => ((xs[i]?).getD (0, false)).1.toNat
    (v 2, v 3, decide (v 2 ≤ v 3 ∧ v 0 ≤ v 2 ∧ v 3 ≤ v 1))
  else (0, f.fin.toNat, true)

/-- The core through whose translations a command's arrays are reached. -/
def State.bobCore (s : State) (gn : Nat) : Nat :=
  let t := s.team (s.group gn).team
  if t.alive then t.coreKey else 256 * ((s.group gn).bob.cmd.map (·.home)).getD 0
/-- R198: the walk enters row `r`. -/
def State.enterRow (s : State) (gn : Nat) (c : BobCmd) (r : Nat) : State :=
  let pa := if c.inRow then c.finA else c.pa
  let pb := if c.inRow then (if c.fb.nrow = 1 then c.startB else c.finB) else c.pb
  let va := c.fa.ptrs r
  let vb := c.fb.ptrs (c.rowB r)
  match s.readSides (.bobbin gn) (s.bobCore gn) c.rights [(c.fa.width, va), (c.fb.width, vb)] with
  | .wait s => s
  | .stop e => s.stopWalk gn c e.code false r pa pb
  | .val xs s =>
    match badRead (va ++ vb) xs with
    | some e => s.stopWalk gn c e.code false r pa pb
    | none =>
      let a := c.fa.bounds (xs.take va.length)
      let b := c.fb.bounds (xs.drop va.length)
      if !a.2.2 || !b.2.2 then s.stopWalk gn c 0x30#8 a.2.2 r a.1 b.1
      else s.setBobCmd gn { c with
        row := r, inRow := true, pa := if c.keepA then c.pa else a.1, pb := if c.keepB then c.pb else b.1, keepA := false, keepB := false
        finA := a.2.1, finB := b.2.1, startA := a.1, startB := b.1, lastA := none, lastB := none }

/-- R198: a survivor is appended to the group being assembled, which is formed when it is full. -/
def State.emit (s : State) (gn : Nat) (c : BobCmd) (x : Surv) : State :=
  let c' := { c with pend := c.pend ++ [x], surv := c.surv + 1 }
  if c'.block.gsize ≤ c'.pend.length then (s.formGroup gn c').1.setBobCmd gn (s.formGroup gn c').2 else s.setBobCmd gn c'

/-- R198: whether the element before a position, in its row, is to be read with it: the first that a walk reads in the middle of a row. -/
def readsPrev (last : Option Word) (start p : Nat) : Bool := last.isNone && decide (start < p)
/-- R186, R198: what is read for the element at a position, with its predecessor if `prev`. -/
def Fib.readsTwo (f : Fib) (p : Nat) (prev : Bool) : Nat × List DWord :=
  if prev && f.kind != 0x4#4 && f.kind != 0x5#4 then (f.width, (f.reads (p - 1)).2 ++ (f.reads p).2) else f.reads p
/-- R198: the element at a position from what was read, whether it was read in error, and its predecessor; one read in error is compared with
nothing (log 59). -/
def Fib.coordTwo (f : Fib) (p : Nat) (prev : Bool) (last : Option Word) (xs : List (DWord × Bool)) : (Word × Bool) × Option Word :=
  if prev then
    let y := f.coord (p - 1) xs
    (f.coord p (if f.kind = 0x4#4 ∨ f.kind = 0x5#4 then xs else xs.drop 1), if y.2 then none else some y.1)
  else (f.coord p xs, last)
/-- R198: one comparison of the row: the side that faults is the one whose element is read in error or out of order. -/
def State.compareStep (s : State) (gn : Nat) (c : BobCmd) : State :=
  let remA := decide (c.pa < c.finA)
  let remB := decide (c.pb < c.finB)
  let twoA := remA && readsPrev c.lastA c.startA c.pa
  let twoB := remB && readsPrev c.lastB c.startB c.pb
  let ra := if remA then c.fa.readsTwo c.pa twoA else (1, [])
  let rb := if remB then c.fb.readsTwo c.pb twoB else (1, [])
  match s.readSides (.bobbin gn) (s.bobCore gn) c.rights [ra, rb] with
  | .wait s => s
  | .stop e => s.stopWalk gn c e.code false c.row c.pa c.pb
  | .val xs s =>
    let xa := c.fa.coordTwo c.pa twoA c.lastA (xs.take ra.2.length)
    let xb := c.fb.coordTwo c.pb twoB c.lastB (xs.drop ra.2.length)
    let ca := xa.1
    let cb := xb.1
    let low := fun (last : Option Word) (x : Word) => match last with | some y => x.ule y | none => false
    let stop := fun (code : BitVec 8) (side : Bool) => s.stopWalk gn c code side c.row c.pa c.pb
    if remA && ca.2 then stop 0x19#8 false
    else if remA && low xa.2 ca.1 then stop 0x31#8 false
    else if remB && cb.2 then stop 0x19#8 true
    else if remB && low xb.2 cb.1 then stop 0x31#8 true
    else
      let both := remA && remB && ca.1 == cb.1
      let useA := both || (remA && (!remB || ca.1.ult cb.1))
      let useB := both || (remB && !useA)
      let c' := { c with
        pa := if useA then c.pa + 1 else c.pa, pb := if useB then c.pb + 1 else c.pb
        lastA := if useA then some ca.1 else xa.2, lastB := if useB then some cb.1 else xb.2 }
      if both || c.merge then
        s.emit gn c' ⟨if useA then ca.1 else cb.1, if useA then BitVec.ofNat 32 c.pa else 0xFFFFFFFF#32,
          if useB then BitVec.ofNat 32 c.pb else 0xFFFFFFFF#32, BitVec.ofNat 32 c.row, useA, useB⟩
      else s.setBobCmd gn c'

/-- R198: whether a row is at its end. -/
def BobCmd.rowDone (c : BobCmd) : Bool :=
  if c.merge then decide (c.finA ≤ c.pa) && decide (c.finB ≤ c.pb) else decide (c.finA ≤ c.pa) || decide (c.finB ≤ c.pb)
/-- R200, R202, R204: what keeps a command from making progress, whether or not its issuer has retired: 64 groups that are not yet placed, a context store without room for the
next group of a placed team, reads under way, a save or a freeze. -/
def State.bobBlocked (s : State) (gn : Nat) : Bool :=
  let g := s.group gn
  match g.bob.cmd with
  | none => true
  | some c =>
    let p := s.part g.rights.part
    let t := s.team g.team
    (match (s.grid c.grid).form with
     | some F => c.grid != 0 && (decide (64 ≤ F.waiting.length) ||
         (match s.formTeam c.grid F.team with | some t => !s.holdsCore (s.team t) || decide (s.records ≤ s.recordsUsed (s.team t).coreKey) | none => false))
     | none => false) || (s.remote.any fun r => r.asker == some (.bobbin gn)) || (t.alive && !s.holdsCore t) || (s.grid c.byGrid).preempted.isSome || p.frozen
/-- R195: the command whose turn it is at a home. -/
def State.bobTurn (s : State) (home : Nat) : Option Nat := (s.home home).bobbinQ.find? fun gn => !s.bobBlocked gn
/-- R198: BOBBIN_WALK_STEP. The walk of a grid that has been ended stops without a fault (R347). -/
def execBobbinWalkStep (group : Nat) (s : State) : Host.Outcome State Fault Refusal :=
  let b := (s.group group).bob
  .next (match b.cmd with
    | none => s
    | some c =>
      if b.state ≠ .running ∨ c.walked ∨ s.walkReads group then s
      else if (s.grid c.byGrid).stopped then
        let x := (s.dropReads group).endWalk group { c with pend := [] }
        x.1.setBob group { b with state := .stopped, cmd := some x.2 }
      else if s.bobTurn c.home ≠ some group then s
      else if c.inRow = false then
        (if c.lastRow < c.row then (s.endWalk group c).1.setBobCmd group (s.endWalk group c).2 else s.enterRow group c c.row)
      else if c.rowDone = false then s.compareStep group c
      else if c.block.rowgrp ∧ c.pend ≠ [] then (s.formGroup group c).1.setBobCmd group (s.formGroup group c).2
      else if c.lastRow ≤ c.row then (s.endWalk group c).1.setBobCmd group (s.endWalk group c).2
      else s.enterRow group c (c.row + 1))

/-- R201: whether every group that a command formed has retired. -/
def State.formedDone (s : State) (k : Nat) : Bool :=
  k == 0 || ((match (s.grid k).form with | some F => F.waiting.isEmpty | none => true) && !(s.groups.any fun g => g.2.alive && (s.team g.2.team).grid == k))
/-- R195: BOBBIN_FINISH. -/
def execBobbinFinish (group : Nat) (s : State) : Host.Outcome State Fault Refusal :=
  let b := (s.group group).bob
  .next (match b.cmd with
    | some c => if b.state = .running ∧ c.walked ∧ s.formedDone c.grid then s.setBob group { b with state := .finished } else s
    | none => s)

/-! Starting a command -/

/-- R197: a command takes its group's slot and the next ticket; an undelivered fault of the command it replaces becomes an event. -/
def State.startBob (s : State) (gn : Nat) (c : BobCmd) : State × BitVec 8 :=
  let b := (s.group gn).bob
  let s := if b.owed then s.groupEvent gn 0x82#8 ((b.cmd.map (·.fault)).getD 0) 0 ((b.cmd.map (·.home)).getD 0) 0 b.status else s
  let ticket := if b.used then b.ticket + 1 else 0
  let s := s.setBob gn ⟨.running, ticket, true, some c, false⟩
  (s.setHome c.home { s.home c.home with bobbinQ := (s.home c.home).bobbinQ ++ [gn] }, ticket)
/-- R197: a command at its start, for the fragment at issue or for a chain. -/
def newBob (merge : Bool) (fa fb : Fib) (block : BobBlock) (rights : Rights) (home : Nat) (ovt : BitVec 16) (depth byGrid byTeam : Nat)
    (pc : DWord) (chain : Option Nat) : BobCmd where
  merge := merge
  fa := fa
  fb := fb
  block := block
  rights := rights
  home := home
  ovt := ovt
  row := fa.crow.toNat
  pa := fa.pos.toNat
  pb := 0
  keepA := true
  keepB := false
  inRow := false
  walked := false
  finA := 0
  finB := 0
  startA := 0
  startB := 0
  lastA := none
  lastB := none
  gseq := 0
  surv := 0
  surv0 := 0
  groups := 0
  pend := []
  grid := 0
  depth := depth
  byGrid := byGrid
  byTeam := byTeam
  fault := 0
  side := false
  pc := pc
  chain := chain
/-- R195, R302: commands that a home's Bobbin holds: its chains, each with the walk of the BOBBIN entry it has reached counted once, and the walks that
no chain holds; a command counts until its walk ends (DESIGN CHOICE, log 59). -/
def State.bobHeld (s : State) (home : Nat) : Nat :=
  ((s.home home).bobbinQ.filter fun gn => match (s.group gn).bob.cmd with | some c => (match c.chain with | some n => (s.cmd n).done || !(s.cmd n).alive | none => true) | none => false).length + (s.cmds.filter fun c => c.2.alive && !c.2.done && c.2.engine == 2 && c.2.home == home).length

/-- R197, R244: the end of CXSECT, CMERGE and CURLD: the slot, room, and the order of the reads after the fragment's accesses. -/
def bobGo (s : State) (c : BobCmd) (d : Option RegNum) : Act :=
  let gn := s.f.group
  if s.g.bob.state = .running then .done (s.setE true)
  else if 32 ≤ s.bobHeld c.home then .hold s
  else if !s.released s.cur false then .hold s
  else
    let x := s.startBob gn c
    .done ((match d with | some d => x.1.wrS d (x.2.setWidth 64) false | none => x.1).setE false)
/-- R197: CXSECT and CMERGE. -/
def bobAct (merge : Bool) (d a : RegNum) (u w : BitVec 3) (s : State) : Act :=
  let g := s.g
  let fa := g.fib u.toNat
  let fb := g.fib w.toNat
  let sel : BitVec 6 := u ++ w
  let sa := s.sv a
  orFault (s.placement false) (s.clean [.s a]
    (if g.depth = 10 then .fault (faultOf 0x23#8)
     else if s.fibBusy u.toNat || s.fibBusy w.toNat then .hold s
     else
      match pairRefusal fa fb with
      | some n => .fault (fibFault n sel)
      | none =>
        if sa.toNat % 64 ≠ 0 then .fault (faultAt 0x13#8 0 [⟨0, sa, 64⟩])
        else
          match s.scrBytes g.team g.rights.asid sa 128 false with
          | .error e => .fault e
          | .ok key =>
            let bs := s.bytesIn .scratch key 128
            s.afterStores key 128 <| match blockRefusal bs with
            | some n => .fault (fibFault n sel)
            | none => bobGo s (newBob merge fa fb (BobBlock.ofBytes bs) g.rights s.f.home g.ovt g.depth s.t.grid g.team s.f.pc none) (some d)))
/-- R197: CXSECT. -/
def execCxsect (d a : RegNum) (u w : BitVec 3) (s : State) : Host.Outcome State Fault Refusal := finish s (bobAct false d a u w s)
/-- R197: CMERGE. -/
def execCmerge (d a : RegNum) (u w : BitVec 3) (s : State) : Host.Outcome State Fault Refusal := finish s (bobAct true d a u w s)

/-! CWAIT -/

/-- R308: the report of an engine command's fault at a wait word. -/
def Cmd.faultRec (c : Cmd) : FaultRec :=
  faultOf c.fault c.status c.faultAddr (BitVec.ofNat 64 (c.engine + 256 * (c.batch.getD 0).toNat))
/-- R308: the first command of a list whose fault the issuing group has still to be given. -/
def State.owedOf (s : State) (gn : Nat) (cs : List Nat) : Option (Nat × Cmd) :=
  cs.findSome? fun n => let c := s.cmd n; if c.alive && c.group == gn && c.done && c.fault != 0 && !c.delivered then some (n, c) else none
/-- R308: the fault of a command is delivered to the fragment at issue. -/
def State.giveFault (s : State) (x : Nat × Cmd) : Act := .away ((s.setCmd x.1 { x.2 with delivered := true }).takeFault x.2.faultRec)

/-- R201: the fault of a walk as CWAIT reports it. -/
def BobCmd.faultRec (c : BobCmd) (ticket : BitVec 8) : FaultRec :=
  faultOf c.fault (BitVec.ofNat 64 (ticket.toNat + (if c.side then 256 else 0) + (if c.merge then 512 else 0)))
    (BitVec.ofNat 64 c.row) (BitVec.ofNat 64 (c.pb * 2 ^ 32 + c.pa))
/-- R201: whether CWAIT may return. -/
def State.cwaitMet (s : State) (b : BobSlot) : Bool :=
  match b.state, b.cmd with
  | .finished, _ => true
  | .stopped, some c => s.formedDone c.grid
  | .stopped, none => true
  | _, _ => false
/-- R201: what CWAIT comes to once it may return. -/
def cwaitEnd (d : RegNum) (s : State) : Act :=
  let gn := s.f.group
  let b := s.g.bob
  let chain := match b.cmd with | some c => (match c.chain with | some n => s.owedOf gn [n] | none => none) | none => none
  match b.cmd with
  | some c =>
    if b.owed ∧ b.state = .stopped then .away ((s.setBob gn { b with owed := false }).takeFault (c.faultRec b.ticket))
    else
      match chain with
      | some x => s.giveFault x
      | none => .done (((s.wrS d b.status false).setE false).setBob gn { b with state := if b.state = .finished then .idle else b.state })
  | none => .done ((s.wrS d b.status false).setE false)
/-- R201: CWAIT. -/
def execCwait (d a : RegNum) (s : State) : Host.Outcome State Fault Refusal :=
  finish s (noTrapMode s (orFault (s.placement false) (s.clean [.s a] (parkThen s fun s =>
    let b := s.g.bob
    let ticket := (s.sv a).setWidth 8
    if b.state = .idle ∨ b.ticket ≠ ticket then .done (s.setE true)
    else if s.cwaitMet b then cwaitEnd d s
    else .away (s.beginWait (.cwait ticket d))))))
/-- A fragment's wait ends: it is ready, and takes a context-state entry (R165). -/
def State.wake (s : State) (n : Nat) : State := (({ s with cur := n } : State).setFrag n { s.frag n with state := .ready }).acquire n
/-- R201: CWAIT_WAKE; a command that was replaced meanwhile is waited for like any other. -/
def execCwaitWake (frag : Nat) (s : State) : Host.Outcome State Fault Refusal :=
  let f := s.frag frag
  let b := (s.group f.group).bob
  match f.state with
  | .cwait ticket d =>
    if s.asleep frag then .next s
    else if b.ticket = ticket ∧ b.state ≠ .idle then
      (if s.cwaitMet b then finish (s.wake frag) (cwaitEnd d (s.wake frag)) else .next s)
    else if s.grids.any fun k => match k.2.form with | some F => F.group == f.group && F.ticket == ticket && !s.formedDone k.1 | none => false then .next s
    else finish (s.wake frag) (.done ((s.wake frag).setE true))
  | _ => .next s

/-! Cursors -/

/-- R203: CURSV. -/
def execCursv (a : RegNum) (s : State) : Host.Outcome State Fault Refusal :=
  let g := s.g
  let gn := s.f.group
  let sa := s.sv a
  finish s (orFault (s.placement false) (s.clean [.s a]
    (if sa.toNat % 64 ≠ 0 then .fault (faultAt 0x13#8 0 [⟨0, sa, 64⟩])
     else
      match s.scrBytes g.team g.rights.asid sa 320 true with
      | .error e => .fault e
      | .ok key =>
        s.afterStores key 320 <| match g.bob.state, g.bob.cmd with
        | .idle, _ => .done (s.setE true)
        | _, none => .done (s.setE true)
        | .running, some c =>
          if (c.inRow = false ∧ c.walked = false) ∨ s.walkReads gn then .hold s
          else
            let x := (s.dropReads gn).endWalk gn c
            let s1 := (x.1.writeScr (cellsAt key (x.2.record g.bob.ticket 0x1#2))).syncAll
            .done ((s1.setBob gn { g.bob with state := .stopped, cmd := some x.2 }).setE false)
        | st, some c => .done ((s.writeScr (cellsAt key (c.record g.bob.ticket (if st = .finished then 0x2#2 else 0x1#2)))).syncAll.setE false))))

/-- R203: whether a cursor position lies in its side's row. -/
def Fib.holds (f : Fib) (xs : List (DWord × Bool)) (p : Nat) : Bool := decide ((f.bounds xs).1 ≤ p ∧ p ≤ (f.bounds xs).2.1)
/-- R203: CURLD of a record in order. -/
def curldAct (s : State) (h : BitVec 512) (c : BobCmd) : Act :=
  let va := c.fa.ptrs c.row
  let vb := c.fb.ptrs (c.rowB c.row)
  (s.readSides (.frag s.cur) s.f.coreKey s.g.rights [(c.fa.width, va), (c.fb.width, vb)]).act fun xs s =>
    orFault (badRead (va ++ vb) xs)
      (if !(c.fa.holds (xs.take va.length) c.pa && c.fb.holds (xs.drop va.length) c.pb) then .fault (fibFault 8 0)
       else if fld h 332 2 = 2 then .done (s.setE true) else bobGo s c none)
/-- R203: CURLD. -/
def execCurld (a : RegNum) (s : State) : Host.Outcome State Fault Refusal :=
  let g := s.g
  let sa := s.sv a
  finish s (orFault (s.placement false) (s.clean [.s a]
    (if g.depth = 10 then .fault (faultOf 0x23#8)
     else if sa.toNat % 64 ≠ 0 then .fault (faultAt 0x13#8 0 [⟨0, sa, 64⟩])
     else
      match s.scrBytes g.team g.rights.asid sa 320 false with
      | .error e => .fault e
      | .ok key =>
        let h : BitVec 512 := BitVec.ofNat 512 (s.valIn .scratch key 64)
        let bs := s.bytesIn .scratch (key + 64) 128
        let ia : BitVec 512 := BitVec.ofNat 512 (s.valIn .scratch (key + 192) 64)
        let ib : BitVec 512 := BitVec.ofNat 512 (s.valIn .scratch (key + 256) 64)
        let fa := Fib.ofBits ia
        let fb := Fib.ofBits ib
        let c := { newBob (h.getLsbD 334) fa fb (BobBlock.ofBytes bs) g.rights s.f.home g.ovt g.depth s.t.grid g.team s.f.pc none with
          row := fld h 480 32, pa := fld h 448 32, pb := fld h 416 32, keepB := true, gseq := fld h 384 32, surv0 := fld h 352 32 }
        let bad := match pairRefusal fa fb with
          | some n => some n
          | none =>
            match blockRefusal bs, fa.refusal false (fld ia 8 120 != 0), fb.refusal false (fld ib 8 120 != 0) with
            | some n, _, _ => some n
            | none, some n, _ => some n
            | none, none, some n => some n
            | none, none, none =>
              if fld h 332 2 = 0 ∨ fld h 332 2 = 3 ∨ fld h 0 332 ≠ 0 then some 8
              else if (c.row < fa.row0.toNat ∨ c.lastRow < c.row) then some 8
              else none
        s.afterStores key 320 <| match bad with
        | some n => .fault (fibFault n 0)
        | none => curldAct s h c)))

end Sys2Proof.Machine
end

