-- ==== Sys2Proof/Machine/Engine.lean ====
section
/-! DEFINITION. The copy engine, Caravan and Bobbin's chains (R302 to R308, R313): commands, the entries of a chain, and the words
ECHAIN, CPY and ESTAT. -/

namespace Sys2Proof.Machine

/-! Elements -/

/-- Where an element of an engine lies, and whether the page or range takes bounded data (R259). -/
inductive EPlace where
  | mem (sp : Space) (key : Nat) (bnd : Bool)
  | far (dev : Nat) (va : DWord) (key : Nat) (bnd : Bool)
  | slot (key : Nat)
  deriving DecidableEq, Repr

def EPlace.bnd (p : EPlace) : Bool :=
  match p with
  | .mem _ _ b => b
  | .far _ _ _ b => b
  | .slot _ => false

/-- Number of the core whose translations a command uses. -/
def Cmd.coreKey (c : Cmd) : Nat := 256 * c.home + c.core
/-- The offset of a working address (R304). -/
def moved (base : Nat) (d : Int) : DWord := BitVec.ofInt 64 ((base : Int) + d)

/-- R303 to R308: an element of `size` bytes at an address of a space, with the faults of R217; in operand memory those of R170. -/
def State.engPlace (s : State) (c : Cmd) (space : Nat) (write : Bool) (size : Nat) (va : DWord) : Except FaultRec EPlace :=
  let at' : List Addr := [⟨0, va, size⟩]
  let t := s.team c.team
  match space with
  | 0 =>
    match s.checkGlobal c.coreKey c.rights (if write then .write else .read) size false at' with
    | some e => .error e
    | none =>
      let x := s.leafOf c.coreKey c.rights.asid va
      .ok (if x.dev = s.fabric.toNat then .mem .dram (s.cellOf x va) x.bnd else .far x.dev va (s.cellOf x va % 2 ^ 40) x.bnd)
  | 1 =>
    if va.toNat % size ≠ 0 then .error (faultAt 0x13#8 0 at')
    else if t.alive = false ∨ t.size < va.toNat + size then .error (faultAt 0x11#8 0 at')
    else .ok (.mem .scratch (scrKey t.coreKey (t.base + va.toNat)) false)
  | 2 =>
    if va.toNat % size ≠ 0 then .error (faultAt 0x13#8 0 at')
    else
      match s.vaultAt c.home c.rights.asid va with
      | .error e => .error (faultAt e.1 e.2 at')
      | .ok k => .ok (.mem .vault k false)
  | _ =>
    if 294912 < va.toNat + size then .error (faultAt 0x11#8 0 at')
    else if s.slotOfTeam t.coreKey (va.toNat / 2304) c.team && s.slotOfTeam t.coreKey ((va.toNat + size - 1) / 2304) c.team then
      .ok (.slot (opKey t.coreKey va.toNat))
    else .error (faultAt 0x38#8 0 at')

/-- R20, R259: where an element of a transfer lies: one in a range that SPMAP has mapped lies at its home, and the copy is neither read nor
written (log 28). -/
def State.dataPlace (s : State) (c : Cmd) (space : Nat) (write : Bool) (size : Nat) (va : DWord) : Except FaultRec EPlace :=
  let t := s.team c.team
  match (if space = 1 then t.mapAt va.toNat else none).bind t.maps.find, s.engPlace c space write size va with
  | some m, .ok _ => s.engPlace c 0 write size (m.gva + (va - BitVec.ofNat 64 m.off))
  | _, p => p
/-- One element of a transfer: what is read, what is written, and how the values read become those written. -/
structure Item where
  rsp : Nat
  rsize : Nat
  rd : List DWord
  wsp : Nat
  wsize : Nat
  wr : List DWord
  out : List Nat → List Nat

/-- The places of an element, reads before writes; bounded data goes only where it may (R259). -/
def State.itemPlaces (s : State) (c : Cmd) (it : Item) : Except FaultRec (List EPlace × List EPlace) :=
  match it.rd.mapM fun a => s.dataPlace c it.rsp false it.rsize a with
  | .error e => .error e
  | .ok rs =>
    match it.wr.mapM fun a => s.dataPlace c it.wsp true it.wsize a with
    | .error e => .error e
    | .ok ws => if rs.any (·.bnd) && ws.any fun w => !w.bnd then .error (faultAt 0x18#8 0 [⟨0, it.wr.headD 0, it.wsize⟩]) else .ok (rs, ws)
/-- The elements before the first that faults, with their places, and its fault (R308). -/
def State.planItems (s : State) (c : Cmd) (its : List Item) : List (Item × List EPlace × List EPlace) × Option FaultRec :=
  match its with
  | [] => ([], none)
  | it :: r =>
    match s.itemPlaces c it with
    | .error e => ([], some e)
    | .ok p => ((it, p.1, p.2) :: (s.planItems c r).1, (s.planItems c r).2)

/-- A transfer under way: the state, what is to be written on other devices, bytes written here, cells of device memory written, and the
fault that ended it. -/
structure Moving where
  st : State
  far : List (Nat × Elem)
  bytes : Nat
  cells : List Nat
  err : Option (BitVec 8 × DWord)

/-- One value written at its place. -/
def Moving.put (m : Moving) (size : Nat) (p : EPlace) (x : Nat) : Moving :=
  let bs := leBytes size x
  match p with
  | .mem .dram k _ => { m with st := m.st.setMem (cellsAt k bs), bytes := m.bytes + size, cells := m.cells ++ (List.range size).map (k % 2 ^ 40 + ·) }
  | .mem .scratch k _ => { m with st := m.st.writeScr (cellsAt k bs), bytes := m.bytes + size }
  | .mem .vault k _ => { m with st := m.st.writeVault (cellsAt k bs), bytes := m.bytes + size }
  | .slot k => { m with st := m.st.writeOp (cellsAt k bs), bytes := m.bytes + size }
  | .far dev va k _ => { m with far := m.far ++ [(dev, ⟨0, .dram, k, size, BitVec.ofNat 64 x, va, none, 0⟩)] }
/-- R244: the byte that a transfer has already written at a place of another device's memory, but not yet sent. -/
def Moving.wrote (m : Moving) (dev k : Nat) : Option Nat :=
  (m.far.reverse.find? fun x => x.1 == dev && decide (x.2.key ≤ k ∧ k < x.2.key + x.2.size)).map fun x => x.2.data.toNat / 256 ^ (k - x.2.key) % 256
/-- A value read at its place, and whether it was read in error; `got` are the values that other devices have sent. -/
def Moving.get (m : Moving) (got : List (DWord × DWord × Bool)) (size : Nat) (p : EPlace) : Nat × Bool :=
  match p with
  | .mem sp k _ => ((m.st.readElem ⟨0, sp, k, size, 0, 0, none, 0⟩).1.toNat, (m.st.readElem ⟨0, sp, k, size, 0, 0, none, 0⟩).2)
  | .far dev va k _ =>
    let g := (got.find? fun g => g.1 == va).getD (va, 0, false)
    let bs := (List.range size).map fun i => m.wrote dev (k + i)
    (leNat (bs.zipIdx.map fun b => BitVec.ofNat 8 (b.1.getD (g.2.1.toNat / 256 ^ b.2 % 256))), g.2.2 && bs.any (·.isNone))
  | .slot _ => (0, false)
/-- R306, R335: what Caravan reads and writes in device memory is counted at the home where it lies. -/
def State.served13 (s : State) (size : Nat) (ps : List EPlace) : State :=
  ps.foldl (fun s p => match p with | .mem .dram k _ => s.countHome (k / 2 ^ 36 % 16) 0x13 (BitVec.ofNat 64 size) | _ => s) s
/-- R183, R308: one element is moved, unless it is read in error, writes part of a unit in error (`bad`) or fills a byte of a slot in error. -/
def Moving.step (caravan : Bool) (got : List (DWord × DWord × Bool)) (bad : List Nat) (m : Moving) (x : Item × List EPlace × List EPlace) : Moving :=
  if m.err.isSome then m
  else
    let vals := x.2.1.map fun p => m.get got x.1.rsize p
    let part := (x.1.wr.zip x.2.2).find? fun w => match w.2 with
      | .mem .dram k _ => bad.any fun u => decide (k % 2 ^ 40 < 32 * u + 32 ∧ 32 * u < k % 2 ^ 40 + x.1.wsize)
      | .slot k => m.st.sramBad 3 k x.1.wsize
      | _ => false
    match (x.1.rd.zip vals).find? fun v => v.2.2, part with
    | some v, _ => { m with err := some (0x19#8, v.1) }
    | none, some w => { m with err := some (0x19#8, w.1) }
    | none, none =>
      let m := (x.2.2.zip (x.1.out (vals.map (·.1)))).foldl (fun m w => m.put x.1.wsize w.1 w.2) m
      if caravan then { m with st := (m.st.served13 x.1.rsize x.2.1).served13 x.1.wsize x.2.2 } else m

/-- R310: bytes counted towards a sync word of a team. -/
def State.countSync (s : State) (team off n : Nat) : State :=
  let t := s.team team
  let k := scrKey t.coreKey (t.base + off)
  let target := s.valIn .scratch (k + 12) 4
  let count := s.valIn .scratch (k + 8) 4 + n
  if n = 0 then s
  else if target = 0 ∨ count < target then s.writeScr (cellsAt (k + 8) (leBytes 4 count))
  else s.writeScr (cellsAt (k + 8) (leBytes 4 (count % target)) ++ cellsAt (k + 4) (leBytes 4 (s.valIn .scratch (k + 4) 4 + count / target)))

/-- R246: whether writes of a command are still on their way. -/
def State.putsOut (s : State) (n : Nat) : Bool := s.remote.any fun r => match r.asker with | some (.put k _ _) => k == n | _ => false
/-- The elements of places in this device's memory. -/
def placesNear (size : Nat) (ps : List EPlace) : List Elem :=
  ps.filterMap fun p => match p with | .mem .dram k _ => some ⟨0, .dram, k, size, 0, 0, none, 0⟩ | _ => none
/-- What moving some elements comes to. -/
inductive Moved where
  | wait (s : State)
  | fin (s : State) (err : Option (BitVec 8 × DWord))

/-- R244, R305, R308, R310, R315: elements are moved in order, up to the first that faults; those for other devices are sent, once earlier writes
of the command there have been performed. They wait for channels that compute (R275), and none comes to a home that is fused off (R19). -/
def State.moveItems (s : State) (n : Nat) (c : Cmd) (sync : Option Nat) (its : List Item) : Moved :=
  let plan := s.planItems c its
  let fars := plan.1.flatMap fun x => (x.2.1.filterMap fun p => match p with | .far _ va _ _ => some (Addr.mk 0 va x.1.rsize) | _ => none)
  let away := plan.1.any fun x => (x.2.1 ++ x.2.2).any fun p => match p with | .far _ _ _ _ => true | _ => false
  let near := plan.1.flatMap fun x => placesNear x.1.rsize x.2.1 ++ placesNear x.1.wsize x.2.2
  if away && s.putsOut n then .wait s else
  if !s.served near then .wait (s.awaitChans (.cmd n) near) else
  match s.gather (.cmd n) c.coreKey c.rights fars with
  | .wait s => .wait s
  | .stop r => .fin s (some (r.code, r.ti1))
  | .val xs s =>
    let got := (fars.zip xs).map fun x => (x.1.va, x.2.1, x.2.2)
    let keys := plan.1.flatMap fun x => x.2.2.flatMap fun p => match p with | .mem .dram k _ => (List.range x.1.wsize).map (k + ·) | _ => []
    let bad := s.badUnits (keys.map fun k => (k, 0))
    let m := plan.1.foldl (Moving.step (c.engine == 1) got bad) ⟨s, [], 0, [], none⟩
    let s1 := { m.st with memErr := m.st.memErr.filter fun u => !((List.range 32).all fun i => m.cells.contains (32 * u + i)) }
    let s2 := match sync with | some o => s1.countSync c.team o m.bytes | none => s1
    let s3 := s2.syncAll.setCmd n { s2.cmd n with bytes := c.bytes + m.bytes }
    let devs := (m.far.map (·.1)).eraseDups
    let s4 := devs.foldl (fun s d =>
      let es := (m.far.filter fun x => x.1 == d).map (·.2)
      s.fabSend c.coreKey c.rights d 0x04#5 es [] false false 0 (some (.put n ((es.map (·.size)).foldl (· + ·) 0) sync))) s3
    .fin s4 (match m.err with | some e => some e | none => plan.2.map fun r => (r.code, r.ti1))

/-! Conversions -/

/-- R49: a value narrowed to a floating format under the overflow table. -/
def ovtOut (ovt : BitVec 16) (dst : Nat) (v : FVal) : Nat :=
  match fpOf dst with
  | some F => if dst = 0 then (toF32 .rne v).toNat else F.narrowOvt (ovtAct ovt dst) v
  | none => 0
/-- R305: a finite value overflows a scale byte. -/
def q4Over (scale : Byte) (v : FVal) : Bool :=
  match v with
  | .fin neg m e => (q4Code scale .rne neg m e).2
  | _ => false
/-- R305: the least SCALE.EXP, 62 at most, at which no finite element overflows. -/
def q4Exp (kind : Nat) (vs : List FVal) : Nat :=
  ((List.range 62).find? fun e => !vs.any fun v => q4Over (BitVec.ofNat 8 (64 * kind + e)) v).getD 62
/-- R36, R49, R305: the 17 bytes of a block of 32 values. A NaN block has codes 0 and SCALE.KIND as QKIND, with SCALE.EXP 63 (DESIGN CHOICE,
log 62: R142 gives the codes of PACK4 alone). -/
def q4Block (ovt : BitVec 16) (kind : Nat) (vs : List FVal) : List Nat :=
  let e := q4Exp kind vs
  let codes := vs.map fun v => q4Ovt (ovtAct ovt 5) (BitVec.ofNat 8 (64 * kind + e)) v
  let nan := codes.any (·.isNone)
  let at' := fun i => if nan then 0 else ((codes[i]?).getD none).getD 0
  (List.range 16).map (fun i => at' (2 * i) + 16 * at' (2 * i + 1)) ++ [64 * kind + (if nan then 63 else e)]

/-- R305, R306: formats between which an engine does not convert. -/
def badPair (sf df : Nat) : Bool := fmtBits sf == 0 || fmtBits df == 0 || ((intOf sf).isSome != (intOf df).isSome)

/-! COPY -/

/-- R305: the elements of one row from source and destination addresses of its first element. -/
def copyRow (c : Cmd) (e : List Byte) (r : Nat) (ss : Nat) (src : DWord) (ds : Nat) (dst : DWord) : List Item :=
  let sf := entU e 48 1 / 16
  let df := entU e 48 1 % 16
  let rlen := entU e 28 4
  let within := fun n => decide (r < entU e 40 4 ∧ n < entU e 44 4)
  let es := fmtBits sf / 8
  let ed := fmtBits df / 8
  let srcAt := fun (n : Nat) => if sf = 5 then [src + BitVec.ofNat 64 (n / 32 * 17 + n % 32 / 2), src + BitVec.ofNat 64 (n / 32 * 17 + 16)] else [src + BitVec.ofNat 64 (n * es)]
  let rsz := if sf = 5 then 1 else es
  let val := fun (n : Nat) (xs : List Nat) =>
    if sf = 5 then q4Val (BitVec.ofNat 8 ((xs[1]?).getD 0)) ((xs[0]?).getD 0 / 16 ^ (n % 2) % 16) else fmtVal sf ((xs[0]?).getD 0)
  if sf = 5 ∧ df = 5 then
    (List.range rlen).map fun n => ⟨ss, 1, if within n then [src + BitVec.ofNat 64 n] else [], ds, 1, [dst + BitVec.ofNat 64 n], fun xs => [xs.headD 0]⟩
  else if df = 5 then
    (List.range (rlen / 32)).map fun b =>
      let ns := (List.range 32).map (32 * b + ·)
      ⟨ss, rsz, (ns.filter within).flatMap srcAt, ds, 1, (List.range 17).map fun i => dst + BitVec.ofNat 64 (17 * b + i), fun xs =>
        q4Block c.ovt (entU e 50 1 % 4) (ns.mapIdx fun i n => if within n then val n (xs.drop i) else .fin false 0 0)⟩
  else
    (List.range rlen).map fun n =>
      ⟨ss, rsz, if within n then srcAt n else [], ds, ed, [dst + BitVec.ofNat 64 (n * ed)], fun xs =>
        [if within n then (if sf = 5 then ovtOut c.ovt df (val n xs) else convOvt c.ovt sf df (xs.headD 0)) else 0]⟩

/-- R303, R305, R306: why an entry of its kind is refused. -/
def entRefused (k : EntKind) (engine : Nat) (single : Bool) (e : List Byte) : Bool :=
  let sf := entU e 48 1 / 16
  let df := entU e 48 1 % 16
  !k.onEngine engine || k.reserved e || (single && k != .copy) ||
    (match k with
     | .copy => badPair sf df || entU e 49 1 / 4 == 3 || (df == 5 && sf != 5 && entU e 28 4 % 32 != 0)
     | .gather => badPair (entU e 36 1 / 16) (entU e 36 1 % 16) || entU e 36 1 / 16 == 5 || entU e 36 1 % 16 == 5 || entU e 32 2 == 0 ||
         decide (64 < entU e 32 2) || entU e 1 1 % 4 != 0
     | .scatter => badPair (entU e 36 1 / 16) (entU e 36 1 % 16) || entU e 36 1 / 16 == 5 || entU e 36 1 % 16 == 5 || entU e 32 2 == 0 ||
         decide (64 < entU e 32 2) || entU e 1 1 % 4 != 0 || entU e 34 1 == 3
     | .loop => entU e 8 4 == 0 || entU e 12 2 == 0 || decide (1023 < entU e 12 2)
     | _ => false)

/-! Commands -/

/-- R313: the fault of a command marks every buffer that it names, beside what marks it already. -/
def State.markCbs (s : State) (n : Nat) (c : Cmd) : State :=
  let k := (s.team c.team).coreKey
  s.setCore k { s.core k with cbs := (s.core k).cbs.map fun (b : Nat × Cb) =>
    (b.1, if b.2.team = c.team ∧ c.cbs.contains b.1 then { b.2 with mark := b.2.mark ++ [n] } else b.2) }
/-- R308: an end of a command; a fault marks the buffers it names, and becomes an event where its group has retired. -/
def State.endCmd (s : State) (n : Nat) (code : BitVec 8) (addr : DWord) : State :=
  let c := { s.cmd n with syncs := s.cmdSyncs (s.cmd n), cbs := s.cmdCbs (s.cmd n) }
  let s := s.setCmd n { c with done := true, fault := code, faultAddr := addr }
  let s := { s with
    cores := s.cores.map fun (x : Nat × Core) => (x.1, { x.2 with copyQ := x.2.copyQ.filter (· != n) })
    homes := s.homes.map fun (x : Nat × HomeSt) => (x.1, { x.2 with caravanQ := x.2.caravanQ.filter (· != n) }) }
  let s := if code = 0 then s else s.markCbs n c
  let s := { s with answers := s.answers.filter fun a => a.asker != Asker.cmd n }
  if (s.group c.group).alive = false then s.orphan c.group else s

/-- R313: a buffer that an entry names, as the command's team holds it. -/
def State.cbOf (s : State) (c : Cmd) (k : Nat) : Option Cb :=
  match (s.core (s.team c.team).coreKey).cbs.find k with
  | some b => if b.team = c.team then some b else none
  | none => none
/-- R313: whether a buffer that an entry names keeps its next step from firing: too little to take, or too little room. -/
def State.cbHolds (s : State) (c : Cmd) (e : List Byte) : Bool :=
  (match (entIn e).bind (s.cbOf c) with | some b => decide ((b.p - b.c).toNat < b.fire) | none => false) ||
    (match (entOut e).bind (s.cbOf c) with | some b => decide (b.n < (b.p - b.c).toNat + b.fire) | none => false)
/-- R287: whether a command has not been begun and could be: it waits neither for a buffer nor for reads. -/
def State.cmdFresh (s : State) (n : Nat) : Bool :=
  let c := s.cmd n
  c.alive && !c.done && !c.begun && c.idx == 0 && c.rows == 0 && c.at' == c.head && !(match s.reached c with | some e => s.cbHolds c e | none => false) &&
    !(s.remote.any fun r => r.asker == some (Asker.cmd n))
/-- R287: the commands of an engine's queue are begun in the order of acceptance. -/
def State.cmdBehind (s : State) (n : Nat) : Bool :=
  let c := s.cmd n
  let q := match c.engine with
    | 0 => (s.core (s.team c.team).coreKey).copyQ
    | 1 => (s.home c.home).caravanQ
    | _ => []
  q.contains n && (q.takeWhile (· != n)).any s.cmdFresh
/-- What keeps a command from going on: its end, a save or a freeze, reads under way, or one before it that is not begun. -/
def State.cmdStuck (s : State) (n : Nat) : Bool :=
  let c := s.cmd n
  let p := s.part c.rights.part
  !c.alive || c.done || !s.holdsCore (s.team c.team) || p.frozen || s.cmdBehind n || s.remote.any fun r => r.asker == some (Asker.cmd n)

/-- R245, R303: whether a walk that a BOBBIN entry of a command began still runs. -/
def State.walkOut (s : State) (n : Nat) : Bool :=
  let b := (s.group (s.cmd n).group).bob
  (s.cmd n).bobbin && (match b.cmd with | some x => x.chain == some n && b.state == .running && !x.walked | none => false)

/-- What a command reads in its team's reservation at the entry that it has reached, by offset and size: the entry, and the indices, descriptors,
block or word that it names (R303, R306, R307). -/
def State.engReads (s : State) (n : Nat) : List (Nat × Nat) :=
  let c := s.cmd n
  if c.single.isSome then []
  else (c.at', 64) :: (match s.reached c with
    | none => []
    | some e =>
      match kindOf e with
      | some .gather => if c.rows < entU e 28 4 then [(entU e 24 4 + 4 * c.rows, 4)] else []
      | some .scatter => if c.rows < entU e 28 4 then [(entU e 24 4 + 4 * c.rows, 4)] else []
      | some .bobbin => [(entU e 8 4, 64), (entU e 12 4, 64), (entU e 16 4, 64), (entU e 16 4 + 64, 64)]
      | some .brif => if s.putsOut n || s.walkOut n then [] else [(entU e 8 4, 4)]
      | _ => [])
/-- R20: the first of these that lies in a range that SPMAP has mapped, and is still to be read at its home. -/
def State.unread (s : State) (n : Nat) : Option (Nat × Nat × MapEnt) :=
  let c := s.cmd n
  let t := s.team c.team
  (s.engReads n).findSome? fun x => if (KMap.find c.seen x.1).isSome then none else ((t.mapAt x.1).bind t.maps.find).map fun m => (x.1, x.2, m)
/-- R20: it is read there, under the checks of a global access. -/
def State.readMapped (s : State) (n : Nat) : State :=
  match s.unread n with
  | none => s
  | some (off, size, m) =>
    let c := s.cmd n
    let w := min 8 size
    let as := (List.range (size / w)).map fun i => Addr.mk 0 (m.gva + BitVec.ofNat 64 (off - m.off + w * i)) w
    match s.checkGlobal c.coreKey c.rights .read w false as with
    | some r => s.endCmd n r.code r.ti1
    | none =>
      match s.gather (.cmd n) c.coreKey c.rights as with
      | .wait s => s
      | .stop r => s.endCmd n r.code r.ti1
      | .val xs s =>
        match (as.zip xs).find? fun x => x.2.2 with
        | some x => s.endCmd n 0x19#8 x.1.va
        | none => s.setCmd n { s.cmd n with seen := (s.cmd n).seen.ins off (xs.flatMap fun x => leBytes w x.1.toNat) }
/-- What keeps a command from acting at its entry: what keeps it from going on, or something to be read first. -/
def State.cmdBlocked (s : State) (n : Nat) : Bool := s.cmdStuck n || (s.unread n).isSome
/-- R303: a command goes on at the next entry of its walk. -/
def State.nextEntry (s : State) (n : Nat) : State :=
  let c := s.cmd n
  if c.single.isSome then s.endCmd n 0 0 else s.setCmd n { c with at' := c.at' + 64, idx := c.idx + 1, rows := 0, seen := [] }
/-- R308: whether the entry that a command has reached is read in error. -/
def State.entryBad (s : State) (c : Cmd) : Bool :=
  c.single.isNone && s.engBad c c.at' 64
/-- R303: the step of a command at an entry of kind `k`, once what lies in a mapped range has been read (R20); one that is refused ends it, and so does an unlisted kind, an entry outside
the reservation or one read in error, which END's step finds. -/
def State.onEntry (s : State) (n : Nat) (k : EntKind) (act : Cmd → List Byte → State) : State :=
  let c := s.cmd n
  if s.cmdStuck n then s
  else if (s.unread n).isSome then s.readMapped n
  else
    match s.reached c with
    | none => if k = .fin then s.endCmd n 0x01#8 (BitVec.ofNat 64 c.at') else s
    | some e =>
      if s.entryBad c then (if k = .fin then s.endCmd n 0x19#8 (BitVec.ofNat 64 c.at') else s)
      else
      match kindOf e with
      | none => if k = .fin then s.endCmd n 0x01#8 (BitVec.ofNat 64 c.at') else s
      | some k' =>
        if k' ≠ k then s
        else if entRefused k c.engine c.single.isSome e then s.endCmd n 0x01#8 (BitVec.ofNat 64 c.at')
        else act c e

/-- R304, R310: the sync word that an entry names: its faults, and that the command has named it. -/
def State.withSync (s : State) (n : Nat) (c : Cmd) (e : List Byte) (k : State → State) : State :=
  match entSync e with
  | none => k s
  | some o =>
    let s := (s.setCmd n { c with syncs := if c.syncs.contains o then c.syncs else c.syncs ++ [o] }).useSync c.team o
    if o % 16 ≠ 0 then s.endCmd n 0x13#8 (BitVec.ofNat 64 o)
    else if (s.team c.team).alive = false ∨ (s.team c.team).size < o + 16 then s.endCmd n 0x11#8 (BitVec.ofNat 64 o)
    else k s
/-- What follows a move: the end of a command at a fault, or the step that was due. -/
def Moved.go (m : Moved) (n : Nat) (k : State → State) : State :=
  match m with
  | .wait s => s
  | .fin s (some e) => s.endCmd n e.1 e.2
  | .fin s none => k s

/-- R305: COPY_ENTRY: the next row of an entry without buffers. -/
def execCopyEntry (cmd : Nat) (s : State) : Host.Outcome State Fault Refusal :=
  .next (s.onEntry cmd .copy fun c e =>
    if (entIn e).isSome ∨ (entOut e).isSome then s
    else if entU e 24 4 ≤ c.rows then s.nextEntry cmd
    else s.withSync cmd c e fun s =>
      let d := c.deltas.get (0, 0) c.at'
      let its := copyRow c e c.rows (entU e 49 1 / 4) (moved (entU e 8 8) (d.1 + c.rows * entI e 32 4)) (entU e 49 1 % 4)
        (moved (entU e 16 8) (d.2 + c.rows * entI e 36 4))
      (s.moveItems cmd c (entSync e) its).go cmd fun s =>
        if c.rows + 1 < entU e 24 4 then s.setCmd cmd { s.cmd cmd with rows := c.rows + 1 } else s.nextEntry cmd)

/-- R311: address of element `k` of a buffer. -/
def Cb.elem (b : Cb) (k : Word) : DWord := BitVec.ofNat 64 (b.base + k.toNat % b.n * b.esize)
/-- R313: a buffer's pointers after a step. -/
def State.cbStep (s : State) (c : Cmd) (k : Option Nat) (out : Bool) : State :=
  match k with
  | none => s
  | some k =>
    match s.cbOf c k with
    | none => s
    | some b =>
      let core := (s.team c.team).coreKey
      s.setCore core { s.core core with cbs := (s.core core).cbs.ins k (if out then { b with p := b.p + BitVec.ofNat 32 b.fire } else { b with c := b.c + BitVec.ofNat 32 b.fire }) }
/-- R313: CB_STEP_FIRE. -/
def execCbStepFire (cmd : Nat) (s : State) : Host.Outcome State Fault Refusal :=
  .next (s.onEntry cmd .copy fun c e =>
    let bi := (entIn e).map fun k => (k, s.cbOf c k)
    let bo := (entOut e).map fun k => (k, s.cbOf c k)
    let sf := entU e 48 1 / 16
    let df := entU e 48 1 % 16
    let rows := entU e 24 4
    if bi.isNone ∧ bo.isNone then s
    else
      let s := s.setCmd cmd { c with cbs := (c.cbs ++ (entIn e).toList ++ (entOut e).toList).eraseDups }
      let absent := (match bi with | some (_, none) => true | _ => false) || (match bo with | some (_, none) => true | _ => false)
      let ib := bi.bind (·.2)
      let ob := bo.bind (·.2)
      let raw := sf == df
      let size := (match ib with | some b => b.esize != rowBytes sf (entU e 28 4) raw | none => false) ||
        (match ob with | some b => b.esize != rowBytes df (entU e 28 4) raw | none => false)
      if rows ≤ c.rows then s.nextEntry cmd
      else if absent || size then s.endCmd cmd 0x25#8 (BitVec.ofNat 64 c.at')
      else if s.cbHolds c e then s
      else s.withSync cmd (s.cmd cmd) e fun s =>
        let fire := match ib, ob with | some b, _ => b.fire | none, some b => b.fire | none, none => 1
        let m := min fire (rows - c.rows)
        let d := c.deltas.get (0, 0) c.at'
        let its := (List.range m).flatMap fun j =>
          let r := c.rows + j
          copyRow c e r
            (if ib.isSome then 1 else entU e 49 1 / 4) (match ib with | some b => b.elem (b.c + BitVec.ofNat 32 j) | none => moved (entU e 8 8) (d.1 + r * entI e 32 4))
            (if ob.isSome then 1 else entU e 49 1 % 4) (match ob with | some b => b.elem (b.p + BitVec.ofNat 32 j) | none => moved (entU e 16 8) (d.2 + r * entI e 36 4))
        (s.moveItems cmd c (entSync e) its).go cmd fun s =>
          let s := (s.cbStep c (entIn e) false).cbStep c (entOut e) true
          if c.rows + m < rows then s.setCmd cmd { s.cmd cmd with rows := c.rows + m } else s.nextEntry cmd)

/-! GATHER and SCATTER -/

/-- R306: the next index of an entry. -/
def State.indexStep (s : State) (n : Nat) (c : Cmd) (e : List Byte) (scatter : Bool) : State :=
  if entU e 28 4 ≤ c.rows then s.nextEntry n
  else s.withSync n c e fun s =>
    match s.engPlace c 1 false 4 (BitVec.ofNat 64 (entU e 24 4 + 4 * c.rows)) with
    | .error r => s.endCmd n r.code r.ti1
    | .ok _ =>
      if s.engBad c (entU e 24 4 + 4 * c.rows) 4 then s.endCmd n 0x19#8 (BitVec.ofNat 64 (entU e 24 4 + 4 * c.rows))
      else
      let idx := leNat (s.engBytes c (entU e 24 4 + 4 * c.rows) 4)
      let d := c.deltas.get (0, 0) c.at'
      let vpi := entU e 32 2
      let tf := entU e 36 1 / 16
      let lf := entU e 36 1 % 16
      let ts := fmtBits tf / 8
      let ls := fmtBits lf / 8
      let its := (List.range vpi).map fun v =>
        let ta := moved (entU e 8 8) (d.1 + ((idx * vpi + v) * ts : Nat))
        let la := moved (entU e 16 8) (d.2 + ((c.rows * vpi + v) * ls : Nat))
        if scatter then Item.mk (entU e 34 1) ls [la] 0 ts [ta] fun xs => [convOvt c.ovt lf tf (xs.headD 0)]
        else Item.mk 0 ts [ta] (entU e 34 1) ls [la] fun xs => [convOvt c.ovt tf lf (xs.headD 0)]
      (s.moveItems n c (entSync e) its).go n fun s =>
        if c.rows + 1 < entU e 28 4 then s.setCmd n { s.cmd n with rows := c.rows + 1 } else s.nextEntry n
/-- R306: GATHER_ENTRY. -/
def execGatherEntry (cmd : Nat) (s : State) : Host.Outcome State Fault Refusal :=
  .next (s.onEntry cmd .gather fun c e => s.indexStep cmd c e false)
/-- R306: SCATTER_ENTRY. -/
def execScatterEntry (cmd : Nat) (s : State) : Host.Outcome State Fault Refusal :=
  .next (s.onEntry cmd .scatter fun c e => s.indexStep cmd c e true)

/-! BOBBIN -/

/-- R189: what OPEN of a descriptor reads. -/
def Fib.openReads (D : Fib) : Nat × List DWord :=
  if D.rows then (D.width, [D.ptrAt 0, D.ptrAt D.nrow.toNat, D.ptrAt 1])
  else if D.kind = 0x4#4 ∨ D.kind = 0x5#4 then D.whole
  else (D.width, [])
/-- R189: the register that OPEN of a descriptor at an offset leaves, or the fault with its address (R308; DESIGN CHOICE, log 64: the descriptor's,
where what it says is at fault). -/
def State.openFib (s : State) (c : Cmd) (off : Nat) (D : Fib) (xs : List (DWord × Bool)) : Except (BitVec 8 × DWord) Fib :=
  let v := fun i => ((xs[i]?).getD (0, false)).1.toNat
  let set := fun (a b : Nat) => { D with crow := D.row0, scan := 0, pos := BitVec.ofNat 32 a, fin := BitVec.ofNat 32 b }
  let read := fun (as : List DWord) (w : Nat) => s.checkGlobal c.coreKey c.rights .read w false (as.map fun a => ⟨0, a, w⟩)
  if D.rows then
    match read ((List.range (D.nrow.toNat + 1)).map D.ptrAt) D.width with
    | some r => .error (r.code, r.ti1)
    | none =>
      if v 1 < v 0 then .error (0x30#8, BitVec.ofNat 64 off)
      else
        match read (D.span (v 0) (v 1)) D.width with
        | some r => .error (r.code, r.ti1)
        | none => if v 2 < v 0 ∨ v 1 < v 2 then .error (0x30#8, BitVec.ofNat 64 off) else .ok (set (v 0) (v 2))
  else
    match read D.whole.2 D.whole.1 with
    | some r => .error (r.code, r.ti1)
    | none =>
      if D.kind = 0x4#4 then .ok (set 0 (D.setBits xs).length)
      else if D.kind = 0x5#4 then (if 2 ^ 32 - 1 < runSum xs then .error (0x32#8, BitVec.ofNat 64 off) else .ok (set 0 (runSum xs)))
      else .ok (set 0 D.len.toNat)
/-- R189: a descriptor of 64 bytes in the team's reservation, or the fault with its address. -/
def State.descriptor (s : State) (c : Cmd) (off : Nat) : Except (BitVec 8 × DWord) Fib :=
  match s.engPlace c 1 false 64 (BitVec.ofNat 64 off) with
  | .error r => .error (r.code, r.ti1)
  | .ok _ =>
    if s.engBad c off 64 then .error (0x19#8, BitVec.ofNat 64 off)
    else
      let img : BitVec 512 := BitVec.ofNat 512 (leNat (s.engBytes c off 64))
      match (Fib.ofBits img).refusal false (fld img 8 120 != 0) with
      | some _ => .error (0x32#8, BitVec.ofNat 64 off)
      | none => .ok (Fib.ofBits img)
/-- R307: BOBBIN_ENTRY. -/
def execBobbinEntry (cmd : Nat) (s : State) : Host.Outcome State Fault Refusal :=
  .next (s.onEntry cmd .bobbin fun c e =>
    let g := s.group c.group
    let fail := fun (s : State) (x : BitVec 8 × DWord) => s.endCmd cmd x.1 x.2
    let blk := BitVec.ofNat 64 (entU e 16 4)
    if g.bob.state = .running then s
    else
      match s.descriptor c (entU e 8 4), s.descriptor c (entU e 12 4) with
      | .error x, _ => fail s x
      | .ok _, .error x => fail s x
      | .ok A, .ok B =>
        let ra := A.openReads
        let rb := B.openReads
        match s.readSides (.cmd cmd) c.coreKey c.rights [ra, rb] with
        | .wait s => s
        | .stop r => s.endCmd cmd r.code r.ti1
        | .val xs s =>
          match badRead (ra.2 ++ rb.2) xs with
          | some r => s.endCmd cmd r.code r.ti1
          | none =>
            match s.openFib c (entU e 8 4) A (xs.take ra.2.length), s.openFib c (entU e 12 4) B (xs.drop ra.2.length) with
            | .error x, _ => fail s x
            | .ok _, .error x => fail s x
            | .ok fa, .ok fb =>
              if g.depth = 10 then fail s (0x23#8, BitVec.ofNat 64 c.at')
              else if (pairRefusal fa fb).isSome then fail s (0x32#8, BitVec.ofNat 64 (entU e 8 4))
              else if entU e 16 4 % 64 ≠ 0 then fail s (0x13#8, blk)
              else if (s.team c.team).alive = false ∨ (s.team c.team).size < entU e 16 4 + 128 then fail s (0x11#8, blk)
              else
                let t := s.team c.team
                let bs := s.engBytes c (entU e 16 4) 64 ++ s.engBytes c (entU e 16 4 + 64) 64
                if s.engBad c (entU e 16 4) 64 || s.engBad c (entU e 16 4 + 64) 64 then fail s (0x19#8, blk)
                else if (blockRefusal bs).isSome then fail s (0x32#8, blk)
                else
                  let b := newBob (entU e 20 1 != 0) fa fb (BobBlock.ofBytes bs) c.rights c.home c.ovt g.depth t.grid c.team c.pc (some cmd)
                  let s := (s.startBob c.group b).1
                  (s.setCmd cmd { s.cmd cmd with bobbin := true }).nextEntry cmd)

/-! Control entries -/

/-- R303: a target of the walk, refused outside the reservation. -/
def State.walkTo (s : State) (n : Nat) (off : Int) (g : Cmd → Cmd) : State :=
  let c := s.cmd n
  if off < 0 ∨ (s.team c.team).size < off.toNat + 64 then s.endCmd n 0x01#8 (BitVec.ofInt 64 off)
  else s.setCmd n { g c with at' := off.toNat, rows := 0, seen := [], begun := true }
/-- R304: the working copies of the entries of a loop after an iteration. -/
def Cmd.stride (c : Cmd) (back : Nat) (ss ds : Int) : Cmd :=
  { c with deltas := (List.range back).foldl (fun m i =>
      let k := c.at' - 64 * (i + 1)
      let d := KMap.get (0, 0) m k
      KMap.put (0, 0) m k (d.1 + ss, d.2 + ds)) c.deltas }
/-- R303, R304: LOOP_ENTRY. -/
def execLoopEntry (cmd : Nat) (s : State) : Host.Outcome State Fault Refusal :=
  .next (s.onEntry cmd .loop fun c e =>
    let back := entU e 12 2
    let mine := c.loops.find? fun l => l.at' == c.at'
    let left := match mine with | some l => l.left | none => entU e 8 4 - 1
    let goal : Int := (c.at' : Int) - 64 * back
    if goal < 0 ∨ (mine.isNone ∧ c.loops.length = 4) then s.endCmd cmd 0x01#8 (BitVec.ofNat 64 c.at')
    else if left = 0 then (s.setCmd cmd { c with loops := c.loops.filter fun l => l.at' != c.at' }).nextEntry cmd
    else s.walkTo cmd goal fun c =>
      { (c.stride back (entI e 16 8) (entI e 24 8)) with
        idx := c.idx - back
        loops := (c.loops.filter fun l => l.at' != c.at') ++ [⟨c.at', left - 1⟩] })
/-- R303: BRIF_ENTRY, once every earlier data entry has been performed. -/
def execBrifEntry (cmd : Nat) (s : State) : Host.Outcome State Fault Refusal :=
  .next (s.onEntry cmd .brif fun c e =>
    let w := entU e 8 4
    let t := s.team c.team
    let goal : Int := (c.at' : Int) + 64 * entI e 12 2
    if s.putsOut cmd || s.walkOut cmd then s
    else if t.size < w + 4 ∨ goal < 0 ∨ t.size < goal.toNat + 64 then s.endCmd cmd 0x01#8 (BitVec.ofNat 64 c.at')
    else if w % 4 ≠ 0 then s.endCmd cmd 0x13#8 (BitVec.ofNat 64 w)
    else if s.engBad c w 4 then s.endCmd cmd 0x19#8 (BitVec.ofNat 64 w)
    else
      let x := leNat (s.engBytes c w 4)
      if (x ≠ 0) = (entU e 14 1 = 0) then s.walkTo cmd goal fun c => { c with idx := ((c.idx : Int) + entI e 12 2).toNat }
      else s.nextEntry cmd)
/-- R303: LINK_ENTRY. -/
def execLinkEntry (cmd : Nat) (s : State) : Host.Outcome State Fault Refusal :=
  .next (s.onEntry cmd .link fun c e =>
    if entU e 8 4 % 64 ≠ 0 then s.endCmd cmd 0x13#8 (BitVec.ofNat 64 (entU e 8 4))
    else s.walkTo cmd (entU e 8 4) fun _ => { c with idx := c.idx + 1 })
/-- R303: END_ENTRY: the command ends; so it does, refused, where what it has reached is no entry. -/
def execEndEntry (cmd : Nat) (s : State) : Host.Outcome State Fault Refusal :=
  .next (s.onEntry cmd .fin fun _ _ => s.endCmd cmd 0 0)

/-! The words -/

/-- R302: whether an engine's queue is full. -/
def State.engineFull (s : State) (team home engine : Nat) : Bool :=
  match engine with
  | 0 => decide (32 ≤ (s.core (s.team team).coreKey).copyQ.length)
  | 1 => decide (64 ≤ (s.home home).caravanQ.length)
  | _ => decide (32 ≤ s.bobHeld home)
/-- R302: a command of fragment `n`, at word `pc` and place `home` and `core`, enters its engine's queue. -/
def State.takeCmd (s : State) (n : Nat) (pc : DWord) (home core engine head : Nat) (single : Option (List Byte)) : State :=
  let gn := (s.frag n).group
  let k := s.newId.1
  let s := s.newId.2
  let g := s.group gn
  let t := s.team g.team
  let c := { Cmd.none with
    alive := true, engine := engine, group := gn, team := g.team, frag := n, pc := pc, rights := g.rights
    home := if engine = 0 then t.home else home, core := if engine = 0 then t.core else core, ovt := g.ovt, head := head, at' := head, single := single }
  let s := (s.setCmd k c).setGroup gn { g with unsealed := g.unsealed ++ [k], lastCmd := g.lastCmd.ins engine k }
  match engine with
  | 0 => s.setCore t.coreKey { s.core t.coreKey with copyQ := (s.core t.coreKey).copyQ ++ [k] }
  | 1 => s.setHome home { s.home home with caravanQ := (s.home home).caravanQ ++ [k] }
  | _ => s
/-- R302, R244: a command is accepted, once every earlier access of the fragment has been performed. -/
def engineAct (s : State) (engine head : Nat) (single : Option (List Byte)) : Act :=
  if s.engineFull s.g.team s.f.home engine then .hold s
  else if !s.released s.cur false then .hold s
  else .done (s.takeCmd s.cur s.f.pc s.f.home s.f.core engine head single)
/-- R302: a command word of a fragment on another device; its team's device takes the command (log 58). -/
def engineAway (s : State) (engine : Nat) (sa : DWord) (single : Bool) : Act :=
  if !s.released s.cur false then .hold s else s.wordAway (.engine engine sa single s.f.pc) (onDone fun _ s => .done s)
/-- R302: ECHAIN. -/
def execEchain (a e : BitVec 6) (s : State) : Host.Outcome State Fault Refusal :=
  let sa := s.sv a
  finish s (if 3 ≤ e.toNat then .fault (faultOf 0x01#8)
    else s.clean [.s a] (if sa.toNat % 64 ≠ 0 then .fault (faultAt 0x13#8 0 [⟨0, sa, 64⟩])
      else if s.keeps s.g then engineAct s e.toNat sa.toNat none
      else engineAway s e.toNat sa false))
/-- R302: CPY. -/
def execCpy (a : RegNum) (s : State) : Host.Outcome State Fault Refusal :=
  let sa := s.sv a
  finish s (s.clean [.s a]
    (if sa.toNat % 64 ≠ 0 then .fault (faultAt 0x13#8 0 [⟨0, sa, 64⟩])
     else if s.keeps s.g = false then engineAway s 0 sa true
     else
      match s.scrBytes s.g.team s.g.rights.asid sa 64 false with
      | .error x => .fault x
      | .ok key => s.afterStores key 64 <| engineAct s 0 sa.toNat (some (s.bytesIn .scratch key 64))))
/-- R308: what ESTAT reads of a group. -/
def State.estatOf (s : State) (g : Group) (engine : Nat) : DWord :=
  if engine = 2 then g.bob.status else match g.lastCmd.find engine with | some n => (s.cmd n).status | none => 0
/-- R308: ESTAT. -/
def execEstat (d e : BitVec 6) (s : State) : Host.Outcome State Fault Refusal :=
  finish s (if 3 ≤ e.toNat then .fault (faultOf 0x01#8)
    else if s.keeps s.g then .done (s.later d (s.estatOf s.g e.toNat) false)
    else s.wordAway (.estat e.toNat) (onDone fun v s => .done (s.later d v false)))

end Sys2Proof.Machine
end

