-- ==== Sys2Proof/Machine/Batch.lean ====
section
/-! DEFINITION. Copy batches (R245, R309) and sync words (R246, R310). -/

namespace Sys2Proof.Machine

/-! Words of a fragment on another device -/

/-- What a wait word comes to at its team's core's answer: one that cannot be done yet begins to wait. -/
def onWait (st : FState) (k : DWord → State → Act) (r : WordReply) (s : State) : Act :=
  match r with
  | .wait => .away (s.beginWait st)
  | r => onDone k r s
/-- The wake of a wait word on another device: it asks its team's core again until the word is done or faults. -/
def State.wakeWord (s : State) (n : Nat) (w : TeamWord) (k : DWord → State → Act) : Host.Outcome State Fault Refusal :=
  let f := s.frag n
  let s1 := ({ s with cur := n } : State).wake n
  let s2 := s1.setF { s1.f with grant := .none }
  if s.asleep n then .next s
  else
    match f.grant with
    | .asked => .next s
    | .word (.done v) => finish s2 (k v s2)
    | .word (.fault x) => finish s2 (.fault x)
    | .refused => finish s2 (.fault (keyFault f.own (s.group f.group).dev (s.group f.group).home))
    | _ => .next (s.sendWord n w)

/-! Batches -/

/-- R309: whether a group has 16 incomplete batches. -/
def Group.sealedFull (g : Group) : Bool := decide (16 ≤ g.batches.length)
/-- R309: a group's unsealed commands become its next batch; one without a command is complete at once. -/
def State.sealBatch (s : State) (gn : Nat) : State :=
  let g := s.group gn
  let n := g.batchNo
  let s1 := g.unsealed.foldl (fun s k => s.setCmd k { s.cmd k with batch := some n }) s
  s1.setGroup gn { g with batchNo := n + 1, unsealed := [], batches := if g.unsealed = [] then g.batches else g.batches ++ [⟨n, g.unsealed⟩] }
/-- R309: BSEAL. -/
def execBseal (d : RegNum) (s : State) : Host.Outcome State Fault Refusal :=
  finish s (if s.keeps s.g = false then s.wordAway .bseal (onDone fun v s => .done (s.wrS d v false))
    else if s.g.sealedFull then .hold s
    else .done ((s.sealBatch s.f.group).wrS d (s.g.batchNo.setWidth 64) false))
/-- R245: whether every read and write of a command has been performed. -/
def State.cmdComplete (s : State) (n : Nat) : Bool :=
  (s.cmd n).done && !s.putsOut n && !s.walkOut n
/-- R245: BATCH_COMPLETE. -/
def execBatchComplete (group batch : Nat) (s : State) : Host.Outcome State Fault Refusal :=
  let g := s.group group
  .next (s.setGroup group { g with batches := g.batches.filter fun b => !(b.num.toNat == batch && b.cmds.all s.cmdComplete) })
/-- R308: the command of a group's batch whose fault is still to be delivered. -/
def State.batchOwed (s : State) (gn : Nat) (n : BitVec 8) : Option (Nat × Cmd) :=
  s.owedOf gn ((s.cmds.filter fun c => c.2.group == gn && c.2.batch == some n).map (·.1))
/-- R309: what BWAIT comes to once its batch is complete. -/
def bwaitEnd (n : BitVec 8) (s : State) : Act :=
  match s.batchOwed s.f.group n with
  | some x => s.giveFault x
  | none => .done (s.setE false)
/-- R309: whether a batch is incomplete. -/
def Group.incomplete (g : Group) (n : BitVec 8) : Bool := g.batches.any fun b => b.num == n
/-- R309, R245: BWAIT. -/
def execBwait (a : RegNum) (s : State) : Host.Outcome State Fault Refusal :=
  finish s (noTrapMode s (s.clean [.s a] (parkThen s fun s =>
    let n := (s.sv a).setWidth 8
    if s.keeps s.g = false then s.wordAway (.bwait n) (onWait (.bwait n) fun _ s => .done (s.setE false))
    else if s.g.incomplete n then .away (s.beginWait (.bwait n)) else bwaitEnd n s)))
/-- R309: BWAIT_WAKE. -/
def execBwaitWake (frag : Nat) (s : State) : Host.Outcome State Fault Refusal :=
  match (s.frag frag).state with
  | .bwait n =>
    if s.keeps (s.group (s.frag frag).group) = false then s.wakeWord frag (.bwait n) fun _ s => .done (s.setE false)
    else if s.asleep frag ∨ (s.group (s.frag frag).group).incomplete n then .next s else finish (s.wake frag) (bwaitEnd n (s.wake frag))
  | _ => .next s

/-! Sync words -/

/-- R310: what forbids a sync word at an offset of a team's reservation. -/
def Team.syncFault (t : Team) (o : Nat) : Option FaultRec :=
  if o % 16 ≠ 0 then some (faultAt 0x13#8 0 [⟨0, BitVec.ofNat 64 o, 16⟩])
  else if t.size < o + 16 then some (faultAt 0x11#8 0 [⟨0, BitVec.ofNat 64 o, 16⟩])
  else Option.none
/-- R310: SYNCW sets a target and clears the count. -/
def State.setSync (s : State) (team o target : Nat) : State :=
  let t := s.team team
  let k := scrKey t.coreKey (t.base + o)
  (s.nameSync team o).writeScr (cellsAt (k + 12) (leBytes 4 target) ++ cellsAt (k + 8) (leBytes 4 0))
/-- R310: the generation of a team's sync word. -/
def State.genAt (s : State) (team off : Nat) : Word :=
  let t := s.team team
  BitVec.ofNat 32 (s.valIn .scratch (scrKey t.coreKey (t.base + off) + 4) 4)
/-- R310: SYNCW. -/
def execSyncw (d a : RegNum) (s : State) : Host.Outcome State Fault Refusal :=
  let o := fld (s.sv a) 0 18
  let target := fld (s.sv a) 32 32
  finish s (s.clean [.s a]
    (if s.keeps s.g = false then s.wordAway (.syncw o target) (onDone fun v s => .done (s.wrS d v false))
     else
      match s.t.syncFault o with
      | some x => .fault x
      | none => s.afterStores (scrKey s.t.coreKey (s.t.base + o)) 16 <| .done ((s.setSync s.g.team o target).wrS d ((s.genAt s.g.team o).setWidth 64) false)))
/-- R310: whether a generation has reached a value. -/
def genMet (gen v : Word) : Bool := decide ((gen - v).toNat < 2 ^ 31)
/-- R308: the command of the group, naming a sync word, whose fault is still to be delivered. -/
def State.syncOwed (s : State) (gn off : Nat) : Option (Nat × Cmd) :=
  s.owedOf gn ((s.cmds.filter fun c => c.2.group == gn && c.2.syncs.contains off).map (·.1))
/-- R310: what SWAIT comes to once its generation has come, or a fault is to be delivered. -/
def swaitEnd (d : RegNum) (off : Nat) (s : State) : Act :=
  match s.syncOwed s.f.group off with
  | some x => s.giveFault x
  | none => .done (s.wrS d ((s.genAt s.g.team off).setWidth 64) false)
/-- R310: SWAIT. -/
def execSwait (d a : RegNum) (s : State) : Host.Outcome State Fault Refusal :=
  let o := fld (s.sv a) 0 18
  let v : Word := (s.sv d).setWidth 32
  finish s (noTrapMode s (s.clean [.s a, .s d]
    (if s.keeps s.g = false then parkThen s fun s => s.wordAway (.swait o v) (onWait (.swait o v d) fun x s => .done (s.wrS d x false))
     else
      match s.t.syncFault o with
      | some x => .fault x
      | none => s.afterStores (scrKey s.t.coreKey (s.t.base + o)) 16 <| parkThen (s.useSync s.g.team o) fun s =>
        if genMet (s.genAt s.g.team o) v || (s.syncOwed s.f.group o).isSome then swaitEnd d o s else .away (s.beginWait (.swait o v d)))))
/-- R310: SWAIT_WAKE. -/
def execSwaitWake (frag : Nat) (s : State) : Host.Outcome State Fault Refusal :=
  let f := s.frag frag
  match f.state with
  | .swait o v d =>
    if s.keeps (s.group f.group) = false then s.wakeWord frag (.swait o v) fun x s => .done (s.wrS d x false)
    else if !s.asleep frag && (genMet (s.genAt (s.group f.group).team o) v || (s.syncOwed f.group o).isSome) then finish (s.wake frag) (swaitEnd d o (s.wake frag)) else .next s
  | _ => .next s

end Sys2Proof.Machine
end

