-- ==== Sys2Proof/Machine/CircBuf.lean ====
section
/-! DEFINITION. Circular buffers: CBCFG, CBPUT, CBGET and CBWAIT (R311, R312). -/

namespace Sys2Proof.Machine

/-- R311: CB_CONFIG with a reason and a buffer. -/
def cbFault (reason : Nat) (n : BitVec 6) : FaultRec := faultOf 0x25#8 (BitVec.ofNat 64 (reason + 256 * n.toNat))
/-- R311: whether an unended command of a team names a buffer, in any entry that it can reach. -/
def State.cbNamed (s : State) (team n : Nat) : Bool :=
  s.cmds.any fun c => c.2.alive && !c.2.done && c.2.team == team && (s.cmdCbs c.2).contains n
/-- R311: a descriptor of a team's core. -/
def State.cbAt (s : State) (team : Nat) (n : BitVec 6) : Option Cb := (s.core (s.team team).coreKey).cbs.find n.toNat
def State.putCb (s : State) (team : Nat) (n : BitVec 6) (b : Cb) : State :=
  let k := (s.team team).coreKey
  s.setCore k { s.core k with cbs := (s.core k).cbs.ins n.toNat b }
/-- R311: CBCFG for a team: the fault, or the descriptor taken or released. -/
def State.cbConfig (s : State) (team : Nat) (x : DWord) (n : BitVec 6) : Except FaultRec State :=
  let t := s.team team
  let N := fld x 48 16 + 1
  let fire := fld x 32 16 + 1
  let esize := 4 * (fld x 23 9 + 1)
  let base := fld x 0 18
  if (match s.cbAt team n with | some b => b.team != team | none => false) then .error (cbFault 1 n)
  else if x.getLsbD 22 = false ∧ t.size < base + N * esize then .error (cbFault 2 n)
  else if x.getLsbD 22 = false ∧ (N < fire ∨ fld x 18 4 ≠ 0) then .error (cbFault 3 n)
  else if s.cbNamed team n.toNat then .error (cbFault 4 n)
  else if x.getLsbD 22 then .ok (s.setCore t.coreKey { s.core t.coreKey with cbs := (s.core t.coreKey).cbs.del n.toNat })
  else .ok (s.putCb team n ⟨team, N, fire, esize, base, 0, 0, []⟩)
/-- R312: the configured descriptor of a team that a word acts on, or its fault. -/
def State.cbOn (s : State) (team : Nat) (n : BitVec 6) : Except FaultRec Cb :=
  match s.cbAt team n with
  | none => .error (cbFault 7 n)
  | some b => if b.team ≠ team then .error (cbFault 1 n) else .ok b
/-- R311: elements in a buffer, and room. -/
def Cb.occupied (b : Cb) : Nat := (b.p - b.c).toNat
def Cb.room (b : Cb) : Nat := b.n - b.occupied
/-- R312: a buffer after CBPUT, or the fault. -/
def Cb.advance (b : Cb) (x : DWord) (n : BitVec 6) : Except FaultRec Cb :=
  let k : Word := x.setWidth 32
  if x.getLsbD 63 = false then (if b.room < k.toNat then .error (cbFault 5 n) else .ok { b with p := b.p + k })
  else if b.occupied < k.toNat then .error (cbFault 5 n)
  else .ok { b with c := b.c + k }
/-- A fault, or what goes on. -/
def orElse {α : Type} (x : Except FaultRec α) (k : α → Act) : Act :=
  match x with
  | .error r => .fault r
  | .ok a => k a
/-- R311: CBCFG. -/
def execCbcfg (a n : BitVec 6) (s : State) : Host.Outcome State Fault Refusal :=
  finish s (s.clean [.s a]
    (if s.keeps s.g then orElse (s.cbConfig s.g.team (s.sv a) n) .done else s.wordAway (.cbcfg (s.sv a) n) (onDone fun _ s => .done s)))
/-- R312: CBPUT. -/
def execCbput (a n : BitVec 6) (s : State) : Host.Outcome State Fault Refusal :=
  let x := s.sv a
  finish s (s.clean [.s a]
    (if s.keeps s.g = false then (if !s.fenceMet s.cur false true false then .hold s else s.wordAway (.cbput x n) (onDone fun _ s => .done s))
     else orElse (s.cbOn s.g.team n) fun b =>
      if !s.fenceMet s.cur false true false then .hold s else orElse (b.advance x n) fun b => .done (s.putCb s.g.team n b)))
/-- R312: CBGET. -/
def execCbget (d n : BitVec 6) (s : State) : Host.Outcome State Fault Refusal :=
  finish s (if s.keeps s.g then orElse (s.cbOn s.g.team n) fun b => .done (s.later d (b.c ++ b.p) false)
    else s.wordAway (.cbget n) (onDone fun v s => .done (s.later d v false)))
/-- R312: whether CBWAIT's elements or room are present. -/
def Cb.met (b : Cb) (k : Nat) (room : Bool) : Bool := if room then decide (k ≤ b.room) else decide (k ≤ b.occupied)
/-- R308: the first fault that a buffer is marked with which is the group's own and not yet delivered. -/
def State.cbOwed (s : State) (gn : Nat) (b : Cb) : Option (Nat × Cmd) := s.owedOf gn b.mark
/-- R312: what CBWAIT comes to. -/
def cbwaitEnd (b : Cb) (s : State) : Act :=
  match s.cbOwed s.f.group b with
  | some x => s.giveFault x
  | none => .done s
/-- R312: CBWAIT. -/
def execCbwait (a n : BitVec 6) (s : State) : Host.Outcome State Fault Refusal :=
  let x := s.sv a
  let k := fld x 0 32
  finish s (noTrapMode s (s.clean [.s a]
   (if s.keeps s.g = false then
      parkThen s fun s => s.wordAway (.cbwait k (x.getLsbD 63) n false) (onWait (.cbwait n.toNat k (x.getLsbD 63)) fun _ s => .done s)
    else orElse (s.cbOn s.g.team n) fun b =>
    if b.n < k then .fault (cbFault 6 n)
    else parkThen s fun s =>
      if b.met k (x.getLsbD 63) || (s.cbOwed s.f.group b).isSome then cbwaitEnd b s
      else .away (s.beginWait (.cbwait n.toNat k (x.getLsbD 63))))))
/-- R312: CBWAIT_WAKE. -/
def execCbwaitWake (frag : Nat) (s : State) : Host.Outcome State Fault Refusal :=
  let f := s.frag frag
  match f.state with
  | .cbwait n k room =>
    if s.keeps (s.group f.group) = false then s.wakeWord frag (.cbwait k room (BitVec.ofNat 6 n) true) fun _ s => .done s
    else
    match (s.core (s.team (s.group f.group).team).coreKey).cbs.find n with
    | some b =>
      if !s.asleep frag && (b.met k room || (s.cbOwed f.group b).isSome) then finish (s.wake frag) (cbwaitEnd b (s.wake frag)) else .next s
    | none => .next s
  | _ => .next s

end Sys2Proof.Machine
end

