-- ==== Sys2Proof/Machine/Bank.lean ====
section
/-! DEFINITION. Compute at the banks (R273 to R286): the handler table, XATOM, the channels' phases, and handler runs. -/

namespace Sys2Proof.Machine

/-! The handler table (R280) -/

/-- Byte `i` of a table. -/
def hndByte (t : KMap Byte) (i : Nat) : Nat := (t.get 0x00#8 i).toNat
/-- R280: an entry's header, and its word `i`. -/
def hndHeader (t : KMap Byte) (k : Nat) : BitVec 128 := BitVec.ofNat 128 (leNat ((List.range 16).map fun j => t.get 0x00#8 (272 * k + j)))
def hndWord (t : KMap Byte) (k i : Nat) : Word := BitVec.ofNat 32 (leNat ((List.range 4).map fun j => t.get 0x00#8 (272 * k + 16 + 4 * i + j)))
/-- HND.VALID and HND.LEN. -/
def hndValid (t : KMap Byte) (k : Nat) : Bool := (hndHeader t k).getLsbD 7
def hndLen (t : KMap Byte) (k : Nat) : Nat := fld (hndHeader t k) 0 7

/-- R283: bits that a handler word's form does not name. -/
def hndRes0 (w : Word) : Word :=
  match fld w 26 6 with
  | 0x00 => 0x03FFFFFF#32
  | 0x01 => 0x003C0000#32
  | 0x02 => 0x0003FC00#32
  | 0x03 => 0x0003FC00#32
  | 0x04 => 0x0003FC00#32
  | 0x05 => 0x0003FC00#32
  | 0x12 => 0x00003FF8#32
  | 0x13 => 0x000003FF#32
  | 0x14 => 0x003CFF80#32
  | 0x15 => 0x03C3FFFF#32
  | _ => 0x00003FFF#32
/-- R280: whether word `i` of an entry of `len` words is refused. -/
def hndRefused (w : Word) (i len : Nat) : Bool :=
  let op := fld w 26 6
  let goal : Int := i + (w.extractLsb' 0 7).toInt
  decide (0x16 ≤ op) || w &&& hndRes0 w != 0 || (op == 0x12 && fld w 0 3 == 7) ||
    (op == 0x14 && (fld w 16 2 == 3 || decide (goal < 0 ∨ (len : Int) ≤ goal)))
/-- R280: the first entry and word for which a table is refused. A header is reported as word 0 (log 31). -/
def tableRefusal (t : KMap Byte) : Option (Nat × Nat) :=
  (List.range 16).findSome? fun k =>
    if hndValid t k = false then none
    else if hndLen t k = 0 ∨ 64 < hndLen t k ∨ fld (hndHeader t k) 8 120 ≠ 0 then some (k, 0)
    else ((List.range (hndLen t k)).find? fun i => hndRefused (hndWord t k i) i (hndLen t k)).map fun i => (k, i)

/-! XATOM (R279) -/

/-- R279: why a team refuses reply records at places. -/
def State.replyCheck (s : State) (team : Nat) (as : List Addr) (bnd : Bool) : Option FaultRec :=
  let t := s.team team
  let out := as.filter fun a => decide (t.size ≤ a.va.toNat + 7)
  let loose := as.filter fun a => bnd &&
    !(match t.mapAt a.va.toNat with | some e => ((t.maps.find e).map (·.bnd)).getD false | none => false)
  if !out.isEmpty then some (faultAt 0x11#8 0 out)
  else if !loose.isEmpty then some (faultAt 0x18#8 0 loose)
  else none
/-- R279: the places of reply records. -/
def replyPlaces (desc : DWord) (lanes : List Nat) : List Addr := lanes.map fun l => ⟨l, BitVec.ofNat 64 (fld desc 0 19 + 8 * l), 8⟩
/-- R279: why the reply descriptor is refused here; the team's own checks come later where it lies on another device. -/
def State.replyFault (s : State) (desc : DWord) (lanes : List Nat) (bnd : Bool) : Option FaultRec :=
  if desc.getLsbD 63 = false then none
  else if fld desc 0 19 % 8 ≠ 0 then some (faultAt 0x13#8 0 (replyPlaces desc lanes))
  else if s.g.dev ≠ s.fabric.toNat then none
  else s.replyCheck s.g.team (replyPlaces desc lanes) bnd
/-- R279: sending the elements. -/
def State.sendXatom (s : State) (h : Nat) (desc : DWord) (bnd : Bool) (es : List (Elem × List Word)) : State :=
  let f := s.f
  let r := s.g.rights
  es.foldl (fun s e =>
    let x := s.leafOf f.coreKey r.asid e.1.va
    let y : XElem := ⟨s.cur, f.group, f.pc, r, x.home, s.cellOf x e.1.va - x.home * 2 ^ 36, e.1.va, h, e.2,
      if desc.getLsbD 63 then some (fld desc 0 19 + 8 * e.1.lane) else none, s.g.team, 0, x.ord, [s.cur], none⟩
    if x.dev = s.fabric.toNat then { s with net := s.net ++ [.xatom y] } else s.fabXatom f.coreKey r x.dev y bnd) s
/-- R279: XATOM. -/
def execXatom (d b i : RegNum) (h : BitVec 4) (n : BitVec 2) (s : State) : Host.Outcome State Fault Refusal :=
  let words := 2 ^ n.toNat
  let vs := (List.range words).map fun j => d + BitVec.ofNat 6 j
  let bnd := vs.any fun v => (s.vreg v).bnd
  let r := s.g.rights
  let core := s.f.coreKey
  let desc := s.sv (b + 0x01#6)
  finish s
    (if 63 < d.toNat + words - 1 ∨ b = 0x3F#6 then .fault (faultOf 0x01#8)
     else if hndValid (s.part r.part).handlers h.toNat = false then .fault (faultOf 0x01#8 (h.setWidth 64))
     else s.clean ([.s b, .s (b + 0x01#6)] ++ (if i = 0x00#6 then [] else [.v i s.eff]) ++ vs.map fun v => .v v s.eff)
      (if s.eff = 0x0#96 then .done s
       else
        let es := vecElems s b i 4 fun _ => 0
        let as := es.map fun e => Addr.mk e.lane e.va 4
        let anyBnd := bnd || es.any fun e => (s.leafOf core r.asid e.va).bnd
        match s.checkGlobal core r .atom 4 bnd as with
        | some x => .fault x
        | none =>
          match s.replyFault desc (lanesIn s.eff) anyBnd with
          | some x => .fault x
          | none =>
            let so := es.any fun e => (s.leafOf core r.asid e.va).ord == 0
            let ps := s.pages core r es
            let row := fun (e : Elem) => Elem.mk 0 .dram 0 1024 0 (e.va - BitVec.ofNat 64 (e.va.toNat % 1024)) none 0
            let lines := ps.flatMap fun p => if p.dev = s.fabric.toNat then [] else s.linesMeeting core p.dev r (p.elems.map row)
            if s.accessHeld s.cur || (so && !s.released s.cur true) || lines.any s.drainBusy then .hold s
            else
              let send := fun (s : State) => (lines.eraseDups.foldl (fun s l => s.drainLine core l) s).byPage so (if so then ps else [⟨0, 0, 0, 0, false, es⟩])
                (fun s p => s.sendXatom h.toNat desc bnd (p.elems.map fun e => (e, vs.map fun v => s.vl v e.lane))) fun s => s.cache core r.asid (es.map (·.va))
              if desc.getLsbD 63 && s.g.dev != s.fabric.toNat && s.f.sent == 0 then
                (s.scratchAway (.check anyBnd) ((replyPlaces desc (lanesIn s.eff)).map fun a => ⟨a.lane, .scratch, 0, 8, 0, a.va, none, 0⟩)).act fun _ s => send s
              else send s))

/-! Arrival and phases -/

/-- A message taken out of the flight, or another put in its place. -/
def State.dropMsg (s : State) (n : Nat) : State := { s with net := s.net.eraseIdx n }
def State.putMsg (s : State) (n : Nat) (m : Msg) : State := { s with net := s.net.set n m }
/-- R161: ended fragments whose last access has been performed leave their split entries. -/
def State.reap (s : State) : State := (s.frags.filter fun e => e.2.alive && e.2.state == .ended).foldl (fun s e => s.freeEnded e.1) s

/-- R279, R286, R337, R350: an element that will not run, or whose answer is sent: an event where `code` is not 0 and no reply is enabled. -/
def State.answerAway (s : State) (x : XElem) (val : DWord) (code : BitVec 8) : State :=
  match x.away with
  | some a => let s := s.countDone a.dev a.core a.epoch a.path
              { s with fabOut := s.fabOut ++ [.reply a.dev a.tag { Reply.ok [(0, val), (1, BitVec.ofNat 64 x.handler)] with bad := if code = 0 then [] else [(0, code)], code := code }] }
  | none => s
/-- R285: whether two elements that a core of another device sent to one home keep their order. -/
def XElem.sameSource (x y : XElem) : Bool :=
  match x.away, y.away with
  | some a, some b => a.dev == b.dev && a.core == b.core && x.home == y.home && (touches [x.elem] [y.elem] || !(x.ord == 2 && y.ord == 2) || unitOf x.pa == unitOf y.pa)
  | _, _ => false
/-- R285: XATOM_ELEMENT_ARRIVAL: an element enters its unit's queue, or is discarded as stale (R210); at a home that is fused off none arrives
(R19). -/
def execXatomElementArrival (n : Nat) (s : State) : Host.Outcome State Fault Refusal :=
  .next (match s.net[n]? with
    | some (.xatom x) =>
      let u := 128 * x.home + unitOf x.pa
      let b := s.bank u
      if !(s.fuseOf x.home).home || !s.mayArrive n (.xatom x) (some u) || decide (64 ≤ b.queue.length) || (s.net.take n).any (fun m => match m with | .xatom y => y.sameSource x | _ => false) then s
      else if x.away.isNone && s.staleAt x.home x.rights ⟨0, .dram, dramKey x.home x.pa, 4, 0, x.va, none, 0⟩ then
        ((s.dropMsg n).postedFault x.group 0x15#8 x.home x.va x.pc).reap
      else (s.dropMsg n).setBank u { b with queue := b.queue ++ [{ x with since := s.clock }] }
    | _ => s)

/-- R275: the oldest element that waits at a channel's units, by the clock of its arrival. -/
def State.oldestAt (s : State) (home chan : Nat) : Option Nat :=
  ((List.range 4).flatMap fun i => (s.bank (128 * home + 4 * chan + i)).queue.map (·.since)).min?
/-- Whether what waits for a channel still asks. -/
def State.stillAsks (s : State) (k : Asker) : Bool :=
  match k with
  | .frag n => (s.frag n).alive && (s.frag n).held
  | .cmd n => (s.cmd n).alive && !(s.cmd n).done
  | .bobbin gn => (s.group gn).bob.state == .running
  | .fill t e l => (s.team t).fills.contains (e, l)
  | _ => false
/-- R275: whether an ordinary request waits at a channel: one that travels, a word of a fragment at its own home or the access of the part of a
division that stays there, a read or a transfer outside the registers' path, or the access of the fragment at the head of the home's inbound
queue. -/
def State.ordinaryAt (s : State) (home chan : Nat) : Bool :=
  ((s.home home).inbound.head?.toList.any fun x => (s.leaveElems x.1).any fun e => e.key / 2 ^ 36 % 16 == home && chanOf (e.key % 2 ^ 36) == chan) ||
  (s.frags.any fun e => e.2.alive && e.2.held && e.2.waitsAt.contains (32 * home + chan)) ||
  (s.frags.any fun e => e.2.alive && e.2.stays && (chansOf (s.leaveElems e.1)).contains (32 * home + chan)) ||
  (s.chanWaits.any fun w => s.stillAsks w.1 && w.2.contains (32 * home + chan)) ||
  s.net.any fun m => match m.request with
    | some a => (match m with | .xatom _ => false | _ => true) &&
        a.2.2.1.any fun e => e.space == .dram && e.key / 2 ^ 36 % 16 == home && chanOf (e.key % 2 ^ 36) == chan
    | none => false
/-- R375: a budget as it stands: half of it while the device is throttled. -/
def State.budget (s : State) (n : Nat) : Nat := if s.thermal = .throttled then n / 2 else n
/-- R375: channels of a home in the compute phase. -/
def State.computing (s : State) (home : Nat) : Nat := ((List.range 32).filter fun c => (s.chan (32 * home + c)).compute).length
/-- R275, R276, R375: CHANNEL_TO_COMPUTE. -/
def execChannelToCompute (home chan : Nat) (s : State) : Host.Outcome State Fault Refusal :=
  let c := s.chan (32 * home + chan)
  .next (match s.oldestAt home chan with
    | some t =>
      if !c.compute && decide (chan < 32) && (!s.ordinaryAt home chan || lasts (s.clock - t) 1000) && decide (s.computing home < s.budget (s.home home).maxCompute) then
        (s.setChan (32 * home + chan) ⟨true, s.clock⟩).countHome home 0x11 1
      else s
    | none => s)
/-- R275, R276: CHANNEL_TO_NORMAL. -/
def execChannelToNormal (home chan : Nat) (s : State) : Host.Outcome State Fault Refusal :=
  let c := s.chan (32 * home + chan)
  .next (if c.compute && ((s.oldestAt home chan).isNone || (s.ordinaryAt home chan && lasts (s.clock - c.since) 250) || lasts (s.clock - c.since) 2000) then
      s.setChan (32 * home + chan) ⟨false, s.clock⟩
    else s)

/-! Runs (R282 to R284) -/

/-- A run in progress: registers h0 to h15, the bytes written to the shadow, the reply, and the next word. -/
structure Run where
  regs : KMap Word
  shadow : KMap Byte
  reply : Option Word
  next : Nat
  deriving DecidableEq, Repr

/-- What a handler word comes to. -/
inductive Ran where
  | on (r : Run)
  | fin (r : Run)
  | stop (cause : BitVec 8)

def Run.get (r : Run) (k : Nat) : Word := r.regs.get 0 k
def Run.set (r : Run) (k : Nat) (x : Word) : Run := { r with regs := r.regs.ins k x, next := r.next + 1 }
/-- A byte of the shadow: written, or as the row held it. -/
def Run.byte (r : Run) (row : Nat → Byte) (o : Nat) : Byte := (KMap.find r.shadow o).getD (row o)
/-- R283: the conditions of HCMP. -/
def hcmp (k : Nat) (a b : Word) : Bool :=
  match k with
  | 0 => a == b
  | 1 => a != b
  | 2 => a.slt b
  | 3 => a.ult b
  | 4 => (ofF32 a).lt (ofF32 b)
  | 5 => (ofF32 a).lt (ofF32 b) || (ofF32 a).eqv (ofF32 b)
  | _ => (ofF32 a).eqv (ofF32 b)
/-- R283: one handler word. -/
def runWord (row : Nat → Byte) (w : Word) (r : Run) : Ran :=
  let d := fld w 22 4
  let a := r.get (fld w 18 4)
  let b := r.get (fld w 14 4)
  let o := (a + BitVec.ofNat 32 (fld w 0 10)).toNat
  let sh := fld b 0 8
  match fld w 26 6 with
  | 0x00 => .fin r
  | 0x01 => .on (r.set d ((w.extractLsb' 0 18).signExtend 32))
  | 0x02 => if o % 4 ≠ 0 ∨ 1020 < o then .stop 0x11#8 else .on (r.set d (BitVec.ofNat 32 (leNat ((List.range 4).map fun i => r.byte row (o + i)))))
  | 0x03 => if 1023 < o then .stop 0x11#8 else .on (r.set d ((r.byte row o).setWidth 32))
  | 0x04 =>
    if o % 4 ≠ 0 ∨ 1020 < o then .stop 0x11#8
    else .on { r with shadow := (cellsAt o (leBytes 4 (r.get d).toNat)).foldl (fun m c => m.ins c.1 c.2) r.shadow, next := r.next + 1 }
  | 0x05 => if 1023 < o then .stop 0x11#8 else .on { r with shadow := r.shadow.ins o ((r.get d).setWidth 8), next := r.next + 1 }
  | 0x06 => .on (r.set d (a + b))
  | 0x07 => .on (r.set d (a - b))
  | 0x08 => .on (r.set d (a * b))
  | 0x09 => .on (r.set d (a &&& b))
  | 0x0A => .on (r.set d (a ||| b))
  | 0x0B => .on (r.set d (a ^^^ b))
  | 0x0C => .on (r.set d (if 32 ≤ sh then 0 else a <<< sh))
  | 0x0D => .on (r.set d (if 32 ≤ sh then 0 else a >>> sh))
  | 0x0E => .on (r.set d (fadd .rne a b))
  | 0x0F => .on (r.set d (fmul .rne a b))
  | 0x10 => .on (r.set d (fmin a b))
  | 0x11 => .on (r.set d (fmax a b))
  | 0x12 => .on (r.set d (if hcmp (fld w 0 3) a b then 1 else 0))
  | 0x13 => .on (r.set d (if r.get (fld w 10 4) ≠ 0 then a else b))
  | 0x14 =>
    let kind := fld w 16 2
    let taken := kind = 0 ∨ (kind = 1 ∧ r.get d ≠ 0) ∨ (kind = 2 ∧ r.get d = 0)
    .on { r with next := if taken then ((r.next : Int) + (w.extractLsb' 0 7).toInt).toNat else r.next + 1 }
  | _ => .on { r with reply := some a, next := r.next + 1 }
/-- R282, R284: the words of a run; `fuel` counts down from 256, and the next word stops it. -/
def runFrom (row : Nat → Byte) (prog : Nat → Word) (len fuel : Nat) (r : Run) : Ran :=
  if len ≤ r.next then .fin r
  else
    match fuel with
    | 0 => .stop 0x48#8
    | n + 1 =>
      match runWord row (prog r.next) r with
      | .on r' => runFrom row prog len n r'
      | x => x

/-- R286: a reply record. -/
def replyRecord (status : BitVec 8) (val : Word) : DWord := 0x000000#24 ++ status ++ val
/-- R286: a reply record written at an offset of a group's team, as a store at the team's core; on another device, one that the fragments of the
element await. -/
def State.writeReply (s : State) (group team off : Nat) (rec' : DWord) (owners : List Nat) : State :=
  let t := s.team team
  let key := scrKey t.coreKey (t.base + off)
  if !s.keeps (s.group group) then
    s.fabScratch group (s.frag (owners.headD 0)).home owners none (.store false) [⟨0, .scratch, 0, 8, rec', BitVec.ofNat 64 off, none, 0⟩]
  else if t.alive then (((List.range 8).map (key + ·)).foldl State.dirtyAt (s.writeScr (cellsAt key (leBytes 8 rec'.toNat)))).syncAll else s
/-- R282, R286: what a run leaves: its row, its reply record or event, and its acknowledgement on an SO page (R285). -/
def State.endRun (s : State) (x : XElem) (out : Ran) : State :=
  let cells := match out with | .fin r => r.shadow.map (fun (c : Nat × Byte) => (dramKey x.home (rowOf x.pa) + c.1, c.2)) | _ => []
  let cause := match out with | .stop c => c | _ => 0
  let rec' := match out with
    | .fin r => (match r.reply with | some v => replyRecord 0 v | none => replyRecord 0x01#8 0)
    | .stop c => replyRecord c 0
    | .on _ => 0
  let s := s.writeMem cells
  let s := if cause ≠ 0 then s.countHome x.home 0x12 1 else s
  let s := match x.away, x.reply with
    | some _, _ => s.answerAway x rec' cause
    | none, some off => s.writeReply x.group x.team off rec' x.owners
    | none, none => if cause ≠ 0 then s.groupEvent x.group 0x83#8 cause 0 x.home x.va (BitVec.ofNat 64 x.handler) else s
  (if x.ord = 0 ∧ x.away.isNone then { s with net := s.net ++ [.ack x.owners true true] } else s).reap
/-- R282: HANDLER_RUN: a unit whose channel computes runs its oldest element; none starts once the phase is to end (R275, R276). -/
def execHandlerRun (home unit : Nat) (s : State) : Host.Outcome State Fault Refusal :=
  let b := s.bank (128 * home + unit)
  let c := s.chan (32 * home + unit / 4)
  .next (match b.queue with
    | x :: rest =>
      if c.compute = false ∨ lasts (s.clock - c.since) 2000 ∨ (s.ordinaryAt home (unit / 4) ∧ lasts (s.clock - c.since) 250) then s
      else
        let row := dramKey home (rowOf x.pa)
        let r0 : Run := ⟨KMap.ins (x.payload.mapIdx fun i w => (i + 1, w)) 0 (BitVec.ofNat 32 (x.pa % 1024)), [], none, 0⟩
        let out := if s.readErr row 1024 then Ran.stop 0x19#8
          else runFrom (fun o => s.dramByte (row + o)) (hndWord b.table x.handler) (hndLen b.table x.handler) 256 r0
        (s.setBank (128 * home + unit) { b with queue := rest }).endRun x out
    | [] => s)
/-- R281: HTLD_INSTALL: a unit installs its partition's table, between runs. -/
def execHtldInstall (home unit : Nat) (s : State) : Host.Outcome State Fault Refusal :=
  let b := s.bank (128 * home + unit)
  .next (match b.pending with
    | some t => s.setBank (128 * home + unit) { b with table := t, pending := none }
    | none => s)

end Sys2Proof.Machine
end

