-- ==== Sys2Proof/Machine/Crossbar.lean ====
section
/-! DEFINITION. Crossbar arrays (R250 to R261, R328, R338): the words XBLD, XBMV, XBCAL, XBST and ACCEPT, and the steps of an array. -/

namespace Sys2Proof.Machine

/-! Arrays -/

/-- R70: number of an array in its home. -/
def arrayNo (x : BitVec 4) (y : BitVec 5) : Nat := 32 * x.toNat + y.toNat
/-- R70, R374: an array that is fused off answers no coordinate. -/
def arrayFused (s : State) (x : BitVec 4) (y : BitVec 5) : Option FaultRec :=
  if (s.fuseOf s.f.home).arrays.getLsbD (arrayNo x y) then none else some (faultOf 0x01#8 (BitVec.ofNat 64 (arrayNo x y)))
/-- Number of an array of the home at issue. -/
def State.xarKey (s : State) (x : BitVec 4) (y : BitVec 5) : Nat := 512 * s.f.home + arrayNo x y

def XbState.code (x : XbState) : BitVec 3 :=
  match x with
  | .empty => 0x0#3
  | .loading => 0x1#3
  | .ready => 0x2#3
  | .calibrating => 0x3#3
  | .invalid => 0x4#3
/-- R252: the status word. -/
def Xar.status (x : Xar) : DWord :=
  x.lgen ++ x.cgen ++ x.state.code ++ x.reason ++ x.bad ++ 0x0#2 ++ x.lastb ++ x.drift
/-- Whether a command loads or calibrates. -/
def XbCmd.sets (c : XbCmd) : Bool :=
  match c with
  | .product .. => false
  | _ => true
/-- R253: whether a load or calibration is in progress or waiting. -/
def Xar.busy (x : Xar) : Bool := x.queue.any XbCmd.sets

/-- The index of a free value, and the state after its use (log 7). -/
def State.draw (s : State) : Nat × State := (s.free, { s with free := s.free + 1 })

/-! The words -/

/-- R251: byte offset of the first field of a load record's header that is out of range. -/
def xblBad (h : BitVec 512) : Option Nat :=
  if fld h 0 16 = 0 ∨ 256 < fld h 0 16 then some 0
  else if fld h 16 16 = 0 ∨ 128 < fld h 16 16 then some 2
  else if ¬ (fld h 32 8 = 0 ∨ fld h 32 8 = 1 ∨ fld h 32 8 = 2 ∨ fld h 32 8 = 9 ∨ fld h 32 8 = 10) then some 4
  else if (h.extractLsb' 40 8).toInt < -64 ∨ 63 < (h.extractLsb' 40 8).toInt then some 5
  else if fld h 48 464 ≠ 0 then some 6
  else none
/-- What a word has asked of other devices ends with it. -/
def Act.unasked (a : Act) (n : Nat) : Act :=
  match a with
  | .done s => .done (s.unask n)
  | x => x
/-- R212, R255, R268: bytes `off` to `off + n - 1` of the record at a generic scratchpad address, which the fragment's team may hold on another device;
a byte in error is reported by its offset. -/
def recordBytes (s : State) (sa : DWord) (off n : Nat) (k : List Byte → Act) : Act :=
  let found := fun (bs : List Byte) (bad : List Nat) => match bad.head? with
    | some i => Act.fault (faultOf 0x19#8 0 (BitVec.ofNat 64 (off + i)))
    | none => k bs
  if s.keeps s.g then
    match s.scrBytes s.g.team s.g.rights.asid sa (off + n) false with
    | .error e => .fault e
    | .ok key => s.afterStores key (off + n) <| found (s.bytesIn .scratch (key + off) n) ((List.range n).filter fun i => s.errIn .scratch (key + off + i) 1)
  else if 2 ^ 19 ≤ sa.toNat then .fault (faultAt 0x11#8 0 [⟨0, sa, off + n⟩])
  else
    let es := (List.range ((n + 7) / 8)).map fun i => Elem.mk (off / 8 + i) .scratch 0 8 0 (sa + BitVec.ofNat 64 (off + 8 * i)) none 0
    (s.recordAway sa es).act fun xs _ =>
      (found ((xs.flatMap fun x => leBytes 8 x.1.toNat).take n) ((List.range n).filter fun i => ((xs[i / 8]?).map (·.2)).getD false)).unasked s.cur
/-- R255, R268: the header of a record, after the checks that all records have. -/
def recordHeader (s : State) (a : RegNum) (k : BitVec 512 → Act) : Act :=
  s.clean [.s a]
    (if (s.sv a).toNat % 64 ≠ 0 then .fault (faultAt 0x13#8 0 [⟨0, s.sv a, 64⟩])
     else recordBytes s (s.sv a) 0 64 fun bs => k (BitVec.ofNat 512 (leNat bs)))
/-- R255, R268: the data of a record, `n` bytes from offset 64. -/
def recordData (s : State) (a : RegNum) (n : Nat) (k : List Byte → Act) : Act := recordBytes s (s.sv a) 64 n k

/-- R255: XBLD. -/
def execXbld (d a : RegNum) (x : BitVec 4) (y : BitVec 5) (s : State) : Host.Outcome State Fault Refusal :=
  let q := s.xarKey x y
  let X := s.xar q
  finish s (orFault (arrayFused s x y) (recordHeader s a fun h =>
    match xblBad h with
    | some o => .fault (faultOf 0x01#8 (BitVec.ofNat 64 (256 + o)))
    | none =>
      if X.busy then .hold s
      else recordData s a (fld h 0 16 * fld h 16 16) fun bs =>
        let c := XbCmd.load (fld h 0 16) (fld h 16 16) (h.extractLsb' 40 8).toInt (h.extractLsb' 32 4) bs
        .done ((s.setXar q { X with lgen := X.lgen + 1, state := .loading, reason := 0, lastb := 0xFF#8, queue := X.queue ++ [c] }).wrS d ((X.lgen + 1).setWidth 64) false)))
/-- R257: XB_CAL. -/
def xbCal (x : BitVec 4) (y : BitVec 5) (X : Xar) : FaultRec :=
  faultOf 0x40#8 (BitVec.ofNat 64 (arrayNo x y + 2 ^ 16 * X.state.code.toNat + 2 ^ 19 * X.reason.toNat))
/-- R256: XBMV, up to its acceptance. At most 4 products wait behind the one being formed. -/
def execXbmv (d a : RegNum) (x : BitVec 4) (y : BitVec 5) (s : State) : Host.Outcome State Fault Refusal :=
  let q := s.xarKey x y
  let X := s.xar q
  let act := s.active
  finish s (orFault (arrayFused s x y)
    (if d.toNat = 63 then .fault (faultOf 0x01#8)
     else if act = 0x0#96 then .done s
     else s.clean [.v a (act &&& 0xFFFFFFFFFFFFFFFF#96)]
      (if X.busy ∨ 5 ≤ X.queue.length then .hold s
       else if X.state ≠ .ready then .fault (xbCal x y X)
       else s.withOvt fun s =>
        let id := s.newId.1
        let s := s.newId.2
        let e := s.src.vEnt d
        let hi := act &&& 0xFFFFFFFF#96
        let out := fun (n : Nat) (m : Mask) => Out.mk (.array id) (.v n) m m (lanesOf fun _ => 0) 0 true 0x0#96
        let s := (s.addOut s.cur (out e act)).addOut s.cur (out (e + 1) hi)
        .done (s.setXar q { X with queue := X.queue ++ [.product s.cur id (s.vreg a).lanes act s.g.ovt] }))))
/-- R258: XBCAL. -/
def execXbcal (d : RegNum) (x : BitVec 4) (y : BitVec 5) (s : State) : Host.Outcome State Fault Refusal :=
  let q := s.xarKey x y
  let X := s.xar q
  finish s (orFault (arrayFused s x y)
    (if X.state = .empty then .done ((s.wrS d 0 false).setE true)
     else if X.busy then .hold s
     else .done (((s.setXar q { X with queue := X.queue ++ [.calibrate] }).wrS d ((X.cgen + 1).setWidth 64) false).setE false)))
/-- R258: XBST. -/
def execXbst (d : RegNum) (x : BitVec 4) (y : BitVec 5) (s : State) : Host.Outcome State Fault Refusal :=
  finish s (orFault (arrayFused s x y) (.done (s.wrS d (s.xar (s.xarKey x y)).status false)))
/-- R260: ACCEPT: the value becomes exact, and the record of the array's bound is taken. -/
def execAccept (d a : RegNum) (x : BitVec 4) (y : BitVec 5) (s : State) : Host.Outcome State Fault Refusal :=
  let b := (s.xar (s.xarKey x y)).lastb
  finish s (orFault (arrayFused s x y) (s.clean [.v a s.active]
    (.done ((s.wrLanes d s.active (fun l => s.vl a l) false).setFlags fun c =>
      setFlag ((c &&& 0x00FF#16) ||| (b.setWidth 16 <<< 8)) 4 (b == 0xFF#8)))))

/-! The steps of an array -/

/-- R257: a reading of the reference columns; at the threshold a ready array becomes invalid. -/
def State.readDrift (s : State) (q : Nat) : State :=
  let n := s.draw.1
  let s := s.draw.2
  let X := s.xar q
  let v := Config.drift n
  if X.state = .ready then
    s.setXar q (if 128 ≤ v.toNat then { X with drift := v, state := .invalid, reason := 0x1#3 } else { X with drift := v })
  else s
/-- R257: XB_DRIFT_READING. -/
def execXbDriftReading (home array : Nat) (s : State) : Host.Outcome State Fault Refusal :=
  .next (if (s.xar (512 * home + array)).state = .ready then s.readDrift (512 * home + array) else s)

/-- R250: an array's cells as loaded. -/
def cellsOf (cols : Nat) (bs : List Byte) : KMap Byte :=
  (bs.mapIdx fun i b => (256 * (i % cols) + i / cols, b)).foldl (fun m c => m.put 0x00#8 c.1 c.2) []
/-- R255, R338: XB_LOAD_PROGRAM: cells that fail verify make the array invalid; otherwise its calibration follows. -/
def execXbLoadProgram (home array : Nat) (s : State) : Host.Outcome State Fault Refusal :=
  let q := 512 * home + array
  .next (match (s.xar q).queue with
    | .load rows cols oexp ofmt w :: rest =>
      let bad := Config.badCells s.draw.1
      let s := s.draw.2
      let X := s.xar q
      let X1 := { X with
        rows := rows, cols := cols, w := cellsOf cols w, oexp := oexp, ofmt := ofmt, bad := bad, reason := 0, lastb := 0xFF#8
        writes := if X.writes = 0xFFFFFFFF#32 then X.writes else X.writes + 1 }
      s.setXar q (if bad = 0x00#8 then { X1 with state := .calibrating, unusable := false, queue := .calibrate :: rest }
        else { X1 with state := .invalid, reason := 0x2#3, cgen := X1.cgen + 1, queue := rest })
    | _ => s)
/-- R252, R257, R328: XB_CALIBRATE: a calibration starts, and then ends ready or invalid; once one has failed, each does until a load passes its
verify. -/
def execXbCalibrate (home array : Nat) (s : State) : Host.Outcome State Fault Refusal :=
  let q := 512 * home + array
  let X := s.xar q
  .next (match X.queue with
    | .calibrate :: rest =>
      if X.state ≠ .calibrating then s.setXar q { X with state := .calibrating, reason := 0 }
      else
        let n := s.draw.1
        let s := s.draw.2
        let fails := X.unusable || Config.calFails n
        let X1 := { X with
          queue := rest, lastb := 0xFF#8, unusable := fails, cgen := X.cgen + 1, calGen := X.cgen + 1, calRef := Config.calRef n
          cal := (List.range 128).foldl (fun m j => m.put 0 j (Config.calColumn n j)) [] }
        s.setXar q (if fails then { X1 with state := .invalid, reason := 0x3#3 } else { X1 with state := .ready, reason := 0x0#3 })
    | _ => s)

/-- R250: weight (i, j), and input i of XBMV (R256). -/
def Xar.weight (X : Xar) (i j : Nat) : Int := (X.w.get 0x00#8 (256 * j + i)).toInt
def xbInput (X : Xar) (va : Lanes) (act : Mask) (i : Nat) : Int :=
  if act.getLsbD (i / 4) ∧ i < X.rows then ((lane va (i / 4)).extractLsb' (8 * (i % 4)) 8).toInt else 0
/-- R250: the exact sum of a column, without the factor 2^OEXP, and the sum of the magnitudes of its weights times the greatest input. -/
def Xar.exact (X : Xar) (x : Nat → Int) (j : Nat) : Int := ((List.range X.rows).map fun i => X.weight i j * x i).foldl (· + ·) 0
def Xar.reach (X : Xar) (x : Nat → Int) (j : Nat) : Nat :=
  ((List.range X.rows).map fun i => (X.weight i j).natAbs).foldl (· + ·) 0 * ((List.range X.rows).map fun i => (x i).natAbs).foldl max 0
/-- R256: a column's value: within the bound of R250 of the exact one, by the free value of the product. -/
def Xar.analog (X : Xar) (x : Nat → Int) (n j : Nat) : FVal :=
  let e := Config.noise n j
  let r : Int := (X.reach x j : Int) * 2 ^ e.2
  let v : Int := X.exact x j * 2 ^ (8 + e.2) + clamp (-r) r e.1
  .fin (decide (v < 0)) v.natAbs (X.oexp - 8 - e.2)
/-- R256, R31: what a column delivers. -/
def Xar.output (X : Xar) (ovt : BitVec 16) (v : FVal) : Word :=
  match intOf X.ofmt.toNat with
  | some (w, sg) => BitVec.ofInt 32 (toInt .rne sg w v)
  | none => BitVec.ofNat 32 (ovtOut ovt X.ofmt.toNat v)
/-- R261: the bound exponent of m · 2^e. -/
def bexp (m : Nat) (e : Int) : BitVec 8 :=
  if m = 0 then 0 else BitVec.ofInt 8 (min 254 (max 1 (128 + e + (if m = 1 then 0 else Nat.log2 (m - 1) + 1 : Nat))))
/-- R256, R375: XB_PRODUCT: the values of the product's registers are ready to be written. -/
def execXbProduct (home array : Nat) (s : State) : Host.Outcome State Fault Refusal :=
  let q := 512 * home + array
  let X := s.xar q
  let h := s.home home
  .next (match X.queue with
    | .product frag id va act ovt :: rest =>
      if h.credProd = 0 then s
      else
        let n := s.draw.1
        let s := (s.draw.2.setHome home { h with credProd := h.credProd - 1 }).setXar q { X with
          queue := rest, lastb := bexp (((List.range 128).map (X.reach (xbInput X va act))).foldl max 0) (X.oexp - 8) }
        let out := fun j => X.output ovt (X.analog (xbInput X va act) n j)
        let f := s.frag frag
        let first := f.outs.findIdx? fun o => o.kind == .array id
        let outs := f.outs.mapIdx fun i o => if o.kind = .array id then
            { o with kind := .unit, vals := lanesOf fun l => if some i = first then out l else out (96 + l) } else o
        (s.setFrag frag { f with outs := outs }).readDrift q
    | _ => s)

end Sys2Proof.Machine
end

