-- ==== Sys2Proof/Machine/Counter.lean ====
section
/-! DEFINITION. The counter words (R334, R335). -/

namespace Sys2Proof.Machine

/-- R334: CYC. -/
def execCyc (d : RegNum) (s : State) : Host.Outcome State Fault Refusal := finish s (.done (s.wrS d s.cycles false))
/-- R334: GTIM. -/
def execGtim (d : RegNum) (s : State) : Host.Outcome State Fault Refusal := finish s (.done (s.wrS d s.f.timer false))
/-- R334: GTSET. -/
def execGtset (a : RegNum) (s : State) : Host.Outcome State Fault Refusal :=
  finish s (s.clean [.s a]
    (if (s.sreg a).bnd then .fault (faultOf 0x18#8 (a.setWidth 64))
     else .done (s.setF { s.f with gtcmp := BitVec.ofNat 64 (min (s.f.timer.toNat + (s.sv a).toNat) (2 ^ 64 - 1)) })))

/-- R335, R338: a performance counter where the word issues; none of a number that is not listed. -/
def State.perfCounter (s : State) (n : Nat) : Option DWord :=
  let core := s.core s.f.coreKey
  let home := s.home s.f.home
  if n = 0 then some s.cycles
  else if n < 8 then some (core.perf.get 0 n)
  else if n = 8 then some (s.cycles - core.perf.get 0 8)
  else if 0x10 ≤ n ∧ n ≤ 0x13 then some (home.perf.get 0 n)
  else if 0x100 ≤ n ∧ n ≤ 0x2FF then
    some (if (s.fuseOf s.f.home).arrays.getLsbD (n - 0x100) then (s.xar (512 * s.f.home + (n - 0x100))).writes.setWidth 64 else 0)
  else none
/-- R334: PERF. -/
def execPerf (d a : RegNum) (s : State) : Host.Outcome State Fault Refusal :=
  let n := fld (s.sv a) 0 16
  finish s (s.clean [.s a]
    (match s.perfCounter n with
     | some x => .done (s.wrS d x false)
     | none => .fault (faultOf 0x01#8 (BitVec.ofNat 64 n))))

end Sys2Proof.Machine
end

