-- ==== Sys2Proof/Machine/Travel.lean ====
section
/-! DEFINITION. Requests under way and their answers (R210, R221, R223, R225, R235, R238, R247, R248, R315, R323, R337), inside the
device and across the fabric. -/

namespace Sys2Proof.Machine

/-! Inside the device -/

/-- R217: the raw value of a read as its register takes it: by width code, or by format (OutKind.remote). -/
def convRead (conv : Nat) (x : DWord) : DWord :=
  if conv < 16 then widen (BitVec.ofNat 3 conv) x else (widenFmt (BitVec.ofNat 4 (conv - 16)) (x.setWidth 32)).setWidth 64
/-- R223: STORE_REQUEST_PERFORM. -/
def execStoreRequestPerform (n : Nat) (s : State) : Host.Outcome State Fault Refusal :=
  .next (match s.net[n]? with
    | some (.store r) => if s.mayArrive n (.store r) none && s.served r.elems then (s.performReq r).putMsg n (.ack r.owners (r.ord == 0) (r.elems.any fun e => e.space == .dram)) else s
    | _ => s)
/-- R235, R238: POSTED_OP_PERFORM: on an SO page it is acknowledged. -/
def execPostedOpPerform (n : Nat) (s : State) : Host.Outcome State Fault Refusal :=
  .next (match s.net[n]? with
    | some (.posted r) =>
      if s.mayArrive n (.posted r) none && s.served r.elems then
        (if r.ord = 0 then (s.performReq r).putMsg n (.ack r.owners true true) else (s.performReq r).dropMsg n).reap
      else s
    | _ => s)
/-- R221: REMOTE_READ_PERFORM: a stale element (R210) reads in error and raises an event (log 33). -/
def execRemoteReadPerform (n : Nat) (s : State) : Host.Outcome State Fault Refusal :=
  .next (match s.net[n]? with
    | some (.read r id) =>
      if s.mayArrive n (.read r id) none && s.served r.elems then
        let old := r.elems.filter fun e => s.staleAt r.home r.rights e
        let s1 := (perLane old).foldl (fun s e => s.postedFault r.group 0x15#8 r.home e.va r.pc) s
        let x := s1.readElems r.elems
        s1.putMsg n (.data r.frag id x.1 (x.2 ||| maskOf fun l => old.any fun e => e.lane == l))
      else s
    | _ => s)

/-- R221: read data fills the outstanding result of its request, which is then written. -/
def State.fillRead (s : State) (frag id : Nat) (vals : List (Nat × DWord)) (poison : Mask) : State :=
  let f := s.frag frag
  let isIt := fun (o : Out) => match o.kind with | .remote k _ _ => k == id | _ => false
  match f.outs.findIdx? isIt, f.outs.find? isIt with
  | some k, some o =>
    let conv := match o.kind with | .remote _ _ c => c | _ => 0
    let val := fun l => convRead conv ((KMap.find vals l).getD 0)
    let o' : Out := { o with vals := lanesOf fun l => (val l).setWidth 32, sval := val 0, poison := poison }
    (s.setFrag frag { f with outs := f.outs.set k o' }).deliver frag k
  | _, _ => s
/-- R221: LOAD_SECTOR_RETURN; of the part of a division that stays and awaits its access: it makes it, once it may (R219, R238, R275). -/
def execLoadSectorReturn (frag n : Nat) (s : State) : Host.Outcome State Fault Refusal :=
  .next (match (s.frag frag).outs[n]? with
    | some o => (match o.kind, (s.frag frag).leave with
      | .sector _, _ => s.deliver frag n
      | .stay _, some L =>
        if s.mayStay frag L then
          ((s.setFrag frag { s.frag frag with outs := (s.frag frag).outs.eraseIdx n } : State).stayNow frag L).settle frag
        else s
      | _, _ => s)
    | none => s)
/-- R62: the result of any other word of variable latency is written. -/
def State.unitResult (s : State) (frag n : Nat) : State :=
  match (s.frag frag).outs[n]? with
  | some o => if o.kind = .unit then s.deliver frag n else s
  | none => s

/-- R323: an entry of the ingress key table admits a request that needs a right. -/
def State.keyOk (s : State) (keyidx src asid : Nat) (right : BitVec 5) : Bool :=
  let k := s.keyTab.get 0 keyidx
  decide (keyidx < 4096) && k.getLsbD 127 && decide (fld k 84 12 ≤ src ∧ src ≤ fld k 72 12) && asid == fld k 96 16 &&
    fld k 112 12 == fld (s.asEnt (fld k 96 16)) 208 12 && BitVec.ofNat 5 (fld k 64 5) &&& right == right
/-! Requests of other devices -/

/-- What a request of another device needs (R211, R323). -/
def needOf (kind : BitVec 5) : Need := if kind = 0x02#5 then .read else if kind = 0x08#5 then .atom else .write
/-- R318: the rights that a request carries, as the receiving device sees them. -/
def State.rightsIn (s : State) (src keyidx asid asgen : Nat) (priv : Bool) : Rights :=
  ⟨asid, asgen, priv, keyidx, 0, fld (s.asEnt asid) 184 4, src⟩
/-- R320: the home that receives an element of another device: the one that its sender's tables name. -/
def Elem.home (e : Elem) : Nat := e.key / 2 ^ 36 % 16
/-- R320: translation by the ingress MMU of the receiving home: by its cached leaf where it holds one, else by a walk. -/
def State.ingressLeaf (s : State) (home asid : Nat) (va : DWord) : Except TrErr Leaf := s.translate (s.home home).tlb asid va
/-- R320: the ingress translation cache of a home after a translation. -/
def State.cacheIn (s : State) (home asid : Nat) (va : DWord) : State :=
  match s.ingressLeaf home asid va with
  | .ok x => s.setHome home { s.home home with tlb := fillTlb 1024 (s.home home).tlb asid va x }
  | .error _ => s
/-- R207, R210, R211, R217: the checks that the receiving device makes of an element: its place, or the fault code and PROT reason. An element whose
page another device holds now is stale. -/
def State.ingress (s : State) (r : Rights) (need : Need) (bnd : Bool) (e : Elem) : Except (BitVec 8 × Nat) Elem :=
  if !s.leased r need e.va e.size then .error (0x10#8, 0)
  else
    match s.ingressLeaf e.home r.asid e.va with
    | .error .poison => .error (0x19#8, 0)
    | .error (.prot n) => .error (0x12#8, n)
    | .ok x =>
      if x.dev ≠ s.fabric.toNat then .error (0x15#8, 0)
      else if x.permits need = false then .error (0x12#8, 2)
      else if e.va.toNat % e.size ≠ 0 ∧ e.size ≤ 8 then .error (0x13#8, 0)
      else if r.asgen < x.gen then .error (0x15#8, 0)
      else if bnd ∧ x.bnd = false then .error (0x18#8, 0)
      else .ok { e with key := s.cellOf x e.va }
/-- The elements that pass, by place, and the refusals of those that do not. -/
def State.sortIn (s : State) (r : Rights) (need : Need) (bnd : Bool) (es : List Elem) : List (Nat × Elem) × List (Nat × (BitVec 8 × Nat)) :=
  let xs := es.mapIdx fun i e => (i, s.ingress r need bnd e)
  (xs.filterMap fun x => match x.2 with | .ok e => some (x.1, e) | .error _ => none,
   xs.filterMap fun x => match x.2 with | .ok _ => none | .error c => some (x.1, c))
/-- R217: the code and reason that a request with refused elements reports: those of the first check that fails, 0 where none does. -/
def refusalOf (bad : List (Nat × (BitVec 8 × Nat))) : BitVec 8 × Nat :=
  match firstFailing (bad.map fun b => (b.1, b.2.1)) with
  | b :: _ => (b.2, ((bad.find? fun x => x.1 == b.1).map (·.2.2)).getD 0)
  | [] => (0, 0)
/-- R218, R227, R323: elements of another device are performed. A write that covers part of a unit in error is not performed. -/
def State.performIn (s : State) (r : Rights) (kind : BitVec 5) (bnd : Bool) (es : List Elem) : State × Reply :=
  let x := s.sortIn r (needOf kind) bnd es
  let s := x.1.foldl (fun s e => s.cacheIn ((es[e.1]?).getD e.2).home r.asid e.2.va) s
  let no := x.2.map fun b => (b.1, b.2.1)
  let c := refusalOf x.2
  if kind = 0x02#5 then
    let laneAt := fun i => ((es[i]?).map (·.lane)).getD i
    let bad := if c.1 ≠ 0 then no else (x.1.filter fun e => (s.readElem e.2).2).map fun e => (e.1, 0x19#8)
    (s, ⟨x.1.map fun e => (laneAt e.1, (s.readElem e.2).1), bad.map fun b => (laneAt b.1, b.2), c.1, c.2, none, false⟩)
  else
    let bad := x.1.filter fun e => if e.2.op.isSome then s.readErr e.2.key e.2.size else !(s.badUnits (x.1.flatMap fun y => y.2.cells)).all fun u => decide (32 * u + 32 ≤ e.2.key % 2 ^ 40 ∨ e.2.key % 2 ^ 40 + e.2.size ≤ 32 * u)
    let ok := (x.1.filter fun e => !(bad.any fun y => y.1 == e.1)).map (·.2)
    let s1 := if es.any fun e => e.op.isSome then (s.atomElems ok).1 else s.writeMem (ok.flatMap Elem.cells)
    (s1, ⟨[], no ++ bad.map fun e => (e.1, 0x19#8), if c.1 ≠ 0 then c.1 else if bad.isEmpty then 0 else 0x19#8, c.2, none, false⟩)

/-- R278: the row of an element of XATOM, by its virtual address. -/
def XElem.row (x : XElem) : Elem := ⟨0, .dram, 0, 1024, 0, x.va - BitVec.ofNat 64 (x.va.toNat % 1024), none, 0⟩
/-- The address range of a request of the fabric, and its source core. -/
def FabMsg.spans (m : FabMsg) : Option (Nat × Nat × Nat × List Elem) :=
  match m with
  | .req src _ core _ _ asid _ _ es _ _ _ _ _ => some (src, core, asid, es)
  | .xatom src _ core _ asid _ _ x _ _ _ _ => some (src, core, asid, [x.row])
  | .flag src _ core _ asid _ _ es _ _ _ _ => some (src, core, asid, es)
  | .watch src _ home core _ asid _ _ va _ _ _ _ => some (src, core, asid, [⟨0, .dram, dramKey home 0, 4, 0, va, none, 0⟩])
  | _ => none
/-- Whether two lists of elements have a common virtual byte. -/
def meetsVa (xs ys : List Elem) : Bool := xs.any fun x => ys.any fun y => decide (x.va.toNat < y.va.toNat + y.size ∧ y.va.toNat < x.va.toNat + x.size)
/-- Whether a message of the fabric is an element of XATOM. -/
def FabMsg.isXatom (m : FabMsg) : Bool := match m with | .xatom .. => true | _ => false
/-- R285: whether a message of the fabric is an element of XATOM, a store request or a posted operation; a drain or a read is none. -/
def FabMsg.arrives (m : FabMsg) : Bool :=
  match m with
  | .req _ _ _ kind _ _ _ _ _ drain _ _ _ _ => kind != 0x02#5 && !drain
  | .xatom .. => true
  | .flag .. => true
  | _ => false
/-- R248: the epoch that a message of the fabric is counted in. -/
def FabMsg.epochOf (m : FabMsg) : Option Bool :=
  match m with
  | .req _ _ _ _ _ _ _ _ _ _ _ e _ _ => some e
  | .xatom _ _ _ _ _ _ _ _ _ e _ _ => some e
  | .watch _ _ _ _ _ _ _ _ _ _ e _ _ => some e
  | _ => none
/-- R285: whether two places keep the order of arrival: those of one home unless both pages are UO; where both are elements of XATOM, those of one
bank unit. -/
def keepsOrder (units : Bool) (h k ord ord' pa pa' : Nat) : Bool := h == k && (!(ord == 2 && ord' == 2) || units && unitOf pa == unitOf pa')
/-- R285: the same of elements of an address space. -/
def State.sameHome (s : State) (asid : Nat) (units : Bool) (xs ys : List Elem) : Bool :=
  xs.any fun x => ys.any fun y => match s.ingressLeaf x.home asid x.va, s.ingressLeaf y.home asid y.va with
    | .ok a, .ok b => keepsOrder units a.home b.home a.ord b.ord (s.cellOf a x.va % 2 ^ 36) (s.cellOf b y.va % 2 ^ 36)
    | _, _ => false
/-- R248, R285: whether an element of XATOM that came from a core of another device, and has not run, goes before elements from there, which
`xatom` says to be of XATOM too: one that touches a common byte, or one that keeps the order of arrival. -/
def XElem.before (s : State) (x : XElem) (src core asid : Nat) (xatom : Bool) (es : List Elem) : Bool :=
  match x.away with
  | none => false
  | some a => a.dev == src && a.core == core && x.rights.asid == asid && es.any fun e =>
      meetsVa [e] [x.row] ||
        (match s.ingressLeaf e.home asid e.va with | .ok y => keepsOrder xatom y.home x.home y.ord x.ord (s.cellOf y e.va % 2 ^ 36) x.pa | .error _ => false)
/-- R337: the entries of the port's table: source device, core and epoch of the requests counted and of the flags held. -/
def State.portEntries (s : State) : List (Nat × Nat × Bool) :=
  let counted := s.doneRecs.map fun d => (d.src, d.core, d.epoch)
  counted ++ ((s.heldFlags.map fun h => (h.src, h.core, h.epoch)).filter fun e => !counted.contains e).eraseDups
/-- R337: whether a source core's requests of an epoch find no entry, the table being full: they are withheld. -/
def State.portFull (s : State) (src core : Nat) (epoch : Bool) : Bool :=
  !s.portEntries.contains (src, core, epoch) && decide (1024 ≤ s.portEntries.length)
/-- R337: whether a message that needs an entry of the port's table finds it full. -/
def State.withheld (s : State) (m : FabMsg) : Bool :=
  match m with
  | .req src _ core _ _ _ _ _ _ _ _ epoch path _ => decide (path < 8) && s.portFull src core epoch
  | .xatom src _ core _ _ _ _ _ _ epoch path _ => decide (path < 8) && s.portFull src core epoch
  | .scratch src _ core _ _ _ _ _ _ _ epoch path _ => decide (path < 8) && s.portFull src core epoch
  | .watch src _ _ core _ _ _ _ _ _ epoch path _ => decide (path < 8) && s.portFull src core epoch
  | .flag src _ core _ _ _ _ _ _ epoch _ _ => s.portFull src core epoch
  | _ => false
/-- R248, R285: requests of one core that touch a common byte are performed in issue order, held flags included, and its elements of XATOM, store
requests and posted operations at one home in the order of their arrival; a full table withholds them (R337). A message names its core alone,
so that the order is kept for a core's fragments together; and a held flag goes before no request that it counts (log 64). -/
def State.fabBehind (s : State) (n : Nat) (m : FabMsg) : Bool :=
  s.withheld m || match m.spans with
  | some (src, core, asid, es) =>
    let after := fun (arrives units : Bool) (es' : List Elem) => meetsVa es es' || m.arrives && arrives && s.sameHome asid units es es'
    ((s.fabIn.take n).any fun y => match y.spans with
      | some (a, b, c, es') => a == src && b == core && c == asid && after y.arrives (m.isXatom && y.isXatom) es'
      | none => false) ||
      (s.heldFlags.any fun h => h.src == src && h.core == core && h.asid == asid && m.epochOf != some h.epoch && after true false h.elems) ||
      (s.net.any fun y => match y with | .xatom x => x.before s src core asid m.isXatom es | _ => false) ||
      s.banks.any fun b => b.2.queue.any fun x => x.before s src core asid m.isXatom es
  | none => false
def State.dropFab (s : State) (n : Nat) : State := { s with fabIn := s.fabIn.eraseIdx n }
def State.sendFab (s : State) (m : FabMsg) : State := { s with fabOut := s.fabOut ++ [m] }
/-- Whether the channels that elements of another device lie in serve ordinary requests. -/
def State.servedIn (s : State) (r : Rights) (kind : BitVec 5) (bnd : Bool) (es : List Elem) : Bool :=
  s.served ((s.sortIn r (needOf kind) bnd es).1.map (·.2))

/-- R146: the group of another device's message, by its header numbers. -/
def State.groupNamed (s : State) (dev : Nat) (gridid : BitVec 28) (teamid : BitVec 16) (gidx : Nat) : Option Nat :=
  (s.groups.find? fun e => e.2.alive && e.2.dev == dev && e.2.gridid == gridid && e.2.teamid == teamid && e.2.gidx == gidx).map (·.1)
/-- The scratchpad elements of a fragment away, as its team resolves them (R212). -/
def State.scrPlaces (s : State) (team asid : Nat) (es : List Elem) (write : Bool) : List (Addr × Except (BitVec 8 × Nat) ScrTgt) :=
  es.map fun e => (Addr.mk e.lane e.va e.size, s.scrAt team asid e.va e.size write)
/-- R212 to R215, R217, R218, R222, R224, R279: a scratchpad operation for a group's team, performed where the team lies; none while a line is
to be filled or a write-back is under way. -/
def State.scratchOp (s : State) (group : Nat) (op : ScrOp) (es : List Elem) : State × Option Reply :=
  let g := s.group group
  let k := g.team
  let t := s.team k
  let size := (es.head?.map (·.size)).getD 1
  let stop := fun (s : State) (x : FaultRec) => (s, some { Reply.ok [] with fault := some x })
  let filling := fun (need : List (Nat × Nat × Nat)) (r : State × Option Reply) => if need.isEmpty then r else (s.askFills need, none)
  match op with
  | .load =>
    let as := s.scrPlaces k g.rights.asid es false
    let ps := places as
    match teamChecks size as with
    | some x => stop s x
    | none => filling (ps.filterMap fun p => s.needsFill p.2)
        (s, some ⟨ps.map fun p => (p.1.lane, if p.2.window then windowVal t p.2.off p.1.size else BitVec.ofNat 64 (s.valIn .scratch (scrKey p.2.core p.2.off) p.1.size)),
          (ps.filter fun p => !p.2.window && s.errIn .scratch (scrKey p.2.core p.2.off) p.1.size).map fun p => (p.1.lane, 0x19#8), 0, 0, none, ps.any fun p => s.mapBnd p.2⟩)
  | .store bnd =>
    let as := s.scrPlaces k g.rights.asid es true
    let ps := places as
    match s.stsFault size as bnd with
    | some x => stop s x
    | none => filling (ps.filterMap fun p => s.needsFill p.2)
        (s.storeElems 0 t.home 0 ((es.zip ps).map fun x => { x.1 with space := .scratch, key := scrKey x.2.2.core x.2.2.off }), some (Reply.ok []))
  | .check bnd =>
    match s.replyCheck k (es.map fun e => Addr.mk e.lane e.va 8) bnd with
    | some x => stop s x
    | none => (s, some (Reply.ok []))
  | .spmap a b =>
    match s.spmap k t.coreKey g.rights (fragNo group 0) group 0 [] a b with
    | .error x => stop s x
    | .ok (s1, e) => (s1, some (Reply.ok [(0, if e then 1 else 0)]))
  | .spflush a b =>
    if s.flushDue k a b then (s.flushNext k (fragNo group 0) group 0 [] a b (!s.flushBusy k a b), none)
    else if s.flushBusy k a b then (s, none)
    else (s, some (Reply.ok []))

/-- R212, R213, R323: a scratchpad operation of a fragment that is away is performed at its team's core, and answered. -/
def State.scratchIn (s : State) (n src core keyidx asid : Nat) (gridid : BitVec 28) (teamid : BitVec 16) (gidx : Nat) (op : ScrOp) (es : List Elem)
    (epoch : Bool) (path tag : Nat) : State :=
  let answer := fun (s : State) (r : Reply) => ((s.dropFab n).countDone src core epoch path).sendFab (.reply src tag r)
  let right := match op with | .load => 0x02#5 | .check _ => 0x02#5 | _ => 0x04#5
  let lanes := es.map (·.lane)
  if s.keyOk keyidx src asid right = false then answer s (Reply.refuse lanes 0x16#8)
  else
    match (s.groupNamed s.fabric.toNat gridid teamid gidx).filter fun k => (s.group k).rights.asid == asid with
    | none => answer s (Reply.refuse lanes 0x17#8)
    | some k =>
      if s.holdsCore (s.team (s.group k).team) = false then s
      else
        match s.scratchOp k op es with
        | (s1, some r) => answer s1 r
        | (s1, none) => s1

/-- R163, R323: a word that WAITW of another device names: refused; or it differs from the value (1), or the home's store of watches is full (0),
or it is watched (2). Its bytes are compared as they stand, in error or not (DESIGN CHOICE, log 64). -/
def State.watchIn (s : State) (src home keyidx asid asgen : Nat) (priv : Bool) (va : DWord) (val : Word) (tag : Nat) : State :=
  let reply := fun (s : State) (r : Reply) => s.sendFab (.reply src tag r)
  if s.keyOk keyidx src asid 0x02#5 = false then reply s (Reply.refuse [0] 0x16#8)
  else
    match s.ingress (s.rightsIn src keyidx asid asgen priv) .read false ⟨0, .dram, dramKey home 0, 4, 0, va, none, 0⟩ with
    | .error c => reply s { Reply.refuse [0] c.1 with reason := c.2 }
    | .ok e =>
      let s := s.cacheIn home asid va
      let gen := match s.ingressLeaf home asid va with | .ok x => x.gen | .error _ => 0
      if s.valIn .dram e.key 4 ≠ val.toNat then reply s (Reply.ok [(0, 1)])
      else if 4096 ≤ s.watches (e.key / 2 ^ 36 % 16) then reply s (Reply.ok [(0, 0)])
      else
        let id := s.newId.1
        let s := s.newId.2
        reply { s with awayWatches := KMap.ins s.awayWatches id ⟨src, tag, e.key, asid, va, gen, false⟩ } (Reply.ok [(0, 2), (1, BitVec.ofNat 64 tag)])

/-- R323: REMOTE_REQUEST_INGRESS: a request is refused by its key, or performed element by element (R211) and answered. An element of
XATOM goes on to its bank unit. -/
def execRemoteRequestIngress (n : Nat) (s : State) : Host.Outcome State Fault Refusal :=
  .next (match s.fabIn[n]? with
    | some (.req src dst core kind keyidx asid asgen priv es false bnd epoch path tag) =>
      let r := s.rightsIn src keyidx asid asgen priv
      if s.fabBehind n (.req src dst core kind keyidx asid asgen priv es false bnd epoch path tag) then s
      else if s.keyOk keyidx src asid kind = false then
        ((s.dropFab n).countDone src core epoch path).sendFab (.reply src tag (Reply.refuse (allBad kind es) 0x16#8))
      else if s.servedIn r kind bnd es = false then s
      else
        let x := (s.dropFab n).performIn r kind bnd es
        (x.1.countDone src core epoch path).sendFab (.reply src tag x.2)
    | some (.xatom src dst core keyidx asid asgen priv x bnd epoch path tag) =>
      let r := s.rightsIn src keyidx asid asgen priv
      if s.fabBehind n (.xatom src dst core keyidx asid asgen priv x bnd epoch path tag) then s
      else if s.keyOk keyidx src asid 0x08#5 = false then ((s.dropFab n).countDone src core epoch path).sendFab (.reply src tag (Reply.refuse [0] 0x16#8))
      else
        match s.ingress r .atom bnd ⟨0, .dram, dramKey x.home 0, 4, 0, x.va, none, 0⟩ with
        | .error c => ((s.dropFab n).countDone src core epoch path).sendFab (.reply src tag (Reply.refuse [0] c.1))
        | .ok e =>
          if hndValid (s.part r.part).handlers x.handler = false then ((s.dropFab n).countDone src core epoch path).sendFab (.reply src tag (Reply.refuse [0] 0x01#8))
          else
            let y : XElem := { x with rights := r, home := e.key / 2 ^ 36 % 16, pa := e.key - e.key / 2 ^ 36 % 16 * 2 ^ 36, owners := [], away := some ⟨src, tag, core, epoch, path⟩ }
            let s1 := (s.dropFab n).cacheIn x.home asid x.va
            { s1 with net := s1.net ++ [.xatom y] }
    | some (.scratch src dst core keyidx asid gridid teamid gidx op es epoch path tag) =>
      if s.withheld (.scratch src dst core keyidx asid gridid teamid gidx op es epoch path tag) then s
      else s.scratchIn n src core keyidx asid gridid teamid gidx op es epoch path tag
    | some (.watch src dst home core keyidx asid asgen priv va val epoch path tag) =>
      if s.fabBehind n (.watch src dst home core keyidx asid asgen priv va val epoch path tag) ||
        !s.servedIn (s.rightsIn src keyidx asid asgen priv) 0x02#5 false [⟨0, .dram, dramKey home 0, 4, 0, va, none, 0⟩] then s
      else ((s.dropFab n).countDone src core epoch path).watchIn src home keyidx asid asgen priv va val tag
    | _ => s)
/-- R247: DRAIN_ARRIVAL: the bytes of a drain are checked as a whole, and performed or discarded together. -/
def execDrainArrival (n : Nat) (s : State) : Host.Outcome State Fault Refusal :=
  .next (match s.fabIn[n]? with
    | some (.req src dst core kind keyidx asid asgen priv es true bnd epoch path tag) =>
      let r := s.rightsIn src keyidx asid asgen priv
      let done := fun (s : State) (c : BitVec 8) => ((s.dropFab n).countDone src core epoch path).sendFab (.reply src tag (if c = 0 then Reply.ok [] else Reply.refuse [0] c))
      if s.fabBehind n (.req src dst core kind keyidx asid asgen priv es true bnd epoch path tag) then s
      else if s.keyOk keyidx src asid kind = false then done s 0x16#8
      else
        let x := s.sortIn r .write bnd es
        let cells := x.1.flatMap fun e => e.2.cells
        if !x.2.isEmpty then done s (refusalOf x.2).1
        else if s.served (x.1.map (·.2)) = false then s
        else
          let s1 := x.1.foldl (fun s e => s.cacheIn ((es[e.1]?).getD e.2).home asid e.2.va) s
          done (s1.writeMem cells) (if (s.badUnits cells).isEmpty then 0 else 0x19#8)
    | _ => s)

/-! Ordered flags and close markers (R248, R337) -/

/-- R337: whether an earlier flag or close marker of a source core is still to be taken by the port. -/
def State.flagBefore (s : State) (n src core : Nat) : Bool :=
  (s.fabIn.take n).any fun m => match m with | .flag a _ b _ _ _ _ _ _ _ _ _ => a == src && b == core | _ => false
/-- R337: ORDERED_FLAG_ARRIVAL: a flag or close marker is held at the port, while its table has room, behind those that its core sent before. -/
def execOrderedFlagArrival (n : Nat) (s : State) : Host.Outcome State Fault Refusal :=
  .next (match s.fabIn[n]? with
    | some (.flag src dst core keyidx asid asgen priv elems bnd epoch sent tag) =>
      if s.flagBefore n src core || s.fabBehind n (.flag src dst core keyidx asid asgen priv elems bnd epoch sent tag) then s
      else if !elems.isEmpty && !s.keyOk keyidx src asid 0x10#5 then
        (({ s with heldFlags := s.heldFlags ++ [⟨src, core, keyidx, asid, asgen, priv, [], bnd, epoch, sent, tag⟩] } : State).dropFab n).sendFab
          (.reply src tag (Reply.refuse [0] 0x16#8))
      else { s.dropFab n with heldFlags := s.heldFlags ++ [⟨src, core, keyidx, asid, asgen, priv, elems, bnd, epoch, sent, tag⟩] }
    | _ => s)
/-- R337: whether the counts of a source core's epoch have reached those that a flag carries. -/
def State.flagReady (s : State) (h : HeldFlag) : Bool :=
  let done := ((s.doneRecs.find? fun d => d.src == h.src && d.core == h.core && d.epoch == h.epoch).map (·.done)).getD noCounts
  (List.range 8).all fun p => decide (h.sent[p]?.getD 0 ≤ done[p]?.getD 0)
/-- R337: ORDERED_FLAG_PERFORM: the flag's element is performed and answered; its entry and counts are freed. The flags and close markers of a core
are finished with in the order of their sending, so that a flag covers what an earlier close marker counts (R240, R248; log 21). -/
def execOrderedFlagPerform (n : Nat) (s : State) : Host.Outcome State Fault Refusal :=
  .next (match s.heldFlags[n]? with
    | some h =>
      let r := s.rightsIn h.src h.keyidx h.asid h.asgen h.priv
      let kind := if h.elems.any fun e => e.op.isSome then 0x08#5 else 0x04#5
      if s.flagReady h = false ∨ (s.heldFlags.take n).any (fun x => x.src == h.src && x.core == h.core) ∨ s.servedIn r kind h.bnd h.elems = false then s
      else
        let s1 := { s with heldFlags := s.heldFlags.eraseIdx n, doneRecs := s.doneRecs.filter fun d => !(d.src == h.src && d.core == h.core && d.epoch == h.epoch) }
        match h.elems with
        | [] => s1
        | es =>
          let x := s1.performIn r kind h.bnd es
          x.1.sendFab (.reply h.src h.tag x.2)
    | none => s)
/-- R337: CLOSE_MARKER: sent for a record whose count can rise no further, or in place of which another is needed. -/
def execCloseMarker (core dev : Nat) (s : State) : Host.Outcome State Fault Refusal :=
  let p := s.pathOf core dev
  let full := (s.core core).paths.any (fun q => q.dev == dev) && (p.sent.any (fun n => decide (65535 ≤ n)) || decide (16 ≤ (s.core core).paths.length))
  let r : Rights := ⟨0, 0, false, 0, 0, 0, s.fabric.toNat⟩
  .next (if full then (s.closePath core r p).setCore core ((s.core core).dropPath p) else s)
/-- R247, R314: WC_AGE_EXPIRY: the ageing timer of a line expires; a full line that waits for an earlier drain of its key drains too. -/
def execWcAgeExpiry (core n : Nat) (s : State) : Host.Outcome State Fault Refusal :=
  .next (match (s.core core).wc[n]? with
    | some l => if lasts (s.clock - l.start) (250 * (s.part l.rights.part).wcAge.toNat) || l.bytes.length == 256 then s.drainLine core l else s
    | none => s)

/-! Answers -/

/-- The address of a place of a request, where its answer names places. -/
def Remote.vaAt (r : Remote) (i : Nat) : DWord := r.vas[i]?.getD (r.vas.headD 0)
/-- R247, R323, R350: the events of a request that another device did not perform: one for a drain, else one for each element, with its code. -/
def State.refusedAway (s : State) (r : Remote) (x : Reply) : State :=
  let event := fun (s : State) (va : DWord) (code : BitVec 8) => s.groupEvent r.group 0x80#8 code 0 ((s.group r.group).home) va r.pc
  if r.wc then event s (r.vas.headD 0) x.code else x.bad.foldl (fun s b => event s (r.vaAt b.1) b.2) s
/-- R246, R308, R313: the answer to an engine's write: its bytes count, or its command faults, though it has ended; a fault of a group that has
retired is an event. -/
def State.putAnswer (s : State) (n bytes : Nat) (sync : Option Nat) (va : DWord) (code : BitVec 8) : State :=
  let c := s.cmd n
  if code = 0 then
    let s := s.setCmd n { c with bytes := c.bytes + bytes }
    match sync with | some o => s.countSync c.team o bytes | none => s
  else if c.fault ≠ 0 then s
  else if c.done then
    let s := (s.setCmd n { c with fault := code, faultAddr := va }).markCbs n c
    if (s.group c.group).alive then s else s.orphan c.group
  else s.endCmd n code va
/-- R210: the elements of an engine's transfer that are stale where they arrive are discarded, each with an event. -/
def State.staleTransfer (s : State) (r : Remote) (x : Reply) (n : Nat) : State :=
  let c := s.cmd n
  x.bad.foldl (fun s b => s.groupEvent c.group 0x80#8 b.2 0 c.home (r.vaAt b.1) c.pc) s
/-- R225, R238, R286: an answer that is no read data takes effect. -/
def State.answer (s : State) (r : Remote) (x : Reply) : State :=
  match r.asker with
  | some (.put n bytes sync) => if x.code = 0x15#8 then s.staleTransfer r x n else s.putAnswer n bytes sync (r.vaAt ((firstFailing x.bad).head?.map (·.1) |>.getD 0)) x.code
  | some (.done k) => if x.code = 0 then s else s.completionFault k x.code
  | some (.reply group team off) => if x.vals.isEmpty then s.refusedAway r x else s.writeReply group team off ((KMap.find x.vals 0).getD 0) r.owners
  | _ =>
    if x.code = 0 then s
    else if x.vals.isEmpty then s.refusedAway r x
    else s.groupEvent r.group 0x83#8 x.code 0 ((s.group r.group).home) (r.vas.headD 0) ((KMap.find x.vals 1).getD 0)
/-- Whether a WAITW has yet to take the answer that its word is watched, request `tag`. -/
def State.watchUntaken (s : State) (tag : Nat) : Bool :=
  s.answers.any fun a => KMap.find a.reply.vals 0 == some 2 && KMap.find a.reply.vals 1 == some (BitVec.ofNat 64 tag)
/-- R163: the answer to a WAITW that waits for a word of another device: it is woken. -/
def State.answerWatch (s : State) (tag : Nat) (x : Reply) : State :=
  { s with frags := s.frags.map fun (e : Nat × Frag) => (e.1,
      match e.2.state with
      | .waitAway k va none => if k = tag then { e.2 with state := .waitAway k va (some (x.code, x.reason, x.vals.any fun v => v.2 != 0)) } else e.2
      | _ => e.2) }
/-- Whether an asker awaits read data. -/
def Asker.reads (k : Option Asker) : Bool :=
  match k with
  | some (.frag _) => true
  | some (.cmd _) => true
  | some (.bobbin _) => true
  | some (.fill _ _ _) => true
  | _ => false
/-- R225: ACK_RETURN: of message `n` in flight; or, past those, of an answer of the fabric that is no read data. -/
def execAckReturn (n : Nat) (s : State) : Host.Outcome State Fault Refusal :=
  .next (if n < s.net.length then
      match s.net[n]? with
      | some (.ack _ _ _) => (s.dropMsg n).reap
      | _ => s
    else
      match s.fabIn[n - s.net.length]? with
      | some (.reply _ tag x) =>
        match s.remote.find? fun r => r.tag == tag with
        | some r =>
          if Asker.reads r.asker then s
          else (({ s.dropFab (n - s.net.length) with remote := s.remote.filter fun y => y.tag != tag } : State).answer r x).drainDue.reap
        | none => if s.watchUntaken tag then s else (s.dropFab (n - s.net.length)).answerWatch tag x
      | _ => s)
/-- R221: REMOTE_READ_RETURN: of message `n` in flight; or, past those, of read data of the fabric, kept for what asked for it. -/
def execRemoteReadReturn (n : Nat) (s : State) : Host.Outcome State Fault Refusal :=
  .next (if n < s.net.length then
      match s.net[n]? with
      | some (.data frag id vals poison) => (s.dropMsg n).fillRead frag id vals poison
      | _ => s
    else
      match s.fabIn[n - s.net.length]? with
      | some (.reply _ tag x) =>
        match s.remote.find? fun r => r.tag == tag with
        | some r =>
          match r.asker with
          | some k =>
            if Asker.reads r.asker then
              { s.dropFab (n - s.net.length) with remote := s.remote.filter fun y => y.tag != tag, answers := s.answers ++ [⟨k, x⟩] }
            else s
          | none => s
        | none => s
      | _ => s)

end Sys2Proof.Machine
end

