-- ==== Sys2Proof/Machine/Fabric.lean ====
section
/-! DEFINITION. The training of fabric ports (R366). -/

namespace Sys2Proof.Machine

/-- R366, R374: PORT_TRAIN: port 12 · home + number takes the mode its peer allows; one that is fused off never trains. -/
def execPortTrain (port : Nat) (extended : Bool) (s : State) : Host.Outcome State Fault Refusal :=
  let u := s.fuseOf (port / 12)
  .next (if port < 144 ∧ u.home ∧ u.ports.getLsbD (port % 12) then { s with ports := s.ports.ins port ⟨true, extended⟩ } else s)

end Sys2Proof.Machine
end

