-- ==== Sys2Proof/Machine/Record.lean ====
section
/-! DEFINITION. The layouts of split entries (R147), of the parcel header (R113), of a parcel's contents (R112) and of a context record
(R114). -/

namespace Sys2Proof.Machine

/-- R147: SPLIT.STATE and SPLIT.BAR. Waits whose state R147 does not name read as 011, as the waits at BARRT and in WAITW do (log 57). -/
def FState.splitCode (x : FState) : BitVec 3 × BitVec 4 :=
  match x with
  | .ready => (1, 0)
  | .join k => (2, BitVec.ofNat 4 k)
  | .transit _ _ _ => (4, 0)
  | .ended => (0, 0)
  | _ => (3, 0)
/-- R147: SPLIT[31:0]. -/
def Frag.splitLow (f : Frag) : BitVec 32 :=
  BitVec.ofNat 4 f.home ++ f.state.splitCode.1 ++ f.state.splitCode.2 ++ BitVec.ofNat 7 f.idx ++ BitVec.ofNat 12 f.dev ++ 0x0#2
/-- R147: a split entry. -/
def Frag.splitEntry (f : Frag) : BitVec 128 := f.own ++ f.splitLow

/-- R113: the tags of the current window's vectors and scalars. -/
def Frag.vtag (f : Frag) : BitVec 64 := (maskOf fun i => decide (i < 64) && (f.regs.vreg (BitVec.ofNat 6 i)).bnd).setWidth 64
def Frag.stag (f : Frag) : BitVec 64 := (maskOf fun i => decide (i < 61) && (f.regs.sreg (BitVec.ofNat 6 i)).bnd).setWidth 64
/-- R100: WBASE[31:0]. -/
def Regs.wbase (r : Regs) : BitVec 32 := 0x0#16 ++ r.wbV ++ 0x0#1 ++ r.wbS
/-- R113: HDR.M: m7 down to m0. -/
def Regs.maskBits (r : Regs) : BitVec 768 :=
  r.mask 7 ++ r.mask 6 ++ r.mask 5 ++ r.mask 4 ++ r.mask 3 ++ r.mask 2 ++ r.mask 1 ++ r.mask 0
/-- R113: HDR.PC: the address at which the word that leaves, or the word to be issued next, begins, its prefix word counted in. -/
def Frag.headerPc (f : Frag) : DWord :=
  match f.state, f.leave with
  | .transit _ _ _, some L => L.pc
  | _, _ => f.rpc
/-- R113: the 192-byte header of a fragment, with HDR.STAG and HDR.VTAG as given: the window's in a parcel, zero in a context record. -/
def Frag.header (f : Frag) (g : Group) (stag vtag : BitVec 64) : BitVec 1536 :=
  g.gridid ++ g.teamid ++ BitVec.ofNat 4 g.gidx ++ BitVec.ofNat 4 g.depth ++ BitVec.ofNat 12 g.dev ++ f.splitLow ++ 0x00000000#32 ++ stag ++ vtag ++
    f.gtcmp ++ f.gtimer ++ 0x0#15 ++ BitVec.ofBool g.rights.priv ++ f.regs.cflags ++ f.regs.nseed ++ f.regs.nstep ++ f.regs.nmode ++
    BitVec.ofNat 16 g.rights.keyidx ++ BitVec.ofNat 16 g.rights.asid ++ f.regs.fmt.setWidth 32 ++ f.regs.maskBits ++ BitVec.ofNat 32 g.rights.asgen ++
    f.regs.wbase ++ f.headerPc

/-- The bytes of a vector's lanes, lane 0 first. -/
def laneBytes (v : Lanes) : List Byte := v.toList.flatMap fun w => leBytes 4 w.toNat
/-- R112: the contents of a parcel: the header, each vector of the carried set in ascending number, then each scalar. -/
def Frag.parcelBytes (f : Frag) (g : Group) (L : LeaveDue) : List Byte :=
  leBytes 192 (f.header g f.stag f.vtag).toNat ++ (L.carried.1.flatMap fun i => laneBytes (f.regs.vreg i).lanes) ++
    L.carried.2.flatMap fun i => leBytes 8 (f.regs.sreg i).val.toNat

/-- R114: the bytes of a context record for a group with `t` declared tiles; records are 4 KiB aligned. -/
def recordSize (t : Nat) : Nat := (0x19900 + t * 0x3000 + 4095) / 4096 * 4096
/-- Bits of a map over file entries, entry 0 lowest. -/
def entryMap (n : Nat) (p : Nat → Bool) : List Byte :=
  (List.range (n / 8)).map fun b => BitVec.ofNat 8 ((List.range 8).map fun i => if p (8 * b + i) then 2 ^ i else 0).sum
/-- R114: the context record of number `n`, 96 · group + split entry. Its group's tiles, fibre and stream registers and spill are in its primary record,
the one created with the group, entry 0's, whether or not a fragment holds that entry now; in others they are zero. -/
def State.contextRecord (s : State) (n : Nat) : List Byte :=
  let f := s.frag n
  let g := s.group (n / 96)
  let r := f.regs
  let mine := n % 96 = 0
  let spill := (List.range 80).flatMap fun i => let e := s.frag (fragNo (n / 96) (16 + i)); leBytes 16 (if mine ∧ e.alive then e.splitEntry.toNat else 0)
  let fibs := (List.range 12).flatMap fun i => leBytes 64 (if mine then (g.fib i).bits.toNat else 0)
  let tiles := (List.range g.ntiles).flatMap fun t => let T := g.tiles.get Tile.fresh t
    (List.range 3072).flatMap fun e => leBytes 4 (if mine ∧ T.empty = false then (T.elems.get 0 e).toNat else 0)
  let bytes := leBytes 192 (f.header g 0 0).toNat ++ entryMap 256 (fun e => (r.v.get VReg.zero e).bnd) ++ entryMap 128 (fun e => (r.s.get SReg.zero e).bnd) ++
    entryMap 128 (fun e => (r.s.get SReg.zero e).poison) ++ spill ++ fibs ++
    ((List.range 128).flatMap fun e => leBytes 8 (r.s.get SReg.zero e).val.toNat) ++
    ((List.range 256).flatMap fun e => leBytes 12 (r.v.get VReg.zero e).poison.toNat) ++
    ((List.range 256).flatMap fun e => laneBytes (r.v.get VReg.zero e).lanes) ++ tiles
  bytes ++ List.replicate (recordSize g.ntiles - bytes.length) 0x00#8

end Sys2Proof.Machine
end

