-- ==== Sys2Proof/Machine/Parcel.lean ====
section
/-! DEFINITION. Parcels (R111 to R113, R219, R220, R299 to R301): a leaving fragment's way to the home of its access, and the access it
repeats there. -/

namespace Sys2Proof.Machine

/-- The word address of a leaving fragment's access: behind its prefix, if it has one (R113). -/
def LeaveDue.wordPc (L : LeaveDue) : DWord := if L.ti0.extractLsb' 32 32 = 0x00000000#32 then L.pc else L.pc + 4
/-- R219: whether a sibling formed before this child still has to leave. -/
def State.siblingFirst (s : State) (n : Nat) (L : LeaveDue) (dev home : Nat) : Bool :=
  (s.fragsOf (s.frag n).group).any fun e => e.1 != n && (match e.2.state, e.2.leave with
    | .transit d h false, some M => M.pc == L.pc && M.fromHome == L.fromHome && M.fromDev == L.fromDev && decide (d < dev ∨ (d = dev ∧ h < home))
    | _, _ => false)
/-- R112, R237: whether the posted operations of a fragment, and its elements of XATOM, have been performed. -/
def State.postsDone (s : State) (n : Nat) : Bool :=
  !(s.net.any fun m => m.ofFrag n && (match m with | .posted _ => true | .xatom _ => true | _ => false)) && !(s.banks.any fun b => b.2.queue.any fun x => x.owners.contains n)
/-- R112, R236, R300: PARCEL_DEPART. A parcel for another device waits for the fragment's posted operations too, so that its last release covers
them (R237; log 57); for scratchpad and vault stores none waits (R242). -/
def execParcelDepart (frag : Nat) (s : State) : Host.Outcome State Fault Refusal :=
  let f := s.frag frag
  .next (match f.state, f.leave with
    | .transit dev home false, some L =>
      let s := if dev = s.fabric.toNat then s else s.drainTo frag dev
      let c := s.core f.coreKey
      if !s.storesAcked frag || (dev != s.fabric.toNat && !s.postsDone frag) || s.siblingFirst frag L dev home || !(L.behind.all s.partDone) || decide (8 ≤ c.egress.length) then s
      else
        let s1 := s.newId.2.setFrag frag { f with state := .transit dev home true, regs := f.regs.carry L }
        let s2 := if dev = (s.group f.group).dev then s1.release frag else (s1.release frag).report frag
        let c2 := s2.core f.coreKey
        s2.setCore f.coreKey { c2 with egress := c2.egress ++ [⟨frag, dev, home, s.newId.1, false, false, false⟩], lines := c2.lines.filter fun l => l.frag != frag }
    | _, _ => s)

/-- Changing the parcels of a core's egress buffer. -/
def State.onEgress (s : State) (core : Nat) (g : List Parcel → List Parcel) : State := s.setCore core { s.core core with egress := g (s.core core).egress }
/-- R301: the port of another device that a parcel goes to, one of the twelve of its home; the route is the fabric's (log 64). -/
def Parcel.port (p : Parcel) : Nat := 12 * p.home + Config.route p.age % 12
/-- R300, R301: PARCEL_OFFER: `dest` is 16 · device + home, as HOME numbers it. A parcel for another device waits for its port's credits. -/
def execParcelOffer (core dest : Nat) (s : State) : Host.Outcome State Fault Refusal :=
  .next (match (s.core core).egress.find? fun p => 16 * p.dev + p.home == dest with
    | some p =>
      let f := s.frag p.frag
      let g := s.group f.group
      if p.refused || p.offered then s
      else if p.dev = s.fabric.toNat then
        let s1 := s.onEgress core fun ps => updFirst (fun q => q.frag == p.frag) (fun q => { q with offered := true }) ps
        { s1 with net := s1.net ++ [.parcel p.frag p.home none] }
      else if s.credNo.contains (p.dev, p.port) then s
      else
        let s1 := (((s.onEgress core fun ps => ps.filter fun q => q.frag != p.frag).count core 4 1).toPort (core / 256) p.dev
          (.parcel s.fabric.toNat p.dev g.rights.keyidx (f.header g f.stag f.vtag) f g p.port) (.returned s.fabric.toNat f g 0x16#8))
        s1.setFrag p.frag (if s.keeps g then { Frag.free with
          alive := true, group := f.group, idx := f.idx, own := f.own, pc := f.pc, dev := p.dev, home := p.home, state := .transit p.dev p.home true } else Frag.free)
    | none => s)

/-- R299: the general entries of a home's queue that are in use. -/
def HomeSt.general (h : HomeSt) : Nat := (h.inbound.filter fun e => e.2 == none).length
/-- R300: the parcels of this device's egress buffers for a home, with their cores. -/
def State.parcelsFor (s : State) (home : Nat) : List (Nat × Parcel) :=
  s.cores.flatMap fun c => (c.2.egress.filter fun p => p.dev == s.fabric.toNat && p.home == home).map fun p => (c.1, p)
/-- R301: the parcels that ports of the device hold for a home, by port, and the age of each there. -/
def State.heldFor (s : State) (home : Nat) : List (Nat × Nat) :=
  s.net.filterMap fun m => match m with | .parcel _ h (some p) => if h = home then some p else none | _ => none
/-- R299: the entry that a parcel takes in a home's queue: a general one, or its source home's own; none if it is refused. Entries whose
credits were returned are kept for the parcels that they went to, and no parcel goes before an older one that was refused (R300): those that a port
holds have an age there. -/
def State.entryFor (s : State) (home frag : Nat) (src age : Option Nat) : Option (Option Nat) :=
  let h := s.home home
  let ps := s.parcelsFor home
  let mine := ps.find? fun p => p.2.frag == frag
  let credit := (mine.map (·.2.credit)).getD false
  let others := ps.filter fun p => p.2.credit && p.2.frag != frag
  let first := credit || !(ps.any fun p => p.2.refused && (match mine.map (·.2.age) <|> age with | some a => decide (p.2.age < a) | none => false))
  if first = false then none
  else if h.general + others.length < 512 ∨ (credit ∧ h.general < 512) then some none
  else
    match src with
    | some k => if (h.inbound.any fun e => e.2 == some k) || (!credit && others.any fun p => p.1 / 256 == k) then none else some (some k)
    | none => none
/-- R299: the source home of a parcel of this device. -/
def State.parcelFrom (s : State) (n : Nat) : Option Nat :=
  match (s.frag n).leave with
  | some L => if L.fromDev = s.fabric.toNat ∧ (s.core (s.frag n).coreKey).egress.any (fun p => p.frag == n) then some (s.frag n).home else none
  | none => none
/-- R301: the parcels that a port of the device holds. -/
def State.portHeld (s : State) (port : Nat) : Nat :=
  (s.net.filter fun m => match m with | .parcel _ _ (some p) => p.1 == port | _ => false).length
/-- R301: a port with room for parcels returns the credits that it withheld. -/
def State.returnCredits (s : State) (port : Nat) : State :=
  if 32 ≤ s.portHeld port then s
  else
    { s with
      fabOut := s.fabOut ++ (s.credOff.filter fun c => c.2 == port).map fun c => FabMsg.credit s.fabric.toNat c.1 port true
      credOff := s.credOff.filter fun c => c.2 != port }
/-- R299: PARCEL_ARRIVAL; at a home that is fused off nothing arrives (R19). -/
def execParcelArrival (n : Nat) (s : State) : Host.Outcome State Fault Refusal :=
  .next (match s.net[n]? with
    | some (.parcel frag home port) =>
      let h := s.home home
      let src := s.parcelFrom frag
      let core := (s.frag frag).coreKey
      if s.mayArrive n (.parcel frag home port) none = false ∨ (s.fuseOf home).home = false then s
      else
        match s.entryFor home frag src (port.map (·.2)) with
        | some e =>
          let s1 := (s.dropMsg n).setHome home { h with inbound := h.inbound ++ [(frag, e)] }
          if src.isSome then (s1.onEgress core fun ps => ps.filter fun q => q.frag != frag).count core 4 1 else match port with | some p => s1.returnCredits p.1 | none => s1
        | none =>
          if src.isSome then
            ((s.dropMsg n).onEgress core fun ps => updFirst (fun q => q.frag == frag) (fun q => { q with offered := false, refused := true }) ps).countHome home 0x10 1
          else s
    | _ => s)
/-- R300: whether the credit of an entry can go to a refused parcel of a core: a general one goes first to an older parcel that a port holds. -/
def State.creditFor (s : State) (home core age : Nat) : Bool :=
  let h := s.home home
  let given := (s.parcelsFor home).filter fun p => p.2.credit
  decide (h.general + given.length < 512) && !((s.heldFor home).any fun p => decide (p.2 < age)) ||
    !((h.inbound.any fun e => e.2 == some (core / 256)) || given.any fun p => p.1 / 256 == core / 256)
/-- R300: PARCEL_REOFFER: the oldest refused parcel for a home is offered again, with the credit of an entry. -/
def execParcelReoffer (home : Nat) (s : State) : Host.Outcome State Fault Refusal :=
  let waiting := (s.parcelsFor home).filter fun p => p.2.refused
  .next (match (waiting.map (·.2.age)).min? with
    | some a =>
      match waiting.find? fun w => w.2.age == a with
      | some (core, p) =>
        if s.creditFor home core a then s.onEgress core fun ps => updFirst (fun q => q.frag == p.frag) (fun q => { q with refused := false, credit := true }) ps
        else s
      | none => s
    | none => s)

/-! Placement -/

/-- R299: the core of a home with the most free context-state entries, the lowest COREID among equals. -/
def State.freest (s : State) (home : Nat) : Option Nat :=
  let cs := (List.range 256).filter fun c => (s.fuseOf home).home && (s.fuseOf home).cores.getLsbD c && (s.core (256 * home + c)).waits.isEmpty && decide (s.entries (256 * home + c) < 64)
  match (cs.map fun c => s.entries (256 * home + c)).min? with
  | some m => cs.find? fun c => s.entries (256 * home + c) == m
  | none => none
/-- R220: the report of a fault found at the destination. -/
def LeaveDue.report (L : LeaveDue) (r : FaultRec) : FaultRec :=
  { r with ti3 := r.ti3 ||| 0x8000000000000000#64 ||| BitVec.ofNat 64 (L.fromHome * 2 ^ 44) ||| BitVec.ofNat 64 (L.fromDev * 2 ^ 48) }
/-- R221, R227, R229: what the word of an access reads in given lanes. -/
def MigAcc.sources (a : MigAcc) (lanes : Mask) : List Src :=
  match a with
  | .loadV _ b i _ _ _ => addrSrcs b i lanes
  | .loadS _ b _ _ => [.s b]
  | .atom d b i second op _ c _ => addrSrcs b i lanes ++ [.v d lanes] ++ if !second && op == 0x7#3 then [.v c lanes] else []
  | .migr b => [.s b]
  | .join _ => []
/-- R103, R351: the poison, come to its parcel on the way, that a repeated access meets. -/
def State.parcelPoison (s : State) (n : Nat) (L : LeaveDue) : Option FaultRec :=
  (({ s with cur := n } : State).setFrag n { s.frag n with regs := L.src }).poisoned (L.acc.sources L.eff)
/-- R210, R217, R219, R220: the access repeated where the fragment stands. -/
def State.repeatAccess (s : State) (n : Nat) (L : LeaveDue) : State :=
  let f := s.frag n
  let r := (s.group f.group).rights
  let as := L.acc.addrs L.src L.eff
  let s := s.setFrag n { f with leave := none }
  let fault := fun (s : State) (x : FaultRec) => s.faultOn n L.ti0 L.pc L.wordPc (L.report x)
  match (s.parcelPoison n L).or (s.checkGlobal f.coreKey r L.acc.need L.acc.size (L.acc.writesBnd L.src) as) with
  | some x => fault s x
  | none =>
    let gone := as.filter fun a => s.destOf f.coreKey r a.va != (s.fabric.toNat, f.home)
    if L.acc.need != .move && !gone.isEmpty then fault s (faultAt 0x15#8 0 gone)
    else ((s.cache f.coreKey r.asid (as.map (·.va))).performAcc n L.acc L.src L.eff (s.accPages n L.acc L.src L.eff)).parkOn n L.park
/-- R95, R112: the liveness entry of an arriving parcel's word, in the code segments of its partition here. -/
def State.liveIn (s : State) (f : Frag) (asid : Nat) : Option Live :=
  match f.leave with
  | some L => s.liveOf (fld (s.asEnt asid) 184 4) asid L.wordPc
  | none => none
/-- R112: a code word at an address of an address space, as the receiver of a parcel reads it. -/
def State.codeAt (s : State) (asid : Nat) (pc : DWord) : Option Word := (s.codeBytes asid pc 4).map fun bs => BitVec.ofNat 32 (leNat bs)
/-- R78, R112, R221, R227, R229: the access of a migrating word, from its fields; `c` is the third source that a prefix names, and `z` the lanes that
it zeroes. -/
def MigAcc.ofWord (w : Word) (c : Option RegNum) (z : Mask) : Option MigAcc :=
  let x := Fields.ofWord w
  let hi := x.f.extractLsb' 3 3
  let lo := x.f.extractLsb' 0 3
  match majorOf w with
  | 0x20 => if loadOrder lo ∧ hi ≤ 4 then some (.loadV x.d x.a x.b hi lo z) else none
  | 0x24 => if x.b = 0 ∧ loadOrder lo ∧ hi ≤ 5 then some (.loadS x.d x.a hi lo) else none
  | 0x27 => if x.f = 1 ∧ x.d = 0 ∧ x.b = 0 then some (.migr x.a) else none
  | 0x28 => if lo = 4 then none else some (.atom x.d x.a x.b false hi lo (c.getD x.d) z)
  | 0x29 => if 4 < hi ∨ lo = 4 then none else some (.atom x.d x.a x.b true hi lo (c.getD x.d) z)
  | 0x1B => if x.f = 3 ∧ x.a = 0 ∧ x.b = 0 ∧ x.d < 16 then some (.join x.d.toNat) else none
  | _ => none
/-- R112: the access of the word at HDR.PC, or behind the prefix there, as the receiver decodes it. -/
def State.accAt (s : State) (asid : Nat) (pc : DWord) (z : Mask) : Option MigAcc :=
  match s.codeAt asid pc with
  | none => none
  | some w => if majorOf w = 0x3F then (s.codeAt asid (pc + 4)).bind fun v => MigAcc.ofWord v (some (pfxOf w).s) z else MigAcc.ofWord w none z
/-- R112: a parcel as its receiver finds it: the access that it decodes at HDR.PC, and the carried set of the liveness entry there. Where it finds
no such word, or no entry on its own device, those that the source found stand (DEDUCED, log 57). -/
def State.received (s : State) (f : Frag) (asid : Nat) : Frag :=
  match f.leave with
  | some L =>
    let e := s.liveIn f asid
    let L1 : LeaveDue := { L with smap := (e.map (·.smap)).getD L.smap, vmap := (e.map (·.vmap)).getD L.vmap }
    let L2 : LeaveDue := { L1 with acc := (s.accAt asid L.pc L.acc.zeroLanes).getD L.acc, src := L.src.carry L1 }
    { f with leave := some L2, regs := f.regs.carry L1 }
  | none => f
/-- R275, R299: PARCEL_PLACEMENT: it waits while a channel that the access at the destination needs computes. -/
def execParcelPlacement (home : Nat) (s : State) : Host.Outcome State Fault Refusal :=
  .next (match (s.home home).inbound with
    | (n, _) :: rest =>
      match s.freest home with
      | none => s
      | some c =>
        if s.served (s.leaveElems n) = false then s
        else
        let f := s.frag n
        let s1 := (s.setHome home { s.home home with inbound := rest }).count (256 * home + c) 5 1
        if (s.linesBad 5 n).contains 258 then (s1.setFrag n { f with state := .ready, leave := none, dev := s.fabric.toNat, home := home, core := c }).parcelErrors n
        else
        let s1 := s1.parcelErrors n
        let f1 := { s1.received (s1.frag n) (s.group f.group).rights.asid with dev := s.fabric.toNat, home := home, core := c, turn := 0, served := 0 }
        match f1.leave with
        | some L =>
          match L.acc with
          | .join bar => (s1.setFrag n { f1 with state := .join bar, leave := none }).report n
          | _ => (((s1.setFrag n { f1 with state := .ready }).acquire n).report n).repeatAccess n L
        | none => ((s1.setFrag n { f1 with state := .ready }).acquire n).report n
    | [] => s)

/-! Parcels across the fabric -/

/-- R112, R113, R323: why a port refuses a parcel: its key, a res0 bit of its header, or no liveness entry here. -/
def State.parcelRefusal (s : State) (src keyidx : Nat) (hdr : BitVec 1536) (f : Frag) (asid : Nat) : Option (BitVec 8) :=
  if s.keyOk keyidx src asid 0x01#5 = false then some 0x16#8 else if fld hdr 1137 15 ≠ 0 ∨ (s.liveIn f asid).isNone then some 0x20#8 else none
/-- The group of an arriving fragment: its own, come back, or a record of the group it belongs to on its device, with the rights that its header
carries (R113, R321). -/
def State.groupIn (s : State) (asid : Nat) (g : Group) : Nat × State :=
  match s.groups.find? fun e => e.2.alive && e.2.dev == g.dev && e.2.gridid == g.gridid && e.2.teamid == g.teamid && e.2.gidx == g.gidx && e.2.rights.asid == asid with
  | some e =>
    (e.1, if s.keeps e.2 then s else s.setGroup e.1 { e.2 with rights := { g.rights with part := fld (s.asEnt asid) 184 4, dev := g.dev } })
  | none => (s.newId.1, s.newId.2.setGroup s.newId.1 { g with alive := true, team := 0, rights := { g.rights with part := fld (s.asEnt asid) 184 4, dev := g.dev } })
/-- R220, R301, R323: PARCEL_PORT_INGRESS: a parcel of another device is refused and returned, or held by its port for its home's queue; with 32
held, its source's credits are withheld. Word of credits from another port is noted. -/
def execParcelPortIngress (n : Nat) (s : State) : Host.Outcome State Fault Refusal :=
  .next (match s.fabIn[n]? with
    | some (.credit src _ port on) =>
      let s1 := { s.dropFab n with credNo := s.credNo.filter fun c => c != (src, port) }
      if on then s1 else { s1 with credNo := s1.credNo ++ [(src, port)] }
    | some (.parcel src _ keyidx hdr f g port) =>
      match f.state with
      | .transit _ home _ =>
        match s.parcelRefusal src keyidx hdr f g.rights.asid with
        | some c => (s.dropFab n).sendFab (.returned src f g c)
        | none =>
          if 32 ≤ s.portHeld port then s
          else
            let x := (s.dropFab n).newId.2.groupIn g.rights.asid g
            let k := fragNo x.1 f.idx
            let f' := s.received f g.rights.asid
            let s1 := x.2.setFrag k { f' with group := x.1, resident := false, outs := [], grp := none, pfx := none, dev := s.fabric.toNat, home := home }
            let s2 := { s1 with net := s1.net ++ [.parcel k home (some (port, s.newId.1))] }
            if s2.portHeld port < 32 then s2
            else { s2 with credOff := s2.credOff ++ [(src, port)], fabOut := s2.fabOut ++ [FabMsg.credit s.fabric.toNat src port false] }
      | _ => s.dropFab n
    | _ => s)
/-- R220: the report of a refused parcel. -/
def LeaveDue.refusedReport (L : LeaveDue) (own : Mask) (code : BitVec 8) (dev home : Nat) : FaultRec :=
  let at' := match L.acc.addrs L.src (own &&& L.eff) with | a :: _ => a.va | [] => 0
  ⟨code, 0, at', lanesLo own, lanesHi own ||| BitVec.ofNat 64 (lowest own * 2 ^ 32) ||| 0xC000000000000000#64 |||
    BitVec.ofNat 64 (home * 2 ^ 44) ||| BitVec.ofNat 64 (dev * 2 ^ 48), false⟩
/-- R220: PARCEL_RETURN: the fragment of a refused parcel is recreated at its source, and faults. -/
def execParcelReturn (n : Nat) (s : State) : Host.Outcome State Fault Refusal :=
  .next (match s.fabIn[n]? with
    | some (.returned _ f g code) =>
      match f.state, f.leave with
      | .transit dev home true, some L =>
        let x := (s.dropFab n).groupIn g.rights.asid g
        let k := fragNo x.1 f.idx
        (((x.2.setFrag k { f with group := x.1, state := .ready, leave := none }).acquire k).report k).faultOn k L.ti0 L.pc L.wordPc
          (L.refusedReport f.own code dev home)
      | _, _ => s.dropFab n
    | _ => s)

end Sys2Proof.Machine
end

