-- ==== Sys2Proof/Machine/Priv.lean ====
section
/-! DEFINITION. The words of major 0x3B (R317, R324, R329): the overflow table, handler tables, keys, and cached translations. -/

namespace Sys2Proof.Machine

/-- R8, R329: OVTLD. -/
def execOvtld (a : RegNum) (s : State) : Host.Outcome State Fault Refusal :=
  finish s (s.clean [.s a]
    (if (s.sreg a).bnd then .fault (faultOf 0x18#8 (a.setWidth 64))
     else if s.keeps s.g then .done (s.setOvt s.f.group ((s.sv a).setWidth 16))
     else s.roundTrip (.ovt ((s.sv a).setWidth 16)) fun _ => .done ((s.setF { s.f with grant := .none }).setG { s.g with ovt := (s.sv a).setWidth 16 })))

/-- R217, R329: the 8-byte words of a 64-aligned global record, once they are read. -/
def readRecord (s : State) (a : RegNum) (words : Nat) (k : List DWord → State → Act) : Act :=
  let sa := s.sv a
  let core := s.f.coreKey
  let vas := (List.range words).map fun i => sa + BitVec.ofNat 64 (8 * i)
  match s.checkGlobal core s.g.rights .read 64 false [⟨0, sa, 8⟩] with
  | some x => .fault x
  | none => (s.readVas (.frag s.cur) core s.g.rights 8 vas).act fun xs s =>
      match badRead vas xs with
      | some r => .fault r
      | none => k (xs.map (·.1)) s

/-! Handler tables (R280, R281) -/

/-- The homes of a partition (R364). -/
def State.homesOf (s : State) (part : Nat) : List Nat := (List.range 12).filter fun h => (s.part part).homes.getLsbD h
/-- R281: the units of a partition's homes that neither hold a table nor are about to install it. -/
def State.unitsBehind (s : State) (part : Nat) (t : KMap Byte) : List Nat :=
  (s.homesOf part).flatMap fun h => ((List.range 128).map fun u => 128 * h + u).filter fun u => (s.bank u).pending.getD (s.bank u).table != t
/-- R281: whether a unit of a partition still has a table to install. -/
def State.installing (s : State) (part : Nat) : Bool := s.banks.any fun b => (s.homesOf part).contains (b.1 / 128) && b.2.pending.isSome
/-- R280, R281: the image becomes the partition's table, and every unit is to install it. -/
def State.takeTable (s : State) (part : Nat) (t : KMap Byte) : State :=
  (s.unitsBehind part t).foldl (fun s u => s.setBank u { s.bank u with pending := some t }) (s.setPart part { s.part part with handlers := t })
/-- R329: HTLD. -/
def execHtld (a b : RegNum) (s : State) : Host.Outcome State Fault Refusal :=
  let part := fld (s.sv b) 0 4
  finish s (s.clean [.s a, .s b]
    (if 12 ≤ part then .fault (faultOf 0x01#8 0xF#64)
     else readRecord s a 544 fun xs s =>
      let t := putCells [] (cellsAt 0 (xs.flatMap fun x => leBytes 8 x.toNat))
      match tableRefusal t with
      | some r => .fault (faultOf 0x01#8 (BitVec.ofNat 64 (r.1 + 16 * r.2)))
      | none =>
        let s1 := s.takeTable part t
        if s1.installing part then .hold s1 else .done s1))

/-! Keys (R323, R324) -/

/-- R323: no res0 bit of a key-table entry is set. -/
def keyEntryOk (e : BitVec 128) : Bool := fld e 124 3 == 0 && fld e 69 3 == 0 && fld e 0 64 == 0
/-- R324: whether requests under way are still to be performed under the value that a memory-key slot holds. -/
def State.slotBusy (s : State) (slot : Nat) : Bool :=
  (s.net.any fun m => match m.request with | some a => a.2.2.1.any fun e => e.key / 2 ^ 40 == slot + 1 | none => false) ||
    s.banks.any fun b => b.2.queue.any fun x => x.pa / 2 ^ 40 == slot + 1
/-- R324: what a sealed record comes to: the payload, or the check that it fails. -/
def sealed (xs : List DWord) (sel : DWord) : Except DWord (BitVec 512) :=
  let rcd : BitVec 1024 := BitVec.ofNat 1024 (leNat (xs.flatMap fun x => leBytes 8 x.toNat))
  match Config.unwrap (rcd.extractLsb' 0 512) (rcd.extractLsb' 512 128) with
  | none => .error 1
  | some p =>
    let named := if sel.getLsbD 63 then fld sel 9 54 == 0 else fld sel 12 51 == 0
    if rcd.extractLsb' 640 64 ≠ sel ∨ named = false then .error 2
    else if sel.getLsbD 63 = false ∧ keyEntryOk (p.setWidth 128) = false then .error 3
    else .ok p
/-- R324: KEYLD. -/
def execKeyld (a b : RegNum) (s : State) : Host.Outcome State Fault Refusal :=
  let sel := s.sv b
  finish s (s.clean [.s a, .s b]
    (readRecord s a 16 fun xs s =>
      match sealed xs sel with
      | .error k => .fault (faultOf 0x01#8 k)
      | .ok p =>
        if sel.getLsbD 63 && s.slotBusy (fld sel 0 9) then .hold s
        else if sel.getLsbD 63 then .done { s with keySlots := s.keySlots.put 0 (fld sel 0 9) p }
        else .done { s with keyTab := s.keyTab.put 0 (fld sel 0 12) (p.setWidth 128) }))

/-! Cached translations (R320, R321, R329) -/

/-- Which leaves a shoot-down drops: those of a page, of an address space, or all. -/
inductive Drop where
  | page (asid : Nat) (va : DWord)
  | space (asid : Nat)
  | all
  deriving DecidableEq, Repr

def Drop.leaf (d : Drop) (x : TlbEnt) : Bool :=
  match d with
  | .page asid va => x.hits asid va
  | .space asid => x.asid == asid
  | .all => true
/-- Whether an access under an ASID may have been translated through a dropped leaf: for a page, one within the same 2 MiB, since the
leaf may have been of either size. -/
def Drop.access (d : Drop) (asid : Nat) (va : DWord) : Bool :=
  match d with
  | .page a v => asid == a && va.toNat / 2 ^ 21 == v.toNat / 2 ^ 21
  | .space a => asid == a
  | .all => true
/-- R329: the cached leaves are dropped from the cores and ingress MMUs of homes. -/
def State.dropLeaves (s : State) (homes : List Nat) (d : Drop) : State :=
  { s with
    cores := s.cores.map fun (c : Nat × Core) => (c.1, if homes.contains (c.1 / 256) then { c.2 with tlb := c.2.tlb.filter fun x => !d.leaf x } else c.2)
    homes := s.homes.map fun (h : Nat × HomeSt) => (h.1, if homes.contains h.1 then { h.2 with tlb := h.2.tlb.filter fun x => !d.leaf x } else h.2) }
/-- Whether a request under way holds an access that the drop waits for. -/
def Msg.dropHolds (m : Msg) (d : Drop) : Bool :=
  let of := fun (r : Req) => r.elems.any fun e => e.space == .dram && d.access r.rights.asid e.va
  match m with
  | .store r => of r
  | .posted r => of r
  | .read r _ => of r
  | .xatom x => d.access x.rights.asid x.va
  | _ => false
/-- R329: whether an access translated through a dropped leaf is neither performed nor discarded. -/
def State.dropBusy (s : State) (d : Drop) : Bool :=
  (s.net.any fun m => m.dropHolds d) || (s.banks.any fun b => b.2.queue.any fun x => d.access x.rights.asid x.va) ||
    (s.remote.any fun r => r.vas.any fun va => d.access r.asid va) ||
    (s.cores.any fun c => c.2.wc.any fun l => d.access l.rights.asid (BitVec.ofNat 64 (256 * l.line)))
/-- R329: what TLBSD names by its second operand. -/
def dropOf (sa sb : DWord) : Drop :=
  if sb.getLsbD 17 then .all else if sb.getLsbD 16 then .space (fld sb 0 16) else .page (fld sb 0 16) sa
/-- R329: TLBSD. -/
def execTlbsd (a b : RegNum) (s : State) : Host.Outcome State Fault Refusal :=
  let sb := s.sv b
  let d := dropOf (s.sv a) sb
  let homes := if sb.getLsbD 17 then List.range 12 else s.homesOf (fld (s.asEnt (fld sb 0 16)) 184 4)
  finish s (s.clean [.s a, .s b]
    (if fld sb 18 46 ≠ 0 then .fault (faultOf 0x02#8)
     else
      let s1 := s.dropLeaves homes d
      if s1.dropBusy d then .hold s1 else .done s1))
/-- R209, R321, R329: PTGEN. -/
def execPtgen (a : RegNum) (s : State) : Host.Outcome State Fault Refusal :=
  let asid := fld (s.sv a) 0 16
  let e := s.asEnt asid
  finish s (s.clean [.s a]
    (if e.getLsbD 191 = false ∨ fld e 224 32 = 0xFFFFFFFF then .fault (faultOf 0x01#8)
     else
      let s1 := s.dropLeaves (s.homesOf (fld e 184 4)) (.space asid)
      if s1.dropBusy (.space asid) then .hold s1
      else .done { s1 with asTab := s1.asTab.put 0 asid (e + BitVec.twoPow 256 224) }))

end Sys2Proof.Machine
end

