-- ==== Sys2Proof/Machine/Tambour.lean ====
section
/-! DEFINITION. The Tambour solver (R262 to R271): the words TLDC, TLDB, TSETL, TSAMP, TRD, TRDC and TSTAT, and the steps of a
system. -/

namespace Sys2Proof.Machine

def TgState.code (x : TgState) : BitVec 3 :=
  match x with
  | .empty => 0x0#3
  | .loaded => 0x1#3
  | .settling => 0x2#3
  | .settled => 0x3#3
  | .sampling => 0x4#3
  | .done => 0x5#3
  | .failed => 0x6#3

/-- R264, R265: the state after a command, settling taken to end in settled and a TSAMP behind no settled state to be discarded. -/
def TgState.after (x : TgState) (c : TgCmd) : TgState :=
  match c with
  | .loadC _ row0 _ _ _ => if row0 = 0 then .loaded else if x = .empty then .empty else .loaded
  | .loadB _ _ _ => if x = .empty then .empty else .loaded
  | .settle _ => .settled
  | .sample _ _ => if x = .settled ∨ x = .done then .done else x
/-- R267: TAMB_RANGE with a reason, a partition, and what else is reported. -/
def tambFault (reason : Nat) (p : BitVec 2) (info : Nat := 0) : FaultRec :=
  faultOf 0x42#8 (BitVec.ofNat 64 (reason + 256 * p.toNat)) (BitVec.ofNat 64 info)
def State.tambKey (s : State) (p : BitVec 2) : Nat := 4 * s.f.home + p.toNat
/-- R265: what the systems of a home come to once every accepted command has been performed: the covering partition, state and size of each. -/
structure TambPlan where
  cover : Nat → Option Nat
  state : Nat → TgState
  n : Nat → Nat
/-- R264, R265, R268: one accepted command; a TLDC with ROW0 = 0 takes partitions over, and those that its system leaves become empty. -/
def TambPlan.step (x : TambPlan) (p : Nat) (c : TgCmd) : TambPlan :=
  if (x.cover p).isSome then x
  else
    let st := fun q => if q = p then (x.state p).after c else x.state q
    match c with
    | .loadC n row0 _ _ _ =>
      if row0 = 0 then
        let top := p + (n + 255) / 256
        let took := fun q => decide (p < q ∧ q < top)
        let left := fun q => decide (top ≤ q) && (match x.cover q with | some b => decide (p = b ∨ p < b ∧ b < top) | none => false)
        ⟨fun q => if took q then some p else if left q then none else x.cover q, fun q => if took q || left q then .empty else st q,
          fun q => if q = p then n else if took q || left q then 0 else x.n q⟩
      else { x with state := st }
    | _ => { x with state := st }
/-- R265: the commands accepted at a home's systems, in the order of their acceptance. -/
def State.tambCmds (s : State) (home : Nat) : List (Nat × (Nat × TgCmd)) :=
  sortBy (fun a b => decide (a.1 ≤ b.1)) ((List.range 4).flatMap fun p => ((s.tamb (4 * home + p)).stamps.zip (s.tamb (4 * home + p)).queue).map fun c => (c.1, (p, c.2)))
/-- R265: the projection of a home's systems; settling is taken to end in settled, and sampling in done. -/
def State.tambPlan (s : State) (home : Nat) : TambPlan :=
  let t := fun p => s.tamb (4 * home + p)
  (s.tambCmds home).foldl (fun x c => x.step c.2.1 c.2.2)
    ⟨fun p => (t p).cover, fun p => match (t p).state with | .settling => .settled | .sampling => .done | y => y, fun p => (t p).n⟩
/-- R265: the projected state and size of a system. -/
def State.projected (s : State) (p : BitVec 2) : TgState := (s.tambPlan s.f.home).state p.toNat
def State.projN (s : State) (p : BitVec 2) : Nat := (s.tambPlan s.f.home).n p.toNat
/-- R265, R267: reason 2. -/
def tambHidden (s : State) (p : BitVec 2) (k : Tamb → Act) : Act :=
  if ((s.tambPlan s.f.home).cover p.toNat).isSome then .fault (tambFault 2 p) else k (s.tamb (s.tambKey p))
/-- R265: a command is queued, once the queue has room. -/
def tambQueue (s : State) (p : BitVec 2) (c : TgCmd) (d : Option RegNum) : Act :=
  let s1 := s.newId.2
  let t := s.tamb (s.tambKey p)
  let t1 := { t with queue := t.queue ++ [c], stamps := t.stamps ++ [s.newId.1] }
  match d with
  | some d => .done ((s1.setTamb (s.tambKey p) { t1 with lgen := t.lgen + 1 }).wrS d ((t.lgen + 1).setWidth 64) false)
  | none => .done (s1.setTamb (s.tambKey p) t1)

/-! Loads -/

/-- R263: byte offset of the first field of a TLDC header that is out of range; `n` is the system's size, 0 when it is empty. -/
def tldcBad (h : BitVec 512) (p n : Nat) : Option Nat :=
  let N := fld h 0 16
  let row0 := fld h 16 16
  let rows := fld h 32 16
  if N = 0 ∨ 1024 < N ∨ 256 * (4 - p) < N ∨ (row0 ≠ 0 ∧ n ≠ 0 ∧ N ≠ n) then some 0
  else if N ≤ row0 then some 2
  else if rows = 0 ∨ N - row0 < rows then some 4
  else if (h.extractLsb' 48 8).toInt < -32 ∨ 31 < (h.extractLsb' 48 8).toInt then some 6
  else if fld h 56 456 ≠ 0 then some 7
  else none
/-- R263: bytes of rows `row0` to `row0 + n − 1` of a lower triangle. -/
def triBytes (row0 n : Nat) : Nat := ((List.range n).map fun i => row0 + i + 1).foldl (· + ·) 0
/-- R263: byte offset of the first field of a TLDB header that is out of range. -/
def tldbBad (h : BitVec 512) : Option Nat :=
  if (h.extractLsb' 0 8).toInt < -64 ∨ 63 < (h.extractLsb' 0 8).toInt then some 0
  else if (h.extractLsb' 8 8).toInt < -32 ∨ 31 < (h.extractLsb' 8 8).toInt then some 1
  else if fld h 16 496 ≠ 0 then some 2
  else none
/-- R263: byte offset of the first field of a TSAMP header that is out of range. -/
def tsampBad (h : BitVec 512) : Option Nat :=
  if fld h 0 32 < 1000 ∨ 10000000 < fld h 0 32 then some 0
  else if 1024 < fld h 32 16 then some 4
  else if fld h 48 464 ≠ 0 then some 6
  else none
/-- R263: 16-bit values of data bytes. -/
def halves (bs : List Byte) : List (BitVec 16) :=
  match bs with
  | a :: b :: r => (b ++ a) :: halves r
  | _ => []
/-- R263: index pairs of data bytes. -/
def pairsOf (xs : List (BitVec 16)) : List (Nat × Nat) :=
  match xs with
  | a :: b :: r => (a.toNat, b.toNat) :: pairsOf r
  | _ => []

/-- R268: TLDC. -/
def execTldc (d a : RegNum) (p : BitVec 2) (s : State) : Host.Outcome State Fault Refusal :=
  let empty := s.projected p == .empty
  finish s (recordHeader s a fun h =>
    match tldcBad h p.toNat (if empty then 0 else s.projN p) with
    | some o => .fault (tambFault 1 p o)
    | none => recordData s a (triBytes (fld h 16 16) (fld h 32 16)) fun bs => tambHidden s p fun t =>
      if fld h 16 16 ≠ 0 ∧ empty then .fault (tambFault 3 p)
      else if 8 ≤ t.queue.length then .hold s
      else tambQueue s p (.loadC (fld h 0 16) (fld h 16 16) (fld h 32 16) (h.extractLsb' 48 8).toInt bs) (some d))
/-- R268: TLDB. -/
def execTldb (d a : RegNum) (p : BitVec 2) (s : State) : Host.Outcome State Fault Refusal :=
  finish s (recordHeader s a fun h =>
    match tldbBad h with
    | some o => .fault (tambFault 1 p o)
    | none => recordData s a (2 * s.projN p) fun bs => tambHidden s p fun t =>
      if s.projected p = .empty then .fault (tambFault 3 p)
      else if 8 ≤ t.queue.length then .hold s
      else tambQueue s p (.loadB (h.extractLsb' 0 8).toInt (h.extractLsb' 8 8).toInt (halves bs)) (some d))
/-- R268: TSETL. -/
def execTsetl (a : RegNum) (p : BitVec 2) (s : State) : Host.Outcome State Fault Refusal :=
  let ns := fld (s.sv a) 0 32
  finish s (s.clean [.s a] (tambHidden s p fun t =>
    if s.projected p = .empty then .fault (tambFault 3 p)
    else if ns < 500 ∨ 200000 < ns then .fault (tambFault 4 p)
    else if 8 ≤ t.queue.length then .hold s
    else tambQueue s p (.settle ns) none))
/-- R268: TSAMP. -/
def execTsamp (a : RegNum) (p : BitVec 2) (s : State) : Host.Outcome State Fault Refusal :=
  finish s (recordHeader s a fun h =>
    match tsampBad h with
    | some o => .fault (tambFault 1 p o)
    | none => recordData s a (4 * fld h 32 16) fun bs => tambHidden s p fun t =>
      let ps := pairsOf (halves bs)
      if s.projected p ≠ .settled ∧ s.projected p ≠ .done then .fault (tambFault 3 p)
      else if ps.any fun x => decide (s.projN p ≤ x.1 ∨ s.projN p ≤ x.2) then .fault (tambFault 7 p)
      else if 8 ≤ t.queue.length then .hold s
      else tambQueue s p (.sample (fld h 0 32) ps) none)

/-! Reading -/

/-- R262: Â[i][j] and b̂[i]. -/
def Tamb.entry (t : Tamb) (i j : Nat) : Int := (t.a.get 0x00#8 (1024 * max i j + min i j)).toInt
def Tamb.bias (t : Tamb) (i : Nat) : Int := (t.b.get 0x0000#16 i).toInt
/-- A row after the elimination, without fractions, of column `k` by the pivot row `r`, whose pivot is `p`; `prev` is the pivot before it. -/
def elimRow (k : Nat) (prev p : Int) (r q : List Int) : List Int :=
  (q.zip r).map fun x => (p * x.1 - (q[k]?.getD 0) * x.2) / prev
/-- Gauss–Jordan elimination of a symmetric system, whose pivots are its leading minors: the rows and the determinant, none where a leading
minor is not positive, so that the matrix is not positive definite. -/
def solveRows (fuel k : Nat) (prev : Int) (done todo : List (List Int)) : Option (List (List Int) × Int) :=
  match fuel, todo with
  | _, [] => some (done, prev)
  | 0, _ => none
  | n + 1, r :: rest =>
    let p := r[k]?.getD 0
    if p ≤ 0 then none else solveRows n (k + 1) p (done.map (elimRow k prev p r) ++ [r]) (rest.map (elimRow k prev p r))
/-- R262: what a system settles to: Â⁻¹·b̂ and Â⁻¹ as numerators over one positive denominator. -/
structure TambSol where
  mean : List Int
  inv : List (List Int)
  den : Int
  deriving DecidableEq, Repr
/-- R262: the solution of a system, none where Â is not positive definite. -/
def Tamb.solution (t : Tamb) : Option TambSol :=
  (solveRows t.n 0 1 [] ((List.range t.n).map fun i =>
      (List.range t.n).map (t.entry i) ++ t.bias i :: (List.range t.n).map fun j => if i = j then 1 else 0)).map fun x =>
    ⟨x.1.map fun r => r[t.n]?.getD 0, x.1.map fun r => r.drop (t.n + 1), x.2⟩
/-- R262: Â⁻¹[i][j] as a numerator over the solution's denominator. -/
def TambSol.cov (y : TambSol) (i j : Nat) : Int := ((y.inv[min i j]?.getD [])[max i j]?).getD 0
/-- Whether u·Â + v·I is positive definite. -/
def Tamb.posDef (t : Tamb) (u v : Int) : Bool :=
  (solveRows t.n 0 1 [] ((List.range t.n).map fun i => (List.range t.n).map fun j => u * t.entry i j + if i = j then v else 0)).isSome
/-- R271: whether the condition number of a positive definite Â, its greatest eigenvalue over its least, exceeds 2^12: the least is
searched bit by bit in units of 2^-32, so that a number within one part in 2^20 above the limit does not count (DESIGN CHOICE, log 60). -/
def Tamb.illConditioned (t : Tamb) : Bool :=
  let least := (List.range 40).foldl (fun (m : Nat) b => if t.posDef (2 ^ 32) (-(m + 2 ^ (39 - b) : Nat)) then m + 2 ^ (39 - b) else m) 0
  !(t.posDef (-(2 ^ 32)) (2 ^ 12 * (least + 1 : Nat) + 1))
/-- R271: whether some mean lies within 4·max √(A⁻¹)[i][i] of a rail, or beyond it; the rule's "about" is taken as 4 (DESIGN CHOICE, log 60). -/
def Tamb.railNear (t : Tamb) (y : TambSol) : Bool :=
  let at128 := fun e : Int => (2 ^ (e + 128).toNat : Int)
  let most := ((List.range t.n).map fun i => y.cov i i).foldl max 0
  y.mean.any fun m =>
    let gap := y.den * at128 t.xexp - m.natAbs * at128 (t.bexp - t.aexp)
    decide (gap ≤ 0 ∨ gap * gap ≤ 16 * most * y.den * 2 ^ (256 - t.aexp).toNat)
/-- R271: whether a system settles; where it does not, an integrator comes to its rail. -/
def Tamb.settles (t : Tamb) : Bool :=
  match t.solution with
  | some y => !t.illConditioned && !t.railNear y
  | none => false

/-- A value within ±2^e from a free numerator over a power of two. -/
def railed (x : Int × Nat) (e : Int) : FVal :=
  let v := clamp (-(2 ^ x.2 : Int)) (2 ^ x.2 : Int) x.1
  .fin (decide (v < 0)) v.natAbs (e - x.2)
/-- R271: a value within 2^−6 · max|μ| of μ[i], by the free value `x`; μ is a solution times 2^e. -/
def nearMean (sol : List Int × Int) (i : Nat) (e : Int) (x : Int × Nat) : FVal :=
  let most := (sol.1.map Int.natAbs).foldl max 0
  let k := x.2 + Nat.log2 sol.2.natAbs + 2
  let r : Int := max 0 ((most : Int) * 2 ^ k / sol.2 - 1)
  let v : Int := (sol.1[i]?.getD 0) * 2 ^ (6 + k) / sol.2 + (if most = 0 then 0 else clamp (-r) r x.1)
  .fin (decide (v < 0)) v.natAbs (e - 6 - k)
/-- Whether a value lies within ±2^e. -/
def FVal.within (v : FVal) (e : Int) : Bool := !((FVal.fin false 1 e).lt v) && !(v.lt (FVal.fin true 1 e))
/-- A value cut off at ±2^e. -/
def FVal.cut (v : FVal) (e : Int) : FVal := if v.within e then v else .fin (v.lt (.fin false 0 0)) 1 e
/-- R262, R269, R271: the mean of an integrator over the averaging window: near A⁻¹b in a run that meets the bound of R271, which no run with a
rail reached need do, and within the rails in any. -/
def Tamb.meanOf (t : Tamb) (sol : Option TambSol) (i : Nat) : FVal :=
  match sol with
  | some y =>
    let v := nearMean (y.mean, y.den) i (t.bexp - t.aexp) (Config.mean t.run i)
    if Config.within t.run && !t.clip && v.within t.xexp then v else railed (Config.mean t.run i) t.xexp
  | none => railed (Config.mean t.run i) t.xexp
/-- R262: A⁻¹[i][j], to 64 bits below its denominator. -/
def Tamb.covariance (t : Tamb) (y : TambSol) (i j : Nat) : FVal :=
  let k := Nat.log2 y.den.natAbs + 64
  let v := y.cov i j * 2 ^ k / y.den
  .fin (decide (v < 0)) v.natAbs (-t.aexp - k)
/-- R262, R269: the mean of a product of two integrators over the window: their covariance and the product of the means, with what this run
differs from them by, on which the spec sets no bound but the rails. -/
def Tamb.moment (t : Tamb) (sol : Option TambSol) (i j : Nat) : FVal :=
  let x := railed (Config.moment t.run (min i j) (max i j)) (2 * t.xexp + 1)
  (match sol with
   | some y => sumExact [t.covariance y i j, (t.meanOf sol i).mul (t.meanOf sol j), x]
   | none => x).cut (2 * t.xexp)
/-- R269: the estimate of a covariance: a mean of products less the product of the means; of an integrator with itself it is not negative. -/
def Tamb.covOf (t : Tamb) (sol : Option TambSol) (i j : Nat) : FVal :=
  let c := sumExact [t.moment sol i j, ((t.meanOf sol i).mul (t.meanOf sol j)).neg]
  if i = j ∧ c.lt (.fin false 0 0) then .fin false 0 0 else c
/-- R269: the estimate at a place of TRD or TRDC, if it has one. -/
def Tamb.estimateOf (t : Tamb) (sol : Option TambSol) (cov : Bool) (k : Nat) : Option FVal :=
  if cov then
    (if k < t.n then some (t.covOf sol k k) else (t.pairs[k - t.n]?).map fun x => t.covOf sol x.1 x.2)
  else if k < t.n then some (t.meanOf sol k) else none
def Tamb.estimate (t : Tamb) (cov : Bool) (k : Nat) : Option FVal := t.estimateOf t.solution cov k
/-- R269: TRD and TRDC. -/
def trdAct (cov : Bool) (d a : RegNum) (p : BitVec 2) (s : State) : Act :=
  let f := fld (s.sv a) 16 4
  let k0 := fld (s.sv a) 0 16
  s.clean [.s a] (tambHidden s p fun t =>
    if 2 < f then .fault (tambFault 5 p)
    else if t.queue ≠ [] ∨ t.state = .settling ∨ t.state = .sampling then .hold s
    else if t.state = .failed then .fault (faultOf 0x41#8 (BitVec.ofNat 64 (256 * p.toNat)) (BitVec.ofNat 64 t.raili))
    else if t.state ≠ .done then .fault (tambFault 6 p)
    else s.withOvt fun s =>
      let sol := t.solution
      let m := maskOf fun l => s.active.getLsbD l && (t.estimateOf sol cov (k0 + l)).isSome
      let val := fun l => BitVec.ofNat 32 (ovtOut s.g.ovt f ((t.estimateOf sol cov (k0 + l)).getD .nan))
      .done (s.addOut s.cur ⟨.unit, .v (s.src.vEnt d), m, m, lanesOf val, 0, true, 0x0#96⟩))
/-- R269: TRD. -/
def execTrd (d a : RegNum) (p : BitVec 2) (s : State) : Host.Outcome State Fault Refusal := finish s (trdAct false d a p s)
/-- R269: TRDC. -/
def execTrdc (d a : RegNum) (p : BitVec 2) (s : State) : Host.Outcome State Fault Refusal := finish s (trdAct true d a p s)
/-- R270: the status word of a system, with its first partition. -/
def Tamb.status (t : Tamb) (base : Nat) : DWord :=
  t.lgen ++ BitVec.ofNat 16 t.n ++ t.state.code ++ BitVec.ofNat 2 base ++ (if t.clip then 0x1#1 else 0x0#1) ++ BitVec.ofNat 10 t.raili ++
    BitVec.ofNat 4 t.queue.length ++ 0x0#12
/-- R270: TSTAT: of a system with no integrators yet TG.BASE shows its reset value 0 (DEDUCED, log 60). -/
def execTstat (d : RegNum) (p : BitVec 2) (s : State) : Host.Outcome State Fault Refusal :=
  let base := (s.tamb (s.tambKey p)).cover.getD p.toNat
  let t := s.tamb (4 * s.f.home + base)
  finish s (.done (s.later d (t.status (if t.n = 0 then 0 else base)) false))

/-! The steps of a system -/

/-- R268: partitions that a system of `k` partitions from `p` covers, or covered before, once it has been loaded anew by the command with a number of
acceptance; commands accepted before it for a system taken over are dropped. -/
def State.cover (s : State) (home p k stamp : Nat) : State :=
  (List.range 4).foldl (fun s q =>
    let t := s.tamb (4 * home + q)
    let late := (t.stamps.zip t.queue).filter fun c => decide (stamp < c.1)
    let fresh := { Tamb.fresh with lgen := t.lgen, queue := late.map fun (c : Nat × TgCmd) => c.2, stamps := late.map fun (c : Nat × TgCmd) => c.1 }
    if q ≤ p then s
    else if q < p + k then s.setTamb (4 * home + q) { fresh with cover := some p }
    else
      match t.cover with
      | some b => if p ≤ b then s.setTamb (4 * home + q) (if p < b ∧ p + k ≤ b then t else { fresh with queue := t.queue, stamps := t.stamps }) else s
      | none => s) s
/-- R262: entries of a lower triangle, by row from `row0` on. -/
def triCells (row0 n : Nat) (bs : List Byte) (m : KMap Byte) : KMap Byte :=
  match n with
  | 0 => m
  | k + 1 => triCells (row0 + 1) k (bs.drop (row0 + 1)) ((bs.take (row0 + 1)).zipIdx.foldl (fun m x => m.put 0x00#8 (1024 * row0 + x.2) x.1) m)
/-- R268, R264: TAMB_LOAD_PERFORM. -/
def execTambLoadPerform (home part : Nat) (s : State) : Host.Outcome State Fault Refusal :=
  let q := 4 * home + part
  let t := s.tamb q
  .next (if t.state = .settling ∨ t.state = .sampling ∨ t.cover.isSome then s
    else
      match t.queue with
      | .loadC n row0 rows aexp w :: rest =>
        if row0 = 0 then
          (s.setTamb q { t with
            queue := rest, stamps := t.stamps.drop 1, n := n, aexp := aexp, a := triCells 0 rows w [], b := [], bexp := 0, state := .loaded, pairs := [], clip := false, run := 0
            }).cover home part ((n + 255) / 256) (t.stamps.headD 0)
        else if t.state = .empty then s.setTamb q { t with queue := rest, stamps := t.stamps.drop 1 }
        else s.setTamb q { t with queue := rest, stamps := t.stamps.drop 1, a := triCells row0 rows w t.a, state := .loaded }
      | .loadB bexp xexp b :: rest =>
        if t.state = .empty then s.setTamb q { t with queue := rest, stamps := t.stamps.drop 1 }
        else s.setTamb q { t with queue := rest, stamps := t.stamps.drop 1, bexp := bexp, xexp := xexp, b := b.zipIdx.foldl (fun m x => m.put 0x0000#16 x.2 x.1) [], state := .loaded }
      | _ => s)
/-- R5: the clock at which a timer of some nanoseconds expires. -/
def State.timerOf (s : State) (ns : Nat) : Nat := s.clock + (21 * ns + 19) / 20
/-- R264, R375: TAMB_SETTLE_START. -/
def execTambSettleStart (home part : Nat) (s : State) : Host.Outcome State Fault Refusal :=
  let q := 4 * home + part
  let t := s.tamb q
  let h := s.home home
  .next (if t.state = .settling ∨ t.state = .sampling ∨ t.cover.isSome then s
    else
      match t.queue with
      | .settle ns :: rest =>
        if t.state = .empty then s.setTamb q { t with queue := rest, stamps := t.stamps.drop 1 }
        else if h.credSettle = 0 then s
        else (s.setHome home { h with credSettle := h.credSettle - 1 }).setTamb q { t with queue := rest, stamps := t.stamps.drop 1, state := .settling, timer := s.timerOf ns }
      | _ => s)
/-- R268, R265: TAMB_SAMPLE_START: a TSAMP that finds its system not settled is discarded. -/
def execTambSampleStart (home part : Nat) (s : State) : Host.Outcome State Fault Refusal :=
  let q := 4 * home + part
  let t := s.tamb q
  .next (if t.state = .settling ∨ t.state = .sampling ∨ t.cover.isSome then s
    else
      match t.queue with
      | .sample ns ps :: rest =>
        if t.state = .settled ∨ t.state = .done then
          s.setTamb q { t with queue := rest, stamps := t.stamps.drop 1, state := .sampling, pairs := ps, clip := false, run := 0, timer := s.timerOf ns }
        else s.setTamb q { t with queue := rest, stamps := t.stamps.drop 1 }
      | _ => s)
/-- R264, R271: TAMB_SETTLE_EXPIRY: a system that has not settled has an integrator at its rail. -/
def execTambSettleExpiry (home part : Nat) (s : State) : Host.Outcome State Fault Refusal :=
  let t := s.tamb (4 * home + part)
  .next (if t.state = .settling ∧ t.timer ≤ s.clock then
      if t.settles then s.setTamb (4 * home + part) { t with state := .settled }
      else s.draw.2.setTamb (4 * home + part) { t with state := .failed, raili := Config.rail s.draw.1 % t.n }
    else s)
/-- R264: TAMB_RAIL_REACHED. -/
def execTambRailReached (home part i : Nat) (s : State) : Host.Outcome State Fault Refusal :=
  let t := s.tamb (4 * home + part)
  .next (if t.n ≤ i then s
    else if t.state = .settling then s.setTamb (4 * home + part) { t with state := .failed, raili := i }
    else if t.state = .sampling then s.setTamb (4 * home + part) { t with clip := true }
    else s)
/-- R264, R269: TAMB_SAMPLE_EXPIRY: the accumulators hold the estimates of this run. -/
def execTambSampleExpiry (home part : Nat) (s : State) : Host.Outcome State Fault Refusal :=
  let t := s.tamb (4 * home + part)
  .next (if t.state = .sampling ∧ t.timer ≤ s.clock then s.draw.2.setTamb (4 * home + part) { t with state := .done, run := s.draw.1 } else s)

end Sys2Proof.Machine
end

