-- ==== Sys2Proof/Machine/Preempt.lean ====
section
/-! DEFINITION. Pre-emption, restore, freeze and shadow swap (R164, R204, R272, R322, R352 to R357). -/

namespace Sys2Proof.Machine

/-! What is to be saved -/

/-- R352: the fragments of a team. -/
def State.teamFrags (s : State) (team : Nat) : List (Nat × Frag) :=
  s.frags.filter fun e => e.2.alive && (s.group e.2.group).alive && (s.group e.2.group).team == team
/-- R299, R300: whether a fragment's parcel lies in an inbound queue or an egress buffer. -/
def State.parcelRests (s : State) (n : Nat) : Bool :=
  !(s.net.any fun m => match m with | .parcel k _ _ => k == n | _ => false) &&
    ((s.homes.any fun h => h.2.inbound.any fun e => e.1 == n) || s.cores.any fun c => c.2.egress.any fun p => p.frag == n)
/-- R354, R356: whether a fragment has no work under way, stands between chain groups, and its parcel, if it has one, rests. -/
def State.atRest (s : State) (n : Nat) : Bool :=
  let f := s.frag n
  f.dev == s.fabric.toNat && f.outs.isEmpty && f.due.isNone && !f.begun &&
    (match f.state with | .transit _ _ departed => departed && s.parcelRests n | _ => true)
/-- R352: whether a fragment waits, has been evicted or is queued, so that it is saved where it stands: it holds no residency, or is parked in
LAUNCH, where it may hold one (log 57). -/
def Frag.waits (f : Frag) : Bool := !f.resident || f.state.inLaunch
def State.stands (s : State) (n : Nat) : Bool := (s.frag n).waits && s.atRest n
/-- Whether a read, a write or a reply of a team is awaited from another device. -/
def State.teamAsks (s : State) (team : Nat) : Bool :=
  s.remote.any fun r => match r.asker with
    | some (.frag n) => (s.group (s.frag n).group).team == team
    | some (.cmd n) => (s.cmd n).team == team
    | some (.put n _ _) => (s.cmd n).team == team
    | some (.bobbin g) => (s.group g).team == team
    | some (.fill t _ _) => t == team
    | some (.reply _ t _) => t == team
    | some (.done _) => false
    | none => false
/-- R184, R249, R352 to R354: whether a team can be saved now: every fragment has been saved or stands, or, in full, is at rest; its
accesses have been performed, and its matrix ops are complete. -/
def State.saveReady (s : State) (team : Nat) (full : Bool) : Bool :=
  (s.teamFrags team).all (fun e => (if full then s.atRest e.1 else s.stands e.1) && s.released e.1 true) && !s.teamAsks team &&
    !(s.cores.any fun c => c.2.mmaQ.any fun m => (s.group m.group).team == team)

/-! The save (R353) -/

/-- R353: whether a byte of a reservation is saved: its 16 KiB range is in the union of the masks of the groups' last PREHs; all are
where a group has executed none, or in full. -/
def keptByte (masks : List (Option (BitVec 16))) (full : Bool) (off : Nat) : Bool :=
  full || masks.any (·.isNone) || masks.any fun m => (m.getD 0).getLsbD (off / 16384)
/-- Entries of a memory in a range of keys that are kept, by their distance from its start. -/
def cutCells {α : Type} (m : KMap α) (lo n : Nat) (keep : Nat → Bool) : KMap α :=
  (m.filter fun e => decide (lo ≤ e.1 ∧ e.1 < lo + n) && keep (e.1 - lo)).map fun e => (e.1 - lo, e.2)
/-- The slots of a core that groups of a team have claimed (R170). -/
def State.claims (s : State) (core team : Nat) : KMap Nat :=
  (s.core core).slots.filterMap fun x => match x.2 with | .claimed g => if (s.group g).team = team then some (x.1, g) else none | _ => none
/-- R353: what a save keeps of a team beside its groups. -/
def State.imageOf (s : State) (n : Nat) (full : Bool) : TeamImage :=
  let t := s.team n
  let core := t.coreKey
  let base := scrKey core t.base
  let keep := keptByte ((s.groupsOf n).map (·.2.preh)) full
  let claims := s.claims core n
  let claimed := fun (a : Nat) => claims.any fun c => c.1 == a / 2304
  ⟨cutCells s.scratch base t.size keep, cutCells s.opmem (opKey core 0) 294912 claimed, claims, (s.core core).cbs.filter fun c => c.2.team == n,
    s.sramErr.filterMap fun (e : Nat × Nat) =>
      if e.1 = 1 ∧ base ≤ e.2 ∧ e.2 < base + t.size ∧ keep (e.2 - base) then some (1, e.2 - base)
      else if e.1 = 3 ∧ opKey core 0 ≤ e.2 ∧ e.2 < opKey core 294912 ∧ claimed (e.2 - opKey core 0) then some (3, e.2 - opKey core 0)
      else none⟩
/-- A fragment as its save leaves it, at its first unissued chain group (R354): a watch is dropped (R163, R352). -/
def Frag.laidBy (f : Frag) : Frag :=
  { f with resident := false, turn := 0, served := 0, pc := f.rpc, pfx := none, held := false, state := match f.state with | .waitw k v a g _ => .waitw k v a g true | .waitAway k va _ => .waitAway k va (some (0, 0, false)) | x => x }
/-- R352: queues and lists without given fragments. -/
def State.unlist (s : State) (out : Nat → Bool) : State :=
  { s with
    cores := s.cores.map fun (c : Nat × Core) => (c.1, ({ c.2 with
      waits := c.2.waits.filter fun n => !out n, egress := c.2.egress.filter fun p => !out p.frag, lines := c.2.lines.filter fun l => !out l.frag } : Core))
    homes := s.homes.map fun (h : Nat × HomeSt) => (h.1, { h.2 with inbound := h.2.inbound.filter fun e => !out e.1 }) }
/-- R204, R308: the commands of a team leave the queues of their engines, with their positions. -/
def State.unqueue (s : State) (team : Nat) : State :=
  let mine := fun (n : Nat) => (s.cmd n).team == team
  { s with
    cores := s.cores.map fun (c : Nat × Core) => (c.1, { c.2 with copyQ := c.2.copyQ.filter fun n => !mine n })
    homes := s.homes.map fun (h : Nat × HomeSt) => (h.1, { h.2 with
      caravanQ := h.2.caravanQ.filter fun n => !mine n, bobbinQ := h.2.bobbinQ.filter fun g => (s.group g).team != team }) }
/-- R170, R212, R311: what a team held on its core is released. -/
def State.vacate (s : State) (n : Nat) : State :=
  let t := s.team n
  let core := t.coreKey
  let base := scrKey core t.base
  let claims := s.claims core n
  let inScr := fun (k : Nat) => decide (base ≤ k ∧ k < base + t.size)
  let inOp := fun (k : Nat) => decide (opKey core 0 ≤ k ∧ k < opKey core 294912) && claims.any fun c => c.1 == (k - opKey core 0) / 2304
  let c := s.core core
  ({ s with
    scratch := s.scratch.filter fun e => !inScr e.1
    opmem := s.opmem.filter fun e => !inOp e.1
    sramErr := s.sramErr.filter fun e => !(e.1 == 1 && inScr e.2) && !(e.1 == 3 && inOp e.2) } : State).setCore core
      { c with slots := c.slots.filter fun x => !claims.any fun y => y.1 == x.1, cbs := c.cbs.filter fun x => x.2.team != n }
/-- R214, R353: dirty bytes of a team's mapped lines are written back, and its lines are to be filled again. -/
def State.flushMaps (s : State) (n : Nat) : State :=
  let group := ((s.groupsOf n).head?.map (·.1)).getD 0
  let s := (s.team n).maps.foldl (fun s e => s.writeBack n e.1 (fun _ => true) 0 group 0 []) s
  s.setTeam n { s.team n with maps := (s.team n).maps.map fun (e : Nat × MapEnt) => (e.1, { e.2 with filled := [], dirty := [] }), fills := [] }
/-- R322, R352: a grid whose teams are all saved holds no lease. -/
def State.freeSaved (s : State) (grid : Nat) : State :=
  let g := s.grid grid
  if !g.formation && (s.teamsOf grid).all fun t => t.2.saved then s.dropLeases g else s
/-- R352, R353: the save of a team. -/
def State.saveTeam (s : State) (n : Nat) (full : Bool) : State :=
  let s := s.flushMaps n
  let image := s.imageOf n full
  let fs := (s.teamFrags n).map (·.1)
  let s := fs.foldl (fun s k => (s.release k).setFrag k ((s.release k).frag k).laidBy) s
  let s := ((s.unlist fun k => fs.contains k).unqueue n).vacate n
  (s.setTeam n { s.team n with saved := true, image := image }).freeSaved (s.team n).grid
/-- R352: a team that can be saved is. -/
def State.trySave (s : State) (n : Nat) : State :=
  let t := s.team n
  if s.holdsCore t && (s.grid t.grid).preempted.isSome && s.saveReady n false then s.saveTeam n false else s

/-! PREH (R111, R164) -/

/-- R95: a fragment's liveness entry by its index. -/
def State.liveEntry (s : State) (n i : Nat) : Option Live :=
  let f := s.frag n
  let r := (s.group f.group).rights
  match s.segOf r.part r.asid f.pc with
  | some seg => if i < min (fld seg 128 32) 4096 then s.liveAt seg i else none
  | none => none
/-- R111: what a liveness entry does not name becomes zero, exact and unpoisoned. -/
def Regs.applyLive (r : Regs) (L : Live) : Regs :=
  { r with
    v := r.v.filter fun e => decide (r.wbV.toNat ≤ e.1 ∧ e.1 < r.wbV.toNat + 64) && L.vmap.getLsbD (e.1 - r.wbV.toNat)
    s := r.s.filter fun e => decide (r.wbS.toNat ≤ e.1 ∧ e.1 < r.wbS.toNat + 61) && L.smap.getLsbD (e.1 - r.wbS.toNat)
    m := Vector.ofFn fun k : Fin 8 => if k.val = 0 ∨ L.m.getLsbD k.val then r.m[k] else 0x0#96 }
/-- R164, R352: the fragment at issue is saved at its PREH: it gives up its residency, and its team is saved when it is the last. -/
def State.savePoint (s : State) : State :=
  let f := s.f
  ((s.setF { f with pc := f.pc + 4, grp := none, pfx := none, held := false, counted := false, chain := false, park := false }).release s.cur).trySave (s.group f.group).team
/-- R164: PREH. -/
def execPreh (n : BitVec 12) (b : RegNum) (s : State) : Host.Outcome State Fault Refusal :=
  finish s (match s.liveEntry s.cur n.toNat with
    | none => .fault (faultOf 0x01#8)
    | some L => s.clean [.s b]
      (let s1 := (s.modRegs fun r => r.applyLive L).setG { s.g with preh := some ((s.sv b).setWidth 16) }
       if s.f.trap.isSome ∨ s.t.alive = false ∨ (s.grid s.t.grid).preempted = none then .done s1
       else parkThen s1 fun s2 =>
        let s3 := (s2.modRegs fun r => r.applyLive L).drainFrag s2.cur
        if s3.released s3.cur true then .away s3.savePoint else .hold s3))

/-! The scheduler -/

/-- R352: the grids of a request: a host grid with its descendants, or every grid of the partition. -/
def State.preemptSet (s : State) (part grid : Nat) : List Nat :=
  (s.grids.filter fun e => e.2.alive && e.2.part == part && (e.2.dispatched || e.2.formation) && !e.2.stopped && !(s.part part).shadow.contains e.1 &&
    (grid == 0 || ((s.grid grid).parent.isNone && s.descends 11 e.1 grid))).map (·.1)
/-- The live teams of grids. -/
def State.teamsIn (s : State) (ks : List Nat) : List Nat := (s.teams.filter fun t => s.holdsCore t.2 && ks.contains t.2.grid).map (·.1)
/-- R204: the walks that groups of grids have begun stop, whether or not the group has retired, each forming the group it has begun. -/
def State.haltWalks (s : State) (ks : List Nat) : State :=
  let gs := (s.groups.filter fun g => g.2.bob.state == .running && g.2.bob.cmd.any fun c => ks.contains c.byGrid).map (·.1)
  gs.foldl (fun s gn => match (s.group gn).bob.cmd with
    | some c => if c.pend = [] then s else (s.formGroup gn c).1.setBobCmd gn (s.formGroup gn c).2
    | none => s) s
/-- R322: a lease-table entry whose revocation is requested. -/
def State.revoke (s : State) (part : Nat) (ks : List Nat) : State :=
  let ids := ks.map fun k => (s.grid k).gridid.toNat
  { s with leases := s.leases.map fun (e : Nat × BitVec 256) =>
      (e.1, if e.1 / 4096 = part ∧ e.2.getLsbD 224 ∧ ids.contains (fld e.2 228 28) then e.2 ||| BitVec.twoPow 256 225 else e.2) }
/-- R352: PREEMPT_REQUEST. A descendant with no team placed has nothing to save: its pending launch, or the groups formed for it, wait with the team
that made them (R298, R204). -/
def execPreemptRequest (part grid : Nat) (s : State) : Host.Outcome State Fault Refusal :=
  let s1 := s.haltWalks (s.preemptSet part grid)
  let ks := s1.preemptSet part grid
  let s2 := { s1 with grids := s1.grids.map fun (e : Nat × Grid) =>
    (e.1, if ks.contains e.1 ∧ e.2.preempted = none ∧ s1.teamsIn [e.1] ≠ [] then { e.2 with preempted := some s1.clock } else e.2) }
  let s3 := s2.revoke part ks
  let ts := s3.teamsIn ks
  let fs := (ts.flatMap fun t => s3.teamFrags t).filter fun e => e.2.waits
  let s4 := { s3 with cores := s3.cores.map fun (c : Nat × Core) => (c.1, { c.2 with waits := c.2.waits.filter fun n => !fs.any fun e => e.1 == n }) }
  let s5 := fs.foldl (fun s e => s.drainFrag e.1) s4
  .next (if ks = [] then s else ts.foldl State.trySave s5)
/-- R354: whether a request is 50 µs old with a team that is not saved. -/
def State.overdue (s : State) (part : Nat) (e : Nat × Grid) : Bool :=
  e.2.alive && e.2.part == part && (match e.2.preempted with | some t => lasts (s.clock - t) 50000 | none => false) && !(s.teamsIn [e.1]).isEmpty
/-- R354: PREEMPT_ESCALATION: the grids are frozen, and each team is saved once its outstanding work is done. -/
def execPreemptEscalation (part : Nat) (s : State) : Host.Outcome State Fault Refusal :=
  let ks := (s.grids.filter (s.overdue part)).map (·.1)
  let p := s.part part
  let s1 := s.setPart part { p with held := p.held ++ ks.filter fun k => !p.held.contains k }
  let ts := s1.teamsIn ks
  let s2 := (ts.flatMap fun t => s1.teamFrags t).foldl (fun s e => s.drainFrag e.1) s1
  let s3 := ts.foldl (fun s t => if (s.teamFrags t).all fun e => s.stands e.1 then s.trySave t else if s.saveReady t true then s.saveTeam t true else s) s2
  .next (if ks = [] then s else s3.setPart part { s3.part part with held := (s3.part part).held.filter fun k => !(s3.teamsIn [k]).isEmpty })

/-! Restore (R355) -/

/-- R184, R294, R355: whether a core has what a saved team needs. -/
def State.restorable (s : State) (n core : Nat) : Bool :=
  let t := s.team n
  let g := s.grid t.grid
  let gs := s.groupsOf n
  t.alive && t.saved && !g.stopped && s.mayPlace t.grid && !(s.part g.part).freeze && s.coreOf g.part core && (s.fitAt core t.size).isSome &&
    decide (s.framesUsed core + (gs.map (·.2.ntiles)).foldl (· + ·) 0 ≤ 16) && decide (s.recordsUsed core + (s.teamFrags n).length ≤ s.records) &&
    (t.image.claims.all fun c => (s.core core).slots.get .free c.1 == .free) && (t.image.cbs.all fun c => ((s.core core).cbs.find c.1).isNone) &&
    (g.preempted.isNone || ((s.teamsIn [t.grid]).isEmpty && (g.formation || (s.leaseRoom g && s.leasesResident g))))
/-- R209: a context's rights as a restore rewrites them. -/
def State.renewed (s : State) (r : Rights) : Rights := { r with asgen := s.genOf r.asid }
/-- R355: what a team held on its core lies on the new one. -/
def State.unpack (s : State) (n core base : Nat) : State :=
  let t := s.team n
  let c := s.core core
  let b := scrKey core base
  { s with
    scratch := t.image.scr.foldl (fun m e => KMap.ins m (b + e.1) e.2) (s.scratch.filter fun e => decide (e.1 < b ∨ b + t.size ≤ e.1))
    opmem := t.image.slots.foldl (fun m e => KMap.ins m (opKey core e.1) e.2) s.opmem
    sramErr := s.sramErr ++ t.image.errs.map fun (e : Nat × Nat) => (e.1, if e.1 = 1 then b + e.2 else opKey core e.2)
    cores := s.cores.ins core { c with
      slots := t.image.claims.foldl (fun m x => KMap.ins m x.1 (SlotSt.claimed x.2)) c.slots
      cbs := t.image.cbs.foldl (fun m x => KMap.ins m x.1 x.2) c.cbs } }
/-- R204, R209, R355: the groups of a team at its new home, and their walks, of retired groups too. -/
def State.rehome (s : State) (n home : Nat) : State :=
  (s.groups.filter fun g => g.2.team == n && (g.2.alive || g.2.bob.state == .running)).foldl (fun s g =>
    let move := fun (c : BobCmd) => { c with home := home, rights := s.renewed c.rights }
    let s1 := s.setGroup g.1 { g.2 with home := home, rights := s.renewed g.2.rights, bob := { g.2.bob with cmd := g.2.bob.cmd.map move } }
    match g.2.bob.cmd with
    | some c =>
      let s2 := if c.grid = 0 then s1 else s1.setGrid c.grid { s1.grid c.grid with form := (s1.grid c.grid).form.map fun F => { F with home := home }, rights := s.renewed (s1.grid c.grid).rights }
      if g.2.bob.state = .running ∧ c.walked = false then s2.setHome home { s2.home home with bobbinQ := (s2.home home).bobbinQ ++ [g.1] } else s2
    | none => s1) s
/-- R308, R355: the commands of a team go on at its new core, from where they stopped. -/
def State.requeue (s : State) (n core : Nat) : State :=
  (s.cmds.filter fun c => c.2.alive && !c.2.done && c.2.team == n).foldl (fun s c =>
    let s1 := s.setCmd c.1 { c.2 with home := core / 256, core := core % 256, rights := s.renewed c.2.rights }
    match c.2.engine with
    | 0 => s1.setCore core { s1.core core with copyQ := (s1.core core).copyQ ++ [c.1] }
    | 1 => s1.setHome (core / 256) { s1.home (core / 256) with caravanQ := (s1.home (core / 256)).caravanQ ++ [c.1] }
    | _ => s1) s
/-- R165, R355: a saved fragment goes on where it stood: on its team's core, or at the home it had gone to. -/
def State.resume (s : State) (old core n : Nat) : State :=
  let f := s.frag n
  let f1 := if f.coreKey = old then { f with home := core / 256, core := core % 256 } else f
  let s1 := s.setFrag n f1
  match f1.state with
  | .ready => s1.acquire n
  | .transit dev home true => s1.newId.2.onEgress f1.coreKey fun ps => ps ++ [⟨n, dev, home, s1.newId.1, false, false, false⟩]
  | _ => s1
/-- R355: RESTORE. -/
def execRestore (team core : Nat) (s : State) : Host.Outcome State Fault Refusal :=
  let t := s.team team
  let g := s.grid t.grid
  let base := (s.fitAt core t.size).getD 0
  let s1 := if g.preempted.isSome && !g.formation then s.enterLeases g else s
  let s2 := (s1.setGrid t.grid { g with preempted := none }).unpack team core base
  let s3 := s2.setTeam team { t with
    home := core / 256, core := core % 256, base := base, pgen := t.pgen + 1, saved := false, image := TeamImage.none
    maps := t.maps.map fun (e : Nat × MapEnt) => (e.1, { e.2 with rights := s.renewed e.2.rights }) }
  let s4 := (s3.rehome team (core / 256)).requeue team core
  let s5 := s4.passTo g.part (s.tenantOf t.grid)
  .next (if s.restorable team core then (s5.teamFrags team).foldl (fun s e => s.resume t.coreKey core e.1) s5 else s)

/-! Freeze (R356) -/

/-- The partition of a fragment's group. -/
def State.fragPart (s : State) (n : Nat) : Nat := (s.group (s.frag n).group).rights.part
/-- Whether a message is work of a partition. -/
def State.msgOf (s : State) (part : Nat) (m : Msg) : Bool :=
  match m with
  | .store r => r.rights.part == part
  | .posted r => r.rights.part == part
  | .read r _ => r.rights.part == part
  | .ack os _ _ => os.any fun n => s.fragPart n == part
  | .data n _ _ _ => s.fragPart n == part
  | .split n _ _ _ => s.fragPart n == part
  | .parcel n _ _ => s.fragPart n == part
  | .xatom x => x.rights.part == part
/-- R313, R356: whether an engine command has come to its end, or can go on only when a frozen fragment does. -/
def State.cmdStill (s : State) (c : Cmd) : Bool :=
  c.done || c.bobbin || !s.holdsCore (s.team c.team) || (match s.reached c with | some e => s.cbHolds c e | none => false)
/-- R356: whether all the outstanding work of a partition has reached its destination. -/
def State.quiet (s : State) (part : Nat) : Bool :=
  let homes := s.homesOf part
  (s.frags.all fun e => !e.2.alive || s.fragPart e.1 != part || e.2.dev != s.fabric.toNat || s.setAside e.1 || s.atRest e.1) &&
    !(s.net.any (s.msgOf part)) && !(s.banks.any fun b => b.2.queue.any fun x => x.rights.part == part) &&
    !(s.remote.any fun r => fld (s.asEnt r.asid) 184 4 == part) &&
    (s.cmds.all fun c => !c.2.alive || c.2.rights.part != part || s.cmdStill c.2) &&
    !(homes.any fun h => match s.bobTurn h with | some g => (s.group g).rights.part == part | none => false) &&
    !(s.xars.any fun x => homes.contains (x.1 / 512) && !x.2.queue.isEmpty)

/-! The scan path (R356) -/

/-- R328: the 528 bytes of an array's calibration entry. -/
def Xar.calEntry (x : Xar) : List Byte :=
  leBytes 2 x.calGen.toNat ++ leBytes 2 x.calRef.toNat ++ List.replicate 12 0x00#8 ++ (List.range 128).flatMap fun j => leBytes 4 (x.cal.get 0 j).toNat
/-- R356: what the scan path shows of a partition while it is frozen: its fragments with their pending results, its groups with their tiles, and
of its homes the lines, queues, scratchpads, operand slots and calibration entries. It shows no key. -/
def State.scan (s : State) (part : Nat) : Option State :=
  let homes := s.homesOf part
  if (s.part part).frozen then some { State.reset with
    frags := s.frags.filter fun e => s.fragPart e.1 == part
    groups := s.groups.filter fun e => e.2.rights.part == part
    cores := s.cores.filter fun e => homes.contains (e.1 / 256)
    homes := s.homes.filter fun e => homes.contains e.1
    scratch := s.scratch.filter fun e => homes.contains (e.1 / 2 ^ 26)
    opmem := s.opmem.filter fun e => homes.contains (e.1 / 294912 / 256)
    banks := s.banks.filter fun e => homes.contains (e.1 / 128)
    xars := (s.xars.filter fun e => homes.contains (e.1 / 512)).map fun (e : Nat × Xar) =>
      (e.1, { Xar.fresh with calGen := e.2.calGen, calRef := e.2.calRef, cal := e.2.cal }) }
  else none

/-! Shadow swap (R357) -/

/-- A core's unit contents that a swap exchanges, and those that stay with the core. -/
def Core.swapIn (stays comes : Core) : Core := { comes with perf := stays.perf, tlb := stays.tlb, paths := stays.paths, epochs := stays.epochs, wc := stays.wc, icache := stays.icache, ahead := stays.ahead }
/-- The entries of two maps exchanged at the keys of some units. -/
def exchange {α : Type} (a b : KMap α) (mine : Nat → Bool) : KMap α × KMap α :=
  let put := fun (m : KMap α) (es : List (Nat × α)) => es.foldl (fun m e => KMap.ins m e.1 e.2) m
  (put (a.filter fun e => !mine e.1) (b.filter fun e => mine e.1), put (b.filter fun e => !mine e.1) (a.filter fun e => mine e.1))
/-- R357: the grids whose work is on a partition's live units. -/
def State.liveGrids (s : State) (part : Nat) : List Nat :=
  (s.grids.filter fun e => e.2.alive && e.2.part == part && (e.2.dispatched || e.2.formation || e.2.byTeam.isSome) &&
    !(s.part part).shadow.contains e.1).map (·.1)
/-- R357: the live and shadow copies of a partition's units are exchanged. -/
def State.swapUnits (s : State) (part : Nat) : State :=
  let p := s.part part
  let homes := s.homesOf part
  let mine := fun (k : Nat) => homes.contains (k / 256)
  let keys := ((s.cores.keys ++ s.shadows.cores.keys).filter mine).eraseDups
  let hk := ((s.homes.keys ++ s.shadows.homes.keys).filter fun h => homes.contains h).eraseDups
  let sh := fun (k : Nat) => s.shadows.cores.get Core.fresh k
  let scr := exchange s.scratch s.shadows.scratch fun k => mine (k / 2 ^ 18)
  let op := exchange s.opmem s.shadows.opmem fun k => mine (k / 294912)
  let here := fun (e : Nat × Nat) => (e.1 == 1 && mine (e.2 / 2 ^ 18)) || (e.1 == 3 && mine (e.2 / 294912))
  let out := s.liveGrids part
  let s1 := { s with
    cores := keys.foldl (fun m k => KMap.ins m k ((s.core k).swapIn (sh k))) s.cores
    homes := hk.foldl (fun m h => KMap.ins m h { s.home h with
      inbound := (s.shadows.homes.get HomeSt.fresh h).inbound, bobbinQ := (s.shadows.homes.get HomeSt.fresh h).bobbinQ }) s.homes
    scratch := scr.1
    opmem := op.1
    sramErr := s.sramErr.filter (fun e => !here e) ++ s.shadows.errs.filter here
    shadows := ⟨keys.foldl (fun m k => KMap.ins m k (Core.fresh.swapIn (s.core k))) s.shadows.cores,
      hk.foldl (fun m h => KMap.ins m h { HomeSt.fresh with inbound := (s.home h).inbound, bobbinQ := (s.home h).bobbinQ }) s.shadows.homes,
      scr.2, op.2, s.shadows.errs.filter (fun e => !here e) ++ s.sramErr.filter here⟩ }
  let s2 := s1.setPart part { p with shadow := out, swapping := false, frozen := p.freeze }
  match p.shadow with
  | k :: _ => s2.passTo part (s.tenantOf k)
  | [] => s2
/-- R356, R357: FREEZE_COMPLETE: a freeze is complete; a swap that waited for it is made, and its own freeze released. -/
def execFreezeComplete (part : Nat) (s : State) : Host.Outcome State Fault Refusal :=
  let p := s.part part
  .next (if s.quiet part = false then s
    else if p.swapping then s.swapUnits part
    else if p.freeze then s.setPart part { p with frozen := true }
    else s)

end Sys2Proof.Machine
end

