-- ==== Sys2Proof/Machine/HostSide.lean ====
section
/-! DEFINITION. The host link (R360 to R365), reset (R331), RESYNC (R363, R373, R374), the power manager (R375), boot and attestation
(R371, R372). -/

namespace Sys2Proof.Machine

/-! Partition control (R362, R365) -/

/-- R374: the enabled homes. -/
def State.enabledHomes (s : State) : BitVec 12 := BitVec.ofNat 12 (((List.range 12).filter fun h => (s.fuseOf h).home).map (2 ^ ·)).sum
/-- R362: the sets of two, three, four and six homes that a partition may hold. -/
def shapes : List (BitVec 12) :=
  [0x003#12, 0x00C#12, 0x030#12, 0x0C0#12, 0x300#12, 0xC00#12, 0x111#12, 0x222#12, 0x444#12, 0x888#12, 0x00F#12, 0x0F0#12, 0xF00#12, 0x333#12, 0xCCC#12]
/-- R362: whether a set of homes has a permitted shape, all its homes enabled. -/
def State.permits (s : State) (m : BitVec 12) : Bool :=
  m &&& ~~~s.enabledHomes == 0 &&
    (m == 0 || shapes.contains m || m == s.enabledHomes || (List.range 12).any fun h => m == BitVec.twoPow 12 h)
/-- R362: whether a set overlaps another enabled partition. -/
def State.overlaps (s : State) (part : Nat) (m : BitVec 12) : Bool :=
  (List.range 12).any fun q => q != part && (s.part q).en && (s.part q).homes &&& m != 0
/-- R365: whether a write's new set of homes is taken. -/
def State.homesOk (s : State) (part : Nat) (m : BitVec 12) : Bool := !(s.part part).en && s.permits m && !s.overlaps part m
/-- R365: whether a grid of a partition is running or saved. -/
def State.busyPart (s : State) (part : Nat) : Bool := s.grids.any fun g => g.2.alive && g.2.part == part && (g.2.dispatched || g.2.formation)

/-- PC.CTL fields of a written value (R365). -/
def ctlHomes (v : DWord) : BitVec 12 := v.extractLsb' 12 12
def ctlVf (v : DWord) : BitVec 4 := v.extractLsb' 24 4
def ctlAge (v : DWord) : BitVec 8 :=
  let a := v.extractLsb' 28 8
  if a = 0 then 1 else if 128 < a.toNat then 128 else a
/-- R1: the virtual functions of the part: ten on ordering code 2, the DPT9-L. -/
def State.functions (s : State) : Nat := if s.code = 2 then 10 else 12
/-- R365: PC.VF after a write: a number that no function has, or that another partition holds, is not taken. -/
def State.vfAfter (s : State) (part : Nat) (v : DWord) : BitVec 4 :=
  let n := ctlVf v
  if n = 0 then 0
  else if s.functions < n.toNat ∨ (List.range 12).any fun q => q != part && (s.part q).vf == n then (s.part part).vf
  else n
/-- R362, R365: PC.EN after a write, the write's homes taken. -/
def State.enAfter (s : State) (part : Nat) (v : DWord) (homes : BitVec 12) : Bool :=
  let p := s.part part
  if v.getLsbD 0 then p.en || (homes != 0 && !s.overlaps part homes) else p.en && s.busyPart part
/-- R314, R357: the write-combining lines of a partition drain. -/
def State.drainPart (s : State) (part : Nat) : State :=
  let homes := s.homesOf part
  (s.cores.filter fun c => homes.contains (c.1 / 256)).foldl (fun s c => c.2.wc.foldl (fun s l => s.drainLine c.1 l) s) s
/-- R272, R274: a partition takes homes, by a write that names them or that enables it with them: those that are new to it, or that another
partition has taken since, are erased, and every bank unit holds its handler table. -/
def State.takeHomes (s : State) (part : Nat) (m : BitVec 12) : State :=
  let mine := (List.range 12).filter fun h => m.getLsbD h
  let s1 := s.erase (mine.filter fun h => !(s.part part).homes.getLsbD h || (s.home h).owner != some part)
  let s2 := mine.foldl (fun s h => s.setHome h { s.home h with owner := some part }) s1
  let t := (s.part part).handlers
  let behind := mine.flatMap fun h => ((List.range 128).map fun u => 128 * h + u).filter fun u => (s.bank u).table != t || (s.bank u).pending.isSome
  behind.foldl (fun s u => s.setBank u { s.bank u with table := t, pending := none }) s2
/-- R365: a write of PC.CTL that is not refused. -/
def State.setCtl (s : State) (part : Nat) (v : DWord) : State :=
  let p := s.part part
  let m := ctlHomes v
  let en := s.enAfter part v m
  let s1 := if m = p.homes ∧ (p.en ∨ en = false) then s else s.takeHomes part m
  let p1 := { s1.part part with
    ovt := v.extractLsb' 36 16
    wcAge := ctlAge v
    vf := s.vfAfter part v
    homes := m
    badshape := if m = p.homes then p.badshape else false
    swapping := p.swapping || v.getLsbD 3
    freeze := v.getLsbD 1
    frozen := p.frozen && v.getLsbD 1
    en := en }
  let s2 := s1.setPart part p1
  if v.getLsbD 3 then s2.drainPart part else s2
/-- R365: a write of PC.CTL. -/
def State.writeCtl (s : State) (part : Nat) (v : DWord) : State :=
  let p := s.part part
  if 12 ≤ part then s
  else if ctlHomes v ≠ p.homes ∧ s.homesOk part (ctlHomes v) = false then s.setPart part { p with badshape := true }
  else s.setCtl part v

/-- R365: PC_HOMES_WRITE. -/
def execPcHomesWrite (part : Nat) (value : DWord) (s : State) : Host.Outcome State Fault Refusal :=
  .next (if ctlHomes value = (s.part part).homes then s else s.writeCtl part value)
/-- R365: PC_EN_SET. -/
def execPcEnSet (part : Nat) (value : DWord) (s : State) : Host.Outcome State Fault Refusal :=
  .next (if value.getLsbD 0 then s.writeCtl part value else s)
/-- R365: PC_EN_CLEAR. -/
def execPcEnClear (part : Nat) (value : DWord) (s : State) : Host.Outcome State Fault Refusal :=
  .next (if value.getLsbD 0 then s else s.writeCtl part value)
/-- R365: PC_VF_WRITE. -/
def execPcVfWrite (part : Nat) (value : DWord) (s : State) : Host.Outcome State Fault Refusal :=
  .next (if ctlVf value = (s.part part).vf then s else s.writeCtl part value)
/-- R356, R365: PC_FREEZE_SET. -/
def execPcFreezeSet (part : Nat) (value : DWord) (s : State) : Host.Outcome State Fault Refusal :=
  .next (if value.getLsbD 1 then s.writeCtl part value else s)
/-- R356, R365: PC_FREEZE_RELEASE. -/
def execPcFreezeRelease (part : Nat) (value : DWord) (s : State) : Host.Outcome State Fault Refusal :=
  .next (if value.getLsbD 1 then s else s.writeCtl part value)
/-- R357, R365: SHADOW_SWAP: the swap is made when its freeze is complete (FREEZE_COMPLETE). -/
def execShadowSwap (part : Nat) (value : DWord) (s : State) : Host.Outcome State Fault Refusal :=
  .next (if value.getLsbD 3 then s.writeCtl part value else s)

/-! Tables written through partition control (R364) -/

/-- R325: whether two segments of one address space overlap. -/
def segsMeet (a b : BitVec 256) : Bool :=
  a.getLsbD 0 && b.getLsbD 0 && fld a 48 16 == fld b 48 16 &&
    decide (fld a 192 64 < fld b 192 64 + fld b 160 32 ∧ fld b 192 64 < fld a 192 64 + fld a 160 32)
/-- R364: an entry is committed to the address-space or code-segment table, or ignored; with a segment's entry the instruction caches of the
partition's cores are emptied (R20). -/
def State.commitEntry (s : State) (part : Nat) (tidx : DWord) (e : BitVec 256) : State :=
  let i := fld tidx 0 16
  if tidx.getLsbD 63 then
    let asid := fld e 48 16
    let other := s.segs.any fun x => x.1 / 1024 == part && x.1 != 1024 * part + i && segsMeet x.2 e
    if 1024 ≤ i ∨ (s.asEnt asid).getLsbD 191 = false ∨ fld (s.asEnt asid) 184 4 ≠ part ∨ other then s
    else ({ s with segs := s.segs.put 0 (1024 * part + i) e } : State).dropCode (s.coreOf part)
  else if fld e 184 4 ≠ part then s
  else { s with asTab := s.asTab.put 0 i e }
/-- R364: PC_TDATA_COMMIT: the last 8 bytes of PC.TDATA are written and the entry is committed. -/
def execPcTdataCommit (part : Nat) (value : DWord) (s : State) : Host.Outcome State Fault Refusal :=
  let p := s.part part
  let e : BitVec 256 := value ++ p.tdata.extractLsb' 0 192
  .next (if 12 ≤ part then s else (s.setPart part { p with tdata := e }).commitEntry part p.tidx e)

/-! The mailbox (R363, R373, R374) -/

/-- R361: an MSI-X message of the physical function. -/
def State.msixPf (s : State) (vector : Nat) : State := { s with hostOut := s.hostOut ++ [.msix 0 vector] }
/-- R363: a command written to MB.CMD: RESYNC starts, another code completes with status 3; while a command runs, it is refused. -/
def State.mailbox (s : State) (v : DWord) : State :=
  if s.mbStat = 1 then { s with mbRefused := true }
  else if fld v 0 8 = 1 then { s with mbCmd := v, mbStat := 1 }
  else ({ s with mbCmd := v, mbStat := 3 } : State).msixPf 2
/-- R363: MAILBOX_UNKNOWN. -/
def execMailboxUnknown (code : BitVec 8) (s : State) : Host.Outcome State Fault Refusal :=
  .next (if code = 0x01#8 then s else s.mailbox (code.setWidth 64))

/-- R365: PC.CTL as it reads. -/
def Part.ctl (p : Part) : DWord :=
  0x000#12 ++ p.ovt ++ p.wcAge ++ p.vf ++ p.homes ++ 0x00#7 ++ BitVec.ofBool p.badshape ++ 0x0#1 ++ BitVec.ofBool p.frozen ++ BitVec.ofBool p.freeze ++ BitVec.ofBool p.en
/-- R288: bits [63:0] of a queue's set. -/
def Lq.low (q : Lq) : DWord :=
  q.asid ++ 0x000#12 ++ q.part ++ q.fn ++ 0x0#2 ++ q.prio ++ 0x0#3 ++ q.log2 ++ 0x0000#15 ++ BitVec.ofBool q.en
/-- R373: grids of a partition, running or saved. -/
def State.gridCount (s : State) (part : Nat) (saved : Bool) : Nat :=
  (s.grids.filter fun g => g.2.alive && g.2.part == part && (g.2.dispatched || g.2.formation) &&
    ((!(s.teamsOf g.1).isEmpty && (s.teamsOf g.1).all fun t => t.2.saved) == saved)).length
/-- R373: a partition's record. -/
def State.partRecord (s : State) (k : Nat) : List Byte :=
  let p := s.part k
  ([p.ctl, p.trapent, p.eqbase, p.eqhead, p.eqtail].flatMap fun x => leBytes 8 x.toNat) ++
    ([p.written, p.dropped, s.gridCount k false, s.gridCount k true].flatMap fun n => leBytes 4 n) ++ List.replicate 8 0x00#8
/-- R373: a home's record; its layout is left open (log 12). -/
def State.homeRec (s : State) (h : Nat) : List Byte :=
  let cmds := fun (k : Nat) => (s.cmds.filter fun c => c.2.alive && !c.2.done && c.2.engine == k && c.2.home == h).length
  if (s.fuseOf h).home = false then List.replicate 16 0x00#8
  else leBytes 16 (Config.homeRecord (cmds 0) (cmds 1) (s.bobHeld h) (s.home h).inbound.length
    (s.home h).dramErrs (s.home h).sramErrs).toNat
/-- R374: a home's record of the fuse map. -/
def Fuse.record (u : Fuse) : List Byte :=
  [if u.home then 0x01#8 else 0x00#8] ++ leBytes 32 u.cores.toNat ++ leBytes 2 u.vaults.toNat ++ leBytes 64 u.arrays.toNat ++ leBytes 2 u.ports.toNat ++
    [u.remap] ++ List.replicate 26 0x00#8
/-- R374: the fuse map. -/
def State.fuseMap (s : State) : List Byte := ((List.range 12).flatMap fun h => (s.fuseOf h).record) ++ List.replicate 512 0x00#8
/-- R373: the summary. The layout of a lease entry is that of R322; which entries of the partitions' tables its one section shows is left open
(log 12). -/
def State.summary (s : State) : List Byte :=
  let header : BitVec 512 := BitVec.ofNat 512 (1 + s.fabric.toNat * 2 ^ 16 + s.code.toNat * 2 ^ 28 + 0xB1000 * 2 ^ 32 + (Config.firstResync + s.resyncs).toNat * 2 ^ 64)
  leBytes 64 header.toNat ++ ((List.range 12).flatMap s.partRecord) ++
    ((List.range 64).flatMap fun k => let q := s.lq k; leBytes 8 q.low.toNat ++ leBytes 4 q.head.toNat ++ leBytes 4 q.tail.toNat) ++
    ((List.range 12).flatMap s.homeRec) ++ s.fuseMap ++
    ((List.range 4096).flatMap fun k => leBytes 32 (s.leases.get 0 (Config.leaseAt (s.leases.map (·.1)) k)).toNat) ++ ((List.range 4096).flatMap fun k => leBytes 16 (s.keyTab.get 0 k).toNat) ++
    ((List.range 65536).flatMap fun a => let e := s.asEnt a
      leBytes 8 (fld e 224 32 + fld e 208 12 * 2 ^ 32 + fld e 184 4 * 2 ^ 56 + fld e 191 1 * 2 ^ 63))
/-- R363: whether MB.ADDR names a buffer: 4 KiB-aligned, in an enabled home, and long enough. -/
def State.mbAddrOk (s : State) : Bool :=
  fld s.mbAddr 0 12 == 0 && fld s.mbAddr 36 24 == 0 && (s.fuseOf (fld s.mbAddr 60 4)).home && decide (fld s.mbAddr 60 4 < 12 ∧ fld s.mbAddr 0 36 + 0xB1000 ≤ 2 ^ 36)
/-- R363, R373: RESYNC: the command that runs writes the summary and ends. -/
def execResync (s : State) : Host.Outcome State Fault Refusal :=
  let ok := s.mbAddrOk
  let s1 := if ok then s.writeMem (cellsAt (dramKey (fld s.mbAddr 60 4) (fld s.mbAddr 0 36)) s.summary) else s
  .next (if s.mbStat = 1 then
      ({ s1 with mbStat := if s.mbRefused then 4 else if ok then 2 else 3, mbRefused := false, resyncs := if ok then s.resyncs + 1 else s.resyncs } : State).msixPf 2
    else s)

/-! Registers in BAR0 (R361, R364) -/

/-- R364: PC.EQCFG as it is stored. -/
def eqLog (v : DWord) : BitVec 5 :=
  let n := fld v 0 5
  if n = 0 then 0 else if n < 5 then 5 else if 20 < n then 20 else BitVec.ofNat 5 n
/-- R364: a write of PC.EQHEAD; what was lost is reported when room frees (R348). -/
def State.setEqHead (s : State) (part : Nat) (v : DWord) : State := (s.setPart part { s.part part with eqhead := v }).reportLost part
/-- R364: a register of a partition control set. -/
def State.writePart (s : State) (part off : Nat) (v : DWord) : State :=
  let p := s.part part
  match off with
  | 0x000 => s.writeCtl part v
  | 0x008 => s.setPart part { p with trapent := v &&& ~~~0x3#64 }
  | 0x010 => s.setPart part { p with eqbase := v &&& 0xF000000FFFFFFFE0#64 }
  | 0x018 => s.setPart part { p with eqlog := eqLog v }
  | 0x020 => s.setEqHead part v
  | 0x100 => s.setPart part { p with tidx := v &&& 0x800000000000FFFF#64 }
  | 0x120 => s.setPart part { p with tdata := p.tdata.extractLsb' 64 192 ++ v }
  | 0x128 => s.setPart part { p with tdata := p.tdata.extractLsb' 128 128 ++ v ++ p.tdata.extractLsb' 0 64 }
  | 0x130 => s.setPart part { p with tdata := p.tdata.extractLsb' 192 64 ++ v ++ p.tdata.extractLsb' 0 128 }
  | 0x138 => match execPcTdataCommit part v s with | .next t => t | _ => s
  | _ => s
/-- R288: the low word of a queue's set: LQ.EN at any time, the rest while the queue is not enabled. -/
def Lq.writeLow (q : Lq) (v : DWord) : Lq :=
  if q.en then { q with en := v.getLsbD 0 }
  else { q with
    asid := v.extractLsb' 48 16
    part := v.extractLsb' 32 4
    fn := v.extractLsb' 28 4
    prio := v.extractLsb' 24 2
    log2 := if 16 < fld v 16 5 then 16 else v.extractLsb' 16 5
    en := v.getLsbD 0 }
/-- R288, R361: a register of a launch queue's set. -/
def State.writeLq (s : State) (queue off : Nat) (v : DWord) : State :=
  let q := s.lq queue
  match off with
  | 0 => s.setLq queue (q.writeLow v)
  | 8 => if q.en then s else s.setLq queue { q with base := v }
  | 16 => match execLqTailDoorbell 0 queue (v.extractLsb' 32 32) s with | .next t => t | _ => s
  | 20 => match execLqTailDoorbell 0 queue (v.extractLsb' 0 32) s with | .next t => t | _ => s
  | _ => s
/-- R361, R363: a register of the mailbox. -/
def State.writeMailbox (s : State) (off : Nat) (v : DWord) : State :=
  match off with
  | 0 => s.mailbox v
  | 8 => { s with mbAddr := v }
  | _ => s
/-- R369: whether a register of device control is an entry of a share table, 64 for each of 144 ports and 48 lateral links (log 13). -/
def shareReg (off : Nat) : Bool := decide (0x2000 ≤ off ∧ off < 0x2000 + 512 * 192 ∧ off % 8 = 0)
/-- R369: the weight of a tenant on a link: 1 where the link's table has no entry of it. -/
def State.weightOn (s : State) (link : Nat) (tenant : BitVec 12) : Nat :=
  (((s.shares.filter fun e => e.1 / 64 == link && e.2.1 == tenant).getLast?).map fun e => e.2.2.toNat).getD 1
/-- R361, R366, R369, R375: device control. The spec names its registers and gives no offsets: these are the model's (log 13): 0 the
fabric number, 8 the base of BAR2's window, 0x1000 + 32 · home the home's budgets, 0x2000 + 512 · link + 8 · entry the share tables, the
links being ports 0 to 143 and from 144 on the four lateral links of each home; a weight of 0, which no entry has, is not taken. Budgets stay
within the power cap, whose credits are left open (log 63). -/
def State.writeDevice (s : State) (off : Nat) (v : DWord) : State :=
  if off = 0 then { s with fabric := v.setWidth 12 }
  else if off = 8 then { s with window := fld v 60 4 }
  else if 0x1000 ≤ off ∧ off < 0x1180 then
    let k := (off - 0x1000) / 32
    let h := s.home k
    match off % 32 with
    | 0 => s.setHome k { h with maxPass := 2 * min v.toNat (Config.capBudget s.code 0) }
    | 8 => s.setHome k { h with maxProd := min v.toNat (Config.capBudget s.code 1) }
    | 16 => s.setHome k { h with maxSettle := min v.toNat (Config.capBudget s.code 2) }
    | 24 => s.setHome k { h with maxCompute := min v.toNat (Config.capBudget s.code 3) }
    | _ => s
  else if shareReg off ∧ v.setWidth 8 ≠ 0x00#8 then { s with shares := s.shares.put (0, 0) ((off - 0x2000) / 8) (v.extractLsb' 8 12, v.setWidth 8) }
  else s
/-- R361: a write of a BAR0 register: of the physical function, or of a virtual function, which reaches its doorbells and PC.EQHEAD. -/
def State.writeBar0 (s : State) (fn off : Nat) (v : DWord) : State :=
  if fn = 0 then
    if off < 0x100000 then s.writeDevice off v
    else if off < 0x100000 + 2048 then s.writeLq ((off - 0x100000) / 32) ((off - 0x100000) % 32) v
    else if 0x200000 ≤ off ∧ off < 0x200000 + 12 * 4096 then s.writePart ((off - 0x200000) / 4096) ((off - 0x200000) % 4096) v
    else if 0x300000 ≤ off ∧ off < 0x300018 then s.writeMailbox (off - 0x300000) v
    else s
  else if off < 512 ∧ off % 8 = 0 then
    match execLqTailDoorbell fn (off / 8) (v.setWidth 32) s with | .next t => t | _ => s
  else if off = 0x1000 then
    match (List.range 12).find? fun p => (s.part p).vf.toNat == fn with
    | some p => s.setEqHead p v
    | none => s
  else s
/-- R1, R7, R361: REGISTER_WRITE, by a function of the part. -/
def execRegisterWrite (fn offset : Nat) (value : DWord) (s : State) : Host.Outcome State Fault Refusal :=
  .next (if s.functions < fn then s else s.writeBar0 fn offset value)

/-- R361, R366, R375: what a register of device control reads as (log 13). -/
def State.readDevice (s : State) (off : Nat) : DWord :=
  if off = 0 then s.fabric.setWidth 64
  else if off = 8 then BitVec.ofNat 64 (s.window * 2 ^ 60)
  else if 0x1000 ≤ off ∧ off < 0x1180 then
    let h := s.home ((off - 0x1000) / 32)
    match off % 32 with
    | 0 => BitVec.ofNat 64 (h.maxPass / 2)
    | 8 => BitVec.ofNat 64 h.maxProd
    | 16 => BitVec.ofNat 64 h.maxSettle
    | 24 => BitVec.ofNat 64 h.maxCompute
    | _ => 0
  else if shareReg off then
    let e := s.shares.get (0, 0) ((off - 0x2000) / 8)
    BitVec.ofNat 64 (e.2.toNat + 256 * e.1.toNat)
  else 0
/-- R7, R364, R365: what a register of a partition control set reads as: PC.TDATA, like PC.SWAP, is written only and reads 0. -/
def State.readPart (s : State) (part off : Nat) : DWord :=
  let p := s.part part
  match off with
  | 0x000 => p.ctl
  | 0x008 => p.trapent
  | 0x010 => p.eqbase
  | 0x018 => p.eqlog.setWidth 64
  | 0x020 => p.eqhead
  | 0x028 => p.eqtail
  | 0x100 => p.tidx
  | _ => 0
/-- R7, R288, R361: what a register of a launch queue's set reads as. -/
def Lq.read (q : Lq) (off : Nat) : DWord :=
  match off with
  | 0 => q.low
  | 8 => q.base
  | 16 => q.tail ++ q.head
  | _ => 0
/-- R7, R361 to R365: what a read of a BAR0 register returns to a function: a virtual function reads LQ.TAIL of its queues, and PC.EQHEAD and
PC.EQTAIL of its partition. -/
def State.readBar0 (s : State) (fn off : Nat) : DWord :=
  if fn = 0 then
    if off < 0x100000 then s.readDevice off
    else if off < 0x100000 + 2048 then (s.lq ((off - 0x100000) / 32)).read ((off - 0x100000) % 32)
    else if 0x200000 ≤ off ∧ off < 0x200000 + 12 * 4096 then s.readPart ((off - 0x200000) / 4096) ((off - 0x200000) % 4096)
    else if off = 0x300000 then s.mbCmd
    else if off = 0x300008 then s.mbAddr
    else if off = 0x300010 then s.mbStat
    else 0
  else if off < 512 ∧ off % 8 = 0 then
    let q := s.lq (off / 8)
    if q.fn.toNat = fn then q.tail.setWidth 64 else 0
  else
    match (List.range 12).find? fun p => (s.part p).vf.toNat == fn with
    | some p => if off = 0x1000 then (s.part p).eqhead else if off = 0x1008 then (s.part p).eqtail else 0
    | none => 0

/-! BAR2 (R361, R218) -/

/-- R361: whether bytes lie in BAR2's window, in an enabled home. -/
def State.inWindow (s : State) (home addr n : Nat) : Bool :=
  home == s.window && decide (home < 12 ∧ addr + n ≤ 2 ^ 36) && (s.fuseOf home).home
/-- R218, R361: HOST_WRITE: a write that covers part of a unit in error is discarded. -/
def execHostWrite (home addr : Nat) (bytes : List Byte) (s : State) : Host.Outcome State Fault Refusal :=
  let cells := cellsAt (dramKey home addr) bytes
  .next (if s.inWindow home addr bytes.length ∧ s.badUnits cells = [] then s.writeMem cells else s)
/-- R218, R361: HOST_READ. -/
def execHostRead (home addr count : Nat) (s : State) : Host.Outcome State Fault Refusal :=
  let key := dramKey home addr
  .next (if s.inWindow home addr count then
      { s with hostOut := s.hostOut ++ [.read (s.bytesIn .dram key count) ((List.range count).filter fun i => s.readErr (key + i) 1)] }
    else s)

/-! Reset, power and temperature -/

/-- R331, R338: DEVICE_RESET: what is fused, the images and the write counts of arrays stay; so does what is outside the device. -/
def execDeviceReset (s : State) : Host.Outcome State Fault Refusal :=
  .next { State.reset with
    xars := (s.xars.filter fun x => x.2.writes != 0).map fun (x : Nat × Xar) => (x.1, { Xar.fresh with writes := x.2.writes })
    fuse := s.fuse
    code := s.code
    image := s.image
    stage := s.stage
    secVersion := s.secVersion
    keyHash := s.keyHash
    rollback := s.rollback
    records := s.records
    hostOut := s.hostOut
    fabIn := s.fabIn
    fabOut := s.fabOut
    agenda := s.agenda
    pace := s.pace
    free := s.free }
/-- R28, R375: POWER_CREDIT_WINDOW: a home's credits for the next microsecond. -/
def execPowerCreditWindow (home : Nat) (s : State) : Host.Outcome State Fault Refusal :=
  let h := s.home home
  .next (if 12 ≤ home then s
    else s.setHome home { h with credPass := s.budget h.maxPass, credProd := s.budget h.maxProd, credSettle := s.budget h.maxSettle })
/-- R375: THERMAL_THROTTLE: 105 °C. -/
def execThermalThrottle (s : State) : Host.Outcome State Fault Refusal := .next (if s.thermal = .normal then { s with thermal := .throttled } else s)
/-- R375: THERMAL_RESTORE: below 100 °C. -/
def execThermalRestore (s : State) : Host.Outcome State Fault Refusal := .next (if s.thermal = .throttled then { s with thermal := .normal } else s)
/-- R375: THERMAL_TRIP: 115 °C. -/
def execThermalTrip (s : State) : Host.Outcome State Fault Refusal := .next { s with thermal := .tripped }

/-! Boot and attestation (R371, R372) -/

/-- R371: ROOT_BOOT: an image whose signature verifies against the fused key hash, and whose security version is not below the fuse counter, runs:
the update stage or the service firmware, each in place of the one before it. -/
def execRootBoot (image : Nat) (s : State) : Host.Outcome State Fault Refusal :=
  .next (if Config.imageOk s.keyHash image ∧ s.rollback.toNat ≤ (Config.imageVersion image).toNat then
      if Config.isStage image then { s with stage := image } else { s with image := image, secVersion := Config.imageVersion image }
    else s)
/-- R372: the responder answers request `k` with argument `x`. -/
def State.attest (s : State) (k x : Nat) : State :=
  { s with hostOut := s.hostOut ++ [.spdm k (Config.spdm k x s.image s.secVersion s.free)], free := s.free + 1 }
/-- R372: GET_VERSION. -/
def execGetVersion (s : State) : Host.Outcome State Fault Refusal := .next (s.attest 0 0)
/-- R372: GET_CAPABILITIES. -/
def execGetCapabilities (s : State) : Host.Outcome State Fault Refusal := .next (s.attest 1 0)
/-- R372: NEGOTIATE_ALGORITHMS. -/
def execNegotiateAlgorithms (s : State) : Host.Outcome State Fault Refusal := .next (s.attest 2 0)
/-- R372: GET_DIGESTS. -/
def execGetDigests (s : State) : Host.Outcome State Fault Refusal := .next (s.attest 3 0)
/-- R372: GET_CERTIFICATE. -/
def execGetCertificate (s : State) : Host.Outcome State Fault Refusal := .next (s.attest 4 0)
/-- R372: CHALLENGE. -/
def execChallenge (nonce : Nat) (s : State) : Host.Outcome State Fault Refusal := .next (s.attest 5 nonce)
/-- R372: the value of a measurement: the digests of the root image, the service firmware and the fuse map, and the security version. -/
def State.measurement (s : State) (index : Nat) : BitVec 256 :=
  match index with
  | 1 => Config.rootDigest
  | 2 => Config.imageDigest s.image
  | 3 => Config.sha3 s.fuseMap
  | _ => s.secVersion.setWidth 256
/-- R372: GET_MEASUREMENTS: of index 1 to 4. -/
def execGetMeasurements (index : Nat) (s : State) : Host.Outcome State Fault Refusal :=
  .next (if 1 ≤ index ∧ index ≤ 4 then
      { s with hostOut := s.hostOut ++ [.measured index (s.measurement index) (Config.spdm 6 index s.image s.secVersion s.free)], free := s.free + 1 }
    else s)

end Sys2Proof.Machine
end

