-- ==== Sys2Proof/Machine/Alu.lean ====
section
/-! DEFINITION. Integer arithmetic of R117 to R119 on w-bit values, and the operand forms of the integer words: scalar
words of 64 and 32 bits and vector words of 32, 16 and 8 bits, with their extension classes (R115) and tags (R116). -/

namespace Sys2Proof.Machine

/-- R117: the high half of the signed product. -/
def mulHighI {w : Nat} (a b : BitVec w) : BitVec w := BitVec.ofInt w (a.toInt * b.toInt / 2 ^ w)
/-- R117: the high half of the natural product. -/
def mulHighN {w : Nat} (a b : BitVec w) : BitVec w := BitVec.ofNat w (a.toNat * b.toNat / 2 ^ w)
/-- R118: signed division, truncating; division by zero gives −1. -/
def divI {w : Nat} (a b : BitVec w) : BitVec w := if b = 0 then BitVec.allOnes w else a.sdiv b
/-- R118: natural division; division by zero gives all ones. -/
def divN {w : Nat} (a b : BitVec w) : BitVec w := if b = 0 then BitVec.allOnes w else a / b
/-- R118: signed remainder, of the dividend's sign; by zero the dividend. -/
def remI {w : Nat} (a b : BitVec w) : BitVec w := if b = 0 then a else a.srem b
/-- R118: natural remainder; by zero the dividend. -/
def remN {w : Nat} (a b : BitVec w) : BitVec w := if b = 0 then a else a % b
/-- R117: the lesser and the greater, signed and natural. -/
def minI {w : Nat} (a b : BitVec w) : BitVec w := if a.sle b then a else b
def minN {w : Nat} (a b : BitVec w) : BitVec w := if a.ule b then a else b
def maxI {w : Nat} (a b : BitVec w) : BitVec w := if a.sle b then b else a
def maxN {w : Nat} (a b : BitVec w) : BitVec w := if a.ule b then b else a
/-- R117: magnitude; the most negative value gives itself. -/
def absI {w : Nat} (a : BitVec w) : BitVec w := if a.msb then -a else a
/-- R119: shifts and rotation by a natural amount. -/
def shlN {w : Nat} (a : BitVec w) (n : Nat) : BitVec w := if w ≤ n then 0 else a <<< n
def shrN {w : Nat} (a : BitVec w) (n : Nat) : BitVec w := if w ≤ n then 0 else a >>> n
def sarN {w : Nat} (a : BitVec w) (n : Nat) : BitVec w := if w ≤ n then (if a.msb then BitVec.allOnes w else 0) else a.sshiftRight n
def rotN {w : Nat} (a : BitVec w) (n : Nat) : BitVec w := (a <<< (n % w)) ||| (a >>> (w - n % w))
/-- R119: the amount of a register shift, and position and length of a bit field. An operand of 8 bits (R115) has no bits [15:8]: its length
is 0 (DEDUCED, log 62). -/
def shAmt {w : Nat} (b : BitVec w) : Nat := b.toNat % 256
def bfLen {w : Nat} (b : BitVec w) : Nat := b.toNat / 256 % 256
/-- The `t` low bits of a word, ones. -/
def ones (w t : Nat) : BitVec w := BitVec.ofNat w (2 ^ t - 1)
/-- R119: BFX, natural and signed. -/
def bfxN {w : Nat} (a b : BitVec w) : BitVec w := shrN a (shAmt b) &&& ones w (min (bfLen b) w)
def bfxI {w : Nat} (a b : BitVec w) : BitVec w :=
  let t := min (bfLen b) w
  let r := bfxN a b
  if 0 < t ∧ r.getLsbD (t - 1) then r ||| ~~~(ones w t) else r
/-- R119: BFI. -/
def bfi {w : Nat} (a b c : BitVec w) : BitVec w :=
  let m := shlN (ones w (min (bfLen b) w)) (shAmt b)
  (c &&& ~~~m) ||| (shlN a (shAmt b) &&& m)
/-- R117: set bits, leading zeros, bit reversal. -/
def popc {w : Nat} (a : BitVec w) : BitVec w := BitVec.ofNat w ((List.range w).filter fun i => a.getLsbD i).length
def clz {w : Nat} (a : BitVec w) : BitVec w := BitVec.ofNat w (if a = 0 then w else w - 1 - Nat.log2 a.toNat)
def brev {w : Nat} (a : BitVec w) : BitVec w :=
  BitVec.ofNat w ((List.range w).foldl (fun n i => 2 * n + (a.getLsbD i).toNat) 0)
/-- R117: LEA with k = 2^n. -/
def lea {w : Nat} (a b : BitVec w) (n : Nat) : BitVec w := a + b * BitVec.ofNat w (2 ^ n)

/-- R115: extension of a w-bit result, by sign or by zero. -/
def ext {w : Nat} (sx : Bool) (n : Nat) (x : BitVec w) : BitVec n := if sx then x.signExtend n else x.setWidth n

/-- R115: the low w bits of a scalar source. -/
def State.slo (s : State) (w : Nat) (n : RegNum) : BitVec w := (s.sv n).setWidth w

/-- R103, R115, R116: a scalar integer word: sources checked for poison, its w-bit result extended to 64 bits, its tag that of
its sources. -/
def intS (s : State) {w : Nat} (sx : Bool) (d : RegNum) (srcs : List RegNum) (x : BitVec w) : Act :=
  s.clean (srcs.map Src.s) (.done (s.wrS d (ext sx 64 x) (s.bndOf (srcs.map Src.s))))

/-- R115: the width of majors 0x08 to 0x0B. -/
def vw (w : BitVec 2) : Nat := if w = 0x1#2 then 16 else if w = 0x2#2 then 8 else 32
/-- The b operand of majors 0x08 to 0x0B: a vector, or in 0x0B a scalar. -/
def bSrc (s : State) (w : BitVec 2) (b : RegNum) : Src := if w = 0x3#2 then .s b else .v b s.eff
/-- A lane of the b operand. -/
def bLane (s : State) (w : BitVec 2) (b : RegNum) (l : Nat) : Word := if w = 0x3#2 then (s.sv b).setWidth 32 else s.vl b l
/-- The low bits of a lane, at the word's width. -/
def lo (w : BitVec 2) (x : Word) : BitVec (vw w) := x.setWidth (vw w)

/-- R116: a vector integer word of one source. -/
def intV1 (s : State) (w : BitVec 2) (sx : Bool) (d a : RegNum) (op : {n : Nat} → BitVec n → BitVec n) : Act :=
  s.clean [.v a s.eff] (.done (s.wrV d (fun l => ext sx 32 (op (lo w (s.vl a l)))) (s.bndOf [.v a s.eff])))
/-- R116: a vector integer word of two sources. -/
def intV2 (s : State) (w : BitVec 2) (sx : Bool) (d a b : RegNum) (op : {n : Nat} → BitVec n → BitVec n → BitVec n) : Act :=
  s.clean [.v a s.eff, bSrc s w b]
    (.done (s.wrV d (fun l => ext sx 32 (op (lo w (s.vl a l)) (lo w (bLane s w b l)))) (s.bndOf [.v a s.eff, bSrc s w b])))
/-- R66, R116: a vector integer word of three sources. -/
def intV3 (s : State) (w : BitVec 2) (sx : Bool) (d a b : RegNum) (op : {n : Nat} → BitVec n → BitVec n → BitVec n → BitVec n) : Act :=
  let c := s.third d
  s.clean [.v a s.eff, bSrc s w b, .v c s.eff]
    (.done (s.wrV d (fun l => ext sx 32 (op (lo w (s.vl a l)) (lo w (bLane s w b l)) (lo w (s.vl c l)))) (s.bndOf [.v a s.eff, bSrc s w b, .v c s.eff])))

/-- R120: scalar ICMP at width `w`. -/
def icmpS (s : State) (w : Nat) (k : BitVec 3) (d a b : RegNum) : Act :=
  s.clean [.s a, .s b]
    (.done ((s.wrS d (if icmpCond k (s.slo w a) (s.slo w b) then 1 else 0) (s.bndOf [.s a, .s b])).setFlags (cmpFlags (s.slo w a) (s.slo w b))))
/-- R120: scalar SEL at width `w`: the old d is a source. -/
def selS (s : State) (w : Nat) (d a b : RegNum) : Act :=
  intS s (w := w) false d [d, a, b] (if s.slo w d ≠ 0 then s.slo w a else s.slo w b)

end Sys2Proof.Machine
end

