-- ==== Sys2Proof/Machine/IntScalar.lean ====
section
/-! DEFINITION. The scalar integer words of majors 0x01 to 0x05 and 0x07 (R73, R74, R115 to R122). A scalar word executes
whatever m0 holds (R116). -/

namespace Sys2Proof.Machine

/-- R117, R115: IADD of 64 bits: A + B. -/
def execIaddS64 (d a b : RegNum) (s : State) : Host.Outcome State Fault Refusal :=
  finish s (intS s false d [a, b] ((s.slo 64 a) + (s.slo 64 b)))
/-- R117, R115: IADD of 32 bits: A + B. -/
def execIaddS32 (d a b : RegNum) (s : State) : Host.Outcome State Fault Refusal :=
  finish s (intS s false d [a, b] ((s.slo 32 a) + (s.slo 32 b)))
/-- R117, R115: ISUB of 64 bits: A − B. -/
def execIsubS64 (d a b : RegNum) (s : State) : Host.Outcome State Fault Refusal :=
  finish s (intS s false d [a, b] ((s.slo 64 a) - (s.slo 64 b)))
/-- R117, R115: ISUB of 32 bits: A − B. -/
def execIsubS32 (d a b : RegNum) (s : State) : Host.Outcome State Fault Refusal :=
  finish s (intS s false d [a, b] ((s.slo 32 a) - (s.slo 32 b)))
/-- R117, R115: IMUL of 64 bits: A · B. -/
def execImulS64 (d a b : RegNum) (s : State) : Host.Outcome State Fault Refusal :=
  finish s (intS s false d [a, b] ((s.slo 64 a) * (s.slo 64 b)))
/-- R117, R115: IMUL of 32 bits: A · B. -/
def execImulS32 (d a b : RegNum) (s : State) : Host.Outcome State Fault Refusal :=
  finish s (intS s false d [a, b] ((s.slo 32 a) * (s.slo 32 b)))
/-- R117, R115: IMULH.i of 64 bits: the high half of the signed product. -/
def execImulhIS64 (d a b : RegNum) (s : State) : Host.Outcome State Fault Refusal :=
  finish s (intS s true d [a, b] (mulHighI (s.slo 64 a) (s.slo 64 b)))
/-- R117, R115: IMULH.i of 32 bits: the high half of the signed product. -/
def execImulhIS32 (d a b : RegNum) (s : State) : Host.Outcome State Fault Refusal :=
  finish s (intS s true d [a, b] (mulHighI (s.slo 32 a) (s.slo 32 b)))
/-- R117, R115: IMULH.n of 64 bits: the high half of the natural product. -/
def execImulhNS64 (d a b : RegNum) (s : State) : Host.Outcome State Fault Refusal :=
  finish s (intS s false d [a, b] (mulHighN (s.slo 64 a) (s.slo 64 b)))
/-- R117, R115: IMULH.n of 32 bits: the high half of the natural product. -/
def execImulhNS32 (d a b : RegNum) (s : State) : Host.Outcome State Fault Refusal :=
  finish s (intS s false d [a, b] (mulHighN (s.slo 32 a) (s.slo 32 b)))
/-- R117, R66, R115: IMAD of 64 bits: A · B + C. -/
def execImadS64 (d a b : RegNum) (s : State) : Host.Outcome State Fault Refusal :=
  finish s (intS s false d [a, b, d] ((s.slo 64 a) * (s.slo 64 b) + (s.slo 64 d)))
/-- R117, R66, R115: IMAD of 32 bits: A · B + C. -/
def execImadS32 (d a b : RegNum) (s : State) : Host.Outcome State Fault Refusal :=
  finish s (intS s false d [a, b, d] ((s.slo 32 a) * (s.slo 32 b) + (s.slo 32 d)))
/-- R118, R115: IDIV.i of 64 bits: signed quotient. -/
def execIdivIS64 (d a b : RegNum) (s : State) : Host.Outcome State Fault Refusal :=
  finish s (intS s true d [a, b] (divI (s.slo 64 a) (s.slo 64 b)))
/-- R118, R115: IDIV.i of 32 bits: signed quotient. -/
def execIdivIS32 (d a b : RegNum) (s : State) : Host.Outcome State Fault Refusal :=
  finish s (intS s true d [a, b] (divI (s.slo 32 a) (s.slo 32 b)))
/-- R118, R115: IDIV.n of 64 bits: natural quotient. -/
def execIdivNS64 (d a b : RegNum) (s : State) : Host.Outcome State Fault Refusal :=
  finish s (intS s false d [a, b] (divN (s.slo 64 a) (s.slo 64 b)))
/-- R118, R115: IDIV.n of 32 bits: natural quotient. -/
def execIdivNS32 (d a b : RegNum) (s : State) : Host.Outcome State Fault Refusal :=
  finish s (intS s false d [a, b] (divN (s.slo 32 a) (s.slo 32 b)))
/-- R118, R115: IREM.i of 64 bits: signed remainder. -/
def execIremIS64 (d a b : RegNum) (s : State) : Host.Outcome State Fault Refusal :=
  finish s (intS s true d [a, b] (remI (s.slo 64 a) (s.slo 64 b)))
/-- R118, R115: IREM.i of 32 bits: signed remainder. -/
def execIremIS32 (d a b : RegNum) (s : State) : Host.Outcome State Fault Refusal :=
  finish s (intS s true d [a, b] (remI (s.slo 32 a) (s.slo 32 b)))
/-- R118, R115: IREM.n of 64 bits: natural remainder. -/
def execIremNS64 (d a b : RegNum) (s : State) : Host.Outcome State Fault Refusal :=
  finish s (intS s false d [a, b] (remN (s.slo 64 a) (s.slo 64 b)))
/-- R118, R115: IREM.n of 32 bits: natural remainder. -/
def execIremNS32 (d a b : RegNum) (s : State) : Host.Outcome State Fault Refusal :=
  finish s (intS s false d [a, b] (remN (s.slo 32 a) (s.slo 32 b)))
/-- R117, R115: IMIN.i of 64 bits: the lesser, as integers. -/
def execIminIS64 (d a b : RegNum) (s : State) : Host.Outcome State Fault Refusal :=
  finish s (intS s true d [a, b] (minI (s.slo 64 a) (s.slo 64 b)))
/-- R117, R115: IMIN.i of 32 bits: the lesser, as integers. -/
def execIminIS32 (d a b : RegNum) (s : State) : Host.Outcome State Fault Refusal :=
  finish s (intS s true d [a, b] (minI (s.slo 32 a) (s.slo 32 b)))
/-- R117, R115: IMIN.n of 64 bits: the lesser, as naturals. -/
def execIminNS64 (d a b : RegNum) (s : State) : Host.Outcome State Fault Refusal :=
  finish s (intS s false d [a, b] (minN (s.slo 64 a) (s.slo 64 b)))
/-- R117, R115: IMIN.n of 32 bits: the lesser, as naturals. -/
def execIminNS32 (d a b : RegNum) (s : State) : Host.Outcome State Fault Refusal :=
  finish s (intS s false d [a, b] (minN (s.slo 32 a) (s.slo 32 b)))
/-- R117, R115: IMAX.i of 64 bits: the greater, as integers. -/
def execImaxIS64 (d a b : RegNum) (s : State) : Host.Outcome State Fault Refusal :=
  finish s (intS s true d [a, b] (maxI (s.slo 64 a) (s.slo 64 b)))
/-- R117, R115: IMAX.i of 32 bits: the greater, as integers. -/
def execImaxIS32 (d a b : RegNum) (s : State) : Host.Outcome State Fault Refusal :=
  finish s (intS s true d [a, b] (maxI (s.slo 32 a) (s.slo 32 b)))
/-- R117, R115: IMAX.n of 64 bits: the greater, as naturals. -/
def execImaxNS64 (d a b : RegNum) (s : State) : Host.Outcome State Fault Refusal :=
  finish s (intS s false d [a, b] (maxN (s.slo 64 a) (s.slo 64 b)))
/-- R117, R115: IMAX.n of 32 bits: the greater, as naturals. -/
def execImaxNS32 (d a b : RegNum) (s : State) : Host.Outcome State Fault Refusal :=
  finish s (intS s false d [a, b] (maxN (s.slo 32 a) (s.slo 32 b)))
/-- R117, R115: IABS of 64 bits: the magnitude. -/
def execIabsS64 (d a : RegNum) (s : State) : Host.Outcome State Fault Refusal :=
  finish s (intS s true d [a] (absI (s.slo 64 a)))
/-- R117, R115: IABS of 32 bits: the magnitude. -/
def execIabsS32 (d a : RegNum) (s : State) : Host.Outcome State Fault Refusal :=
  finish s (intS s true d [a] (absI (s.slo 32 a)))
/-- R117, R115: INEG of 64 bits: −A. -/
def execInegS64 (d a : RegNum) (s : State) : Host.Outcome State Fault Refusal :=
  finish s (intS s true d [a] (-(s.slo 64 a)))
/-- R117, R115: INEG of 32 bits: −A. -/
def execInegS32 (d a : RegNum) (s : State) : Host.Outcome State Fault Refusal :=
  finish s (intS s true d [a] (-(s.slo 32 a)))
/-- R117, R115: AND of 64 bits: A and B. -/
def execAndS64 (d a b : RegNum) (s : State) : Host.Outcome State Fault Refusal :=
  finish s (intS s false d [a, b] ((s.slo 64 a) &&& (s.slo 64 b)))
/-- R117, R115: AND of 32 bits: A and B. -/
def execAndS32 (d a b : RegNum) (s : State) : Host.Outcome State Fault Refusal :=
  finish s (intS s false d [a, b] ((s.slo 32 a) &&& (s.slo 32 b)))
/-- R117, R115: OR of 64 bits: A or B. -/
def execOrS64 (d a b : RegNum) (s : State) : Host.Outcome State Fault Refusal :=
  finish s (intS s false d [a, b] ((s.slo 64 a) ||| (s.slo 64 b)))
/-- R117, R115: OR of 32 bits: A or B. -/
def execOrS32 (d a b : RegNum) (s : State) : Host.Outcome State Fault Refusal :=
  finish s (intS s false d [a, b] ((s.slo 32 a) ||| (s.slo 32 b)))
/-- R117, R115: XOR of 64 bits: A xor B. -/
def execXorS64 (d a b : RegNum) (s : State) : Host.Outcome State Fault Refusal :=
  finish s (intS s false d [a, b] ((s.slo 64 a) ^^^ (s.slo 64 b)))
/-- R117, R115: XOR of 32 bits: A xor B. -/
def execXorS32 (d a b : RegNum) (s : State) : Host.Outcome State Fault Refusal :=
  finish s (intS s false d [a, b] ((s.slo 32 a) ^^^ (s.slo 32 b)))
/-- R117, R115: ANDN of 64 bits: A and not B. -/
def execAndnS64 (d a b : RegNum) (s : State) : Host.Outcome State Fault Refusal :=
  finish s (intS s false d [a, b] ((s.slo 64 a) &&& ~~~(s.slo 64 b)))
/-- R117, R115: ANDN of 32 bits: A and not B. -/
def execAndnS32 (d a b : RegNum) (s : State) : Host.Outcome State Fault Refusal :=
  finish s (intS s false d [a, b] ((s.slo 32 a) &&& ~~~(s.slo 32 b)))
/-- R117, R115: NOT of 64 bits: not A. -/
def execNotS64 (d a : RegNum) (s : State) : Host.Outcome State Fault Refusal :=
  finish s (intS s false d [a] (~~~(s.slo 64 a)))
/-- R117, R115: NOT of 32 bits: not A. -/
def execNotS32 (d a : RegNum) (s : State) : Host.Outcome State Fault Refusal :=
  finish s (intS s false d [a] (~~~(s.slo 32 a)))
/-- R119, R115: SHL of 64 bits: A shifted left by b[7:0]. -/
def execShlS64 (d a b : RegNum) (s : State) : Host.Outcome State Fault Refusal :=
  finish s (intS s false d [a, b] (shlN (s.slo 64 a) (shAmt (s.slo 64 b))))
/-- R119, R115: SHL of 32 bits: A shifted left by b[7:0]. -/
def execShlS32 (d a b : RegNum) (s : State) : Host.Outcome State Fault Refusal :=
  finish s (intS s false d [a, b] (shlN (s.slo 32 a) (shAmt (s.slo 32 b))))
/-- R119, R115: SHR of 64 bits: A shifted right by b[7:0]. -/
def execShrS64 (d a b : RegNum) (s : State) : Host.Outcome State Fault Refusal :=
  finish s (intS s false d [a, b] (shrN (s.slo 64 a) (shAmt (s.slo 64 b))))
/-- R119, R115: SHR of 32 bits: A shifted right by b[7:0]. -/
def execShrS32 (d a b : RegNum) (s : State) : Host.Outcome State Fault Refusal :=
  finish s (intS s false d [a, b] (shrN (s.slo 32 a) (shAmt (s.slo 32 b))))
/-- R119, R115: SAR of 64 bits: A shifted right with its sign by b[7:0]. -/
def execSarS64 (d a b : RegNum) (s : State) : Host.Outcome State Fault Refusal :=
  finish s (intS s true d [a, b] (sarN (s.slo 64 a) (shAmt (s.slo 64 b))))
/-- R119, R115: SAR of 32 bits: A shifted right with its sign by b[7:0]. -/
def execSarS32 (d a b : RegNum) (s : State) : Host.Outcome State Fault Refusal :=
  finish s (intS s true d [a, b] (sarN (s.slo 32 a) (shAmt (s.slo 32 b))))
/-- R119, R115: ROT of 64 bits: A rotated left by b[7:0]. -/
def execRotS64 (d a b : RegNum) (s : State) : Host.Outcome State Fault Refusal :=
  finish s (intS s false d [a, b] (rotN (s.slo 64 a) (shAmt (s.slo 64 b))))
/-- R119, R115: ROT of 32 bits: A rotated left by b[7:0]. -/
def execRotS32 (d a b : RegNum) (s : State) : Host.Outcome State Fault Refusal :=
  finish s (intS s false d [a, b] (rotN (s.slo 32 a) (shAmt (s.slo 32 b))))
/-- R119, R115: BFX.i of 64 bits: the bit field of A, signed. -/
def execBfxIS64 (d a b : RegNum) (s : State) : Host.Outcome State Fault Refusal :=
  finish s (intS s true d [a, b] (bfxI (s.slo 64 a) (s.slo 64 b)))
/-- R119, R115: BFX.i of 32 bits: the bit field of A, signed. -/
def execBfxIS32 (d a b : RegNum) (s : State) : Host.Outcome State Fault Refusal :=
  finish s (intS s true d [a, b] (bfxI (s.slo 32 a) (s.slo 32 b)))
/-- R119, R115: BFX.n of 64 bits: the bit field of A. -/
def execBfxNS64 (d a b : RegNum) (s : State) : Host.Outcome State Fault Refusal :=
  finish s (intS s false d [a, b] (bfxN (s.slo 64 a) (s.slo 64 b)))
/-- R119, R115: BFX.n of 32 bits: the bit field of A. -/
def execBfxNS32 (d a b : RegNum) (s : State) : Host.Outcome State Fault Refusal :=
  finish s (intS s false d [a, b] (bfxN (s.slo 32 a) (s.slo 32 b)))
/-- R119, R66, R115: BFI of 64 bits: A inserted into C. -/
def execBfiS64 (d a b : RegNum) (s : State) : Host.Outcome State Fault Refusal :=
  finish s (intS s false d [a, b, d] (bfi (s.slo 64 a) (s.slo 64 b) (s.slo 64 d)))
/-- R119, R66, R115: BFI of 32 bits: A inserted into C. -/
def execBfiS32 (d a b : RegNum) (s : State) : Host.Outcome State Fault Refusal :=
  finish s (intS s false d [a, b, d] (bfi (s.slo 32 a) (s.slo 32 b) (s.slo 32 d)))
/-- R117, R115: POPC of 64 bits: the number of set bits. -/
def execPopcS64 (d a : RegNum) (s : State) : Host.Outcome State Fault Refusal :=
  finish s (intS s false d [a] (popc (s.slo 64 a)))
/-- R117, R115: POPC of 32 bits: the number of set bits. -/
def execPopcS32 (d a : RegNum) (s : State) : Host.Outcome State Fault Refusal :=
  finish s (intS s false d [a] (popc (s.slo 32 a)))
/-- R117, R115: CLZ of 64 bits: the number of leading zeros. -/
def execClzS64 (d a : RegNum) (s : State) : Host.Outcome State Fault Refusal :=
  finish s (intS s false d [a] (clz (s.slo 64 a)))
/-- R117, R115: CLZ of 32 bits: the number of leading zeros. -/
def execClzS32 (d a : RegNum) (s : State) : Host.Outcome State Fault Refusal :=
  finish s (intS s false d [a] (clz (s.slo 32 a)))
/-- R117, R115: BREV of 64 bits: the bits reversed. -/
def execBrevS64 (d a : RegNum) (s : State) : Host.Outcome State Fault Refusal :=
  finish s (intS s false d [a] (brev (s.slo 64 a)))
/-- R117, R115: BREV of 32 bits: the bits reversed. -/
def execBrevS32 (d a : RegNum) (s : State) : Host.Outcome State Fault Refusal :=
  finish s (intS s false d [a] (brev (s.slo 32 a)))
/-- R117, R115: MOV of 64 bits. -/
def execMovS64 (d a : RegNum) (s : State) : Host.Outcome State Fault Refusal :=
  finish s (intS s false d [a] (s.slo 64 a))
/-- R120: ICMP of 64 bits: the condition, and all four flags from a − b. -/
def execIcmpS64 (d a b : RegNum) (k : BitVec 3) (s : State) : Host.Outcome State Fault Refusal :=
  finish s (icmpS s 64 k d a b)
/-- R120: SEL of 64 bits. -/
def execSelS64 (d a b : RegNum) (s : State) : Host.Outcome State Fault Refusal :=
  finish s (selS s 64 d a b)
/-- R117: LEA of 64 bits: A + B · 2^k. -/
def execLeaS64 (d a b : RegNum) (k : BitVec 2) (s : State) : Host.Outcome State Fault Refusal :=
  finish s (intS s false d [a, b] (lea (s.slo 64 a) (s.slo 64 b) k.toNat))
/-- R117, R115: MOV of 32 bits. -/
def execMovS32 (d a : RegNum) (s : State) : Host.Outcome State Fault Refusal :=
  finish s (intS s false d [a] (s.slo 32 a))
/-- R120: ICMP of 32 bits: the condition, and all four flags from a − b. -/
def execIcmpS32 (d a b : RegNum) (k : BitVec 3) (s : State) : Host.Outcome State Fault Refusal :=
  finish s (icmpS s 32 k d a b)
/-- R120: SEL of 32 bits. -/
def execSelS32 (d a b : RegNum) (s : State) : Host.Outcome State Fault Refusal :=
  finish s (selS s 32 d a b)
/-- R117: LEA of 32 bits: A + B · 2^k. -/
def execLeaS32 (d a b : RegNum) (k : BitVec 2) (s : State) : Host.Outcome State Fault Refusal :=
  finish s (intS s false d [a, b] (lea (s.slo 32 a) (s.slo 32 b) k.toNat))
/-- R119: IADD with a sign-extended immediate. -/
def execIaddImmS (d a : RegNum) (imm : BitVec 12) (s : State) : Host.Outcome State Fault Refusal :=
  finish s (intS s false d [a] (s.slo 64 a + imm.signExtend 64))
/-- R122: MOVI: the immediate, sign-extended, exact. -/
def execMoviS (d : RegNum) (imm : BitVec 18) (s : State) : Host.Outcome State Fault Refusal :=
  finish s (intS s false d [] (imm.signExtend 64))
/-- R122: MOVHI: the old d shifted left by 18 bits, with the immediate below it. -/
def execMovhiS (d : RegNum) (imm : BitVec 18) (s : State) : Host.Outcome State Fault Refusal :=
  finish s (intS s false d [d] ((s.slo 64 d <<< 18) + imm.setWidth 64))
/-- R119: SHL by an immediate: left. -/
def execShlImmS (d a : RegNum) (n : BitVec 6) (s : State) : Host.Outcome State Fault Refusal :=
  finish s (intS s false d [a] (shlN (s.slo 64 a) n.toNat))
/-- R119: SHR by an immediate: right. -/
def execShrImmS (d a : RegNum) (n : BitVec 6) (s : State) : Host.Outcome State Fault Refusal :=
  finish s (intS s false d [a] (shrN (s.slo 64 a) n.toNat))
/-- R119: SAR by an immediate: right with the sign. -/
def execSarImmS (d a : RegNum) (n : BitVec 6) (s : State) : Host.Outcome State Fault Refusal :=
  finish s (intS s false d [a] (sarN (s.slo 64 a) n.toNat))
/-- R119: ROT by an immediate: around, to the left. -/
def execRotImmS (d a : RegNum) (n : BitVec 6) (s : State) : Host.Outcome State Fault Refusal :=
  finish s (intS s false d [a] (rotN (s.slo 64 a) n.toNat))

end Sys2Proof.Machine
end

