-- ==== Sys2Proof/Machine/IntVector.lean ====
section
/-! DEFINITION. The vector integer words of majors 0x08 to 0x0F (R73, R74, R115 to R122): widths 32, 16 and 8, and 32 with a
scalar b. Only the lanes of the effective mask are written, and zero where PFX.ZERO asks for it (R64, R116). -/

namespace Sys2Proof.Machine

/-- R117, R115: vector IADD: A + B. -/
def execIaddV (w : BitVec 2) (d a b : RegNum) (s : State) : Host.Outcome State Fault Refusal :=
  finish s (intV2 s w false d a b fun x y => x + y)
/-- R117, R115: vector ISUB: A − B. -/
def execIsubV (w : BitVec 2) (d a b : RegNum) (s : State) : Host.Outcome State Fault Refusal :=
  finish s (intV2 s w false d a b fun x y => x - y)
/-- R117, R115: vector IMUL: A · B. -/
def execImulV (w : BitVec 2) (d a b : RegNum) (s : State) : Host.Outcome State Fault Refusal :=
  finish s (intV2 s w false d a b fun x y => x * y)
/-- R117, R115: vector IMULH.i: the high half of the signed product. -/
def execImulhIV (w : BitVec 2) (d a b : RegNum) (s : State) : Host.Outcome State Fault Refusal :=
  finish s (intV2 s w true d a b fun x y => mulHighI x y)
/-- R117, R115: vector IMULH.n: the high half of the natural product. -/
def execImulhNV (w : BitVec 2) (d a b : RegNum) (s : State) : Host.Outcome State Fault Refusal :=
  finish s (intV2 s w false d a b fun x y => mulHighN x y)
/-- R117, R66, R115: vector IMAD: A · B + C. -/
def execImadV (w : BitVec 2) (d a b : RegNum) (s : State) : Host.Outcome State Fault Refusal :=
  finish s (intV3 s w false d a b fun x y z => x * y + z)
/-- R118, R115: vector IDIV.i: signed quotient. -/
def execIdivIV (w : BitVec 2) (d a b : RegNum) (s : State) : Host.Outcome State Fault Refusal :=
  finish s (intV2 s w true d a b fun x y => divI x y)
/-- R118, R115: vector IDIV.n: natural quotient. -/
def execIdivNV (w : BitVec 2) (d a b : RegNum) (s : State) : Host.Outcome State Fault Refusal :=
  finish s (intV2 s w false d a b fun x y => divN x y)
/-- R118, R115: vector IREM.i: signed remainder. -/
def execIremIV (w : BitVec 2) (d a b : RegNum) (s : State) : Host.Outcome State Fault Refusal :=
  finish s (intV2 s w true d a b fun x y => remI x y)
/-- R118, R115: vector IREM.n: natural remainder. -/
def execIremNV (w : BitVec 2) (d a b : RegNum) (s : State) : Host.Outcome State Fault Refusal :=
  finish s (intV2 s w false d a b fun x y => remN x y)
/-- R117, R115: vector IMIN.i: the lesser, as integers. -/
def execIminIV (w : BitVec 2) (d a b : RegNum) (s : State) : Host.Outcome State Fault Refusal :=
  finish s (intV2 s w true d a b fun x y => minI x y)
/-- R117, R115: vector IMIN.n: the lesser, as naturals. -/
def execIminNV (w : BitVec 2) (d a b : RegNum) (s : State) : Host.Outcome State Fault Refusal :=
  finish s (intV2 s w false d a b fun x y => minN x y)
/-- R117, R115: vector IMAX.i: the greater, as integers. -/
def execImaxIV (w : BitVec 2) (d a b : RegNum) (s : State) : Host.Outcome State Fault Refusal :=
  finish s (intV2 s w true d a b fun x y => maxI x y)
/-- R117, R115: vector IMAX.n: the greater, as naturals. -/
def execImaxNV (w : BitVec 2) (d a b : RegNum) (s : State) : Host.Outcome State Fault Refusal :=
  finish s (intV2 s w false d a b fun x y => maxN x y)
/-- R117, R115: vector IABS: the magnitude. -/
def execIabsV (w : BitVec 2) (d a : RegNum) (s : State) : Host.Outcome State Fault Refusal :=
  finish s (intV1 s w true d a fun x => absI x)
/-- R117, R115: vector INEG: −A. -/
def execInegV (w : BitVec 2) (d a : RegNum) (s : State) : Host.Outcome State Fault Refusal :=
  finish s (intV1 s w true d a fun x => -x)
/-- R117, R115: vector AND: A and B. -/
def execAndV (w : BitVec 2) (d a b : RegNum) (s : State) : Host.Outcome State Fault Refusal :=
  finish s (intV2 s w false d a b fun x y => x &&& y)
/-- R117, R115: vector OR: A or B. -/
def execOrV (w : BitVec 2) (d a b : RegNum) (s : State) : Host.Outcome State Fault Refusal :=
  finish s (intV2 s w false d a b fun x y => x ||| y)
/-- R117, R115: vector XOR: A xor B. -/
def execXorV (w : BitVec 2) (d a b : RegNum) (s : State) : Host.Outcome State Fault Refusal :=
  finish s (intV2 s w false d a b fun x y => x ^^^ y)
/-- R117, R115: vector ANDN: A and not B. -/
def execAndnV (w : BitVec 2) (d a b : RegNum) (s : State) : Host.Outcome State Fault Refusal :=
  finish s (intV2 s w false d a b fun x y => x &&& ~~~y)
/-- R117, R115: vector NOT: not A. -/
def execNotV (w : BitVec 2) (d a : RegNum) (s : State) : Host.Outcome State Fault Refusal :=
  finish s (intV1 s w false d a fun x => ~~~x)
/-- R119, R115: vector SHL: A shifted left by b[7:0]. -/
def execShlV (w : BitVec 2) (d a b : RegNum) (s : State) : Host.Outcome State Fault Refusal :=
  finish s (intV2 s w false d a b fun x y => shlN x (shAmt y))
/-- R119, R115: vector SHR: A shifted right by b[7:0]. -/
def execShrV (w : BitVec 2) (d a b : RegNum) (s : State) : Host.Outcome State Fault Refusal :=
  finish s (intV2 s w false d a b fun x y => shrN x (shAmt y))
/-- R119, R115: vector SAR: A shifted right with its sign by b[7:0]. -/
def execSarV (w : BitVec 2) (d a b : RegNum) (s : State) : Host.Outcome State Fault Refusal :=
  finish s (intV2 s w true d a b fun x y => sarN x (shAmt y))
/-- R119, R115: vector ROT: A rotated left by b[7:0]. -/
def execRotV (w : BitVec 2) (d a b : RegNum) (s : State) : Host.Outcome State Fault Refusal :=
  finish s (intV2 s w false d a b fun x y => rotN x (shAmt y))
/-- R119, R115: vector BFX.i: the bit field of A, signed. -/
def execBfxIV (w : BitVec 2) (d a b : RegNum) (s : State) : Host.Outcome State Fault Refusal :=
  finish s (intV2 s w true d a b fun x y => bfxI x y)
/-- R119, R115: vector BFX.n: the bit field of A. -/
def execBfxNV (w : BitVec 2) (d a b : RegNum) (s : State) : Host.Outcome State Fault Refusal :=
  finish s (intV2 s w false d a b fun x y => bfxN x y)
/-- R119, R66, R115: vector BFI: A inserted into C. -/
def execBfiV (w : BitVec 2) (d a b : RegNum) (s : State) : Host.Outcome State Fault Refusal :=
  finish s (intV3 s w false d a b fun x y z => bfi x y z)
/-- R117, R115: vector POPC: the number of set bits. -/
def execPopcV (w : BitVec 2) (d a : RegNum) (s : State) : Host.Outcome State Fault Refusal :=
  finish s (intV1 s w false d a fun x => popc x)
/-- R117, R115: vector CLZ: the number of leading zeros. -/
def execClzV (w : BitVec 2) (d a : RegNum) (s : State) : Host.Outcome State Fault Refusal :=
  finish s (intV1 s w false d a fun x => clz x)
/-- R117, R115: vector BREV: the bits reversed. -/
def execBrevV (w : BitVec 2) (d a : RegNum) (s : State) : Host.Outcome State Fault Refusal :=
  finish s (intV1 s w false d a fun x => brev x)
/-- R117: vector MOV: va, or in major 0x0B sb in every lane. -/
def execMovV (w : BitVec 2) (d a b : RegNum) (s : State) : Host.Outcome State Fault Refusal :=
  if w = 0x3#2 then finish s (s.clean [.s b] (.done (s.wrV d (fun _ => (s.sv b).setWidth 32) (s.bndOf [.s b]))))
  else finish s (intV1 s w false d a fun x => x)
/-- R120: vector ICMP into a mask register. -/
def execIcmpV (w : BitVec 2) (d : BitVec 3) (a b : RegNum) (k : BitVec 3) (s : State) : Host.Outcome State Fault Refusal :=
  finish s (s.clean [.v a s.eff, bSrc s w b] (.done (s.wrCond d fun l => icmpCond k (lo w (s.vl a l)) (lo w (bLane s w b l)))))
/-- R120: vector SEL by the bits of mk. -/
def execSelV (w : BitVec 2) (d a b : RegNum) (k : BitVec 3) (s : State) : Host.Outcome State Fault Refusal :=
  finish s (s.clean [.v a s.eff, bSrc s w b]
    (.done (s.wrV d (fun l => ext false 32 (if (s.mreg k).getLsbD l then lo w (s.vl a l) else lo w (bLane s w b l))) (s.bndOf [.v a s.eff, bSrc s w b]))))
/-- R117: vector LEA: A + B · 2^k. -/
def execLeaV (w : BitVec 2) (d a b : RegNum) (k : BitVec 2) (s : State) : Host.Outcome State Fault Refusal :=
  finish s (intV2 s w false d a b fun x y => lea x y k.toNat)
/-- R119: vector IADD with a sign-extended immediate. -/
def execIaddImmV (d a : RegNum) (imm : BitVec 12) (s : State) : Host.Outcome State Fault Refusal :=
  finish s (s.clean [.v a s.eff] (.done (s.wrV d (fun l => s.vl a l + imm.signExtend 32) (s.bndOf [.v a s.eff]))))
/-- R122: vector MOVI: the immediate, sign-extended, exact. -/
def execMoviV (d : RegNum) (imm : BitVec 18) (s : State) : Host.Outcome State Fault Refusal :=
  finish s (.done (s.wrV d (fun _ => imm.signExtend 32) false))
/-- R122: vector MOVHI: the old d shifted left by 18 bits, with the immediate below it. -/
def execMovhiV (d : RegNum) (imm : BitVec 18) (s : State) : Host.Outcome State Fault Refusal :=
  finish s (s.clean [.v d s.eff] (.done (s.wrV d (fun l => (s.vl d l <<< 18) + imm.setWidth 32) (s.bndOf [.v d s.eff]))))
/-- R119: vector SHL by an immediate: left. -/
def execShlImmV (d a : RegNum) (n : BitVec 5) (s : State) : Host.Outcome State Fault Refusal :=
  finish s (s.clean [.v a s.eff] (.done (s.wrV d (fun l => shlN (s.vl a l) n.toNat) (s.bndOf [.v a s.eff]))))
/-- R119: vector SHR by an immediate: right. -/
def execShrImmV (d a : RegNum) (n : BitVec 5) (s : State) : Host.Outcome State Fault Refusal :=
  finish s (s.clean [.v a s.eff] (.done (s.wrV d (fun l => shrN (s.vl a l) n.toNat) (s.bndOf [.v a s.eff]))))
/-- R119: vector SAR by an immediate: right with the sign. -/
def execSarImmV (d a : RegNum) (n : BitVec 5) (s : State) : Host.Outcome State Fault Refusal :=
  finish s (s.clean [.v a s.eff] (.done (s.wrV d (fun l => sarN (s.vl a l) n.toNat) (s.bndOf [.v a s.eff]))))
/-- R119: vector ROT by an immediate: around, to the left. -/
def execRotImmV (d a : RegNum) (n : BitVec 5) (s : State) : Host.Outcome State Fault Refusal :=
  finish s (s.clean [.v a s.eff] (.done (s.wrV d (fun l => rotN (s.vl a l) n.toNat) (s.bndOf [.v a s.eff]))))

end Sys2Proof.Machine
end

