-- ==== Sys2Proof/Machine/MaskLane.lean ====
section
/-! DEFINITION. The special-register words of major 0x06 (R124, R125), the mask words of major 0x1C (R126, R127), the lane
exchanges of major 0x1D (R129, R130), and the integer reductions and scans of major 0x1E (R131). -/

namespace Sys2Proof.Machine

/-- R85, R125: what SREAD returns. -/
def State.specialRead (s : State) (n : BitVec 11) : DWord :=
  let f := s.f
  let g := s.g
  let r := s.src
  match n.toNat with
  | 0x000 => f.pc
  | 0x001 => r.wbV.setWidth 64 * 256 + r.wbS.setWidth 64
  | 0x002 => r.fmt
  | 0x003 => r.nmode
  | 0x004 => f.timer
  | 0x005 => f.gtcmp
  | 0x006 => r.nseed.setWidth 64
  | 0x007 => r.nstep
  | 0x008 => f.ti[0]
  | 0x009 => f.ti[1]
  | 0x00A => f.ti[2]
  | 0x00B => f.ti[3]
  | 0x010 => g.teamid.setWidth 64
  | 0x011 => g.gridid.setWidth 64
  | 0x012 => BitVec.ofNat 64 g.depth
  | 0x013 => BitVec.ofNat 64 f.home
  | 0x014 => BitVec.ofNat 64 f.core
  | _ => r.cflags.setWidth 64

/-- R125: whether SWRITE stores in a register. -/
def specialWrites (n : BitVec 11) : Bool := n == 0x002#11 || n == 0x003#11 || n == 0x005#11 || n == 0x018#11
/-- R125: what SWRITE stores. -/
def State.specialWrite (s : State) (n : BitVec 11) (x : DWord) : State :=
  match n.toNat with
  | 0x002 => s.modRegs fun r => { r with fmt := fmtStore x }
  | 0x003 => s.modRegs fun r => { r with nmode := nmodeStore x }
  | 0x005 => s.setF { s.f with gtcmp := x }
  | 0x018 => s.modRegs fun r => { r with cflags := x.setWidth 16 &&& 0xFF1F#16 }
  | _ => s

/-- R124: SREAD: the register's value, exact. -/
def execSread (d : RegNum) (n : BitVec 11) (s : State) : Host.Outcome State Fault Refusal :=
  finish s (.done (s.wrS d (s.specialRead n) false))
/-- R124, R125, R27: SWRITE; a register marked RO ignores it; a bounded source is refused where something is stored. -/
def execSwrite (a : RegNum) (n : BitVec 11) (s : State) : Host.Outcome State Fault Refusal :=
  finish s (s.clean [.s a]
    (if specialWrites n ∧ (s.sreg a).bnd then .fault (faultOf 0x18#8 (a.setWidth 64)) else .done (s.specialWrite n (s.sv a))))

/-- R126: BALLOT. -/
def execBallot (d : BitVec 3) (a : RegNum) (s : State) : Host.Outcome State Fault Refusal :=
  finish s (s.clean [.v a s.active] (.done (s.wrM d (maskOf fun l => s.active.getLsbD l && s.vl a l != 0))))
/-- R127: the words VOTE: the value when a lane is active, the value when none is, and CFLAGS.E. -/
def vote (s : State) (d a : RegNum) (some' : Bool) (none' : Bool) : Act :=
  let x := if s.active = 0x0#96 then none' else some'
  s.clean [.v a s.active] (.done ((s.wrS d (if x then 1 else 0) (s.bndOf [.v a s.active])).setE (s.active == 0x0#96)))
/-- R127: VOTE.any. -/
def execVoteAny (d a : RegNum) (s : State) : Host.Outcome State Fault Refusal :=
  finish s (vote s d a ((lanesIn s.active).any fun l => s.vl a l != 0) false)
/-- R127: VOTE.all. -/
def execVoteAll (d a : RegNum) (s : State) : Host.Outcome State Fault Refusal :=
  finish s (vote s d a ((lanesIn s.active).all fun l => s.vl a l != 0) true)
/-- R127: VOTE.uni. -/
def execVoteUni (d a : RegNum) (s : State) : Host.Outcome State Fault Refusal :=
  finish s (vote s d a ((lanesIn s.active).all fun l => s.vl a l == s.vl a (lowest s.active)) true)
/-- R126: MPOPC, exact. -/
def execMpopc (d : RegNum) (a : BitVec 3) (s : State) : Host.Outcome State Fault Refusal :=
  finish s (.done (s.wrS d (BitVec.ofNat 64 (popMask (s.mreg a))) false))
/-- R126: MFIRST, exact, and CFLAGS.E. -/
def execMfirst (d : RegNum) (a : BitVec 3) (s : State) : Host.Outcome State Fault Refusal :=
  finish s (.done ((s.wrS d (BitVec.ofNat 64 (lowest (s.mreg a))) false).setE (s.mreg a == 0x0#96)))
/-- R126: MAND. -/
def execMand (d a b : BitVec 3) (s : State) : Host.Outcome State Fault Refusal :=
  finish s (.done (s.wrM d (s.mreg a &&& s.mreg b)))
/-- R126: MOR. -/
def execMor (d a b : BitVec 3) (s : State) : Host.Outcome State Fault Refusal :=
  finish s (.done (s.wrM d (s.mreg a ||| s.mreg b)))
/-- R126: MXOR. -/
def execMxor (d a b : BitVec 3) (s : State) : Host.Outcome State Fault Refusal :=
  finish s (.done (s.wrM d (s.mreg a ^^^ s.mreg b)))
/-- R126: MNOT. -/
def execMnot (d a : BitVec 3) (s : State) : Host.Outcome State Fault Refusal := finish s (.done (s.wrM d (~~~(s.mreg a))))
/-- R126: MOV of a mask. -/
def execMovMask (d a : BitVec 3) (s : State) : Host.Outcome State Fault Refusal := finish s (.done (s.wrM d (s.mreg a)))

/-- R129: LANEID, exact. -/
def execLaneid (d : RegNum) (s : State) : Host.Outcome State Fault Refusal :=
  finish s (.done (s.wrLanes d s.active (fun l => BitVec.ofNat 32 l) false))

/-- R129: the lane a lane reads: the one named if it is active, else itself. -/
def pick (active : Mask) (j : Int) (l : Nat) : Nat := if 0 ≤ j ∧ j ≤ 95 ∧ active.getLsbD j.toNat then j.toNat else l
/-- R129: a shuffle by a source-lane function; `x` is its second source. -/
def shuffle (s : State) (d a : RegNum) (x : Src) (j : Nat → Int) : Act :=
  let sel := maskOf fun k => (lanesIn s.active).any fun l => pick s.active (j l) l == k
  s.clean [.v a sel, x]
    (.done (s.wrLanes d s.active (fun l => s.vl a (pick s.active (j l) l)) (s.bndOf [.v a sel, x])))
/-- R129: SHFL.idx. -/
def execShflIdx (d a b : RegNum) (s : State) : Host.Outcome State Fault Refusal :=
  finish s (shuffle s d a (.v b s.active) fun l => (s.vl b l).toNat)
/-- R129: SHFL.up. -/
def execShflUp (d a b : RegNum) (s : State) : Host.Outcome State Fault Refusal :=
  finish s (shuffle s d a (.s b) fun l => (l : Int) - (s.sv b).toNat)
/-- R129: SHFL.down. -/
def execShflDown (d a b : RegNum) (s : State) : Host.Outcome State Fault Refusal :=
  finish s (shuffle s d a (.s b) fun l => (l : Int) + (s.sv b).toNat)
/-- R129: SHFL.xor. -/
def execShflXor (d a b : RegNum) (s : State) : Host.Outcome State Fault Refusal :=
  finish s (shuffle s d a (.s b) fun l => ((l ^^^ (s.sv b).toNat : Nat) : Int))
/-- R130: BCAST. -/
def execBcast (d a b : RegNum) (s : State) : Host.Outcome State Fault Refusal :=
  let j := (s.sv b).toNat
  let ok := decide (j ≤ 95) && s.active.getLsbD j
  let src := Src.v a (if ok then BitVec.twoPow 96 j else 0x0#96)
  finish s (s.clean [src, .s b]
    (.done ((if ok then s.wrLanes d s.active (fun _ => s.vl a j) (s.bndOf [src, .s b]) else s).setE (!ok))))

/-- R131: the eight operations. -/
def redOp (o : BitVec 3) (x y : Word) : Word :=
  match o.toNat with
  | 0 => x + y
  | 1 => minI x y
  | 2 => minN x y
  | 3 => maxI x y
  | 4 => maxN x y
  | 5 => x &&& y
  | 6 => x ||| y
  | _ => x ^^^ y
/-- R131: their identities. -/
def redId (o : BitVec 3) : Word :=
  match o.toNat with
  | 1 => 0x7FFFFFFF#32
  | 2 => 0xFFFFFFFF#32
  | 3 => 0x80000000#32
  | 5 => 0xFFFFFFFF#32
  | _ => 0x00000000#32
/-- R131: an operation over lanes. -/
def redOver (o : BitVec 3) (f : Nat → Word) (ls : List Nat) : Word := ls.foldl (fun x l => redOp o x (f l)) (redId o)
/-- R131: REDI. -/
def execRedi (d a : RegNum) (o : BitVec 3) (s : State) : Host.Outcome State Fault Refusal :=
  finish s (s.clean [.v a s.active]
    (.done ((s.wrS d (ext (o == 0x1#3 || o == 0x3#3) 64 (redOver o (s.vl a) (lanesIn s.active))) (s.bndOf [.v a s.active])).setE (s.active == 0x0#96))))
/-- R131: a scan over the active lanes that `keep` admits for a lane. -/
def scanI (s : State) (d a : RegNum) (o : BitVec 3) (keep : Nat → Nat → Bool) : Act :=
  s.clean [.v a s.active]
    (.done ((s.wrLanes d s.active (fun l => redOver o (s.vl a) ((lanesIn s.active).filter (keep l))) (s.bndOf [.v a s.active])).setE (s.active == 0x0#96)))
/-- R131: inclusive SCANI. -/
def execScaniInc (d a : RegNum) (o : BitVec 3) (s : State) : Host.Outcome State Fault Refusal :=
  finish s (scanI s d a o fun l j => decide (j ≤ l))
/-- R131: exclusive SCANI. -/
def execScaniExc (d a : RegNum) (o : BitVec 3) (s : State) : Host.Outcome State Fault Refusal :=
  finish s (scanI s d a o fun l j => decide (j < l))

end Sys2Proof.Machine
end

