-- ==== Sys2Proof/Machine/Sfu.lean ====
section
/-! DEFINITION. The special functions of major 0x17 (R143) and the queue of the special-function unit (R144). The value a
function returns within its bound is free (`Config.sfu`); here stand its special results, its exact cases, and the bound,
checked against approximations whose error is far below the bound. -/

namespace Sys2Proof.Machine

/-- A positive approximation y = m·2^e. -/
structure Approx where
  neg : Bool
  m : Nat
  e : Int
  deriving DecidableEq, Repr

/-- Integer square root, bit by bit. -/
def isqrtFrom (n : Nat) (bits r : Nat) : Nat :=
  match bits with
  | 0 => r
  | k + 1 => if (r + 2 ^ k) * (r + 2 ^ k) ≤ n then isqrtFrom n k (r + 2 ^ k) else isqrtFrom n k r
def isqrt (n : Nat) : Nat := isqrtFrom n (Nat.log2 n / 2 + 1) 0

/-- Fixed point with 128 fraction bits. -/
def one128 : Nat := 2 ^ 128
/-- ln 2. -/
def ln2 : Nat := 0xB17217F7D1CF79ABC9E3B39803F2F6AF
/-- π/2 with 256 fraction bits. -/
def halfPi : Nat := 0x1921FB54442D18469898CC51701B839A252049C1114CF98E804177D4C76273644

/-- Σ of x^k/k!, by Horner: 1 + x/n·(…). -/
def expHorner (x : Nat) : Nat → Nat → Nat
  | 0, acc => acc
  | k + 1, acc => expHorner x k (one128 + x * acc / one128 / (k + 1))
/-- 2^z for a fixed-point z with 128 fraction bits: mantissa and exponent. -/
def exp2Fix (z : Int) : Nat × Int :=
  let n := z / (one128 : Int)
  let f := (z % (one128 : Int)).toNat
  (expHorner (f * ln2 / one128) 34 one128, n - 128)
/-- log2 of u in [1, 2), bit by bit. -/
def log2Bits (u : Nat) (acc : Nat) : Nat → Nat
  | 0 => acc
  | k + 1 =>
    let q := u * u / one128
    if 2 * one128 ≤ q then log2Bits (q / 2) (2 * acc + 1) k else log2Bits q (2 * acc) k
/-- Σ of (−1)^k x^(2k)/(2k+i)! by Horner, signed. -/
def trigHorner (x2 : Int) (i : Nat) : Nat → Int → Int
  | 0, acc => acc
  | k + 1, acc => trigHorner x2 i k ((one128 : Int) - x2 * acc / (one128 : Int) / ((2 * k + 1 + i) * (2 * k + 2 + i) : Nat))
/-- Sine (`false`) or cosine of r in [0, π/2), 128 fraction bits. -/
def trig (cos : Bool) (r : Nat) : Int :=
  let x : Int := r
  let x2 := x * x / (one128 : Int)
  if cos then trigHorner x2 0 18 one128 else x * trigHorner x2 1 18 one128 / (one128 : Int)

/-- A fixed-point value with 128 fraction bits of ±m·2^e. -/
def toFix (m : Nat) (e : Int) (bits : Nat) : Nat := if 0 ≤ e + bits then m * 2 ^ (e + bits).toNat else m / 2 ^ (-(e + bits)).toNat
def ofSigned (x : Int) : Approx := ⟨decide (x < 0), x.natAbs, -128⟩

/-- R143: the functions, by func. The cosine of what is not 0, and a power of 2 with an exponent below 0, lie below 1, however near. -/
def approx (fn : Nat) (neg : Bool) (m : Nat) (e : Int) : Approx :=
  let half := if e % 2 = 0 then (m, e / 2) else (2 * m, (e - 1) / 2)
  match fn with
  | 0 => ⟨neg, 2 ^ 160 / m, -160 - e⟩
  | 1 => ⟨false, isqrt (2 ^ 256 / half.1), -128 - half.2⟩
  | 3 =>
    let z : Int := toFix m e 128
    let y := exp2Fix (if neg then -z else z)
    if neg ∧ z = 0 then ⟨false, 2 ^ 256 - 1, -256⟩ else ⟨false, y.1, y.2⟩
  | 4 =>
    let k := Nat.log2 m
    let u := m * 2 ^ (128 - k)
    ofSigned ((e + (k : Int)) * (one128 : Int) + log2Bits u 0 128)
  | 5 =>
    let a := toFix m e 256
    let q := a / halfPi
    let y := trig (q % 2 == 1) (a % halfPi / one128)
    ofSigned (if (decide (q % 4 < 2)) != neg then y else -y)
  | 6 =>
    let a := toFix m e 256
    let q := a / halfPi
    let y := min (trig (q % 2 == 0) (a % halfPi / one128)) ((one128 : Int) - 1)
    ofSigned (if q % 4 = 0 ∨ q % 4 = 3 then y else -y)
  | _ =>
    let z : Int := toFix (2 * m) e 128 * one128 / ln2
    let t := exp2Fix (-z)
    let tf : Nat := toFix t.1 t.2 128
    ⟨neg, (one128 - tf) * one128 / (one128 + tf), -128⟩

/-- R143: whether ±m·2^e lies within `k` units of 2^q of y. -/
def closeTo (y : Approx) (neg : Bool) (m : Nat) (e : Int) (k : Nat) (q : Int) : Bool :=
  let at' := min (min y.e e) q
  let dist := (scaled y.neg y.m y.e at' - scaled neg m e at').natAbs
  decide (dist ≤ k * 2 ^ (q - at').toNat)
/-- R143: exponent of ulp(y). -/
def ulpExp (y : Approx) : Int := max ((Nat.log2 y.m : Int) + y.e - 23) (-149)
/-- R143: whether a pattern is within the bound of a function. One whose sign is not that of the exact result is none, though it may lie within the
bound beside the least subnormals (DESIGN CHOICE, log 64). -/
def sfuOk (fn : Nat) (y : Approx) (r : Word) : Bool :=
  match ofF32 r with
  | .fin neg m e =>
    if fn = 5 ∨ fn = 6 then closeTo y neg m e 1 (-22)
    else (m == 0 || neg == y.neg) && closeTo y neg m e (if fn = 0 then 1 else 2) (ulpExp y)
  | _ => false
/-- R143: a value beyond the largest finite number has no spacing; the spec states no result there. -/
def beyond (y : Approx) : Bool := decide (fp32.maxCode < fp32.code .rne y.neg y.m y.e)

/-- R143: FSQRT, correctly rounded. -/
def fsqrtBits (m : Nat) (e : Int) : Word :=
  let half := if e % 2 = 0 then (m * 2 ^ 60, e / 2 - 30) else (m * 2 ^ 61, (e - 1) / 2 - 30)
  let r := isqrt half.1
  toF32 .rne (.fin false (2 * r + (if r * r = half.1 then 0 else 1)) (half.2 - 1))

/-- |±m·2^e| compared with p·2^q. -/
def magLe (m : Nat) (e : Int) (p : Nat) (q : Int) : Bool := decide (scaled false m e (min e q) ≤ scaled false p q (min e q))

/-- R143: the results that the table states: special results and exact cases. -/
def sfuStated (fn : Nat) (a : Word) : Option Word :=
  let inf := fun neg => BitVec.ofNat 32 (fp32.signed neg fp32.infCode)
  let zero := fun (neg : Bool) => if neg then 0x80000000#32 else 0x00000000#32
  match ofF32 a with
  | .nan => some nan32
  | .inf neg =>
    match fn with
    | 0 => some (zero neg)
    | 1 => some (if neg then nan32 else 0)
    | 2 => some (if neg then nan32 else a)
    | 3 => some (if neg then 0 else a)
    | 4 => some (if neg then nan32 else a)
    | 5 => some nan32
    | 6 => some nan32
    | _ => some (if neg then 0xBF800000#32 else 0x3F800000#32)
  | .fin neg m e =>
    if m = 0 then
      match fn with
      | 0 => some (inf neg)
      | 1 => some (inf neg)
      | 2 => some a
      | 3 => some 0x3F800000#32
      | 4 => some (inf true)
      | 5 => some a
      | 6 => some 0x3F800000#32
      | _ => some a
    else
      match fn with
      | 0 => none
      | 1 => if neg then some nan32 else none
      | 2 => some (if neg then nan32 else fsqrtBits m e)
      | 3 =>
        if !neg && magLe 1 7 m e then some (inf false)
        else if neg && !magLe m e 150 0 then some 0
        else if (splitAt m e).2.1 = 0 then
          let n := roundInt .rz neg m e
          if -149 ≤ n then some (toF32 .rne (.fin false 1 n)) else none
        else none
      | 4 => if neg then some nan32 else if m = 2 ^ Nat.log2 m then some (toF32 .rne (ofInt (e + Nat.log2 m))) else none
      | 5 => if magLe m e 1 (-12) then some a else none
      | 6 => none
      | _ => if magLe m e 1 (-12) then some a else if !magLe (10 * m) e 91 0 then
          some (if neg then 0xBF800000#32 else 0x3F800000#32) else none

/-- R143: the result of a special function: stated, or the free value where it lies within the bound, or the nearest; a NaN is the
canonical one (R33). -/
def sfu (fn : Nat) (a : Word) : Word :=
  match sfuStated fn a, ofF32 a with
  | some r, _ => r
  | none, .fin neg m e =>
    let y := approx fn neg m e
    let r := Config.sfu fn a
    if beyond y then (if (ofF32 r).isNan then nan32 else r) else if sfuOk fn y r then r else toF32 .rne (.fin y.neg y.m y.e)
  | none, _ => nan32

/-- R144: an SF word: held while entries are short; one entry for each beat with an effective lane. The lanes PFX.ZERO names are
written with their beat's entry, or at issue where the beat has none (log 20). -/
def sfWord (s : State) (fn : Nat) (d a : RegNum) : Act :=
  s.clean [.v a s.eff]
    (let beats := (List.range 3).filter fun n => s.eff &&& beat n != 0x0#96
     let c := s.core s.f.coreKey
     if 32 < c.sfuQ.length + beats.length then .hold s
     else
       let whole := s.eff ||| s.zeroed
       let t := s.bndOf [.v a s.eff]
       let part := fun n => Out.mk .sfu (.v (s.f.regs.vEnt d)) (whole &&& beat n) whole
         (lanesOf fun l => if s.eff.getLsbD l then sfu fn (s.vl a l) else 0) 0 t 0x0#96
       let alone := maskOf fun l => s.zeroed.getLsbD l && s.eff &&& beat (l / 32) == 0x0#96
       let s1 := s.modRegs fun r => r.writeV s.f.own (r.vEnt d) alone (lanesOf fun _ => 0) t 0x0#96
       .done ((s1.setF { s1.f with outs := s1.f.outs ++ beats.map part }).setCore s.f.coreKey { c with sfuQ := c.sfuQ ++ beats.map fun _ => s.cur }))

/-- R143: FRCP. -/
def execFrcp (d a : RegNum) (s : State) : Host.Outcome State Fault Refusal := finish s (sfWord s 0 d a)
/-- R143: FRSQ. -/
def execFrsq (d a : RegNum) (s : State) : Host.Outcome State Fault Refusal := finish s (sfWord s 1 d a)
/-- R143: FSQRT. -/
def execFsqrt (d a : RegNum) (s : State) : Host.Outcome State Fault Refusal := finish s (sfWord s 2 d a)
/-- R143: FEXP2. -/
def execFexp2 (d a : RegNum) (s : State) : Host.Outcome State Fault Refusal := finish s (sfWord s 3 d a)
/-- R143: FLOG2. -/
def execFlog2 (d a : RegNum) (s : State) : Host.Outcome State Fault Refusal := finish s (sfWord s 4 d a)
/-- R143: FSIN. -/
def execFsin (d a : RegNum) (s : State) : Host.Outcome State Fault Refusal := finish s (sfWord s 5 d a)
/-- R143: FCOS. -/
def execFcos (d a : RegNum) (s : State) : Host.Outcome State Fault Refusal := finish s (sfWord s 6 d a)
/-- R143: FTANH. -/
def execFtanh (d a : RegNum) (s : State) : Host.Outcome State Fault Refusal := finish s (sfWord s 7 d a)

end Sys2Proof.Machine
end

