-- ==== Sys2Proof/Machine/Trap.lean ====
section
/-! DEFINITION. The trap words of major 0x3C (R344 to R346), and the timer (R333). -/

namespace Sys2Proof.Machine

/-- R344: TRAP: BREAK for code 0, else SWTRAP; the resume address is the next word's. -/
def execTrap (n : BitVec 12) (s : State) : Host.Outcome State Fault Refusal :=
  finish s (noTrapMode s (.fault ⟨if n = 0 then 0x52#8 else 0x51#8, n, n.setWidth 64, 0, 0, true⟩))

/-- R345: the end of trap mode, at `pc` or the recorded resume address. -/
def tretAct (s : State) (pc : Option DWord) : Act :=
  match s.f.trap with
  | none => .fault (faultOf 0x01#8 1)
  | some _ => s.clean [] (parkThen s fun s =>
      match s.f.trap with
      | some tr => .jump (s.trapReturn tr) (pc.getD tr.rpc)
      | none => .fault (faultOf 0x01#8 1))
/-- R345: TRET. -/
def execTret (s : State) : Host.Outcome State Fault Refusal := finish s (tretAct s none)
/-- R345: TRET.at. -/
def execTretAt (a : RegNum) (s : State) : Host.Outcome State Fault Refusal :=
  finish s (if s.f.trap.isNone then .fault (faultOf 0x01#8 1) else s.clean [.s a] (tretAct s (some (s.sv a))))

/-- R343: the 64 bytes of a trap record, as SAVEQ writes it. -/
def TrapRec.bits (t : TrapRec) : BitVec 512 :=
  t.rpc ++ wbaseBits t ++ t.m0 ++ t.cflags ++ t.code ++ t.swcode ++ BitVec.ofBool t.mig ++ 0x0#283
where
  /-- WBASE[31:0] (R100). -/
  wbaseBits (t : TrapRec) : BitVec 32 := 0x0#16 ++ t.wbV ++ 0x0#1 ++ t.wbS

/-- R346: SAVEQ: the record is stored as STS stores, at scope .team. -/
def execSaveq (a : RegNum) (s : State) : Host.Outcome State Fault Refusal :=
  finish s
    (match s.f.trap with
     | none => .fault (faultOf 0x01#8 2)
     | some tr =>
       s.clean [.s a]
        (let sa := s.sv a
         let es := (List.range 8).map fun i => Elem.mk 0 .scratch 0 8 (tr.bits.extractLsb' (64 * i) 64) (sa + BitVec.ofNat 64 (8 * i)) none 0
         if sa.toNat % 64 ≠ 0 then .fault (faultAt 0x13#8 0 [⟨0, sa, 64⟩])
         else if 2 ^ 19 ≤ sa.toNat then .fault (faultAt 0x11#8 0 [⟨0, sa, 64⟩])
         else stsAct s es false 0x0#2))

/-- R333: TIMER_TRAP: the fragment whose chain group is to issue takes TIMER. -/
def execTimerTrap (s : State) : Host.Outcome State Fault Refusal :=
  let f := s.f
  .next (if s.mayIssue s.cur && f.grp.isNone && f.pfx.isNone && f.timerDue && !s.asking s.cur then
      match s.fetch s.cur f.pc with
      | .ok w => s.timerFault s.cur f.pc (s.groupTi0 s.cur w)
      | .error _ => s
    else s)

end Sys2Proof.Machine
end

