-- ==== Sys2Proof/Machine/Away.lean ====
section
/-! DEFINITION. Words of a fragment on another device, as its team's core does them (R298, R302, R308 to R312). -/

namespace Sys2Proof.Machine

/-- An operation's fault, or its state with the value that the word comes to. -/
def answerOf (s : State) (x : Except FaultRec (State × DWord)) : State × WordReply :=
  match x with
  | .error r => (s, .fault r)
  | .ok a => (a.1, .done a.2)
/-- R308: what a wait word of a group comes to: a fault that is still to be delivered, its value, or that it waits on. -/
def State.waitReply (s : State) (owed : Option (Nat × Cmd)) (met : Bool) (v : DWord) : State × WordReply :=
  match owed with
  | some x => (s.setCmd x.1 { x.2 with delivered := true }, .fault x.2.faultRec)
  | none => (s, if met then .done v else .wait)
/-- R298, R302, R308 to R312: a word of fragment `n`, which is on another device, at the core of its team. -/
def State.teamWord (s : State) (n : Nat) (w : TeamWord) : State × WordReply :=
  let gn := (s.frag n).group
  let g := s.group gn
  let k := g.team
  let t := s.team k
  match w with
  | .record sa =>
    match s.scrBytes k g.rights.asid sa 64 false with
    | .error x => (s, .fault x)
    | .ok key => (s, .record (BitVec.ofNat 512 (s.valIn .scratch key 64)))
  | .launch bits ls => s.launchFor gn bits ls
  | .append d => s.appendIf k d .wait
  | .lstat => (s, .done (s.lstatOf k))
  | .ovt => (s, .done (g.ovt.setWidth 64))
  | .engine e sa single pc =>
    if s.engineFull k t.home e then (s, .wait)
    else if single then
      answerOf s ((s.scrBytes k g.rights.asid sa 64 false).map fun key => (s.takeCmd n pc t.home t.core e sa.toNat (some (s.bytesIn .scratch key 64)), 0))
    else (s.takeCmd n pc t.home t.core e sa.toNat none, .done 0)
  | .estat e => (s, .done (s.estatOf g e))
  | .bseal => if g.sealedFull then (s, .wait) else (s.sealBatch gn, .done (g.batchNo.setWidth 64))
  | .bwait b => if g.incomplete b then (s, .wait) else s.waitReply (s.batchOwed gn b) true 0
  | .syncw o target =>
    match t.syncFault o with
    | some x => (s, .fault x)
    | none => (s.setSync k o target, .done ((s.genAt k o).setWidth 64))
  | .swait o v =>
    match t.syncFault o with
    | some x => (s, .fault x)
    | none =>
      let s := s.useSync k o
      s.waitReply (s.syncOwed gn o) (genMet (s.genAt k o) v) ((s.genAt k o).setWidth 64)
  | .cbcfg x b => answerOf s ((s.cbConfig k x b).map fun s => (s, 0))
  | .cbput x b => answerOf s ((s.cbOn k b).bind fun c => (c.advance x b).map fun c => (s.putCb k b c, 0))
  | .cbget b => answerOf s ((s.cbOn k b).map fun c => (s, c.c ++ c.p))
  | .cbwait m room b again =>
    match s.cbOn k b with
    | .error x => (s, if again then .wait else .fault x)
    | .ok c => if c.n < m ∧ again = false then (s, .fault (cbFault 6 b)) else s.waitReply (s.cbOwed gn c) (c.met m room) 0

end Sys2Proof.Machine
end

