-- ==== Sys2Proof/Machine/Wake.lean ====
section
/-! DEFINITION. Joins and team barriers (R156 to R158), split-table updates (R146), the wake of WAITW (R163), the turns and residency of a core (R109, R149, R150,
R165), register lines (R110, R351), the special-function unit's results (R144), and the map unit's fills (R214). -/

namespace Sys2Proof.Machine

/-! Joins -/

def FState.atBarrt (x : FState) : Bool := match x with | .barrt _ => true | _ => false

/-- R157: the registers of the fused fragment: each lane's from its owner, the rest, scalar tags among it, from the anchor (DEDUCED, log 62:
R103 speaks of every register's tag, R157 of the scalars'); lanes and mask bits that no waiter owns are 0 (DESIGN CHOICE, log 64). -/
def fuseRegs (anchor : Regs) (ws : List Frag) : Regs :=
  let ownerOf := fun (l : Nat) => (ws.find? fun w => w.own.getLsbD l).map (·.regs)
  let keys := (ws.flatMap fun w => w.regs.v.keys).eraseDups
  let vec := fun (e : Nat) =>
    let of := fun (l : Nat) => ((ownerOf l).map fun r => r.v.get VReg.zero e).getD VReg.zero
    VReg.mk (lanesOf fun l => lane (of l).lanes l) (ws.any fun w => (w.regs.v.get VReg.zero e).bnd) (maskOf fun l => (of l).poison.getLsbD l)
  { anchor with
    v := keys.foldl (fun m e => m.put VReg.zero e (vec e)) []
    m := Vector.ofFn fun k : Fin 8 => maskOf fun l => ((ownerOf l).map fun r => (r.mask (BitVec.ofNat 3 k.val)).getLsbD l).getD false }
/-- R157: fusion in the anchor's entry. -/
def State.fuseAt (s : State) (group bar a : Nat) (ws : List (Nat × Frag)) : State :=
  let A := s.frag a
  let own := ws.foldl (fun m w => m ||| w.2.own) 0x0#96
  let G : Frag := { A with own := own, regs := fuseRegs A.regs (ws.map (·.2)), pc := A.pc + 4, state := .ready, leave := none, turn := 0, served := 0 }
  let s1 := (ws.filter fun w => w.1 != a).foldl (fun s w => (s.inherit w.1 [a]).setFrag w.1 Frag.free) s
  ((s1.setFrag a G).setGroup group ((s1.group group).setBar bar Bar.idle)).acquire a
/-- R157: fusion at an anchor on another device, as the primary home's records show it. -/
def State.fuseAway (s : State) (group bar a : Nat) (ws : List (Nat × Frag)) : State :=
  let own := ws.foldl (fun m w => m ||| w.2.own) 0x0#96
  let s1 := (ws.filter fun w => w.1 != a).foldl (fun s w => s.setFrag w.1 Frag.free) (s.tell a (.fuse bar))
  (s1.setFrag a { s.frag a with own := own, state := .ready }).setGroup group ((s1.group group).setBar bar Bar.idle)
/-- R156, R157: JOIN_FUSION: when every lane expected has arrived and the anchor waits, waiters elsewhere go to it, and once all are there they
fuse. -/
def execJoinFusion (group bar : Nat) (s : State) : Host.Outcome State Fault Refusal :=
  let b := (s.group group).bar bar
  let ws := s.waiters group bar
  .next (match ws.find? fun w => w.2.own.getLsbD b.alane with
    | none => s
    | some (a, A) =>
      let far := ws.filter fun w => w.2.home != A.home || w.2.dev != A.dev
      if s.keeps (s.group group) = false ∨ s.asleep a ∨ b.armed = false ∨ b.arrived ≠ b.expect then s
      else if !far.isEmpty then far.foldl (fun s w => s.sendWaiter w.1 bar A.dev A.home) s
      else if ws.foldl (fun m w => m ||| w.2.own) 0x0#96 == b.expect then
        if s.elsewhere A then s.fuseAway group bar a ws else s.fuseAt group bar a ws
      else s)

/-! Split-table updates (R146) -/

/-- Whether an update comes from the primary home, not to it. -/
def SplitUpd.down (u : SplitUpd) : Bool :=
  match u with
  | .given _ _ => true
  | .refused => true
  | .go _ _ _ => true
  | .fuse _ => true
  | .release => true
  | .stop => true
  | .spawned _ => true
  | .worded _ => true
  | .late _ _ => true
  | _ => false
/-- R146: the primary home answers a request for its records and for entries, which it reserves: all, or none where one of 16 to 95
would be among them. -/
def State.answerAsk (s : State) (group k src kids : Nat) : State :=
  let es := (s.freeEntries group).take kids
  let es := if es.length < kids ∨ es.any (fun i => decide (16 ≤ i)) then [] else es
  let s1 := es.foldl (fun s i => s.setFrag (fragNo group i) { Frag.free with
    alive := true, group := group, idx := i, dev := src, state := .transit src 0 true }) s
  s1.tell k (.given es (s.group group).bars)
/-- R146, R147, R347: an update from another device at the primary home: an entry whose fragment is away follows it, and one that owns
no lane is free once that fragment's release is complete (R237). -/
def State.applyAway (s : State) (group idx src : Nat) (u : SplitUpd) : State :=
  let k := fragNo group idx
  let f := s.frag k
  let away := f.alive && s.elsewhere f
  let s := s.setGroup group ((s.group group).applyUpd u)
  let free := fun (s : State) (k : Nat) (f : Frag) => s.setFrag k (if f.own = 0x0#96 then Frag.free else f)
  match u with
  | .retire lanes =>
    let own := without f.own lanes
    if away then s.setFrag k { f with own := own, state := if own = 0x0#96 then .ended else f.state } else s
  | .entry dev home st own =>
    if away then
      let s1 := free s k { f with dev := dev, home := home, state := st, own := own }
      if st = .ready ∧ (s.grid (s.team (s.group group).team).grid).stopped then s1.tell k .stop
      else match st with
        | .join bar => s1.joinArrive k bar
        | _ => s1
    else s
  | .spawn pc regs =>
    if away then
      match s.spawnGroup group pc regs with
      | some s1 => s1.tell k (.spawned true)
      | none => s.tell k (.spawned false)
    else s
  | .word w => if away then (s.teamWord k w).1.tell k (.worded (s.teamWord k w).2) else s
  | .ovt v => if away then (s.setOvt group v).tell k (.given [] (s.group group).bars) else s
  | .ask kids => if away then s.answerAsk group k src kids else s
  | .back es => es.foldl (fun s i =>
      let c := s.frag (fragNo group i)
      if c.alive && s.elsewhere c && c.own == 0x0#96 then s.setFrag (fragNo group i) Frag.free else s) s
  | .lease cause2 home addr pc => s.gridEnd (s.team (s.group group).team).grid home group cause2 addr pc
  | _ => s
/-- R146, R155: a fault in an update that is found where it is applied, reported at the word that made it. The fragment takes it where it
stands, ending a wait; one that has ended takes none (log 57). After a refused update no other is sent for it. -/
def State.lateFault (s : State) (n : Nat) (w : WordAt) (r : FaultRec) : State :=
  let f := s.frag n
  if f.alive = false ∨ s.elsewhere f ∨ f.own = 0x0#96 then s
  else
    let woken := (s.setFrag n { f with state := .ready }).acquire n
    let s1 := if f.state = .ready then s else if r.code = 0x16#8 then woken else woken.report n
    s1.faultOn n w.ti0 w.rpc w.pc r
/-- Whether a fragment cannot take such a fault yet: it travels, or a trap of it is due. -/
def State.lateBusy (s : State) (n : Nat) : Bool :=
  let f := s.frag n
  f.alive && !s.elsewhere f && (f.due.isSome || (match f.state with | .transit _ _ _ => true | _ => false))
/-- R146, R156 to R158, R347: word from the primary home to a fragment here. Entries that nothing here asks for are given back. -/
def State.applyHere (s : State) (group idx : Nat) (u : SplitUpd) : State :=
  let k := fragNo group idx
  let f := s.frag k
  let g := s.group group
  match u with
  | .given es bars =>
    let s1 := s.setGroup group { g with bars := bars }
    if f.alive ∧ f.grant = .asked then s1.setFrag k { f with grant := .given es }
    else if es = [] then s1
    else s1.splitOut f.home g.dev g idx (.back es) ⟨0, 0, 0⟩
  | .refused => if f.alive ∧ f.grant = .asked then s.setFrag k { f with grant := .refused } else s
  | .go bar dev home => if f.alive ∧ f.state = .join bar then s.joinMove k bar dev home else s
  | .fuse bar => s.fuseAt group bar k (s.waiters group bar)
  | .spawned ok => if f.alive ∧ f.grant = .asked then s.setFrag k { f with grant := .spawned ok } else s
  | .worded r => if f.alive ∧ f.grant = .asked then s.setFrag k { f with grant := .word r } else s
  | .late w key => s.lateFault k w (if key then keyFault f.own g.dev g.home else faultOf 0x24#8 1)
  | .release => if f.alive ∧ f.state.atBarrt then (s.setFrag k { f with state := .ready }).acquire k else s
  | .stop => if f.alive then s.stopFrag k else s
  | _ => s
/-- R146: whether message `m` of the fabric is a split-table update that must wait for an earlier one of the same fragment. -/
def State.splitBehind (s : State) (n : Nat) (m : FabMsg) : Bool :=
  match m with
  | .split src _ _ gridid teamid gidx idx _ _ => (s.fabIn.take n).any fun y => match y with
    | .split a _ _ b c d e _ _ => a == src && b == gridid && c == teamid && d == gidx && e == idx
    | _ => false
  | _ => false
/-- R146: the answer to an update that the key table refuses: a word that waits for one is told so, and another is reported at its word. -/
def SplitUpd.refusal (u : SplitUpd) (at' : WordAt) : SplitUpd :=
  match u with
  | .ask _ => .refused
  | .spawn _ _ => .refused
  | .ovt _ => .refused
  | .word _ => .refused
  | _ => .late at' true
/-- Whether an update from another device waits for a team that does not hold its core: a word that acts there. -/
def SplitUpd.needsCore (u : SplitUpd) : Bool := match u with | .word _ => true | _ => false
/-- R146: SPLIT_UPDATE_APPLY: of message `n` in flight; or, past those, of a message of the fabric, which the key table checks. -/
def execSplitUpdateApply (n : Nat) (s : State) : Host.Outcome State Fault Refusal :=
  .next (if n < s.net.length then
      match s.net[n]? with
      | some (.split f group u at') =>
        let g := s.group group
        let s1 := s.dropMsg n
        if (s.net.take n).any fun m => match m with | .split k _ _ _ => k == f | _ => false then s
        else if s.keeps g = false then
          if s.portShut (s.frag f).home g.dev && s.lateBusy f then s
          else (if s.portShut (s.frag f).home g.dev then s1.applyHere group (f % 96) (u.refusal at') else s1.splitOut (s.frag f).home g.dev g (f % 96) u at').reap
        else if g.clashes u then (if s.lateBusy f then s else (s1.lateFault f at' (faultOf 0x24#8 1)).reap)
        else (s1.setGroup group (g.applyUpd u)).reap
      | _ => s
    else
      match s.fabIn[n - s.net.length]? with
      | some (.split src dst keyidx gridid teamid gidx idx u at') =>
        let s1 := { s with fabIn := s.fabIn.eraseIdx (n - s.net.length) }
        if s.splitBehind (n - s.net.length) (.split src dst keyidx gridid teamid gidx idx u at') then s
        else
          match s.groupNamed (if u.down then src else s.fabric.toNat) gridid teamid gidx with
          | some k =>
            let g := s.group k
            let back := fun (v : SplitUpd) => s1.splitOut g.home src g idx v ⟨0, 0, 0⟩
            if s.keyOk keyidx src g.rights.asid 0x01#5 = false then (if u.down then s1 else back (u.refusal at'))
            else if u.down then (match u with | .late _ _ => if s.lateBusy (fragNo k idx) then s else s1.applyHere k idx u | _ => s1.applyHere k idx u)
            else if g.clashes u then back (.late at' false)
            else if u.needsCore && !s.holdsCore (s.team g.team) then s
            else s1.applyAway k idx src u
          | none => s1
      | _ => s)

/-! Team barriers, and the wake of WAITW -/

/-- The live fragments of a team. -/
def State.fragsOfTeam (s : State) (team : Nat) : List (Nat × Frag) :=
  s.frags.filter fun e => e.2.alive && (s.group e.2.group).alive && s.keeps (s.group e.2.group) && (s.group e.2.group).team == team && e.2.own != 0x0#96
/-- R158: BARRT_RELEASE: every live lane of the team waits, and the scratchpad and vault accesses made before have been performed. -/
def execBarrtRelease (team : Nat) (s : State) : Host.Outcome State Fault Refusal :=
  let fs := s.fragsOfTeam team
  let busy := s.net.any fun m => match m with
    | .store r => r.elems.any (fun e => e.space != .dram) && r.owners.any fun o => fs.any fun f => f.1 == o
    | _ => false
  .next (if fs.isEmpty || fs.any (fun f => s.asleep f.1) || busy || !(fs.all fun f => f.2.state.atBarrt) then s
    else fs.foldl (fun s f =>
      let s1 := s.setFrag f.1 { s.frag f.1 with state := .ready }
      if s.elsewhere f.2 then s1.tell f.1 .release else s1.acquire f.1) s)

/-- R163: a watch of another device's word has seen the word change, or its page its generation: that device is told. -/
def State.wakeAway (s : State) (k : Nat) : State :=
  match s.awayWatches.find k with
  | some w =>
    let now := match s.walk w.asid w.va with | .ok x => x.gen | .error _ => w.gen
    if w.woken || now != w.gen then ({ s with awayWatches := s.awayWatches.del k } : State).sendFab (.reply w.src w.tag (Reply.ok [(0, 0)])) else s
  | none => s
/-- R163: WAITW_WAKE: the word has changed, or its page its generation. -/
def execWaitwWake (frag : Nat) (s : State) : Host.Outcome State Fault Refusal :=
  match (s.frag frag).state with
  | .waitw _ _ va gen woken =>
    let now := match s.walk (s.group (s.frag frag).group).rights.asid va with | .ok x => x.gen | .error _ => gen
    if !s.asleep frag && (woken || now != gen) then finish (s.wake frag) (.done ((s.wake frag).setE false)) else .next s
  | .waitAway _ va (some (code, reason, e)) =>
    if s.asleep frag then .next s
    else finish (s.wake frag) (if code = 0 then .done ((s.wake frag).setE e) else .fault (faultAt code reason [⟨0, va, 4⟩]))
  | .waitAway _ _ none => .next s
  | _ => .next (s.wakeAway frag)

/-! A core's order of service -/

/-- R110, R165, R298: whether the core may take the entry of a fragment that holds one: no result of it is outstanding, and it is parked in
LAUNCH, or it is ready and stands behind the head of a service list or has issued since it took the entry. -/
def State.mayEvict (s : State) (core n : Nat) : Bool :=
  let f := s.frag n
  f.alive && f.resident && f.coreKey == core && !s.elsewhere f && !s.setAside n && !f.parked && f.msync.isNone && f.outs.isEmpty && f.grp.isNone && f.pfx.isNone &&
    (f.state.inLaunch || (f.state == .ready && ((s.core core).behind n || decide (f.since < f.issued))))
/-- R110: the fragment evicted next: of those parked in LAUNCH, else of those behind the head of a service list, else of all, the one that issued
least recently. -/
def State.evictee (s : State) (core : Nat) : Option Nat :=
  let ns := (s.frags.map (·.1)).filter (s.mayEvict core)
  let oldest := fun (xs : List Nat) =>
    match (xs.map fun n => (s.frag n).issued).min? with
    | some m => xs.find? fun n => (s.frag n).issued == m
    | none => none
  match oldest (ns.filter fun n => (s.frag n).state.inLaunch), oldest (ns.filter (s.core core).behind) with
  | some n, _ => some n
  | none, some n => some n
  | none, none => oldest ns
/-- R165: the residency wait list: fragments that an eviction, or a place in the rotation without an entry, makes wait come last. -/
def State.waitsOf (s : State) (core : Nat) : List Nat :=
  let c := s.core core
  c.waits ++ c.rot.filter fun n => (s.frag n).alive && !(s.frag n).resident && (s.frag n).state == .ready && !c.waits.contains n
/-- R110: eviction of a whole context: its header and lines go back to its record, and its entry is free. It waits for one again at
once, unless it stands behind the head of a service list. -/
def State.evict (s : State) (core n : Nat) : State :=
  let s := s.dropLines core n
  let c := s.core core
  (s.setFrag n { s.frag n with resident := false, turn := 0 }).setCore core { c with
    rot := c.rot.filter (· != n), waits := if c.behind n || (s.frag n).state != .ready then c.waits else c.waits ++ [n] }
/-- R109, R165: RESIDENCY_GRANT: a free context-state entry goes to the fragment that has waited longest; where none is free, one is
freed by eviction. -/
def execResidencyGrant (core : Nat) (s : State) : Host.Outcome State Fault Refusal :=
  let c := s.core core
  let ws := s.waitsOf core
  let s := if ws = c.waits then s else s.setCore core { c with waits := ws }
  .next (match ws with
    | n :: rest =>
      if 64 ≤ s.entries core then (match s.evictee core with | some v => s.evict core v | none => s)
      else if !s.linesFit core 2 then s
      else (s.setCore core { s.core core with waits := rest }).seat n
    | [] => s)
/-- R149: TURN_END: the turn in progress on a core ends: its fragment has used its weight, or cannot issue. -/
def execTurnEnd (core : Nat) (s : State) : Host.Outcome State Fault Refusal :=
  let c := s.core core
  .next (match c.rot.find? fun n => (s.frag n).turn != 0 with
    | some n =>
      let f := s.frag n
      if s.unheld n = false ∨ max 1 (s.group f.group).weight ≤ f.turn then (s.setFrag n { f with turn := 0 }).setCore core (c.endTurn n) else s
    | none => s)
/-- R150: SERVICE_PASS_BOUND. -/
def execServicePassBound (frag : Nat) (s : State) : Host.Outcome State Fault Refusal :=
  let f := s.frag frag
  let c := s.core f.coreKey
  .next (if f.alive && !f.begun && c.heads frag && decide (16384 ≤ f.served) then (s.setFrag frag { f with served := 0, turn := 0 }).setCore f.coreKey (c.passSvc frag) else s)
/-- R144: SFU_ENTRY_COMPLETE: the oldest entry writes its lanes and frees itself. -/
def execSfuEntryComplete (core : Nat) (s : State) : Host.Outcome State Fault Refusal :=
  let c := s.core core
  .next (match c.sfuQ with
    | n :: rest =>
      let s1 := (s.setCore core { c with sfuQ := rest }).count core 6 1
      match (s.frag n).outs.findIdx? fun o => o.kind == .sfu with
      | some k => s1.deliver n k
      | none => s1
    | [] => s)

/-! Register lines (R108, R110) -/

/-- R110: the word that waited for a line may issue. -/
def State.unstall (s : State) (n : Nat) : State := s.setFrag n { s.frag n with held := false }
/-- R110: REGISTER_LINE_FILL: a line that a resident fragment of the core lacks is read from its context record; it waits while no line can
be evicted for it. -/
def execRegisterLineFill (core frag line : Nat) (s : State) : Host.Outcome State Fault Refusal :=
  let f := s.frag frag
  .next (if !(f.alive && f.resident && f.coreKey == core) || decide (258 ≤ line) || (s.core core).holdsLine frag line || s.linesBlocked core line then s
    else (s.fillLine core frag line).unstall frag)

/-! The map unit (R214) -/

/-- R214: MAP_FILL: a line of a mapped range is read at its home, as a plain .dev read, once what a save or retirement wrote back of it has been
performed; dirty bytes stay. A line whose page is not mapped is filled once it is (log 34). -/
def execMapFill (team entry line : Nat) (s : State) : Host.Outcome State Fault Refusal :=
  let t := s.team team
  .next (match t.maps.find entry with
    | none => s
    | some m =>
      if !(s.holdsCore t && t.fills.contains (entry, line)) then s
      else
        let va := fun (i : Nat) => m.gva + BitVec.ofNat 64 (256 * line + 8 * i)
        let as := (List.range 32).map fun i => Addr.mk 0 (va i) 8
        if (as.any fun a => s.protOf t.coreKey m.rights .read a.va != 0) || s.backPending m.rights.asid (va 0) 256 then s
        else
          match s.gather (.fill team entry line) t.coreKey m.rights as with
          | .wait s => s
          | .stop _ => { s with answers := s.answers.filter fun a => a.asker != Asker.fill team entry line }
          | .val xs s =>
            let base := scrKey t.coreKey (t.base + m.off + 256 * line)
            let cells := (cellsAt base (xs.flatMap fun x => leBytes 8 x.1.toNat)).filter fun c => !m.dirty.contains (256 * line + (c.1 - base))
            let bad := (List.range 256).filter fun i => ((xs[i / 8]?).map (·.2)).getD false && !m.dirty.contains (256 * line + i)
            let s1 := s.writeScr cells
            let s2 := { s1 with sramErr := s1.sramErr ++ bad.map fun i => (1, base + i) }
            let t2 := s2.team team
            (s2.setTeam team { t2 with maps := t2.maps.ins entry { m with filled := m.filled ++ [line] }, fills := t2.fills.filter (· != (entry, line)) }).syncAll)

end Sys2Proof.Machine
end

