-- ==== Sys2Proof/Machine/Dispatch.lean ====
section
/-! DEFINITION. The one match over every instruction: each arm is one call of its meaning. -/

namespace Sys2Proof.Machine

def exec (i : Instr) (s : State) : Host.Outcome State Fault Refusal :=
  match i with
  | .nop => Sys2Proof.Machine.execNop s
  | .pfx m r x z t => Sys2Proof.Machine.execPfx m r x z t s
  | .iaddS64 d a b => Sys2Proof.Machine.execIaddS64 d a b s
  | .iaddS32 d a b => Sys2Proof.Machine.execIaddS32 d a b s
  | .iaddV w d a b => Sys2Proof.Machine.execIaddV w d a b s
  | .isubS64 d a b => Sys2Proof.Machine.execIsubS64 d a b s
  | .isubS32 d a b => Sys2Proof.Machine.execIsubS32 d a b s
  | .isubV w d a b => Sys2Proof.Machine.execIsubV w d a b s
  | .imulS64 d a b => Sys2Proof.Machine.execImulS64 d a b s
  | .imulS32 d a b => Sys2Proof.Machine.execImulS32 d a b s
  | .imulV w d a b => Sys2Proof.Machine.execImulV w d a b s
  | .imulhIS64 d a b => Sys2Proof.Machine.execImulhIS64 d a b s
  | .imulhIS32 d a b => Sys2Proof.Machine.execImulhIS32 d a b s
  | .imulhIV w d a b => Sys2Proof.Machine.execImulhIV w d a b s
  | .imulhNS64 d a b => Sys2Proof.Machine.execImulhNS64 d a b s
  | .imulhNS32 d a b => Sys2Proof.Machine.execImulhNS32 d a b s
  | .imulhNV w d a b => Sys2Proof.Machine.execImulhNV w d a b s
  | .imadS64 d a b => Sys2Proof.Machine.execImadS64 d a b s
  | .imadS32 d a b => Sys2Proof.Machine.execImadS32 d a b s
  | .imadV w d a b => Sys2Proof.Machine.execImadV w d a b s
  | .idivIS64 d a b => Sys2Proof.Machine.execIdivIS64 d a b s
  | .idivIS32 d a b => Sys2Proof.Machine.execIdivIS32 d a b s
  | .idivIV w d a b => Sys2Proof.Machine.execIdivIV w d a b s
  | .idivNS64 d a b => Sys2Proof.Machine.execIdivNS64 d a b s
  | .idivNS32 d a b => Sys2Proof.Machine.execIdivNS32 d a b s
  | .idivNV w d a b => Sys2Proof.Machine.execIdivNV w d a b s
  | .iremIS64 d a b => Sys2Proof.Machine.execIremIS64 d a b s
  | .iremIS32 d a b => Sys2Proof.Machine.execIremIS32 d a b s
  | .iremIV w d a b => Sys2Proof.Machine.execIremIV w d a b s
  | .iremNS64 d a b => Sys2Proof.Machine.execIremNS64 d a b s
  | .iremNS32 d a b => Sys2Proof.Machine.execIremNS32 d a b s
  | .iremNV w d a b => Sys2Proof.Machine.execIremNV w d a b s
  | .iminIS64 d a b => Sys2Proof.Machine.execIminIS64 d a b s
  | .iminIS32 d a b => Sys2Proof.Machine.execIminIS32 d a b s
  | .iminIV w d a b => Sys2Proof.Machine.execIminIV w d a b s
  | .iminNS64 d a b => Sys2Proof.Machine.execIminNS64 d a b s
  | .iminNS32 d a b => Sys2Proof.Machine.execIminNS32 d a b s
  | .iminNV w d a b => Sys2Proof.Machine.execIminNV w d a b s
  | .imaxIS64 d a b => Sys2Proof.Machine.execImaxIS64 d a b s
  | .imaxIS32 d a b => Sys2Proof.Machine.execImaxIS32 d a b s
  | .imaxIV w d a b => Sys2Proof.Machine.execImaxIV w d a b s
  | .imaxNS64 d a b => Sys2Proof.Machine.execImaxNS64 d a b s
  | .imaxNS32 d a b => Sys2Proof.Machine.execImaxNS32 d a b s
  | .imaxNV w d a b => Sys2Proof.Machine.execImaxNV w d a b s
  | .iabsS64 d a => Sys2Proof.Machine.execIabsS64 d a s
  | .iabsS32 d a => Sys2Proof.Machine.execIabsS32 d a s
  | .iabsV w d a => Sys2Proof.Machine.execIabsV w d a s
  | .inegS64 d a => Sys2Proof.Machine.execInegS64 d a s
  | .inegS32 d a => Sys2Proof.Machine.execInegS32 d a s
  | .inegV w d a => Sys2Proof.Machine.execInegV w d a s
  | .andS64 d a b => Sys2Proof.Machine.execAndS64 d a b s
  | .andS32 d a b => Sys2Proof.Machine.execAndS32 d a b s
  | .andV w d a b => Sys2Proof.Machine.execAndV w d a b s
  | .orS64 d a b => Sys2Proof.Machine.execOrS64 d a b s
  | .orS32 d a b => Sys2Proof.Machine.execOrS32 d a b s
  | .orV w d a b => Sys2Proof.Machine.execOrV w d a b s
  | .xorS64 d a b => Sys2Proof.Machine.execXorS64 d a b s
  | .xorS32 d a b => Sys2Proof.Machine.execXorS32 d a b s
  | .xorV w d a b => Sys2Proof.Machine.execXorV w d a b s
  | .andnS64 d a b => Sys2Proof.Machine.execAndnS64 d a b s
  | .andnS32 d a b => Sys2Proof.Machine.execAndnS32 d a b s
  | .andnV w d a b => Sys2Proof.Machine.execAndnV w d a b s
  | .notS64 d a => Sys2Proof.Machine.execNotS64 d a s
  | .notS32 d a => Sys2Proof.Machine.execNotS32 d a s
  | .notV w d a => Sys2Proof.Machine.execNotV w d a s
  | .shlS64 d a b => Sys2Proof.Machine.execShlS64 d a b s
  | .shlS32 d a b => Sys2Proof.Machine.execShlS32 d a b s
  | .shlV w d a b => Sys2Proof.Machine.execShlV w d a b s
  | .shrS64 d a b => Sys2Proof.Machine.execShrS64 d a b s
  | .shrS32 d a b => Sys2Proof.Machine.execShrS32 d a b s
  | .shrV w d a b => Sys2Proof.Machine.execShrV w d a b s
  | .sarS64 d a b => Sys2Proof.Machine.execSarS64 d a b s
  | .sarS32 d a b => Sys2Proof.Machine.execSarS32 d a b s
  | .sarV w d a b => Sys2Proof.Machine.execSarV w d a b s
  | .rotS64 d a b => Sys2Proof.Machine.execRotS64 d a b s
  | .rotS32 d a b => Sys2Proof.Machine.execRotS32 d a b s
  | .rotV w d a b => Sys2Proof.Machine.execRotV w d a b s
  | .bfxIS64 d a b => Sys2Proof.Machine.execBfxIS64 d a b s
  | .bfxIS32 d a b => Sys2Proof.Machine.execBfxIS32 d a b s
  | .bfxIV w d a b => Sys2Proof.Machine.execBfxIV w d a b s
  | .bfxNS64 d a b => Sys2Proof.Machine.execBfxNS64 d a b s
  | .bfxNS32 d a b => Sys2Proof.Machine.execBfxNS32 d a b s
  | .bfxNV w d a b => Sys2Proof.Machine.execBfxNV w d a b s
  | .bfiS64 d a b => Sys2Proof.Machine.execBfiS64 d a b s
  | .bfiS32 d a b => Sys2Proof.Machine.execBfiS32 d a b s
  | .bfiV w d a b => Sys2Proof.Machine.execBfiV w d a b s
  | .popcS64 d a => Sys2Proof.Machine.execPopcS64 d a s
  | .popcS32 d a => Sys2Proof.Machine.execPopcS32 d a s
  | .popcV w d a => Sys2Proof.Machine.execPopcV w d a s
  | .clzS64 d a => Sys2Proof.Machine.execClzS64 d a s
  | .clzS32 d a => Sys2Proof.Machine.execClzS32 d a s
  | .clzV w d a => Sys2Proof.Machine.execClzV w d a s
  | .brevS64 d a => Sys2Proof.Machine.execBrevS64 d a s
  | .brevS32 d a => Sys2Proof.Machine.execBrevS32 d a s
  | .brevV w d a => Sys2Proof.Machine.execBrevV w d a s
  | .movS64 d a => Sys2Proof.Machine.execMovS64 d a s
  | .movS32 d a => Sys2Proof.Machine.execMovS32 d a s
  | .movV w d a b => Sys2Proof.Machine.execMovV w d a b s
  | .icmpS64 d a b k => Sys2Proof.Machine.execIcmpS64 d a b k s
  | .icmpS32 d a b k => Sys2Proof.Machine.execIcmpS32 d a b k s
  | .icmpV w d a b k => Sys2Proof.Machine.execIcmpV w d a b k s
  | .selS64 d a b => Sys2Proof.Machine.execSelS64 d a b s
  | .selS32 d a b => Sys2Proof.Machine.execSelS32 d a b s
  | .selV w d a b k => Sys2Proof.Machine.execSelV w d a b k s
  | .leaS64 d a b k => Sys2Proof.Machine.execLeaS64 d a b k s
  | .leaS32 d a b k => Sys2Proof.Machine.execLeaS32 d a b k s
  | .leaV w d a b k => Sys2Proof.Machine.execLeaV w d a b k s
  | .iaddImmS d a j => Sys2Proof.Machine.execIaddImmS d a j s
  | .iaddImmV d a j => Sys2Proof.Machine.execIaddImmV d a j s
  | .moviS d j => Sys2Proof.Machine.execMoviS d j s
  | .moviV d j => Sys2Proof.Machine.execMoviV d j s
  | .movhiS d j => Sys2Proof.Machine.execMovhiS d j s
  | .movhiV d j => Sys2Proof.Machine.execMovhiV d j s
  | .sread d n => Sys2Proof.Machine.execSread d n s
  | .swrite a n => Sys2Proof.Machine.execSwrite a n s
  | .shlImmS d a n => Sys2Proof.Machine.execShlImmS d a n s
  | .shrImmS d a n => Sys2Proof.Machine.execShrImmS d a n s
  | .sarImmS d a n => Sys2Proof.Machine.execSarImmS d a n s
  | .rotImmS d a n => Sys2Proof.Machine.execRotImmS d a n s
  | .shlImmV d a n => Sys2Proof.Machine.execShlImmV d a n s
  | .shrImmV d a n => Sys2Proof.Machine.execShrImmV d a n s
  | .sarImmV d a n => Sys2Proof.Machine.execSarImmV d a n s
  | .rotImmV d a n => Sys2Proof.Machine.execRotImmV d a n s
  | .faddV v d a b => Sys2Proof.Machine.execFaddV v d a b s
  | .faddS d a b => Sys2Proof.Machine.execFaddS d a b s
  | .fsubV v d a b => Sys2Proof.Machine.execFsubV v d a b s
  | .fsubS d a b => Sys2Proof.Machine.execFsubS d a b s
  | .fmulV v d a b => Sys2Proof.Machine.execFmulV v d a b s
  | .fmulS d a b => Sys2Proof.Machine.execFmulS d a b s
  | .ffmaV v d a b => Sys2Proof.Machine.execFfmaV v d a b s
  | .ffmaS d a b => Sys2Proof.Machine.execFfmaS d a b s
  | .fminV v d a b => Sys2Proof.Machine.execFminV v d a b s
  | .fminS d a b => Sys2Proof.Machine.execFminS d a b s
  | .fmaxV v d a b => Sys2Proof.Machine.execFmaxV v d a b s
  | .fmaxS d a b => Sys2Proof.Machine.execFmaxS d a b s
  | .fsgnCpyV v d a b => Sys2Proof.Machine.execFsgnCpyV v d a b s
  | .fsgnCpyS d a b => Sys2Proof.Machine.execFsgnCpyS d a b s
  | .fsgnNegV v d a b => Sys2Proof.Machine.execFsgnNegV v d a b s
  | .fsgnNegS d a b => Sys2Proof.Machine.execFsgnNegS d a b s
  | .fsgnXorV v d a b => Sys2Proof.Machine.execFsgnXorV v d a b s
  | .fsgnXorS d a b => Sys2Proof.Machine.execFsgnXorS d a b s
  | .fcmpV v d a b k => Sys2Proof.Machine.execFcmpV v d a b k s
  | .fcmpS d a b k => Sys2Proof.Machine.execFcmpS d a b k s
  | .fclassV v d a => Sys2Proof.Machine.execFclassV v d a s
  | .fclassS d a => Sys2Proof.Machine.execFclassS d a s
  | .frndV v d a k => Sys2Proof.Machine.execFrndV v d a k s
  | .frndS d a k => Sys2Proof.Machine.execFrndS d a k s
  | .redf d a o => Sys2Proof.Machine.execRedf d a o s
  | .scanfAddInc d a => Sys2Proof.Machine.execScanfAddInc d a s
  | .scanfAddExc d a => Sys2Proof.Machine.execScanfAddExc d a s
  | .scanfMinInc d a => Sys2Proof.Machine.execScanfMinInc d a s
  | .scanfMaxInc d a => Sys2Proof.Machine.execScanfMaxInc d a s
  | .scanfMinExc d a => Sys2Proof.Machine.execScanfMinExc d a s
  | .scanfMaxExc d a => Sys2Proof.Machine.execScanfMaxExc d a s
  | .setfmt a => Sys2Proof.Machine.execSetfmt a s
  | .getfmt d => Sys2Proof.Machine.execGetfmt d s
  | .setnm a b => Sys2Proof.Machine.execSetnm a b s
  | .getnm d => Sys2Proof.Machine.execGetnm d s
  | .cvtfNarrow d a f => Sys2Proof.Machine.execCvtfNarrow d a f s
  | .cvtfWiden d a f => Sys2Proof.Machine.execCvtfWiden d a f s
  | .cvfi d a f => Sys2Proof.Machine.execCvfi d a f s
  | .cvti d a f => Sys2Proof.Machine.execCvti d a f s
  | .pack4 d a b => Sys2Proof.Machine.execPack4 d a b s
  | .unpk4 d a b => Sys2Proof.Machine.execUnpk4 d a b s
  | .frcp d a => Sys2Proof.Machine.execFrcp d a s
  | .frsq d a => Sys2Proof.Machine.execFrsq d a s
  | .fsqrt d a => Sys2Proof.Machine.execFsqrt d a s
  | .fexp2 d a => Sys2Proof.Machine.execFexp2 d a s
  | .flog2 d a => Sys2Proof.Machine.execFlog2 d a s
  | .fsin d a => Sys2Proof.Machine.execFsin d a s
  | .fcos d a => Sys2Proof.Machine.execFcos d a s
  | .ftanh d a => Sys2Proof.Machine.execFtanh d a s
  | .br j => Sys2Proof.Machine.execBr j s
  | .brc k j => Sys2Proof.Machine.execBrc k j s
  | .brm m j => Sys2Proof.Machine.execBrm m j s
  | .call v x j => Sys2Proof.Machine.execCall v x j s
  | .ret => Sys2Proof.Machine.execRet s
  | .jtab d a b => Sys2Proof.Machine.execJtab d a b s
  | .bset k => Sys2Proof.Machine.execBset k s
  | .join k => Sys2Proof.Machine.execJoin k s
  | .barrt => Sys2Proof.Machine.execBarrt s
  | .barrtPub => Sys2Proof.Machine.execBarrtPub s
  | .spawn a b => Sys2Proof.Machine.execSpawn a b s
  | .exit => Sys2Proof.Machine.execExit s
  | .park => Sys2Proof.Machine.execPark s
  | .yield => Sys2Proof.Machine.execYield s
  | .waitw a b => Sys2Proof.Machine.execWaitw a b s
  | .preh n b => Sys2Proof.Machine.execPreh n b s
  | .ballot d a => Sys2Proof.Machine.execBallot d a s
  | .voteAny d a => Sys2Proof.Machine.execVoteAny d a s
  | .voteAll d a => Sys2Proof.Machine.execVoteAll d a s
  | .voteUni d a => Sys2Proof.Machine.execVoteUni d a s
  | .mpopc d a => Sys2Proof.Machine.execMpopc d a s
  | .mfirst d a => Sys2Proof.Machine.execMfirst d a s
  | .mand d a b => Sys2Proof.Machine.execMand d a b s
  | .mor d a b => Sys2Proof.Machine.execMor d a b s
  | .mxor d a b => Sys2Proof.Machine.execMxor d a b s
  | .mnot d a => Sys2Proof.Machine.execMnot d a s
  | .movMask d a => Sys2Proof.Machine.execMovMask d a s
  | .laneid d => Sys2Proof.Machine.execLaneid d s
  | .shflIdx d a b => Sys2Proof.Machine.execShflIdx d a b s
  | .shflUp d a b => Sys2Proof.Machine.execShflUp d a b s
  | .shflDown d a b => Sys2Proof.Machine.execShflDown d a b s
  | .shflXor d a b => Sys2Proof.Machine.execShflXor d a b s
  | .bcast d a b => Sys2Proof.Machine.execBcast d a b s
  | .redi d a o => Sys2Proof.Machine.execRedi d a o s
  | .scaniInc d a o => Sys2Proof.Machine.execScaniInc d a o s
  | .scaniExc d a o => Sys2Proof.Machine.execScaniExc d a o s
  | .ldV d b j w o => Sys2Proof.Machine.execLdV d b j w o s
  | .stV d b j w o => Sys2Proof.Machine.execStV d b j w o s
  | .stVNarrow d b j w o => Sys2Proof.Machine.execStVNarrow d b j w o s
  | .stp d b j w o => Sys2Proof.Machine.execStp d b j w o s
  | .ldS d b w o => Sys2Proof.Machine.execLdS d b w o s
  | .stS d b w o => Sys2Proof.Machine.execStS d b w o s
  | .lds d b j w o => Sys2Proof.Machine.execLds d b j w o s
  | .ldv d b j w o => Sys2Proof.Machine.execLdv d b j w o s
  | .sts d b j w o => Sys2Proof.Machine.execSts d b j w o s
  | .stv d b j w o => Sys2Proof.Machine.execStv d b j w o s
  | .fence k x => Sys2Proof.Machine.execFence k x s
  | .migr a => Sys2Proof.Machine.execMigr a s
  | .homeOf d a => Sys2Proof.Machine.execHomeOf d a s
  | .spmap a b => Sys2Proof.Machine.execSpmap a b s
  | .spflush a b => Sys2Proof.Machine.execSpflush a b s
  | .leaseq d a => Sys2Proof.Machine.execLeaseq d a s
  | .atom d b j o r => Sys2Proof.Machine.execAtom d b j o r s
  | .atomF d b j o r => Sys2Proof.Machine.execAtomF d b j o r s
  | .atp d b j o r => Sys2Proof.Machine.execAtp d b j o r s
  | .xatom d b j h n => Sys2Proof.Machine.execXatom d b j h n s
  | .launch d a => Sys2Proof.Machine.execLaunch d a s
  | .lstat d => Sys2Proof.Machine.execLstat d s
  | .echain a e => Sys2Proof.Machine.execEchain a e s
  | .estat d e => Sys2Proof.Machine.execEstat d e s
  | .cbcfg a n => Sys2Proof.Machine.execCbcfg a n s
  | .cbput a n => Sys2Proof.Machine.execCbput a n s
  | .cbget d n => Sys2Proof.Machine.execCbget d n s
  | .cbwait a n => Sys2Proof.Machine.execCbwait a n s
  | .cpy a => Sys2Proof.Machine.execCpy a s
  | .bseal d => Sys2Proof.Machine.execBseal d s
  | .bwait a => Sys2Proof.Machine.execBwait a s
  | .syncw d a => Sys2Proof.Machine.execSyncw d a s
  | .swait d a => Sys2Proof.Machine.execSwait d a s
  | .wcfl => Sys2Proof.Machine.execWcfl s
  | .mma t a b x => Sys2Proof.Machine.execMma t a b x s
  | .oclaim f n => Sys2Proof.Machine.execOclaim f n s
  | .orel f n => Sys2Proof.Machine.execOrel f n s
  | .msync x => Sys2Proof.Machine.execMsync x s
  | .czero t => Sys2Proof.Machine.execCzero t s
  | .crd d t b => Sys2Proof.Machine.execCrd d t b s
  | .cwr t a b => Sys2Proof.Machine.execCwr t a b s
  | .cst t a f => Sys2Proof.Machine.execCst t a f s
  | .cstz t a f => Sys2Proof.Machine.execCstz t a f s
  | .cscl t a => Sys2Proof.Machine.execCscl t a s
  | .bskip m a b => Sys2Proof.Machine.execBskip m a b s
  | .openReg a x => Sys2Proof.Machine.execOpenReg a x s
  | .adv a x => Sys2Proof.Machine.execAdv a x s
  | .tend d x => Sys2Proof.Machine.execTend d x s
  | .closeReg x => Sys2Proof.Machine.execCloseReg x s
  | .fldc d x => Sys2Proof.Machine.execFldc d x s
  | .cxsect d a u w => Sys2Proof.Machine.execCxsect d a u w s
  | .cmerge d a u w => Sys2Proof.Machine.execCmerge d a u w s
  | .cwait d a => Sys2Proof.Machine.execCwait d a s
  | .cursv a => Sys2Proof.Machine.execCursv a s
  | .curld a => Sys2Proof.Machine.execCurld a s
  | .xbld d a x y => Sys2Proof.Machine.execXbld d a x y s
  | .xbmv d a x y => Sys2Proof.Machine.execXbmv d a x y s
  | .xbcal d x y => Sys2Proof.Machine.execXbcal d x y s
  | .xbst d x y => Sys2Proof.Machine.execXbst d x y s
  | .accept d a x y => Sys2Proof.Machine.execAccept d a x y s
  | .tldc d a t => Sys2Proof.Machine.execTldc d a t s
  | .tldb d a t => Sys2Proof.Machine.execTldb d a t s
  | .tsetl a t => Sys2Proof.Machine.execTsetl a t s
  | .tsamp a t => Sys2Proof.Machine.execTsamp a t s
  | .trd d a t => Sys2Proof.Machine.execTrd d a t s
  | .trdc d a t => Sys2Proof.Machine.execTrdc d a t s
  | .tstat d t => Sys2Proof.Machine.execTstat d t s
  | .cyc d => Sys2Proof.Machine.execCyc d s
  | .gtim d => Sys2Proof.Machine.execGtim d s
  | .gtset a => Sys2Proof.Machine.execGtset a s
  | .perf d a => Sys2Proof.Machine.execPerf d a s
  | .ovtld a => Sys2Proof.Machine.execOvtld a s
  | .htld a b => Sys2Proof.Machine.execHtld a b s
  | .keyld a b => Sys2Proof.Machine.execKeyld a b s
  | .tlbsd a b => Sys2Proof.Machine.execTlbsd a b s
  | .ptgen a => Sys2Proof.Machine.execPtgen a s
  | .trap n => Sys2Proof.Machine.execTrap n s
  | .tret => Sys2Proof.Machine.execTret s
  | .tretAt a => Sys2Proof.Machine.execTretAt a s
  | .saveq a => Sys2Proof.Machine.execSaveq a s
  | .timerTrap => Sys2Proof.Machine.execTimerTrap s
  | .parcelDepart frag => Sys2Proof.Machine.execParcelDepart frag s
  | .parcelOffer core dest => Sys2Proof.Machine.execParcelOffer core dest s
  | .parcelArrival n => Sys2Proof.Machine.execParcelArrival n s
  | .parcelReoffer home => Sys2Proof.Machine.execParcelReoffer home s
  | .parcelPlacement home => Sys2Proof.Machine.execParcelPlacement home s
  | .parcelPortIngress n => Sys2Proof.Machine.execParcelPortIngress n s
  | .parcelReturn n => Sys2Proof.Machine.execParcelReturn n s
  | .remoteRequestIngress n => Sys2Proof.Machine.execRemoteRequestIngress n s
  | .storeRequestPerform n => Sys2Proof.Machine.execStoreRequestPerform n s
  | .postedOpPerform n => Sys2Proof.Machine.execPostedOpPerform n s
  | .ackReturn n => Sys2Proof.Machine.execAckReturn n s
  | .loadSectorReturn frag n => Sys2Proof.Machine.execLoadSectorReturn frag n s
  | .remoteReadReturn n => Sys2Proof.Machine.execRemoteReadReturn n s
  | .splitUpdateApply n => Sys2Proof.Machine.execSplitUpdateApply n s
  | .registerLineFill core frag line => Sys2Proof.Machine.execRegisterLineFill core frag line s
  | .residencyGrant core => Sys2Proof.Machine.execResidencyGrant core s
  | .turnEnd core => Sys2Proof.Machine.execTurnEnd core s
  | .servicePassBound frag => Sys2Proof.Machine.execServicePassBound frag s
  | .sfuEntryComplete core => Sys2Proof.Machine.execSfuEntryComplete core s
  | .mmaPassComplete core n => Sys2Proof.Machine.execMmaPassComplete core n s
  | .msyncRelease frag => Sys2Proof.Machine.execMsyncRelease frag s
  | .slotClearDone core slot => Sys2Proof.Machine.execSlotClearDone core slot s
  | .mapFill team entry line => Sys2Proof.Machine.execMapFill team entry line s
  | .joinFusion group bar => Sys2Proof.Machine.execJoinFusion group bar s
  | .barrtRelease team => Sys2Proof.Machine.execBarrtRelease team s
  | .waitwWake frag => Sys2Proof.Machine.execWaitwWake frag s
  | .bwaitWake frag => Sys2Proof.Machine.execBwaitWake frag s
  | .swaitWake frag => Sys2Proof.Machine.execSwaitWake frag s
  | .cbwaitWake frag => Sys2Proof.Machine.execCbwaitWake frag s
  | .cwaitWake frag => Sys2Proof.Machine.execCwaitWake frag s
  | .launchAppendResume frag => Sys2Proof.Machine.execLaunchAppendResume frag s
  | .lqTailDoorbell fn queue value => Sys2Proof.Machine.execLqTailDoorbell fn queue value s
  | .lqEnWrite queue value => Sys2Proof.Machine.execLqEnWrite queue value s
  | .launchRecordRead queue => Sys2Proof.Machine.execLaunchRecordRead queue s
  | .gridDispatch grid core => Sys2Proof.Machine.execGridDispatch grid core s
  | .teamPlace grid core => Sys2Proof.Machine.execTeamPlace grid core s
  | .groupRetire group => Sys2Proof.Machine.execGroupRetire group s
  | .gridRetire grid => Sys2Proof.Machine.execGridRetire grid s
  | .copyEntry cmd => Sys2Proof.Machine.execCopyEntry cmd s
  | .gatherEntry cmd => Sys2Proof.Machine.execGatherEntry cmd s
  | .scatterEntry cmd => Sys2Proof.Machine.execScatterEntry cmd s
  | .bobbinEntry cmd => Sys2Proof.Machine.execBobbinEntry cmd s
  | .loopEntry cmd => Sys2Proof.Machine.execLoopEntry cmd s
  | .brifEntry cmd => Sys2Proof.Machine.execBrifEntry cmd s
  | .linkEntry cmd => Sys2Proof.Machine.execLinkEntry cmd s
  | .endEntry cmd => Sys2Proof.Machine.execEndEntry cmd s
  | .cbStepFire cmd => Sys2Proof.Machine.execCbStepFire cmd s
  | .batchComplete group batch => Sys2Proof.Machine.execBatchComplete group batch s
  | .bobbinWalkStep group => Sys2Proof.Machine.execBobbinWalkStep group s
  | .bobbinFinish group => Sys2Proof.Machine.execBobbinFinish group s
  | .xbLoadProgram home array => Sys2Proof.Machine.execXbLoadProgram home array s
  | .xbCalibrate home array => Sys2Proof.Machine.execXbCalibrate home array s
  | .xbProduct home array => Sys2Proof.Machine.execXbProduct home array s
  | .xbDriftReading home array => Sys2Proof.Machine.execXbDriftReading home array s
  | .tambLoadPerform home part => Sys2Proof.Machine.execTambLoadPerform home part s
  | .tambSettleStart home part => Sys2Proof.Machine.execTambSettleStart home part s
  | .tambSampleStart home part => Sys2Proof.Machine.execTambSampleStart home part s
  | .tambSettleExpiry home part => Sys2Proof.Machine.execTambSettleExpiry home part s
  | .tambRailReached home part j => Sys2Proof.Machine.execTambRailReached home part j s
  | .tambSampleExpiry home part => Sys2Proof.Machine.execTambSampleExpiry home part s
  | .xatomElementArrival n => Sys2Proof.Machine.execXatomElementArrival n s
  | .channelToCompute home chan => Sys2Proof.Machine.execChannelToCompute home chan s
  | .channelToNormal home chan => Sys2Proof.Machine.execChannelToNormal home chan s
  | .handlerRun home unit => Sys2Proof.Machine.execHandlerRun home unit s
  | .htldInstall home unit => Sys2Proof.Machine.execHtldInstall home unit s
  | .wcAgeExpiry core n => Sys2Proof.Machine.execWcAgeExpiry core n s
  | .drainArrival n => Sys2Proof.Machine.execDrainArrival n s
  | .orderedFlagArrival n => Sys2Proof.Machine.execOrderedFlagArrival n s
  | .orderedFlagPerform n => Sys2Proof.Machine.execOrderedFlagPerform n s
  | .closeMarker core dev => Sys2Proof.Machine.execCloseMarker core dev s
  | .preemptRequest part grid => Sys2Proof.Machine.execPreemptRequest part grid s
  | .preemptEscalation part => Sys2Proof.Machine.execPreemptEscalation part s
  | .restore team core => Sys2Proof.Machine.execRestore team core s
  | .freezeComplete part => Sys2Proof.Machine.execFreezeComplete part s
  | .pcFreezeSet part value => Sys2Proof.Machine.execPcFreezeSet part value s
  | .pcFreezeRelease part value => Sys2Proof.Machine.execPcFreezeRelease part value s
  | .shadowSwap part value => Sys2Proof.Machine.execShadowSwap part value s
  | .pcHomesWrite part value => Sys2Proof.Machine.execPcHomesWrite part value s
  | .pcEnSet part value => Sys2Proof.Machine.execPcEnSet part value s
  | .pcEnClear part value => Sys2Proof.Machine.execPcEnClear part value s
  | .pcVfWrite part value => Sys2Proof.Machine.execPcVfWrite part value s
  | .pcTdataCommit part value => Sys2Proof.Machine.execPcTdataCommit part value s
  | .registerWrite fn offset value => Sys2Proof.Machine.execRegisterWrite fn offset value s
  | .resync => Sys2Proof.Machine.execResync s
  | .mailboxUnknown code => Sys2Proof.Machine.execMailboxUnknown code s
  | .hostWrite home addr bytes => Sys2Proof.Machine.execHostWrite home addr bytes s
  | .hostRead home addr count => Sys2Proof.Machine.execHostRead home addr count s
  | .portTrain port extended => Sys2Proof.Machine.execPortTrain port extended s
  | .deviceReset => Sys2Proof.Machine.execDeviceReset s
  | .powerCreditWindow home => Sys2Proof.Machine.execPowerCreditWindow home s
  | .thermalThrottle => Sys2Proof.Machine.execThermalThrottle s
  | .thermalRestore => Sys2Proof.Machine.execThermalRestore s
  | .thermalTrip => Sys2Proof.Machine.execThermalTrip s
  | .rootBoot image => Sys2Proof.Machine.execRootBoot image s
  | .getVersion => Sys2Proof.Machine.execGetVersion s
  | .getCapabilities => Sys2Proof.Machine.execGetCapabilities s
  | .negotiateAlgorithms => Sys2Proof.Machine.execNegotiateAlgorithms s
  | .getDigests => Sys2Proof.Machine.execGetDigests s
  | .getCertificate => Sys2Proof.Machine.execGetCertificate s
  | .challenge nonce => Sys2Proof.Machine.execChallenge nonce s
  | .getMeasurements index => Sys2Proof.Machine.execGetMeasurements index s
  | .tileStorageError group tile part => Sys2Proof.Machine.execTileStorageError group tile part s
  | .remoteReadPerform n => Sys2Proof.Machine.execRemoteReadPerform n s

end Sys2Proof.Machine
end

