-- ==== Sys2Proof/Machine/Agents.lean ====
section
/-! DEFINITION. The move that the device makes where the agenda names none: the spec leaves the order of its agents open (R13), and
this is one order among those it allows (log 8). -/

namespace Sys2Proof.Machine

noncomputable section

/-- Steps that messages in flight and messages of the fabric may be due for. -/
def State.messageSteps (s : State) : List Instr :=
  ((List.range s.net.length).flatMap fun n =>
    [.storeRequestPerform n, .postedOpPerform n, .ackReturn n, .remoteReadPerform n, .remoteReadReturn n, .splitUpdateApply n, .xatomElementArrival n, .parcelArrival n]) ++
  ((List.range s.fabIn.length).flatMap fun n =>
    [.ackReturn (s.net.length + n), .remoteRequestIngress n, .drainArrival n, .orderedFlagArrival n, .parcelPortIngress n, .parcelReturn n, .remoteReadReturn (s.net.length + n), .splitUpdateApply (s.net.length + n)]) ++
  (List.range s.heldFlags.length).map .orderedFlagPerform
/-- Steps of fragments, groups and teams. -/
def State.workSteps (s : State) : List Instr :=
  (s.frags.filter (·.2.alive)).flatMap (fun e =>
    [.loadSectorReturn e.1 0, .parcelDepart e.1, .msyncRelease e.1, .waitwWake e.1, .bwaitWake e.1, .swaitWake e.1, .cbwaitWake e.1, .cwaitWake e.1,
      .launchAppendResume e.1, .servicePassBound e.1]) ++
  s.awayWatches.keys.map Instr.waitwWake ++
  (s.groups.filter (·.2.alive)).flatMap (fun e =>
    e.2.bars.keys.map (Instr.joinFusion e.1) ++ e.2.batches.map (fun b => Instr.batchComplete e.1 b.num.toNat) ++
      [.groupRetire e.1]) ++
  (s.groups.filter (·.2.bob.state == .running)).flatMap (fun e => [.bobbinWalkStep e.1, .bobbinFinish e.1]) ++
  (s.teams.filter (·.2.alive)).flatMap (fun e => Instr.barrtRelease e.1 :: e.2.fills.map fun x => Instr.mapFill e.1 x.1 x.2)
/-- R110: the fills that words held at issue wait for. -/
def State.fillSteps (s : State) : List Instr :=
  (s.frags.filter fun e => e.2.alive && e.2.held).flatMap fun e =>
    match decodeWord e.2.word with
    | .ok slot => (s.lacks e.1 e.2.word slot.instr).map fun k => Instr.registerLineFill e.2.coreKey e.1 k
    | .error _ => []
/-- Whether a core grants or frees a context-state entry now: a fragment that could issue keeps its entry for 16,384 clocks, the bound R150 gives the head of a service list. -/
def State.grantDue (s : State) (core : Nat) : Bool :=
  decide (s.entries core < 64) || (match s.evictee core with | some n => (s.core core).behind n || (s.frag n).state.inLaunch || decide ((s.frag n).since + 16384 ≤ s.clock) | none => false)
/-- Steps of cores, engines and homes. -/
def State.unitSteps (s : State) : List Instr :=
  s.cores.flatMap (fun e =>
    [.sfuEntryComplete e.1, .mmaPassComplete e.1 0, .turnEnd e.1] ++ (if s.grantDue e.1 then [.residencyGrant e.1] else []) ++
      e.2.slots.keys.map (Instr.slotClearDone e.1) ++ e.2.egress.map (fun p => Instr.parcelOffer e.1 (16 * p.dev + p.home)) ++
      (List.range e.2.wc.length).map (Instr.wcAgeExpiry e.1)) ++
  (s.cmds.filter fun e => e.2.alive && !e.2.done).flatMap (fun e =>
    [.copyEntry e.1, .gatherEntry e.1, .scatterEntry e.1, .bobbinEntry e.1, .loopEntry e.1, .brifEntry e.1, .linkEntry e.1, .endEntry e.1, .cbStepFire e.1]) ++
  s.homes.flatMap (fun e => [.parcelPlacement e.1, .parcelReoffer e.1])
/-- Steps of the analogue units and of the banks. -/
def State.analogSteps (s : State) : List Instr :=
  (s.xars.filter fun e => !e.2.queue.isEmpty).flatMap (fun e =>
    [.xbLoadProgram (e.1 / 512) (e.1 % 512), .xbCalibrate (e.1 / 512) (e.1 % 512), .xbProduct (e.1 / 512) (e.1 % 512)]) ++
  s.tambs.flatMap (fun e =>
    [.tambSettleExpiry (e.1 / 4) (e.1 % 4), .tambSampleExpiry (e.1 / 4) (e.1 % 4), .tambLoadPerform (e.1 / 4) (e.1 % 4), .tambSettleStart (e.1 / 4) (e.1 % 4),
      .tambSampleStart (e.1 / 4) (e.1 % 4)]) ++
  s.banks.flatMap (fun e => [.htldInstall (e.1 / 128) (e.1 % 128), .handlerRun (e.1 / 128) (e.1 % 128), .channelToCompute (e.1 / 128) (e.1 % 128 / 4)]) ++
  (s.chans.filter (·.2.compute)).map (fun e => Instr.channelToNormal (e.1 / 32) (e.1 % 32))
/-- The cores of a partition. -/
def State.partCores (s : State) (part : Nat) : List Nat := (s.homesOf part).flatMap fun h => (List.range 256).map (256 * h + ·)
/-- A core on which a grid's next team could be placed now (R293 to R295, R200). -/
def State.coreFor (s : State) (k : Nat) : Option Nat :=
  let g := s.grid k
  let cores := s.partCores g.part
  if g.stopped || g.preempted.isSome || s.issuerHeld g || !s.mayPlace k then none
  else if g.formation then
    match g.form with
    | some c =>
      let mine := c.waiting.filter fun w => w.team == g.placed
      if mine.isEmpty then none
      else cores.find? fun x => x / 256 == c.home && s.coreOf g.part x && (s.fitAt x c.block.scratch).isSome && decide (s.recordsUsed x + mine.length ≤ s.records)
    | none => none
  else if g.dispatched then
    if decide (g.placed < g.rcd.teams) && s.depMet g g.placed then cores.find? fun x => s.coreOf g.part x && s.roomFor x g.rcd else none
  else if s.leaseRoom g && s.depMet g 0 then cores.find? (s.mayDispatch k) else none
/-- Steps of the schedulers, of the host link and of the power manager. -/
def State.schedSteps (s : State) : List Instr :=
  s.lqs.keys.map Instr.launchRecordRead ++
  (s.grids.filter fun e => e.2.alive).flatMap (fun e =>
    Instr.gridRetire e.1 ::
      match s.coreFor e.1 with
      | some c => if e.2.dispatched || e.2.formation then [.teamPlace e.1 c] else [.gridDispatch e.1 c]
      | none => []) ++
  s.parts.flatMap (fun e => [.freezeComplete e.1, .preemptEscalation e.1]) ++
  (if s.mbStat = 1 then [.resync] else []) ++
  (if s.clock % 1050 = 0 then (List.range 12).map Instr.powerCreditWindow else [])
/-- Saved teams that a core could take (R355). -/
def State.restoreSteps (s : State) : List Instr :=
  (s.teams.filter fun e => e.2.alive && e.2.saved).filterMap fun e =>
    ((s.partCores (s.grid e.2.grid).part).find? fun c => s.restorable e.1 c).map (Instr.restore e.1)

/-- Whether a step changes anything. -/
def State.changes (s : State) (i : Instr) : Bool :=
  match exec i s with
  | .next t => decide (t ≠ s)
  | _ => false
/-- The fragments that could issue next (R149). -/
def State.readyNow (s : State) : List Nat :=
  s.cores.flatMap fun c =>
    match s.inTurn c.2.rot with
    | some n => [n]
    | none => (c.2.rot.take ((c.2.rot.takeWhile fun n => !s.unheld n).length + 1)).filter s.mayIssue
/-- The fragment that issues: the cores and the held words take turns by the clock. -/
def State.firstReady (s : State) : Option Nat := s.readyNow[s.clock % s.readyNow.length]?
/-- The first fragment with a result of a word of variable latency to be written, and its place (R62). -/
def State.firstResult (s : State) : Option (Nat × Nat) :=
  s.frags.findSome? fun e => if e.2.alive then (e.2.outs.findIdx? fun o => o.kind == .unit).map fun k => (e.1, k) else none
/-- R62: while a fragment with results outstanding could issue, words go first, so that a word that needs such a result takes HAZARD;
at every 4,096th clock the other agents come first. -/
def State.eager (s : State) : Option Nat :=
  if s.clock % 4096 ≠ 0 ∧ (s.frags.any fun e => e.2.alive && !e.2.outs.isEmpty && s.unheld e.1) then s.firstReady else none
/-- The move made once no register line is to be filled: a word before results that could still be missed, a result, a step of the device that
changes something, a word, a restore, or a clock. -/
def State.laterMove (s : State) : Move :=
  match s.eager with
  | some n => .issue n
  | none =>
    match s.firstResult with
    | some x => .result x.1 x.2
    | none =>
      match (s.messageSteps ++ s.workSteps ++ s.unitSteps ++ s.analogSteps ++ s.schedSteps).find? s.changes with
      | some i => .event i
      | none =>
        match s.firstReady with
        | some n => .issue n
        | none =>
          match s.restoreSteps with
          | i :: _ => .event i
          | [] => .idle 1
/-- The move made where the agenda is empty: first a register line that a held word waits for is filled. -/
def State.nextMove (s : State) : Move :=
  match s.fillSteps.find? s.changes with
  | some i => .event i
  | none => s.laterMove

end

end Sys2Proof.Machine
end

