-- ==== Sys2Proof/Machine/Step.lean ====
section
/-! DEFINITION. One step of the device: the agent that moves next performs its move. -/

namespace Sys2Proof.Machine

/-- R60: clocks pass before a chain group, and while a word is held; the words of a group issue in one clock. -/
def State.timed (s : State) (n : Nat) : State :=
  let f := s.frag n
  if (f.grp.isSome || f.pfx.isSome) && !f.held then s else s.paced
/-- A fragment issues its next word after the clocks that pass first. -/
noncomputable def State.issueNow (s : State) (n : Nat) : Host.Outcome State Fault Refusal :=
  match (s.timed n).issue n with
  | .go t i => exec i t
  | .did t => .next t
/-- R149, R356: a fragment that may not issue leaves the device as it is. -/
noncomputable def State.issueMove (s : State) (n : Nat) : Host.Outcome State Fault Refusal :=
  if s.mayIssue n then s.issueNow n else .next s

/-- One move of the device (log 8). A word is no step of the device's own: it runs only at issue. -/
noncomputable def State.perform (s : State) (m : Move) : Host.Outcome State Fault Refusal :=
  match m with
  | .issue n => s.issueMove n
  | .event i => if i.fields.isNone then exec i s else .next s
  | .result n k => .next (s.unitResult n k)
  | .idle d => .next (s.tick d)
  | .clocks c d => .next (s.tickCore c d)

/-- One step: the fragment in the middle of a chain group goes on; else the head of the agenda; else the first agent that has
something to do. -/
noncomputable def step (s : State) : Host.Outcome State Fault Refusal :=
  match s.forced with
  | some n => s.issueNow n
  | none =>
    match s.agenda with
    | m :: rest => State.perform { s with agenda := rest } m
    | [] => s.perform s.nextMove

/-! Placing an instruction where the next step fetches -/

/-- R207: the leaf that maps page 0 of address space 0 to frame 0 of home 0, readable, writable and executable, kind RC. -/
def State.leaf0 (s : State) : BitVec 128 := BitVec.ofNat 128 (s.fabric.toNat * 2 ^ 64 + 2 ^ 63 + 2 ^ 61 + 2 ^ 59 + 2 ^ 58 + 2 ^ 57)
/-- R325: a segment of partition 0 and address space 0 over the addresses 0 to 65,535. -/
def State.seg0 : BitVec 256 := BitVec.ofNat 256 (65536 * 2 ^ 160 + 1)
/-- R159: a group of partition 0 in address space 0, privileged, so that every word may run. -/
def State.group0 (s : State) : Group :=
  { Group.none with alive := true, rights := ⟨0, 0, true, 0, 0, 0, s.fabric.toNat⟩, dev := s.fabric.toNat }
/-- R98: its fragment, at address 0 of core 0 of home 0. -/
def State.frag0 (s : State) : Frag :=
  { Frag.free with
    alive := true, own := allLanes, dev := s.fabric.toNat, resident := true
    regs := { Regs.created with m := Regs.created.m.setIfInBounds 0 allLanes } }
/-- The machine with an instruction's word stored at address 0 and a fragment that issues it at the next step: a program is
loaded from outside, and this stands for that load (log 10). -/
def State.withFetchWord (s : State) (nbits w : Nat) : State :=
  let core := s.core 0
  let p := s.part 0
  { s with
    mem := putCells s.mem (cellsAt 0 (leBytes 4 (w % 2 ^ nbits)))
    cur := 0
    frags := s.frags.ins 0 s.frag0
    groups := s.groups.ins 0 s.group0
    cores := s.cores.ins 0 { core with rot := [0], svc := [], icache := [], tlb := ⟨0, 0, false, s.leaf0⟩ :: core.tlb }
    parts := s.parts.ins 0 { p with frozen := false, freeze := false, swapping := false, held := [], shadow := [] }
    asTab := s.asTab.ins 0 (BitVec.twoPow 256 191)
    segs := s.segs.ins 0 State.seg0
    thermal := .normal
    agenda := [.issue 0] }

end Sys2Proof.Machine
end

