-- ==== Sys2Proof/Safety.lean ====
section
/-! DEFINITION. What counts as a safe run: memory in its canonical form, and steps that end in a next state. -/

namespace Sys2Proof

/-- The canonical form of every memory of the device, and of the keys of its bytes: keys strictly rising, nothing listed that reads as 0 unlisted. -/
def Machine.Memory.wf (s : Machine.State) : Bool :=
  Machine.KMap.wf 0x00#8 s.mem && Machine.KMap.wf 0x00#8 s.scratch && Machine.KMap.wf 0x00#8 s.vault && Machine.KMap.wf 0x00#8 s.opmem &&
    Machine.KMap.wf 0 s.memKeys

/-- R60, R63, R149: no park, division or trap falls due when the word at issue ends, and no turn ends: the word is within its chain group, or none
of them is asked for by the word, its group or its fragment, and the fragment's turn has beat slots left. -/
def Machine.State.calm (s : Machine.State) : Bool :=
  s.f.chain || (!s.f.parked && !s.f.park && s.f.leave.isNone && s.f.due.isNone && decide (s.f.turn < max 1 (s.group s.f.group).weight) &&
    (match s.f.grp with | some g => !g.park && g.leave.isNone | none => true))
/-- R58, R60: a fragment that goes on at `pc`: within its chain group, or after it. -/
def Machine.Frag.goOn (f : Machine.Frag) (pc : DWord) : Machine.Frag :=
  { f with pc := pc, pfx := none, held := false, counted := false, grp := if f.chain then f.grp else none }

/-- A step that neither faults nor refuses. -/
def safeStep (s : Machine.State) : Prop := ∃ t, Machine.step s = .next t

end Sys2Proof
end

