-- ==== Sys2Proof/Certificates/Slice0/Obligations.lean ====
section
/-! DEFINITION. The statements for the provers: what the rules of spec/ say of the words, of the device's own steps and of the whole
machine. The first part names what the statements have in common. -/

namespace Sys2Proof.Claim

open Sys2Proof.Machine

/-- The word at issue has the effect `t`, and its fragment goes on at the next word. -/
def Goes (i : Instr) (s t : State) : Prop := exec i s = .next (t.retire (s.f.pc + 4))
/-- The word at issue has the effect `t`, and its fragment goes on at `pc`. -/
def Jumps (i : Instr) (s t : State) (pc : DWord) : Prop := exec i s = .next (t.retire pc)
/-- The word at issue takes a fault and has no other effect. -/
def Faults (i : Instr) (s : State) (r : FaultRec) : Prop := exec i s = .next (s.takeFault r)
/-- The fragment at issue holds its word, which it issues again later; `t` is the state it leaves meanwhile. Its chain group is as before the
word, and its turn is over. -/
def Holds (i : Instr) (s t : State) : Prop := exec i s = .next ((t.setF t.f.hold).endTurnOf s.cur)
/-- R103: a scalar word whose sources hold no poison writes `x` to `d`, bounded when one of its sources is. -/
def Scalar (i : Instr) (s : State) (d : RegNum) (srcs : List RegNum) (x : DWord) : Prop :=
  s.poisoned (srcs.map Src.s) = none → Goes i s (s.wrS d x (s.bndOf (srcs.map Src.s)))
/-- R103: a vector word whose sources hold no poison in the lanes it reads writes `x` to the lanes of `d`, bounded when one of its
sources is. -/
def Vector (i : Instr) (s : State) (d : RegNum) (srcs : List Src) (x : Nat → Word) : Prop :=
  s.poisoned srcs = none → Goes i s (s.wrV d x (s.bndOf srcs))

/-- R63: the fragment at issue may park at once: none of its results is outstanding, and no division is due in its chain group. -/
def Still (s : State) : Prop := s.f.outs = [] ∧ ∀ g, s.f.grp = some g → g.leave = none
/-- R298, R302, R308 to R312, log 58: a word of a fragment on another device acts at its team's core: it sends `w` there once, is held until the
answer, takes a fault that comes back, and with a value has the effect `t`. -/
def AsksTeam (i : Instr) (s : State) (w : TeamWord) (t : DWord → State → State) : Prop :=
  (s.f.grant = .none → Holds i s (s.sendWord s.cur w)) ∧
  (s.f.grant = .asked → Holds i s s) ∧
  (s.f.grant = .refused → Faults i s (keyFault s.f.own s.g.dev s.g.home)) ∧
  (∀ x, s.f.grant = .word (.fault x) → Faults i s x) ∧
  ∀ v, s.f.grant = .word (.done v) → Goes i s (t v (s.setF { s.f with grant := .none }))
/-- R48, R50, R326, log 58: the OVT under which a word of the fragment at issue queues its command: its group's, which the primary home tells a
fragment on another device that has asked. -/
def TakesOvt (s : State) (ovt : BitVec 16) : Prop :=
  (s.g.dev = s.fabric.toNat ∧ ovt = s.g.ovt) ∨ (s.g.dev ≠ s.fabric.toNat ∧ ∃ v, s.f.grant = .word (.done v) ∧ ovt = v.setWidth 16)
/-- Such a word leaves results outstanding, and what it was told is used up. -/
def tookOvt (s : State) (outs : List Out) : Frag :=
  { s.f with outs := s.f.outs ++ outs, grant := if s.g.dev = s.fabric.toNat then s.f.grant else .none }
/-- Such a word of a fragment on another device that has asked for nothing asks the primary home for the OVT, and is held. -/
def AsksOvt (i : Instr) (s : State) : Prop := s.g.dev ≠ s.fabric.toNat → s.f.grant = .none → Holds i s (s.sendWord s.cur .ovt)
/-- The state once the fragment at issue has translated addresses (R320). -/
def translated (s : State) (vas : List DWord) : State := s.cache s.f.coreKey s.g.rights.asid vas
/-- Where the fragment at issue finds an address (R207). -/
def leafAt (s : State) (va : DWord) : Leaf := s.leafOf s.f.coreKey s.g.rights.asid va
/-- Where an address of the fragment at issue lies in device memory, with the memory key it is reached under (R207). -/
def placeOf (s : State) (va : DWord) : Nat := s.cellOf (leafAt s va) va
/-- R225, R238: no earlier acquire and no earlier access of an SO page keeps an access from issuing, and it lies on a page of another kind. -/
def Free (s : State) (va : DWord) : Prop := s.accessHeld s.cur = false ∧ (leafAt s va).ord ≠ 0
/-- R235, R242, R285: no request of the fragment at issue is in flight, and no bank unit holds an element of its. -/
def NothingBefore (s : State) : Prop :=
  (∀ m ∈ s.net, (m.request.all fun q => !q.1.contains s.cur) = true) ∧ ∀ b ∈ s.banks, ∀ x ∈ b.2.queue, s.cur ∉ x.owners
/-- R19, R275: the home of an access is enabled, and its channel serves ordinary requests. -/
def Served (s : State) (a : Addr) : Prop := s.served [⟨a.lane, .dram, placeOf s a.va, a.size, 0, a.va, none, 0⟩] = true
/-- R217, R225, R235, R238, R275: the accesses `as` pass every check, are not kept from issuing, lie at the fragment's own home on pages that
are not SO, and have nothing before them there. -/
def LocalAccess (s : State) (need : Need) (size : Nat) (bnd : Bool) (as : List Addr) : Prop :=
  as ≠ [] ∧ NothingBefore s ∧ (∀ a ∈ as, Served s a) ∧ s.checkGlobal s.f.coreKey s.g.rights need size bnd as = none ∧ s.accessHeld s.cur = false ∧
    ∀ a ∈ as, (leafAt s a.va).dev = s.fabric.toNat ∧ (leafAt s a.va).home = s.f.home ∧ (leafAt s a.va).ord ≠ 0
/-- R225: an order code asks for no release, or the release it asks for is met. -/
def ReleaseMet (s : State) (o : BitVec 3) : Prop := isRel o = true → s.released s.cur (isSys o) = true
/-- A byte is none of the `size` bytes from any of the given places on, whichever memory key each is reached under (log 15). -/
def Outside (places : List Nat) (size k : Nat) : Prop := ∀ p ∈ places, k % 2 ^ 40 < p % 2 ^ 40 ∨ p % 2 ^ 40 + size ≤ k % 2 ^ 40
/-- A byte is none of the `size` bytes from any of the given places of a scratchpad or a vault on. -/
def Apart (places : List Nat) (size k : Nat) : Prop := ∀ p ∈ places, k < p ∨ p + size ≤ k
/-- R310: where the sync words of teams lie in the scratchpads; the device may write their first 12 bytes whenever a scratchpad is written. -/
def syncPlaces (s : State) : List Nat := s.teams.flatMap fun t => t.2.syncs.map fun x => scrKey t.2.coreKey (t.2.base + x)
/-- The bytes of device memory away from the given places are as they were, and so is the memory key that each was written under. -/
def KeepsOthers (s t : State) (places : List Nat) (size : Nat) : Prop :=
  ∀ k, Outside places size k → t.byte k = s.byte k ∧ t.memKeys.get 0 (k % 2 ^ 40) = s.memKeys.get 0 (k % 2 ^ 40)
/-- Every fragment is as before but for what it waits for, but that the one at issue becomes `f`. -/
def OnlyFrag (s t : State) (f : Frag) : Prop :=
  t.cur = s.cur ∧ ∀ n, t.frag n = { (if n = s.cur then f else s.frag n) with state := (t.frag n).state }
/-- R223, R224: the word stores, for each of its lanes, the low `size` bytes of `val` at its address, and nothing else: a byte that one lane
alone covers holds that lane's byte, and every byte that no lane covers is as before, in every memory; the fragment becomes `f`. -/
def StoresHere (i : Instr) (s : State) (o : BitVec 3) (size : Nat) (bnd : Bool) (lanes : List Nat) (addr : Nat → DWord) (val : Nat → Nat)
    (f : Frag) : Prop :=
  let key := fun l => placeOf s (addr l)
  s.f.sent = 0 → LocalAccess s .write size bnd (lanes.map fun l => ⟨l, addr l, size⟩) → ReleaseMet s o → (∀ l ∈ lanes, s.readErr (key l) size = false) →
    ∃ t, Goes i s t ∧ OnlyFrag s t f ∧ t.scratch = s.scratch ∧ t.vault = s.vault ∧ t.opmem = s.opmem ∧ KeepsOthers s t (lanes.map key) size ∧
      ∀ l ∈ lanes, ∀ j, j < size → Outside ((lanes.filter (· != l)).map key) size (key l + j) →
        t.dramByte (key l + j) = BitVec.ofNat 8 (val l / 256 ^ j)
/-- R62, R64, R115: the word leaves the results `outs` outstanding, and at issue writes nothing but zero to lanes `Z` of vector entry `e`; every other
register, and every other fragment but for what it waits for, is as before. -/
def LeavesOut (s t : State) (outs : List Out) (e : Nat) (Z : Mask) : Prop :=
  OnlyFrag s t { s.f with outs := s.f.outs ++ outs, regs := { s.f.regs with v := t.f.regs.v } } ∧
    (∀ j, j ≠ e ∨ Z = 0 → t.f.regs.v.get VReg.zero j = s.f.regs.v.get VReg.zero j) ∧
    ∀ l, l < 96 → Z.getLsbD l = false → lane (t.f.regs.v.get VReg.zero e).lanes l = lane (s.f.regs.v.get VReg.zero e).lanes l
/-- R62, R103, R221: `outs` are the results of a word that reads the lanes `W` and zeroes the lanes `Z` of vector entry `e`: they write those lanes
and no other, and each of the lanes of `W` with its value, by one of them. -/
def ReadsLanes (outs : List Out) (e : Nat) (W Z : Mask) (val : Nat → Word) : Prop :=
  (∀ x ∈ outs, x.dest = .v e ∧ x.whole = W ||| Z ∧ x.mask &&& ~~~(W ||| Z) = 0 ∧
    ∀ l, x.mask.getLsbD l = true → lane x.vals l = if W.getLsbD l then val l else 0) ∧
  ∀ l ∈ lanesIn W, ∃ x ∈ outs, x.mask.getLsbD l = true
/-- R207: the bytes of an access were written under the memory key that it reaches them under, or under none. -/
def Plain (s : State) (va : DWord) (size : Nat) : Prop :=
  ∀ j, j < size → s.memKeys.get 0 ((placeOf s va + j) % 2 ^ 40) = 0 ∨ s.memKeys.get 0 ((placeOf s va + j) % 2 ^ 40) = s.keyAt (placeOf s va)
/-- The little-endian value that the fragment at issue finds in memory. -/
def valueAt (s : State) (va : DWord) (size : Nat) : Nat := s.valIn .dram (placeOf s va) size
/-- R189, R217: values that the fragment at issue may read at once: they pass the checks of a load, lie on this device, hold no error, and no
answer from another device is kept for the word; their homes are enabled and their channels serve ordinary requests. -/
def ReadsHere (s : State) (size : Nat) (vas : List DWord) : Prop :=
  s.checkGlobal s.f.coreKey s.g.rights .read size false (vas.map fun va => ⟨0, va, size⟩) = none ∧
    s.answered (.frag s.cur) = [] ∧ (∀ w ∈ s.chanWaits, w.1 ≠ .frag s.cur) ∧
    ∀ va ∈ vas, (leafAt s va).dev = s.fabric.toNat ∧ Served s ⟨0, va, size⟩ ∧ s.readErr (placeOf s va) size = false
/-- All of the device but its fragments, groups and cores, and the answers kept for words. -/
def SameBut (s t : State) : Prop :=
  t.mem = s.mem ∧ t.scratch = s.scratch ∧ t.vault = s.vault ∧ t.opmem = s.opmem ∧ t.teams = s.teams ∧ t.grids = s.grids ∧ t.parts = s.parts ∧
    t.cmds = s.cmds ∧ t.net = s.net
/-- R255, R268: a 64-aligned record whose header lies at `key` of the scratchpads, readable with its `n` bytes of data and holding no error, for a fragment
on its group's device that has no request in flight. -/
def RecordAt (s : State) (a : RegNum) (key n : Nat) : Prop :=
  s.g.dev = s.fabric.toNat ∧ NothingBefore s ∧ (s.sreg a).poison = false ∧ (s.sv a).toNat % 64 = 0 ∧ s.scrBytes s.g.team s.g.rights.asid (s.sv a) 64 false = .ok key ∧
    (∃ k, s.scrBytes s.g.team s.g.rights.asid (s.sv a) (64 + n) false = .ok k) ∧ ∀ i, i < 64 + n → s.errIn .scratch (key + i) 1 = false
/-- R213, R255, R268: away from its group's device a fragment asks that device for the header of a record. -/
def recordAsked (s : State) (a : RegNum) : State :=
  s.fabScratch s.f.group s.f.home [s.cur] (some (.frag s.cur)) .load
    ((List.range 8).map fun i => ⟨i, .scratch, 0, 8, 0, s.sv a + BitVec.ofNat 64 (8 * i), none, 0⟩)
/-- A fragment away from its group's device names a record at a clean 64-aligned address, and has asked nothing yet. -/
def RecordAway (s : State) (a : RegNum) : Prop :=
  s.g.dev ≠ s.fabric.toNat ∧ (s.sreg a).poison = false ∧ (s.sv a).toNat % 64 = 0 ∧ (s.sv a).toNat < 2 ^ 19 ∧ s.answered (.frag s.cur) = [] ∧
    ∀ x ∈ s.remote, x.asker ≠ some (.frag s.cur)

/-- The messages in flight are those named, and the ends of fragments of other devices' groups that can be told now (R146, R237). -/
def OnlyEnds (u : State) (xs : List Msg) : Prop :=
  ∃ ys : List Msg, u.net = xs ++ ys ∧ ∀ y, y ∈ ys → ∃ n g d h w, y = .split n g (.entry d h .ended 0x0#96) w

end Sys2Proof.Claim

open Sys2Proof Sys2Proof.Machine Sys2Proof.Claim

/-- What writing a register changes, which lanes a word writes, and what delivering an outstanding result writes. (R62, R64, R98,
R99, R100, R101, R103) -/
def Obligations.RegisterWrites : Prop :=
  (∀ (s : State) (d : RegNum) (x : DWord) (t : Bool),
    let u := s.wrS d x t
    u = s.modRegs (fun r => { r with s := u.f.regs.s, m := u.f.regs.m }) ∧
    (d.toNat < 61 → u.f.regs.s.get SReg.zero (s.f.regs.sEnt d) = ⟨x, t, false⟩ ∧
      (∀ e, e ≠ s.f.regs.sEnt d → u.f.regs.s.get SReg.zero e = s.f.regs.s.get SReg.zero e) ∧ u.f.regs.m = s.f.regs.m) ∧
    (61 ≤ d.toNat → u.f.regs.s = s.f.regs.s ∧ (∀ k : BitVec 3, k ≠ 0 → u.f.regs.mask k = s.f.regs.mask k) ∧
      ∀ l, l < 96 → (u.f.regs.mask 0).getLsbD l =
        (s.f.own.getLsbD l && (if l / 32 = d.toNat - 61 then x.getLsbD (l % 32) else (s.f.regs.mask 0).getLsbD l)))) ∧
  (∀ (s : State) (d : RegNum) (x : Nat → Word) (t : Bool),
    let u := s.wrV d x t
    let old := s.f.regs.v.get VReg.zero (s.f.regs.vEnt d)
    let new := u.f.regs.v.get VReg.zero (s.f.regs.vEnt d)
    let W := s.eff ||| s.zeroed
    u = s.modRegs (fun r => { r with v := u.f.regs.v }) ∧
    (∀ e, e ≠ s.f.regs.vEnt d → u.f.regs.v.get VReg.zero e = s.f.regs.v.get VReg.zero e) ∧
    (∀ l, l < 96 → lane new.lanes l =
      (if s.eff.getLsbD l then x l else if s.zeroed.getLsbD l then 0 else lane old.lanes l) ∧
      new.poison.getLsbD l = (old.poison.getLsbD l && !W.getLsbD l)) ∧
    new.bnd = (if W = 0 then old.bnd else if s.f.own &&& ~~~W = 0 then t else t || old.bnd)) ∧
  (∀ (s : State) (l : Nat),
    (s.f.pfx = none → s.eff = s.mreg 0 ∧ s.zeroed = 0) ∧
    (∀ p, s.f.pfx = some p →
      s.eff.getLsbD l = ((s.mreg 0).getLsbD l && (p.m == 0 || (s.mreg p.m).getLsbD l)) ∧
      s.zeroed.getLsbD l = (p.z == 1 && (s.mreg 0).getLsbD l && !s.eff.getLsbD l)) ∧
    (s.eff.getLsbD l = true → (s.mreg 0).getLsbD l = true ∧ s.zeroed.getLsbD l = false)) ∧
  (∀ (s : State) (n k : Nat) (o : Out) (rest : List Out),
    let f := s.frag n
    let t := s.deliver n k
    takeAt f.outs k = some (o, rest) → rest ≠ [] →
      t = s.setFrag n { f with outs := rest, regs := (t.frag n).regs } ∧
      (∀ e, o.dest = .v e →
        (∀ j, j ≠ e → (t.frag n).regs.v.get VReg.zero j = f.regs.v.get VReg.zero j) ∧
        (t.frag n).regs.s = f.regs.s ∧ (t.frag n).regs.m = f.regs.m ∧
        ∀ l, l < 96 → lane ((t.frag n).regs.v.get VReg.zero e).lanes l =
          (if o.mask.getLsbD l then lane o.vals l else lane (f.regs.v.get VReg.zero e).lanes l)) ∧
      (∀ e, o.dest = .s e →
        (t.frag n).regs.s.get SReg.zero e = ⟨o.sval, o.bnd, o.poison != 0⟩ ∧ (∀ j, j ≠ e → (t.frag n).regs.s.get SReg.zero j = f.regs.s.get SReg.zero j) ∧
        (t.frag n).regs.v = f.regs.v ∧ (t.frag n).regs.m = f.regs.m) ∧
      (o.dest = .m 0 → (t.frag n).regs.v = f.regs.v ∧ (t.frag n).regs.s = f.regs.s ∧
        ∀ l, l < 96 → ((t.frag n).regs.mask 0).getLsbD l =
          (f.own.getLsbD l && (if o.whole.getLsbD l then o.sval.getLsbD (l % 32) else (f.regs.mask 0).getLsbD l))))

/-- A word with a poisoned source takes POISON, naming the register and the lanes read, and writes nothing. (R61, R103, R116,
R339) With two poisoned sources that the first is reported is the model's own choice (log 62). -/
def Obligations.PoisonedSourceFaults : Prop :=
∀ (s : State) (d a b : RegNum) (w : BitVec 2),
    ((s.sreg a).poison = true → Faults (.iaddS64 d a b) s (faultOf 0x19#8 (64 + a.setWidth 64))) ∧
    ((s.sreg a).poison = false → (s.sreg b).poison = true → Faults (.iaddS64 d a b) s (faultOf 0x19#8 (64 + b.setWidth 64))) ∧
    ((s.vreg a).poison &&& s.eff ≠ 0 →
      Faults (.iaddV w d a b) s (faultOf 0x19#8 (a.setWidth 64) (((s.vreg a).poison &&& s.eff).extractLsb' 0 64)
        (((s.vreg a).poison &&& s.eff).extractLsb' 64 32 |>.setWidth 64))) ∧
    ((s.vreg a).poison &&& s.eff = 0 → s.poisoned [.v a s.eff] = none)

/-- Every scalar integer word of 64 and of 32 bits but division and compare completes, and what it writes. (R101, R103, R115,
R116, R117, R119, R122) -/
def Obligations.ScalarIntegerWords : Prop :=
  (∀ (s : State) (d a b : RegNum) (k : BitVec 2) (imm : BitVec 12) (i18 : BitVec 18) (n : BitVec 6),
    let A := s.sv a
    let B := s.sv b
    let D := s.sv d
    let N := B.toNat % 256
    Scalar (.iaddS64 d a b) s d [a, b] (A + B) ∧
    Scalar (.isubS64 d a b) s d [a, b] (A - B) ∧
    Scalar (.imulS64 d a b) s d [a, b] (A * B) ∧
    Scalar (.imulhIS64 d a b) s d [a, b] (BitVec.ofInt 64 (A.toInt * B.toInt / 2 ^ 64)) ∧
    Scalar (.imulhNS64 d a b) s d [a, b] (BitVec.ofNat 64 (A.toNat * B.toNat / 2 ^ 64)) ∧
    Scalar (.imadS64 d a b) s d [a, b, d] (A * B + D) ∧
    Scalar (.iminIS64 d a b) s d [a, b] (BitVec.ofInt 64 (min A.toInt B.toInt)) ∧
    Scalar (.iminNS64 d a b) s d [a, b] (BitVec.ofNat 64 (min A.toNat B.toNat)) ∧
    Scalar (.imaxIS64 d a b) s d [a, b] (BitVec.ofInt 64 (max A.toInt B.toInt)) ∧
    Scalar (.imaxNS64 d a b) s d [a, b] (BitVec.ofNat 64 (max A.toNat B.toNat)) ∧
    Scalar (.iabsS64 d a) s d [a] (BitVec.ofNat 64 A.toInt.natAbs) ∧
    Scalar (.inegS64 d a) s d [a] (-A) ∧
    Scalar (.andS64 d a b) s d [a, b] (A &&& B) ∧
    Scalar (.orS64 d a b) s d [a, b] (A ||| B) ∧
    Scalar (.xorS64 d a b) s d [a, b] (A ^^^ B) ∧
    Scalar (.andnS64 d a b) s d [a, b] (A &&& ~~~B) ∧
    Scalar (.notS64 d a) s d [a] (~~~A) ∧
    Scalar (.shlS64 d a b) s d [a, b] (BitVec.ofNat 64 (A.toNat * 2 ^ N)) ∧
    Scalar (.shrS64 d a b) s d [a, b] (BitVec.ofNat 64 (A.toNat / 2 ^ N)) ∧
    Scalar (.sarS64 d a b) s d [a, b] (BitVec.ofInt 64 (A.toInt / 2 ^ N)) ∧
    Scalar (.rotS64 d a b) s d [a, b] (A.rotateLeft N) ∧
    Scalar (.bfxIS64 d a b) s d [a, b] (bfxI A B) ∧
    Scalar (.bfxNS64 d a b) s d [a, b] (bfxN A B) ∧
    Scalar (.bfiS64 d a b) s d [a, b, d] (bfi A B D) ∧
    Scalar (.popcS64 d a) s d [a] (popc A) ∧
    Scalar (.clzS64 d a) s d [a] (clz A) ∧
    Scalar (.brevS64 d a) s d [a] A.reverse ∧
    Scalar (.movS64 d a) s d [a] A ∧
    Scalar (.leaS64 d a b k) s d [a, b] (A + B * BitVec.ofNat 64 (2 ^ k.toNat)) ∧
    Scalar (.selS64 d a b) s d [d, a, b] (if D ≠ 0 then A else B) ∧
    Scalar (.iaddImmS d a imm) s d [a] (A + imm.signExtend 64) ∧
    Scalar (.moviS d i18) s d [] (i18.signExtend 64) ∧
    Scalar (.movhiS d i18) s d [d] (D * 2 ^ 18 + i18.setWidth 64) ∧
    Scalar (.shlImmS d a n) s d [a] (BitVec.ofNat 64 (A.toNat * 2 ^ n.toNat)) ∧
    Scalar (.shrImmS d a n) s d [a] (BitVec.ofNat 64 (A.toNat / 2 ^ n.toNat)) ∧
    Scalar (.sarImmS d a n) s d [a] (BitVec.ofInt 64 (A.toInt / 2 ^ n.toNat)) ∧
    Scalar (.rotImmS d a n) s d [a] (A.rotateLeft n.toNat)) ∧
  (∀ (s : State) (d a b : RegNum) (k : BitVec 2),
    let A : BitVec 32 := (s.sv a).setWidth 32
    let B : BitVec 32 := (s.sv b).setWidth 32
    let D : BitVec 32 := (s.sv d).setWidth 32
    let N := B.toNat % 256
    let zx := fun x : BitVec 32 => x.setWidth 64
    let sx := fun x : BitVec 32 => x.signExtend 64
    Scalar (.iaddS32 d a b) s d [a, b] (zx (A + B)) ∧
    Scalar (.isubS32 d a b) s d [a, b] (zx (A - B)) ∧
    Scalar (.imulS32 d a b) s d [a, b] (zx (A * B)) ∧
    Scalar (.imulhIS32 d a b) s d [a, b] (sx (BitVec.ofInt 32 (A.toInt * B.toInt / 2 ^ 32))) ∧
    Scalar (.imulhNS32 d a b) s d [a, b] (zx (BitVec.ofNat 32 (A.toNat * B.toNat / 2 ^ 32))) ∧
    Scalar (.imadS32 d a b) s d [a, b, d] (zx (A * B + D)) ∧
    Scalar (.iminIS32 d a b) s d [a, b] (BitVec.ofInt 64 (min A.toInt B.toInt)) ∧
    Scalar (.iminNS32 d a b) s d [a, b] (BitVec.ofNat 64 (min A.toNat B.toNat)) ∧
    Scalar (.imaxIS32 d a b) s d [a, b] (BitVec.ofInt 64 (max A.toInt B.toInt)) ∧
    Scalar (.imaxNS32 d a b) s d [a, b] (BitVec.ofNat 64 (max A.toNat B.toNat)) ∧
    Scalar (.iabsS32 d a) s d [a] (sx (BitVec.ofNat 32 A.toInt.natAbs)) ∧
    Scalar (.inegS32 d a) s d [a] (sx (-A)) ∧
    Scalar (.andS32 d a b) s d [a, b] (zx (A &&& B)) ∧
    Scalar (.orS32 d a b) s d [a, b] (zx (A ||| B)) ∧
    Scalar (.xorS32 d a b) s d [a, b] (zx (A ^^^ B)) ∧
    Scalar (.andnS32 d a b) s d [a, b] (zx (A &&& ~~~B)) ∧
    Scalar (.notS32 d a) s d [a] (zx (~~~A)) ∧
    Scalar (.shlS32 d a b) s d [a, b] (zx (BitVec.ofNat 32 (A.toNat * 2 ^ N))) ∧
    Scalar (.shrS32 d a b) s d [a, b] (zx (BitVec.ofNat 32 (A.toNat / 2 ^ N))) ∧
    Scalar (.sarS32 d a b) s d [a, b] (sx (BitVec.ofInt 32 (A.toInt / 2 ^ N))) ∧
    Scalar (.rotS32 d a b) s d [a, b] (zx (A.rotateLeft N)) ∧
    Scalar (.bfxIS32 d a b) s d [a, b] (sx (bfxI A B)) ∧
    Scalar (.bfxNS32 d a b) s d [a, b] (zx (bfxN A B)) ∧
    Scalar (.bfiS32 d a b) s d [a, b, d] (zx (bfi A B D)) ∧
    Scalar (.popcS32 d a) s d [a] (zx (popc A)) ∧
    Scalar (.clzS32 d a) s d [a] (zx (clz A)) ∧
    Scalar (.brevS32 d a) s d [a] (zx A.reverse) ∧
    Scalar (.movS32 d a) s d [a] (zx A) ∧
    Scalar (.leaS32 d a b k) s d [a, b] (zx (A + B * BitVec.ofNat 32 (2 ^ k.toNat))) ∧
    Scalar (.selS32 d a b) s d [d, a, b] (zx (if D ≠ 0 then A else B))) ∧
  (∀ (w : Nat) (a b c : BitVec w) (i : Nat), 0 < w → i < w →
    let p := b.toNat % 256
    let n := b.toNat / 256 % 256
    let t := min n w
    (bfxN a b).getLsbD i = (decide (i < t) && a.getLsbD (p + i)) ∧
    (bfxI a b).getLsbD i = (if i < t then a.getLsbD (p + i) else decide (0 < t) && a.getLsbD (p + t - 1)) ∧
    (bfi a b c).getLsbD i = (if p ≤ i ∧ i < p + n then a.getLsbD (i - p) else c.getLsbD i) ∧
    (popc a).toNat = ((List.range w).filter fun j => a.getLsbD j).length ∧
    (clz (0 : BitVec w)).toNat = w ∧
    (a ≠ 0 → (clz a).toNat < w ∧ 2 ^ (w - 1 - (clz a).toNat) ≤ a.toNat ∧ a.toNat < 2 ^ (w - (clz a).toNat)))

/-- Division of every width: by zero the quotient is all ones and the remainder the dividend; else it truncates toward zero.
(R118) -/
def Obligations.DivisionTruncatesAndNeverFaults : Prop :=
∀ (s : State) (d a b : RegNum) (w : BitVec 2),
    let qI := fun {n : Nat} (x y : BitVec n) => if y = 0 then BitVec.ofInt n (-1) else BitVec.ofInt n (x.toInt.tdiv y.toInt)
    let mI := fun {n : Nat} (x y : BitVec n) => if y = 0 then x else BitVec.ofInt n (x.toInt - y.toInt * x.toInt.tdiv y.toInt)
    let qN := fun {n : Nat} (x y : BitVec n) => if y = 0 then BitVec.ofNat n (2 ^ n - 1) else BitVec.ofNat n (x.toNat / y.toNat)
    let mN := fun {n : Nat} (x y : BitVec n) => if y = 0 then x else BitVec.ofNat n (x.toNat - y.toNat * (x.toNat / y.toNat))
    let A := s.sv a
    let B := s.sv b
    let A' : BitVec 32 := A.setWidth 32
    let B' : BitVec 32 := B.setWidth 32
    let x := fun l => lo w (s.vl a l)
    let y := fun l => lo w (bLane s w b l)
    Scalar (.idivIS64 d a b) s d [a, b] (qI A B) ∧
    Scalar (.idivNS64 d a b) s d [a, b] (qN A B) ∧
    Scalar (.iremIS64 d a b) s d [a, b] (mI A B) ∧
    Scalar (.iremNS64 d a b) s d [a, b] (mN A B) ∧
    Scalar (.idivIS32 d a b) s d [a, b] ((qI A' B').signExtend 64) ∧
    Scalar (.idivNS32 d a b) s d [a, b] ((qN A' B').setWidth 64) ∧
    Scalar (.iremIS32 d a b) s d [a, b] ((mI A' B').signExtend 64) ∧
    Scalar (.iremNS32 d a b) s d [a, b] ((mN A' B').setWidth 64) ∧
    Vector (.idivIV w d a b) s d [.v a s.eff, bSrc s w b] (fun l => (qI (x l) (y l)).signExtend 32) ∧
    Vector (.idivNV w d a b) s d [.v a s.eff, bSrc s w b] (fun l => (qN (x l) (y l)).setWidth 32) ∧
    Vector (.iremIV w d a b) s d [.v a s.eff, bSrc s w b] (fun l => (mI (x l) (y l)).signExtend 32) ∧
    Vector (.iremNV w d a b) s d [.v a s.eff, bSrc s w b] (fun l => (mN (x l) (y l)).setWidth 32)

/-- Scalar ICMP of 64 and 32 bits writes its condition and sets Z, N, C and V from a - b. (R120) -/
def Obligations.ScalarCompare : Prop :=
∀ (s : State) (d a b : RegNum) (m j : BitVec 3) (k : BitVec 3) (w : BitVec 2), k.toNat < 6 →
    let cond := fun {n : Nat} (x y : BitVec n) => match k.toNat with
      | 0 => decide (x = y)
      | 1 => decide (x ≠ y)
      | 2 => decide (x.toInt < y.toInt)
      | 3 => decide (x.toInt ≤ y.toInt)
      | 4 => decide (x.toNat < y.toNat)
      | _ => decide (x.toNat ≤ y.toNat)
    let flags := fun {n : Nat} (x y : BitVec n) (c : BitVec 16) =>
      (c.extractLsb' 4 12 ++ BitVec.ofBool (decide (x.toInt - y.toInt < -2 ^ (n - 1) ∨ x.toInt - y.toInt > 2 ^ (n - 1) - 1)) ++
        BitVec.ofBool (decide (y.toNat ≤ x.toNat)) ++ BitVec.ofBool ((x - y).getLsbD (n - 1)) ++ BitVec.ofBool (decide (x - y = 0)) : BitVec 16)
    let A := s.sv a
    let B := s.sv b
    let A' : BitVec 32 := A.setWidth 32
    let B' : BitVec 32 := B.setWidth 32
    (s.poisoned [.s a, .s b] = none →
      Goes (.icmpS64 d a b k) s ((s.wrS d (if cond A B then 1 else 0) (s.bndOf [.s a, .s b])).setFlags (flags A B)) ∧
      Goes (.icmpS32 d a b k) s ((s.wrS d (if cond A' B' then 1 else 0) (s.bndOf [.s a, .s b])).setFlags (flags A' B'))) ∧
    (s.poisoned [.v a s.eff, bSrc s w b] = none →
      Goes (.icmpV w m a b k) s (s.wrM m (maskOf fun l =>
        if s.eff.getLsbD l then cond (lo w (s.vl a l)) (lo w (bLane s w b l)) else (s.mreg m).getLsbD l && !s.zeroed.getLsbD l))) ∧
    Scalar (.selS64 d a b) s d [d, a, b] (if s.sv d ≠ 0 then A else B) ∧
    Scalar (.selS32 d a b) s d [d, a, b] (if (s.sv d).setWidth 32 ≠ (0 : BitVec 32) then A'.setWidth 64 else B'.setWidth 64) ∧
    Vector (.selV w d a b j) s d [.v a s.eff, bSrc s w b]
      (fun l => (if (s.mreg j).getLsbD l then lo w (s.vl a l) else lo w (bLane s w b l)).setWidth 32)

/-- Every vector integer word completes, and what it writes to each lane of the effective mask, at width 32, 16 or 8. (R64, R103,
R115, R116, R117, R119, R122) That BFX and BFI of width 8, where b has no bits 15:8, act with length 0 is the model's own choice
(log 62). -/
def Obligations.VectorIntegerWords : Prop :=
∀ (s : State) (d a b : RegNum) (w k : BitVec 2) (imm : BitVec 12) (i18 : BitVec 18) (n : BitVec 5),
    let x := fun l => lo w (s.vl a l)
    let y := fun l => lo w (bLane s w b l)
    let z := fun l => lo w (s.vl (s.third d) l)
    let N := fun l => (y l).toNat % 256
    let one : List Src := [.v a s.eff]
    let two : List Src := [.v a s.eff, bSrc s w b]
    let three : List Src := [.v a s.eff, bSrc s w b, .v (s.third d) s.eff]
    let zx := fun {m : Nat} (v : BitVec m) => v.setWidth 32
    let sx := fun {m : Nat} (v : BitVec m) => v.signExtend 32
    Vector (.iaddV w d a b) s d two (fun l => zx (x l + y l)) ∧
    Vector (.isubV w d a b) s d two (fun l => zx (x l - y l)) ∧
    Vector (.imulV w d a b) s d two (fun l => zx (x l * y l)) ∧
    Vector (.imulhIV w d a b) s d two (fun l => sx (BitVec.ofInt (vw w) ((x l).toInt * (y l).toInt / 2 ^ vw w))) ∧
    Vector (.imulhNV w d a b) s d two (fun l => zx (BitVec.ofNat (vw w) ((x l).toNat * (y l).toNat / 2 ^ vw w))) ∧
    Vector (.imadV w d a b) s d three (fun l => zx (x l * y l + z l)) ∧
    Vector (.iminIV w d a b) s d two (fun l => BitVec.ofInt 32 (min (x l).toInt (y l).toInt)) ∧
    Vector (.iminNV w d a b) s d two (fun l => BitVec.ofNat 32 (min (x l).toNat (y l).toNat)) ∧
    Vector (.imaxIV w d a b) s d two (fun l => BitVec.ofInt 32 (max (x l).toInt (y l).toInt)) ∧
    Vector (.imaxNV w d a b) s d two (fun l => BitVec.ofNat 32 (max (x l).toNat (y l).toNat)) ∧
    Vector (.iabsV w d a) s d one (fun l => sx (BitVec.ofNat (vw w) (x l).toInt.natAbs)) ∧
    Vector (.inegV w d a) s d one (fun l => sx (-(x l))) ∧
    Vector (.andV w d a b) s d two (fun l => zx (x l &&& y l)) ∧
    Vector (.orV w d a b) s d two (fun l => zx (x l ||| y l)) ∧
    Vector (.xorV w d a b) s d two (fun l => zx (x l ^^^ y l)) ∧
    Vector (.andnV w d a b) s d two (fun l => zx (x l &&& ~~~(y l))) ∧
    Vector (.notV w d a) s d one (fun l => zx (~~~(x l))) ∧
    Vector (.shlV w d a b) s d two (fun l => zx (BitVec.ofNat (vw w) ((x l).toNat * 2 ^ N l))) ∧
    Vector (.shrV w d a b) s d two (fun l => zx (BitVec.ofNat (vw w) ((x l).toNat / 2 ^ N l))) ∧
    Vector (.sarV w d a b) s d two (fun l => sx (BitVec.ofInt (vw w) ((x l).toInt / 2 ^ N l))) ∧
    Vector (.rotV w d a b) s d two (fun l => zx ((x l).rotateLeft (N l))) ∧
    Vector (.bfxIV w d a b) s d two (fun l => sx (bfxI (x l) (y l))) ∧
    Vector (.bfxNV w d a b) s d two (fun l => zx (bfxN (x l) (y l))) ∧
    Vector (.bfiV w d a b) s d three (fun l => zx (bfi (x l) (y l) (z l))) ∧
    Vector (.popcV w d a) s d one (fun l => zx (popc (x l))) ∧
    Vector (.clzV w d a) s d one (fun l => zx (clz (x l))) ∧
    Vector (.brevV w d a) s d one (fun l => zx (x l).reverse) ∧
    (if w = 3 then Vector (.movV w d a b) s d [.s b] (fun _ => (s.sv b).setWidth 32) else Vector (.movV w d a b) s d one (fun l => zx (x l))) ∧
    Vector (.leaV w d a b k) s d two (fun l => zx (x l + y l * BitVec.ofNat (vw w) (2 ^ k.toNat))) ∧
    Vector (.iaddImmV d a imm) s d one (fun l => s.vl a l + imm.signExtend 32) ∧
    Vector (.moviV d i18) s d [] (fun _ => i18.signExtend 32) ∧
    Vector (.movhiV d i18) s d [.v d s.eff] (fun l => s.vl d l * 2 ^ 18 + i18.setWidth 32) ∧
    Vector (.shlImmV d a n) s d one (fun l => BitVec.ofNat 32 ((s.vl a l).toNat * 2 ^ n.toNat)) ∧
    Vector (.shrImmV d a n) s d one (fun l => BitVec.ofNat 32 ((s.vl a l).toNat / 2 ^ n.toNat)) ∧
    Vector (.sarImmV d a n) s d one (fun l => BitVec.ofInt 32 ((s.vl a l).toInt / 2 ^ n.toNat)) ∧
    Vector (.rotImmV d a n) s d one (fun l => (s.vl a l).rotateLeft n.toNat)

/-- The mask words, shuffles, LANEID, BCAST, reductions and scans complete, and what they write. (R64, R99, R103, R126, R129,
R130, R131) -/
def Obligations.MaskAndLaneWords : Prop :=
  (∀ (s : State) (d a : RegNum) (md ma mb : BitVec 3),
    let act := s.mreg 0
    Goes (.mand md ma mb) s (s.wrM md (s.mreg ma &&& s.mreg mb)) ∧
    Goes (.mor md ma mb) s (s.wrM md (s.mreg ma ||| s.mreg mb)) ∧
    Goes (.mxor md ma mb) s (s.wrM md (s.mreg ma ^^^ s.mreg mb)) ∧
    Goes (.mnot md ma) s (s.wrM md (~~~(s.mreg ma))) ∧
    Goes (.movMask md ma) s (s.wrM md (s.mreg ma)) ∧
    Goes (.mpopc d ma) s (s.wrS d (BitVec.ofNat 64 ((List.range 96).countP fun l => (s.mreg ma).getLsbD l)) false) ∧
    (∃ x : Nat, Goes (.mfirst d ma) s ((s.wrS d (BitVec.ofNat 64 x) false).setE (decide (s.mreg ma = 0))) ∧
      (s.mreg ma = 0 → x = 96) ∧ (s.mreg ma ≠ 0 → (s.mreg ma).getLsbD x = true) ∧ ∀ l, l < x → (s.mreg ma).getLsbD l = false) ∧
    (s.poisoned [.v a act] = none →
      Goes (.ballot md a) s (s.wrM md (maskOf fun l => act.getLsbD l && s.vl a l != 0))) ∧
    (∀ (k : BitVec 3) (x : Mask), (s.wrM k x).f.regs.mask k = (if k = 0 then x &&& s.f.own else x) ∧
      (∀ j, j ≠ k → (s.wrM k x).f.regs.mask j = s.f.regs.mask j) ∧
      s.wrM k x = s.modRegs fun r => { r with m := (s.wrM k x).f.regs.m })) ∧
  (∀ (s : State) (d a b : RegNum),
    let act := s.mreg 0
    let from' := fun (j : Nat → Int) (l : Nat) => if 0 ≤ j l ∧ j l ≤ 95 ∧ act.getLsbD (j l).toNat = true then (j l).toNat else l
    let used := fun (j : Nat → Int) => maskOf fun k => (lanesIn act).any fun l => from' j l == k
    let shuffles := fun (i : Instr) (x : Src) (j : Nat → Int) => s.poisoned [.v a (used j), x] = none →
      Goes i s (s.wrLanes d act (fun l => s.vl a (from' j l)) (s.bndOf [.v a (used j), x]))
    Goes (.laneid d) s (s.wrLanes d act (fun l => BitVec.ofNat 32 l) false) ∧
    shuffles (.shflIdx d a b) (.v b act) (fun l => ((s.vl b l).toNat : Int)) ∧
    shuffles (.shflUp d a b) (.s b) (fun l => (l : Int) - (s.sv b).toNat) ∧
    shuffles (.shflDown d a b) (.s b) (fun l => (l : Int) + (s.sv b).toNat) ∧
    shuffles (.shflXor d a b) (.s b) (fun l => ((l ^^^ (s.sv b).toNat : Nat) : Int)) ∧
    (let j := (s.sv b).toNat
     (j < 96 → act.getLsbD j = true → s.poisoned [.v a (BitVec.twoPow 96 j), .s b] = none →
       Goes (.bcast d a b) s ((s.wrLanes d act (fun _ => s.vl a j) (s.bndOf [.v a (BitVec.twoPow 96 j), .s b])).setE false)) ∧
     (act.getLsbD j = false → (s.sreg b).poison = false → Goes (.bcast d a b) s (s.setE true)))) ∧
  ((∀ (s : State) (d a : RegNum) (o : BitVec 3),
    let act := s.mreg 0
    let t := s.bndOf [.v a act]
    let fold := fun (keep : Nat → Bool) => redOver o (s.vl a) ((List.range 96).filter fun j => act.getLsbD j && keep j)
    s.poisoned [.v a act] = none →
      Goes (.redi d a o) s ((s.wrS d (if o = 1 ∨ o = 3 then (fold fun _ => true).signExtend 64 else (fold fun _ => true).setWidth 64) t).setE (decide (act = 0))) ∧
      Goes (.scaniInc d a o) s ((s.wrLanes d act (fun l => fold fun j => decide (j ≤ l)) t).setE (decide (act = 0))) ∧
      Goes (.scaniExc d a o) s ((s.wrLanes d act (fun l => fold fun j => decide (j < l)) t).setE (decide (act = 0)))) ∧
  (∀ (f : Nat → Word) (ls : List Nat),
    redOver 0 f ls = BitVec.ofNat 32 (ls.map fun l => (f l).toNat).sum ∧
    (redOver 1 f ls).toInt = ls.foldr (fun l m => min (f l).toInt m) (2 ^ 31 - 1) ∧
    (redOver 2 f ls).toNat = ls.foldr (fun l m => min (f l).toNat m) (2 ^ 32 - 1) ∧
    (redOver 3 f ls).toInt = ls.foldr (fun l m => max (f l).toInt m) (-2 ^ 31) ∧
    (redOver 4 f ls).toNat = ls.foldr (fun l m => max (f l).toNat m) 0 ∧
    (∀ i, i < 32 → (redOver 5 f ls).getLsbD i = ls.all (fun l => (f l).getLsbD i) ∧ (redOver 6 f ls).getLsbD i = ls.any (fun l => (f l).getLsbD i) ∧
      (redOver 7 f ls).getLsbD i = (ls.map fun l => (f l).getLsbD i).foldr xor false)))

/-- VOTE.any, VOTE.all and VOTE.uni write 1 or 0 by the active lanes, with the tag of va, and set CFLAGS.E where no lane is
active. (R127) -/
def Obligations.VotesOverTheActiveLanes : Prop :=
∀ (s : State) (d a : RegNum) (x : Bool),
    let act := s.mreg 0
    let bit : DWord := if x then 1 else 0
    let out := (s.wrS d bit (s.vreg a).bnd).setE (decide (act = 0))
    s.poisoned [.v a act] = none →
      ((x = true ↔ ∃ l, act.getLsbD l = true ∧ s.vl a l ≠ 0) → Goes (.voteAny d a) s out) ∧
      ((x = true ↔ ∀ l, act.getLsbD l = true → s.vl a l ≠ 0) → Goes (.voteAll d a) s out) ∧
      ((x = true ↔ ∀ l j, act.getLsbD l = true → act.getLsbD j = true → s.vl a l = s.vl a j) → Goes (.voteUni d a) s out)

/-- SREAD, SWRITE, SETFMT, GETFMT, SETNM and GETNM complete: what each register reads as and stores. (R46, R85, R100, R103, R104,
R105, R107, R124, R125, R138, R139) -/
def Obligations.SpecialRegisterWords : Prop :=
∀ (s : State) (d a b : RegNum) (n : BitVec 11),
    (∀ k x, (k, x) ∈ ([(0x000, s.f.pc), (0x001, 0#48 ++ s.src.wbV ++ 0#1 ++ s.src.wbS), (0x002, s.src.fmt), (0x003, s.src.nmode), (0x004, s.f.gtimer),
        (0x005, s.f.gtcmp), (0x006, s.src.nseed.setWidth 64), (0x007, s.src.nstep), (0x008, s.f.ti[0]), (0x009, s.f.ti[1]), (0x00A, s.f.ti[2]),
        (0x00B, s.f.ti[3]), (0x010, s.g.teamid.setWidth 64), (0x011, s.g.gridid.setWidth 64), (0x012, BitVec.ofNat 64 s.g.depth),
        (0x013, BitVec.ofNat 64 s.f.home), (0x014, BitVec.ofNat 64 s.f.core), (0x018, s.src.cflags.setWidth 64)] : List (BitVec 11 × DWord)) →
      Goes (.sread d k) s (s.wrS d x false)) ∧
    (s.poisoned [.s a] = none →
      ((s.sreg a).bnd = false →
        Goes (.swrite a 0x002) s (s.modRegs fun r => { r with fmt := fmtStore (s.sv a) }) ∧
        Goes (.swrite a 0x003) s (s.modRegs fun r => { r with nmode := nmodeStore (s.sv a) }) ∧
        Goes (.swrite a 0x005) s (s.setF { s.f with gtcmp := s.sv a }) ∧
        Goes (.swrite a 0x018) s (s.modRegs fun r => { r with cflags := (s.sv a).setWidth 16 &&& 0xFF1F }) ∧
        Goes (.setfmt a) s (s.modRegs fun r => { r with fmt := fmtStore (s.sv a) })) ∧
      (n ∈ ([0x002, 0x003, 0x005, 0x018] : List (BitVec 11)) → (s.sreg a).bnd = true → Faults (.swrite a n) s (faultOf 0x18#8 (a.setWidth 64))) ∧
      (n ∉ ([0x002, 0x003, 0x005, 0x018] : List (BitVec 11)) → Goes (.swrite a n) s s)) ∧
    (s.poisoned [.s a, .s b] = none → (s.sreg a).bnd = false → (s.sreg b).bnd = false →
      Goes (.setnm a b) s (s.modRegs fun r => { r with nmode := nmodeStore (s.sv a), nseed := (s.sv b).setWidth 32, nstep := 0 })) ∧
    Goes (.getfmt d) s (s.wrS d s.src.fmt false) ∧
    Goes (.getnm d) s (s.wrS d s.src.nmode false)

/-- FADD, FSUB, FMUL, FFMA and FRND complete, vector and scalar: mode and saturation from the prefix, NSTEP under rs. (R40, R43,
R66, R103, R132, R133, R134, R135) -/
def Obligations.FloatArithmeticWords : Prop :=
∀ (s : State) (d a b : RegNum) (v : BitVec 1) (k : BitVec 3),
    let mode := fun (k : BitVec 3) (l : Nat) => if k = 5 then Rnd.rs (sample s.src.nseed l (s.src.nstep + BitVec.ofNat 64 s.f.rounded + 1)) else Rnd.ofCode k 0
    let m := s.rndCode
    let step := fun (k : BitVec 3) (u : State) => if k ≠ 5 then u else u.setF { u.f with
      regs := { u.f.regs with nstep := u.f.regs.nstep + 1 }, grp := u.f.grp.map fun (g : GroupCtx) => { g with rounded := g.rounded + 1 } }
    let c := s.third d
    let y := fun l => if v = 1 then (s.sv b).setWidth 32 else s.vl b l
    let srcB := if v = 1 then Src.s b else Src.v b s.eff
    let vec := fun (i : Instr) (k : BitVec 3) (srcs : List Src) (x : Nat → Word) => s.poisoned srcs = none →
      Goes i s (step k (s.wrV d x (s.bndOf srcs)))
    let scl := fun (i : Instr) (k : BitVec 3) (srcs : List RegNum) (x : Word) => s.poisoned (srcs.map Src.s) = none →
      Goes i s (step k (s.wrS d (x.setWidth 64) (s.bndOf (srcs.map Src.s))))
    let two : List Src := [.v a s.eff, srcB]
    let f := fun n => (s.sv n).setWidth 32
    (s.f.pfx = none → m = 0 ∧ s.satCode = 3 ∧ c = d) ∧
    (∀ p, s.f.pfx = some p → m = (if p.r = 7 then 0 else p.r) ∧ s.satCode = p.t ∧ c = p.s) ∧
    vec (.faddV v d a b) m two (fun l => satF32 s.satCode (fadd (mode m l) (s.vl a l) (y l))) ∧
    vec (.fsubV v d a b) m two (fun l => satF32 s.satCode (fsub (mode m l) (s.vl a l) (y l))) ∧
    vec (.fmulV v d a b) m two (fun l => satF32 s.satCode (fmul (mode m l) (s.vl a l) (y l))) ∧
    vec (.ffmaV v d a b) m (two ++ [.v c s.eff]) (fun l => satF32 s.satCode (ffma (mode m l) (s.vl a l) (y l) (s.vl c l))) ∧
    vec (.frndV v d a k) k [.v a s.eff] (fun l => frnd (mode k l) (s.vl a l)) ∧
    scl (.faddS d a b) m [a, b] (satF32 s.satCode (fadd (mode m 0) (f a) (f b))) ∧
    scl (.fsubS d a b) m [a, b] (satF32 s.satCode (fsub (mode m 0) (f a) (f b))) ∧
    scl (.fmulS d a b) m [a, b] (satF32 s.satCode (fmul (mode m 0) (f a) (f b))) ∧
    scl (.ffmaS d a b) m [a, b, c] (satF32 s.satCode (ffma (mode m 0) (f a) (f b) (f c))) ∧
    scl (.frndS d a k) k [a] (frnd (mode k 0) (f a))

/-- FMIN, FMAX, FSGN, FCLASS and FCMP complete, vector and scalar, and what they write. (R103, R105, R120, R132, R135, R136) -/
def Obligations.FloatExactWords : Prop :=
∀ (s : State) (d a b : RegNum) (v : BitVec 1) (md k : BitVec 3),
    let y := fun l => if v = 1 then (s.sv b).setWidth 32 else s.vl b l
    let two : List Src := [.v a s.eff, if v = 1 then Src.s b else Src.v b s.eff]
    let f := fun n => ((s.sv n).setWidth 32 : Word)
    let sgn := fun (neg : Bool) (x : Word) => (BitVec.ofBool neg ++ x.extractLsb' 0 31 : BitVec 32)
    let flags := fun (x y : Word) (c : BitVec 16) => (c.extractLsb' 4 12 ++ BitVec.ofBool (fcmp 4 x y) ++ BitVec.ofBool (!fcmp 2 x y) ++
      BitVec.ofBool (fcmp 2 x y) ++ BitVec.ofBool (fcmp 0 x y) : BitVec 16)
    Vector (.fminV v d a b) s d two (fun l => fmin (s.vl a l) (y l)) ∧
    Vector (.fmaxV v d a b) s d two (fun l => fmax (s.vl a l) (y l)) ∧
    Vector (.fsgnCpyV v d a b) s d two (fun l => sgn (y l).msb (s.vl a l)) ∧
    Vector (.fsgnNegV v d a b) s d two (fun l => sgn (!(y l).msb) (s.vl a l)) ∧
    Vector (.fsgnXorV v d a b) s d two (fun l => sgn ((s.vl a l).msb ^^ (y l).msb) (s.vl a l)) ∧
    Vector (.fclassV v d a) s d [.v a s.eff] (fun l => BitVec.ofNat 32 (2 ^ fclass (s.vl a l))) ∧
    Scalar (.fminS d a b) s d [a, b] ((fmin (f a) (f b)).setWidth 64) ∧
    Scalar (.fmaxS d a b) s d [a, b] ((fmax (f a) (f b)).setWidth 64) ∧
    Scalar (.fsgnCpyS d a b) s d [a, b] ((sgn (f b).msb (f a)).setWidth 64) ∧
    Scalar (.fsgnNegS d a b) s d [a, b] ((sgn (!(f b).msb) (f a)).setWidth 64) ∧
    Scalar (.fsgnXorS d a b) s d [a, b] ((sgn ((f a).msb ^^ (f b).msb) (f a)).setWidth 64) ∧
    Scalar (.fclassS d a) s d [a] (BitVec.ofNat 64 (2 ^ fclass (f a))) ∧
    (s.poisoned two = none → Goes (.fcmpV v md a b k) s (s.wrM md (maskOf fun l =>
      if s.eff.getLsbD l then fcmp k (s.vl a l) (y l) else (s.mreg md).getLsbD l && !s.zeroed.getLsbD l))) ∧
    (s.poisoned [.s a, .s b] = none →
      Goes (.fcmpS d a b k) s ((s.wrS d (if fcmp k (f a) (f b) then 1 else 0) (s.bndOf [.s a, .s b])).setFlags (flags (f a) (f b))))

/-- NaN and sign rules of FP32, and every representable value of every floating format rounds to itself. (R32, R33, R41, R42,
R134, R135, R136) -/
def Obligations.FloatValueRules : Prop :=
  (∀ (x y : Word) (k : Rnd),
    let nan := fun z : Word => decide (0x7F800000 < z.toNat % 2 ^ 31)
    (nan x = true ∨ nan y = true → fadd k x y = 0x7FC00000 ∧ fsub k x y = 0x7FC00000 ∧ fmul k x y = 0x7FC00000) ∧
    (nan x = true → nan y = false → fmin x y = y ∧ fmax x y = y ∧ fmin y x = y ∧ fmax y x = y) ∧
    (nan x = true → nan y = true → fmin x y = 0x7FC00000 ∧ fmax x y = 0x7FC00000) ∧
    (nan x = false → nan y = false → (fmin x y = x ∨ fmin x y = y) ∧ (fmax x y = x ∨ fmax x y = y) ∧
      fcmp 3 (fmin x y) x = true ∧ fcmp 3 (fmin x y) y = true ∧ fcmp 3 x (fmax x y) = true ∧ fcmp 3 y (fmax x y) = true) ∧
    fclass x < 10 ∧ (fclass x = 8 ↔ nan x = true ∧ x.getLsbD 22 = false) ∧ (fclass x = 9 ↔ nan x = true ∧ x.getLsbD 22 = true) ∧
    (fclass x = 0 ↔ x = 0xFF800000) ∧ (fclass x = 7 ↔ x = 0x7F800000) ∧ (fclass x = 3 ↔ x = 0x80000000) ∧ (fclass x = 4 ↔ x = 0) ∧
    fcmp 4 x y = (nan x || nan y) ∧ fcmp 5 x y = (!(nan x || nan y)) ∧ fcmp 1 x y = (!fcmp 0 x y) ∧ fcmp 3 x y = (fcmp 2 x y || fcmp 0 x y) ∧
    (nan x = true ∨ nan y = true → fcmp 0 x y = false ∧ fcmp 2 x y = false)) ∧
  (∀ F ∈ [fp32, bf16, fp16, e4m3, e5m2], ∀ (x : Nat) (k : Rnd) (ctl : BitVec 2) (neg : Bool) (m : Nat) (e : Int), x < 2 ^ F.width →
    F.decode x = .fin neg m e →
      F.code k neg m e = x % 2 ^ (F.width - 1) ∧ neg = decide (2 ^ (F.width - 1) ≤ x) ∧ F.narrow k ctl (.fin neg m e) = x)

/-- REDF and SCANF complete: the tree over the effective mask, over its lanes up to a lane, or before it. (R53, R54, R103, R131,
R133, R137) -/
def Obligations.FloatReductionsAndScans : Prop :=
∀ (s : State) (d a : RegNum) (o : BitVec 2),
    let t := s.bndOf [.v a s.eff]
    let nobody := decide (s.eff = 0)
    let val := fun (o : Nat) (keep : Nat → Bool) =>
      canon ((tree (redfOp o (Rnd.ofCode s.rndCode 0)) (fun l => s.eff.getLsbD l && keep l) (s.vl a)).getD (redfId o))
    let scan := fun (i : Instr) (o : Nat) (keep : Nat → Nat → Bool) =>
      Goes i s ((s.wrV d (fun l => val o (keep l)) t).setE nobody)
    (s.rndCode ≠ 5 → s.poisoned [.v a s.eff] = none →
      Goes (.redf d a o) s ((s.wrS d ((val o.toNat fun _ => true).setWidth 64) t).setE nobody) ∧
      scan (.scanfAddInc d a) 0 (fun l j => decide (j ≤ l)) ∧
      scan (.scanfAddExc d a) 0 (fun l j => decide (j < l)) ∧
      scan (.scanfMinInc d a) 1 (fun l j => decide (j ≤ l)) ∧
      scan (.scanfMinExc d a) 1 (fun l j => decide (j < l)) ∧
      scan (.scanfMaxInc d a) 2 (fun l j => decide (j ≤ l)) ∧
      scan (.scanfMaxExc d a) 2 (fun l j => decide (j < l))) ∧
    (s.rndCode = 5 → ∀ i ∈ [Instr.redf d a o, .scanfAddInc d a, .scanfAddExc d a, .scanfMinInc d a, .scanfMinExc d a, .scanfMaxInc d a, .scanfMaxExc d a],
      Faults i s (faultOf 0x01#8))

/-- CVTF, CVFI, CVTI, PACK4 and UNPK4 complete, and what they write. (R36, R43, R45, R46, R51, R103, R133, R140, R141, R142) -/
def Obligations.ConversionWords : Prop :=
∀ (s : State) (d a b : RegNum) (f : BitVec 2) (g : BitVec 3) (i : BitVec 1),
    let mode := fun (k : BitVec 3) (l : Nat) => if k = 5 then Rnd.rs (sample s.src.nseed l (s.src.nstep + BitVec.ofNat 64 s.f.rounded + 1)) else Rnd.ofCode k 0
    let step := fun (k : BitVec 3) (u : State) => if k ≠ 5 then u else u.setF { u.f with
      regs := { u.f.regs with nstep := u.f.regs.nstep + 1 }, grp := u.f.grp.map fun (g : GroupCtx) => { g with rounded := g.rounded + 1 } }
    let one : List Src := [.v a s.eff]
    let t := s.bndOf one
    let F := narrowFmt f
    let k := s.nmRnd (classOf (f.toNat + 1))
    let kI := s.nmRnd (7 - g.toNat / 2)
    let scales := s.f.own &&& maskOf fun l => l % 32 == 0 && s.eff &&& beat (l / 32) != 0
    let codes := s.f.own &&& maskOf fun l => decide (l % 32 < 4) && (lanesIn s.eff).any fun j => j / 32 == l / 32 && j % 32 / 8 == l % 32
    let W := s.active &&& maskOf fun l => decide (l % 32 < 5) && s.eff &&& beat (l / 32) != 0
    let own := fun (n : RegNum) (l : Nat) => if s.f.own.getLsbD l then s.vl n l else 0
    let packed := fun n => packBeat s a b (s.nmRnd 4) (s.nmSat 4) n
    (∀ c, (s.f.pfx = none → s.nmRnd c = s.src.nmode.extractLsb' (5 * c + 2) 3 ∧ s.nmSat c = s.src.nmode.extractLsb' (5 * c) 2) ∧
      ∀ p, s.f.pfx = some p → s.nmRnd c = (if p.r = 7 then s.src.nmode.extractLsb' (5 * c + 2) 3 else p.r) ∧
        s.nmSat c = (if p.t = 3 then s.src.nmode.extractLsb' (5 * c) 2 else p.t)) ∧
    (s.poisoned one = none →
      Goes (.cvtfNarrow d a f) s (step k (s.wrV d (fun l => BitVec.ofNat 32 (F.narrow (mode k l) (s.nmSat (classOf (f.toNat + 1))) (ofF32 (s.vl a l)))) t)) ∧
      Goes (.cvtfWiden d a f) s (s.wrV d (fun l => toF32 .rne (F.decode ((s.vl a l).toNat % 2 ^ F.width))) t) ∧
      Goes (.cvfi d a g) s (step kI (s.wrV d (fun l => BitVec.ofInt 32 (toInt (mode kI l) (cvfiTo g).2 (cvfiTo g).1 (ofF32 (s.vl a l)))) t)) ∧
      Goes (.cvti d a i) s (step s.rndCode (s.wrV d (fun l =>
        toF32 (mode s.rndCode l) (ofInt (if i = 0 then (s.vl a l).toInt else ((s.vl a l).toNat : Int)))) t))) ∧
    (s.poisoned [.v a codes, .v b scales] = none →
      Goes (.unpk4 d a b) s (s.wrV d (fun l => toF32 .rne (q4Val ((own b (32 * (l / 32))).setWidth 8)
        ((own a (32 * (l / 32) + l % 32 / 8)).toNat / 16 ^ (l % 8) % 16))) (s.bndOf [.v a codes, .v b scales]))) ∧
    (s.poisoned [.v a s.eff, .v b scales] = none →
      Goes (.pack4 d a b) s (step (s.nmRnd 4) (s.wrLanes d W (fun l =>
        if l % 32 = 4 then (packed (l / 32)).2.setWidth 32 else codeWord (packed (l / 32)).1 (l % 32)) (s.bndOf [.v a s.eff, .v b scales]))))

/-- Special-function words take an entry for each beat they write, or are held; the stated special and exact results; entries
complete in order. (R62, R64, R103, R143, R144) -/
def Obligations.SpecialFunctionWords : Prop :=
(∀ (s : State) (d a : RegNum),
    let beats := (List.range 3).filter fun n => s.eff &&& beat n != 0
    let c := s.core s.f.coreKey
    let words : List (Instr × Nat) := [(.frcp d a, 0), (.frsq d a, 1), (.fsqrt d a, 2), (.fexp2 d a, 3), (.flog2 d a, 4), (.fsin d a, 5), (.fcos d a, 6),
      (.ftanh d a, 7)]
    ∀ w ∈ words, s.poisoned [.v a s.eff] = none →
      (32 < c.sfuQ.length + beats.length → Holds w.1 s s) ∧
      (c.sfuQ.length + beats.length ≤ 32 → ∃ u outs, Goes w.1 s u ∧ SameBut s u ∧
        u.core s.f.coreKey = { c with sfuQ := c.sfuQ ++ beats.map fun _ => s.cur } ∧ u.f = { s.f with outs := s.f.outs ++ outs, regs := u.f.regs } ∧
        outs.length = beats.length ∧ ∀ l, l < 96 → s.eff.getLsbD l = true →
          ∃ o ∈ outs, o.kind = .sfu ∧ o.dest = .v (s.f.regs.vEnt d) ∧ o.mask.getLsbD l = true ∧ lane o.vals l = sfu w.2 (s.vl a l))) ∧
  (∀ (s : State) (core n k : Nat) (rest : List Nat), (s.core core).sfuQ = n :: rest → (s.frag n).outs.findIdx? (fun o => o.kind == .sfu) = some k →
    exec (.sfuEntryComplete core) s = .next (((s.setCore core { s.core core with sfuQ := rest }).count core 6 1).deliver n k)) ∧
  (∀ a : Word, (0x7F800000 < a.toNat % 2 ^ 31 → ∀ n, n < 8 → sfu n a = 0x7FC00000) ∧
    (0x80000000 < a.toNat → sfu 1 a = 0x7FC00000 ∧ sfu 2 a = 0x7FC00000 ∧ sfu 4 a = 0x7FC00000) ∧
    (0x43000000 ≤ a.toNat → a.toNat ≤ 0x7F800000 → sfu 3 a = 0x7F800000) ∧ (0xC3160000 < a.toNat → a.toNat ≤ 0xFF800000 → sfu 3 a = 0) ∧
    (a.toNat % 2 ^ 31 ≤ 0x39800000 → sfu 5 a = a ∧ sfu 7 a = a) ∧
    (0x4111999A ≤ a.toNat % 2 ^ 31 → a.toNat % 2 ^ 31 ≤ 0x7F800000 → sfu 7 a = if a.msb then 0xBF800000 else 0x3F800000)) ∧
  (∀ x ∈ [(0, 0, 0x7F800000), (0, 0x80000000, 0xFF800000), (0, 0x7F800000, 0), (0, 0xFF800000, 0x80000000), (1, 0, 0x7F800000),
    (1, 0x80000000, 0xFF800000), (1, 0x7F800000, 0), (2, 0, 0), (2, 0x80000000, 0x80000000), (2, 0x7F800000, 0x7F800000), (4, 0, 0xFF800000),
    (4, 0x80000000, 0xFF800000), (4, 0x7F800000, 0x7F800000), (5, 0x7F800000, 0x7FC00000), (5, 0xFF800000, 0x7FC00000), (6, 0x7F800000, 0x7FC00000),
    (6, 0xFF800000, 0x7FC00000), (6, 0, 0x3F800000), (6, 0x80000000, 0x3F800000)], sfu x.1 (BitVec.ofNat 32 x.2.1) = BitVec.ofNat 32 x.2.2) ∧
  (∀ n : Int, -149 ≤ n → n ≤ 127 → sfu 3 (toF32 .rne (ofInt n)) = toF32 .rne (.fin false 1 n) ∧ sfu 4 (toF32 .rne (.fin false 1 n)) = toF32 .rne (ofInt n))

/-- NOP, BR, BRC, BRM without a division, CALL, RET, JTAB and the prefix word complete, and where the fragment goes on. (R58, R60,
R64, R69, R76, R84, R102, R103, R151, R152, R153) Log 62 (what a misaligned table reports) and log 64 (when a dividing word asks
for HAZARD) are the model's own choices. -/
def Obligations.ControlWords : Prop :=
  (∀ s : State, Goes .nop s s ∧ (s.calm = true → exec .nop s = .next (s.setF { s.f with
    pc := s.f.pc + 4, pfx := none, held := false, counted := false, grp := if s.f.chain = true then s.f.grp else none }))) ∧
  (∀ (s : State) (i24 : BitVec 24) (i18 : BitVec 18) (k : BitVec 5) (m v x : BitVec 3) (r : RegNum) (z : BitVec 1) (t : BitVec 2),
    let pc := s.f.pc
    let to18 := pc + 4 * i18.signExtend 64
    let T := s.mreg 0 &&& s.mreg m
    let f := s.f.regs
    let link := s.sv 60
    let vs := 8 * (link.extractLsb' 57 3).toNat
    let ss := 8 * (link.extractLsb' 60 3).toNat
    Jumps (.br i24) s s (pc + 4 * i24.signExtend 64) ∧
    (brcCond k s.src.cflags = true → Jumps (.brc k i18) s s to18) ∧
    (brcCond k s.src.cflags = false → Goes (.brc k i18) s s) ∧
    (T = 0 → Goes (.brm m i18) s s) ∧
    (T ≠ 0 → T = s.mreg 0 → Jumps (.brm m i18) s s to18) ∧
    (f.wbV.toNat + 8 * v.toNat ≤ 192 → f.wbS.toNat + 8 * x.toNat ≤ 64 →
      Jumps (.call v x i18) s (s.modRegs fun r => { r with
        wbV := f.wbV + 8 * v.setWidth 8, wbS := f.wbS + 8 * x.setWidth 7,
        s := r.s.put SReg.zero (f.wbS.toNat + 8 * x.toNat + 60) ⟨0#1 ++ x ++ v ++ (pc + 4).extractLsb' 0 57, false, false⟩ }) to18) ∧
    (192 < f.wbV.toNat + 8 * v.toNat ∨ 64 < f.wbS.toNat + 8 * x.toNat → Faults (.call v x i18) s (faultOf 0x23#8 1)) ∧
    ((s.sreg 60).poison = false →
      (link.getLsbD 63 = true ∨ link.extractLsb' 0 2 ≠ 0 → Faults .ret s (faultOf 0x01#8)) ∧
      (link.getLsbD 63 = false → link.extractLsb' 0 2 = 0 →
        (f.wbV.toNat < vs ∨ f.wbS.toNat < ss → Faults .ret s (faultOf 0x23#8 2)) ∧
        (vs ≤ f.wbV.toNat → ss ≤ f.wbS.toNat → Jumps .ret s (s.modRegs fun r => { r with
          wbV := BitVec.ofNat 8 (f.wbV.toNat - vs), wbS := BitVec.ofNat 7 (f.wbS.toNat - ss) }) ((link.extractLsb' 0 57).setWidth 64)))) ∧
    exec (.pfx m x r z t) s = .next (s.setF { s.f with pfx := some ⟨m, x, r, z, t, s.f.word⟩, pc := pc + 4 })) ∧
  (∀ (s : State) (d a b : RegNum) (w : Word),
    let act := s.mreg 0
    let idx := fun l => s.vl d l
    let bad := fun l => act.getLsbD l && decide ((s.sv b).toNat ≤ (idx l).toNat)
    let B := maskOf bad
    (act = 0 → Goes (.jtab d a b) s s) ∧
    (act ≠ 0 → s.poisoned [.v d act, .s a, .s b] = none →
      (∀ l, l < 96 → bad l = true → (∀ j, j < l → bad j = false) →
        Faults (.jtab d a b) s (faultOf 0x22#8 (B.extractLsb' 0 64) ((B.extractLsb' 64 32).setWidth 64) (BitVec.ofNat 64 (l * 2 ^ 32 + (idx l).toNat)))) ∧
      ((∀ l, l < 96 → bad l = false) →
        ((s.sv a).extractLsb' 0 2 ≠ 0 → Faults (.jtab d a b) s (faultOf 0x13#8 (s.sv a))) ∧
        ((s.sv a).extractLsb' 0 2 = 0 → (∀ l, l < 96 → act.getLsbD l = true → s.fetch s.cur (s.sv a + 4 * (idx l).setWidth 64) = .ok w) →
          Jumps (.jtab d a b) s s (s.sv a + 4 * w.signExtend 64)) ∧
        ((s.sv a).extractLsb' 0 2 = 0 → ∀ W : Nat → Word,
          (∀ l, l < 96 → act.getLsbD l = true → s.fetch s.cur (s.sv a + 4 * (idx l).setWidth 64) = .ok (W l)) →
          let tgt := fun l => s.sv a + 4 * (W l).signExtend 64
          let part := fun l => maskOf fun j => act.getLsbD j && tgt j == tgt l
          let lower := fun l => ∃ j, j < 96 ∧ act.getLsbD j = true ∧ (tgt j).ult (tgt l) = true
          let kids := ((lanesIn act).map tgt).eraseDups.length - 1
          0 < kids → s.f.written.contains (.m 0) = false → s.f.trap = none → s.f.alive = true → Still s → s.g.dev = s.fabric.toNat →
          s.divideBar kids = none → kids ≤ (s.freeEntries s.f.group).length → (∀ i ∈ s.freeEntries s.f.group, fragNo s.f.group i ≠ s.cur) →
          ∃ t, exec (.jtab d a b) s = .next t ∧ ∀ l, l < 96 → act.getLsbD l = true →
            (¬lower l → (t.frag s.cur).pc = tgt l ∧ (t.frag s.cur).regs.mask 0 = part l ∧ (t.frag s.cur).own = s.f.own &&& ~~~(act &&& ~~~part l) ∧
              (t.frag s.cur).regs.v = s.f.regs.v ∧ (t.frag s.cur).regs.s = s.f.regs.s) ∧
            (lower l → ∃ i ∈ s.freeEntries s.f.group, let c := t.frag (fragNo s.f.group i)
              c.alive = true ∧ c.group = s.f.group ∧ c.pc = tgt l ∧ c.own = part l ∧ c.regs.mask 0 = part l ∧ c.regs.v = s.f.regs.v ∧ c.regs.s = s.f.regs.s)))))

/-- BRM that splits its lanes: the fall-through child keeps the entry, the taken child gets the lowest free one. (R21, R99, R146,
R148, R151) What an updating fragment away from its primary home does (log 52) and that the HAZARD of a division comes after its
other checks (log 64) are the model's own choices. -/
def Obligations.BranchDivision : Prop :=
∀ (s : State) (m : BitVec 3) (i18 : BitVec 18) (i : Nat),
    let T := s.mreg 0 &&& s.mreg m
    let U := s.mreg 0 &&& ~~~T
    let c := fragNo s.f.group i
    T ≠ 0 → U ≠ 0 → s.f.written.contains (.m 0) = false → Still s →
      (s.g.dev ≠ s.fabric.toNat → s.f.grant = .none → Holds (.brm m i18) s ((s.setF { s.f with grant := .asked }).splitUpdate s.cur (.ask 1))) ∧
      (s.g.dev = s.fabric.toNat → s.divideBar 1 = none → (s.freeEntries s.f.group).head? = some i → c ≠ s.cur →
      ∃ t, exec (.brm m i18) s = .next t ∧
        (t.frag s.cur).own = s.f.own &&& ~~~T ∧ (t.frag s.cur).regs.mask 0 = U ∧ (t.frag s.cur).pc = s.f.pc + 4 ∧
        (t.frag c).own = T ∧ (t.frag c).regs.mask 0 = T ∧ (t.frag c).pc = s.f.pc + 4 * i18.signExtend 64 ∧
        (t.frag c).group = s.f.group ∧ (t.frag c).idx = i ∧ (t.frag c).alive = s.f.alive ∧
        (t.frag c).regs.v = s.f.regs.v ∧ (t.frag c).regs.s = s.f.regs.s ∧ (t.frag s.cur).regs.v = s.f.regs.v ∧ (t.frag s.cur).regs.s = s.f.regs.s ∧
        (t.frag s.cur).own &&& (t.frag c).own = 0 ∧
        (s.mreg 0 &&& ~~~s.f.own = 0 → (t.frag s.cur).own ||| (t.frag c).own = s.f.own))

/-- BSET, JOIN, BARRT and WAITW: what they arm, what they refuse, and what the fragment comes to wait for. (R63, R99, R103, R109,
R154, R155, R156, R158, R163, R217, R225, R342) Model's own choices: how a fragment away from its primary home asks it, and its
KEY report (log 52); WAITW of a word of another device (log 22). -/
def Obligations.BarrierAndWaitWords : Prop :=
  (∀ (s : State) (k : BitVec 4),
    let b := s.barView s.cur k.toNat
    let out := s.f.own &&& ~~~b.expect
    let ours := s.g.dev = s.fabric.toNat
    (ours → b.armed = true → Faults (.bset k) s (faultOf 0x24#8 1)) ∧
    (ours → b.armed = false → Goes (.bset k) s (s.splitUpdate s.cur (.bset k.toNat s.f.own))) ∧
    (¬ours → Goes (.bset k) s (s.splitUpdate s.cur (.bset k.toNat s.f.own))) ∧
    (¬ours → s.f.trap = none → Still s → ∀ i ∈ [Instr.join k, .exit],
      (s.f.grant = .none → Holds i s ((s.setF { s.f with grant := .asked }).splitUpdate s.cur (.ask 0))) ∧
      (s.f.grant = .asked → Holds i s s) ∧
      (s.f.grant = .refused → Faults i s (faultOf 0x16#8 0 (s.f.own.extractLsb' 0 64) ((s.f.own.extractLsb' 64 32).setWidth 64 |||
        BitVec.ofNat 64 (lowest s.f.own * 2 ^ 32) ||| BitVec.ofNat 64 (2 ^ 63) ||| BitVec.ofNat 64 (s.g.home * 2 ^ 44) ||| BitVec.ofNat 64 (s.g.dev * 2 ^ 48))))) ∧
    (∀ g : Group, ((g.bar k.toNat).armed = false → (g.applyUpd (.bset k.toNat s.f.own)).bar k.toNat = ⟨true, lowest s.f.own, s.f.own, 0⟩) ∧
      ((g.bar k.toNat).armed = true → g.applyUpd (.bset k.toNat s.f.own) = g) ∧ ∀ j, j ≠ k.toNat → (g.applyUpd (.bset k.toNat s.f.own)).bar j = g.bar j) ∧
    (s.f.trap ≠ none → ∀ i ∈ [Instr.join k, .barrt, .barrtPub], Faults i s (faultOf 0x01#8 3)) ∧
    (ours → s.f.trap = none → Still s →
      (∀ pub : Bool, (pub = true → s.released s.cur false = true) → exec (if pub then .barrtPub else .barrt) s =
        .next ((s.beginWait (.barrt pub)).setF { (s.beginWait (.barrt pub)).f with pc := s.f.pc + 4 })) ∧
      (s.released s.cur false = true →
        (b.armed = false → Faults (.join k) s (faultOf 0x24#8 2)) ∧
        (b.armed = true → out ≠ 0 → Faults (.join k) s (faultOf 0x24#8 3 (out.extractLsb' 0 64) ((out.extractLsb' 64 32).setWidth 64))) ∧
        (b.armed = true → out = 0 →
          let t := (s.splitUpdate s.cur (.arrive k.toNat s.f.own)).beginWait (.join k.toNat)
          exec (.join k) s = .next (t.joinArrive s.cur k.toNat) ∧
          ((∀ w ∈ t.waiters s.f.group k.toNat, w.2.own.getLsbD (t.barView s.cur k.toNat).alane = true → w.1 = s.cur) →
            exec (.join k) s = .next t))))) ∧
  (∀ (s : State) (a b : RegNum),
    let va := s.sv a
    let u := translated s [va]
    let x := leafAt u va
    let key := u.cellOf x va
    let want : Word := (s.sv b).setWidth 32
    s.f.trap = none → s.poisoned [.s a, .s b] = none → Still s →
    s.checkGlobal s.f.coreKey s.g.rights .read 4 false [⟨0, va, 4⟩] = none → Free u va →
      (x.dev ≠ s.fabric.toNat →
        (u.answered (.frag u.cur) = [] → (∀ r ∈ u.remote, r.asker ≠ some (.frag u.cur)) → Holds (.waitw a b) s (u.askWatch x.dev va want)) ∧
        ∀ e es, u.answered (.frag u.cur) = e :: es →
          let v := { u with answers := u.answers.filter fun y => y.asker != Asker.frag u.cur }
          let at' := fun k => (KMap.find e.reply.vals k).getD 0
          (e.reply.code ≠ 0 → Faults (.waitw a b) s (faultAt e.reply.code e.reply.reason [⟨0, va, 4⟩])) ∧
          (e.reply.code = 0 → at' 0 ≠ 2 → Goes (.waitw a b) s (v.setE (at' 0 == 1))) ∧
          (e.reply.code = 0 → at' 0 = 2 → exec (.waitw a b) s = .next (v.beginWait (.waitAway (at' 1).toNat va none)))) ∧
      (x.dev = s.fabric.toNat →
      (u.valIn .dram key 4 ≠ want.toNat → Goes (.waitw a b) s (u.setE true)) ∧
      (u.valIn .dram key 4 = want.toNat →
        (u.watches x.home < 4096 → exec (.waitw a b) s = .next (u.beginWait (.waitw key want va x.gen false))) ∧
        (4096 ≤ u.watches x.home → Goes (.waitw a b) s (u.setE false)))))

/-- SPAWN, EXIT, PARK and YIELD complete: the new group, the lanes that retire, and the park. (R99, R103, R114, R149, R159, R160,
R161, R162) How SPAWN and EXIT away from the primary home ask it, and their KEY report, are the model's own choices (log 52). -/
def Obligations.GroupCreationAndEnd : Prop :=
∀ (s : State) (a b : RegNum),
    let n := s.nextId
    let f := fragNo n 0
    let regs := (List.range 8).map fun i => b + BitVec.ofNat 6 i
    let L := if s.mreg 0 = 0 then s.f.own else s.mreg 0
    (s.f.trap = none → s.poisoned (.s a :: regs.map Src.s) = none → s.g.dev ≠ s.fabric.toNat →
      (s.f.grant = .asked → Holds (.spawn a b) s s) ∧
      (s.f.grant = .refused → Faults (.spawn a b) s (keyFault s.f.own s.g.dev s.g.home)) ∧
      ∀ ok, s.f.grant = .spawned ok → Goes (.spawn a b) s ((s.setF { s.f with grant := .none }).setE !ok)) ∧
    (s.f.trap = none → s.poisoned (.s a :: regs.map Src.s) = none → s.g.dev = s.fabric.toNat →
      (16 ≤ (s.groupsOf s.g.team).length ∨ s.records ≤ s.recordsUsed s.t.coreKey → Goes (.spawn a b) s (s.setE true)) ∧
      (f ≠ s.cur → (s.groupsOf s.g.team).length < 16 → s.recordsUsed s.t.coreKey < s.records → ∃ t,
        Goes (.spawn a b) s t ∧ flagE t.f.regs.cflags = false ∧
        (t.group n).alive = true ∧ (t.group n).team = s.g.team ∧ (t.group n).rights = { s.g.rights with keyidx := s.keyOf s.g.rights.asid } ∧ (t.group n).depth = s.g.depth ∧
        (t.group n).gridid = s.g.gridid ∧ (t.group n).teamid = s.g.teamid ∧ (t.group n).weight = s.g.weight ∧ (t.group n).ntiles = 0 ∧
        (t.frag f).alive = true ∧ (t.frag f).group = n ∧ (t.frag f).own = allLanes ∧ (t.frag f).regs.mask 0 = allLanes ∧ (t.frag f).pc = s.sv a ∧
        ∀ i, i < 8 → (t.frag f).regs.s.get SReg.zero i = ⟨s.sv (b + BitVec.ofNat 6 i), (s.sreg (b + BitVec.ofNat 6 i)).bnd, false⟩)) ∧
    (Still s → s.g.dev = s.fabric.toNat → ∃ t, exec .exit s = .next t ∧
      (s.f.own &&& ~~~L ≠ 0 → t.f.own = s.f.own &&& ~~~L ∧ t.f.regs.mask 0 = 0 ∧ t.f.pc = s.f.pc + 4 ∧ t.f.alive = s.f.alive) ∧
      (s.f.own &&& ~~~L = 0 → t.f = Frag.free ∨ (t.f.own = 0 ∧ t.f.state = .ended ∧ t.f.resident = false))) ∧
    Goes .park s (s.setF { s.f with park := true }) ∧
    (∃ t, Goes .yield s t ∧ t.f = { s.f with turn := 0, served := 0 } ∧ t.mem = s.mem ∧ t.groups = s.groups ∧ t.teams = s.teams)

/-- ST and STP at the fragment's own home: which bytes they write, and that every other byte and register is as before. (R46, R47,
R103, R217, R218, R223, R224, R225, R228) -/
def Obligations.GlobalStoresAtHome : Prop :=
∀ (s : State) (d b i : RegNum) (w o : BitVec 3),
    let size := widthOf w
    let lanes := lanesIn s.eff
    let F := narrowFmt (w.setWidth 2)
    let cls := classOf (narrowCode (w.setWidth 2))
    let k := s.nmRnd cls
    (s.poisoned (addrSrcs b i s.eff ++ [.v d s.eff]) = none →
      StoresHere (.stV d b i w o) s o size (s.vreg d).bnd lanes (fun l => s.src.addr b i size l)
        (fun l => storeVal w (s.nmSat (if w.toNat < 2 then 5 else 6)) (s.vl d l)) s.f ∧
      StoresHere (.stp d b i w o) s o size (s.vreg d).bnd lanes (fun l => s.src.addr b i size l)
        (fun l => storeVal w (s.nmSat (if w.toNat < 2 then 5 else 6)) (s.vl d l)) s.f ∧
      StoresHere (.stVNarrow d b i w o) s o (F.width / 8) (s.vreg d).bnd lanes (fun l => s.src.addr b i (F.width / 8) l)
        (fun l => F.narrow (s.rnd k l) (s.nmSat cls) (ofF32 (s.vl d l)))
        (if k ≠ 5 then s.f else { s.f with
          regs := { s.f.regs with nstep := s.f.regs.nstep + 1 }, grp := s.f.grp.map fun (g : GroupCtx) => { g with rounded := g.rounded + 1 } })) ∧
    (s.poisoned [.s b, .s d] = none →
      StoresHere (.stS d b w o) s o size (s.sreg d).bnd [0] (fun _ => s.sv b) (fun _ => (s.sv d).toNat) s.f)

/-- LD at the fragment's own home: the values its sectors bring, the lanes they write, and that memory and registers stay until
they are delivered. (R62, R78, R103, R115, R207, R217, R218, R221, R225) -/
def Obligations.GlobalLoadsAtHome : Prop :=
∀ (s : State) (d b i : RegNum) (w o : BitVec 3),
    let size := widthOf w
    let value := fun va => widen w (BitVec.ofNat 64 (s.valIn .dram (placeOf s va) size))
    let same := fun t : State => t.mem = s.mem ∧ t.scratch = s.scratch ∧ t.vault = s.vault ∧ t.opmem = s.opmem
    (s.poisoned (addrSrcs b i s.eff) = none → ReleaseMet s o →
      LocalAccess s .read size false ((lanesIn s.eff).map fun l => ⟨l, s.src.addr b i size l, size⟩) →
      ∃ t outs, Goes (.ldV d b i w o) s t ∧ same t ∧ LeavesOut s t outs (s.src.vEnt d) (s.zeroed &&& s.f.own) ∧
        ReadsLanes outs (s.src.vEnt d) s.eff (s.zeroed &&& s.f.own) (fun l => (value (s.src.addr b i size l)).setWidth 32) ∧
        ∀ x ∈ outs, x.kind = .sector (isAcq o) ∧ (x.bnd = true ↔ ∃ l ∈ lanesIn s.eff, (leafAt s (s.src.addr b i size l)).bnd = true) ∧
          ∀ l, x.mask.getLsbD l = true → (x.poison.getLsbD l = true ↔
            s.eff.getLsbD l = true ∧ s.readErr (placeOf s (s.src.addr b i size l)) size = true)) ∧
    ((s.sreg b).poison = false → ReleaseMet s o → LocalAccess s .read size false [⟨0, s.sv b, size⟩] →
      ∃ t x, Goes (.ldS d b w o) s t ∧ same t ∧ t.f = { s.f with outs := s.f.outs ++ [x] } ∧ x.kind = .sector (isAcq o) ∧
        x.sval = value (s.sv b) ∧ x.dest = (if 61 ≤ d.toNat then .m 0 else .s (s.src.sEnt d)) ∧
        (d.toNat < 61 → x.bnd = (leafAt s (s.sv b)).bnd))

/-- ATOM and ATP at the fragment's own home complete: the word that each lane reads, the word that it leaves, and nothing else.
(R79, R103, R207, R217, R218, R225, R227, R228) -/
def Obligations.AtomicsAtHome : Prop :=
∀ (s : State) (d b i : RegNum) (op o : BitVec 3),
    let lanes := lanesIn s.eff
    let addr := fun l => s.src.addr b i 4 l
    let as := lanes.map fun l => (⟨l, addr l, 4⟩ : Addr)
    let key := fun l => placeOf s (addr l)
    let old : Nat → Word := fun l => BitVec.ofNat 32 (valueAt s (addr l) 4)
    let c := s.third d
    let cas := decide (op = 7)
    let done := fun (i : Instr) (op : AtomOp) (atp : Bool) => ∃ t outs, Goes i s t ∧ (atp = true → outs = [] ∧ OnlyFrag s t s.f) ∧
      (atp = false → LeavesOut s t outs (s.src.vEnt d) (s.zeroed &&& s.f.own) ∧ ∀ x ∈ outs, x.dest = .v (s.src.vEnt d) ∧
        x.whole = s.eff ||| (s.zeroed &&& s.f.own) ∧ x.mask &&& ~~~x.whole = 0 ∧ ∀ l, x.mask.getLsbD l = true → s.eff.getLsbD l = false → lane x.vals l = 0) ∧ t.scratch = s.scratch ∧ t.vault = s.vault ∧ t.opmem = s.opmem ∧ KeepsOthers s t (lanes.map key) 4 ∧
      ∀ l ∈ lanes, Plain s (addr l) 4 → (∀ j, j < 4 → Outside ((lanes.filter (· != l)).map key) 4 (key l + j)) →
        t.valIn .dram (key l) 4 = (atomNew op (old l) (s.vl d l) (s.vl c l)).toNat ∧
        (atp = false → ∃ x ∈ outs, x.mask.getLsbD l = true ∧ lane x.vals l = old l)
    ReleaseMet s o → s.poisoned (addrSrcs b i s.eff ++ [.v d s.eff]) = none → (∀ l ∈ lanes, s.readErr (key l) 4 = false) →
      (s.poisoned (addrSrcs b i s.eff ++ [.v d s.eff] ++ (if cas then [.v c s.eff] else [])) = none →
        LocalAccess s .atom 4 ((s.vreg d).bnd || (cas && (s.vreg c).bnd)) as → done (.atom d b i op o) (atomOf false op) false) ∧
      (LocalAccess s .atom 4 (s.vreg d).bnd as → done (.atomF d b i op o) (atomOf true op) false ∧
        (s.f.sent = 0 → done (.atp d b i op o) (atpOf op) true))

/-- The checks of a global access in their order; and LD, ATOM and MIGR to other homes: what is due, and how the fragment divides.
(R25, R26, R95, R112, R146, R148, R211, R217, R219, R221, R227, R229) That a word dividing over several homes takes its entries at
issue is the model's own reading (log 57). -/
def Obligations.AccessChecksAndMigration : Prop :=
  (∀ (s : State) (core : Nat) (r : Rights) (need : Need) (e : Nat) (bnd : Bool) (as : List Addr),
    let noLease := ∃ a ∈ as, s.farAway core r a.va = false ∧ s.leased r need a.va a.size = false
    let noProt := ∃ a ∈ as, s.protOf core r need a.va ≠ 0
    let mis := ∃ a ∈ as, a.va.toNat % e ≠ 0
    let stale := ∃ a ∈ as, need ≠ .move ∧ r.asgen < (s.leafOf core r.asid a.va).gen
    let mixed := ∃ a ∈ as, ∃ b ∈ as, (s.leafOf core r.asid a.va).ord ≠ (s.leafOf core r.asid b.va).ord
    let loose := ∃ a ∈ as, bnd = true ∧ (s.leafOf core r.asid a.va).bnd = false
    let code := (s.checkGlobal core r need e bnd as).map (·.code)
    (noLease → code = some 0x10#8) ∧
    (¬noLease → noProt → code = some 0x12#8 ∨ code = some 0x19#8) ∧
    (¬noLease → ¬noProt → mis → code = some 0x13#8) ∧
    (¬noLease → ¬noProt → ¬mis → stale → code = some 0x15#8) ∧
    (¬noLease → ¬noProt → ¬mis → ¬stale → mixed → code = some 0x14#8) ∧
    (¬noLease → ¬noProt → ¬mis → ¬stale → ¬mixed → loose → code = some 0x18#8) ∧
    (¬noLease → ¬noProt → ¬mis → ¬stale → ¬mixed → ¬loose → code = none) ∧
    (r.priv = true → ¬noLease)) ∧
  ((∀ (s : State) (d b i : RegNum) (w op o : BitVec 3),
    let core := s.f.coreKey
    let r := s.g.rights
    let cas := decide (op = 7)
    let c := s.third d
    let addr := addrSrcs b i s.eff
    let word := fun (i : Instr) (a : MigAcc) (srcs : List Src) (whole : Bool) =>
      let as := a.addrs s.src s.eff
      let far := as.filter fun x => s.destOf core r x.va != (s.fabric.toNat, s.f.home)
      let u := translated s (as.map (·.va))
      s.poisoned srcs = none → (whole = true → s.mreg 0 ≠ 0) → s.checkGlobal core r a.need a.size (a.writesBnd s.src) as = none →
      (a.need ≠ .move → s.accessHeld s.cur = false ∧ ((∃ x ∈ as, (leafAt s x.va).ord = 0) → s.released s.cur true = true) ∧
        s.mayAccess s.cur (s.accPages s.cur a s.src s.eff) = true) →
      ReleaseMet s a.order → far ≠ [] → s.f.trap = none → s.g.dev = s.fabric.toNat →
      ∃ sets : List Leaving,
        let gone := sets.foldl (fun (m : Mask) x => m ||| x.lanes) 0
        let kids := if s.mreg 0 &&& ~~~gone = 0 then sets.length - 1 else sets.length
        let ents := (s.freeEntries s.f.group).take kids
        let spill := decide (ents.length < kids) || ents.any fun i => decide (16 ≤ i)
        sets.Pairwise (fun x y => x.dev < y.dev ∨ (x.dev = y.dev ∧ x.home < y.home)) ∧
        (∀ x ∈ far, ∃ y ∈ sets, (y.dev, y.home) = s.destOf core r x.va) ∧
        (∀ y ∈ sets, ∃ x ∈ far, (y.dev, y.home) = s.destOf core r x.va) ∧
        (∀ y ∈ sets, ∀ l, l < 96 → (y.lanes.getLsbD l = true ↔
          if whole = true then (s.mreg 0).getLsbD l = true else ∃ x ∈ far, x.lane = l ∧ (y.dev, y.home) = s.destOf core r x.va)) ∧
        (s.anchorBits s.f.group ≠ 0 ∨ spill = true →
          Faults i s (faultOf 0x21#8 (s.anchorBits s.f.group ||| if spill then 0x8000000000000000#64 else 0))) ∧
        (s.anchorBits s.f.group = 0 → spill = false →
          (u.liveOf r.part r.asid s.f.pc = none → Faults i s (faultOf 0x20#8)) ∧
          ∀ e, u.liveOf r.part r.asid s.f.pc = some e → Goes i s (u.dueLeave
            ⟨a, sets, s.eff, s.f.rpc, s.f.ti0, e.smap, e.vmap, s.src, s.fabric.toNat, s.f.home, false, ents, []⟩))
    word (.ldV d b i w o) (.loadV d b i w o s.zeroed) addr false ∧
    word (.ldS d b w o) (.loadS d b w o) [.s b] true ∧
    word (.atom d b i op o) (.atom d b i false op o c s.zeroed) (addr ++ [.v d s.eff] ++ (if cas then [.v c s.eff] else [])) false ∧
    word (.atomF d b i op o) (.atom d b i true op o c s.zeroed) (addr ++ [.v d s.eff]) false ∧
    word (.migr b) (.migr b) [.s b] true) ∧
  ∀ (s : State) (n : Nat) (L : LeaveDue) (x : Leaving) (xs : List Leaving),
    let f := s.frag n
    let at' := fun (i : Nat) => fragNo f.group i
    let gone := L.sets.foldl (fun (m : Mask) y => m ||| y.lanes) 0
    let stay := f.regs.mask 0 &&& ~~~gone
    let t := s.settle n
    let parts : List Leaving := if stay = 0 then xs else L.sets
    let leaves := fun (g : Frag) (y : Leaving) => g.alive = true ∧ g.group = f.group ∧ g.own = y.lanes ∧ g.regs.mask 0 = y.lanes ∧
      g.state = .transit y.dev y.home false ∧ g.regs.v = f.regs.v ∧ g.regs.s = f.regs.s ∧ g.home = f.home ∧ g.outs = [] ∧
      g.leave = some { L with sets := [], eff := L.eff &&& y.lanes, ents := [] }
    f.leave = some L → L.sets = x :: xs → f.outs = [] → f.alive = true → f.due = none → f.state ≠ .ended → (s.group f.group).dev = s.fabric.toNat →
    s.missingLines n (L.carried.1.map f.regs.vId ++ L.carried.2.map f.regs.sId) = [] → L.poisoned f.regs = none →
    (L.acc.need = .move ∨ ∀ a ∈ L.acc.addrs L.src L.eff, (s.leafOf f.coreKey (s.group f.group).rights.asid a.va).ord ≠ 0) →
    parts.length ≤ L.ents.length → L.ents.Nodup → (∀ e ∈ L.ents, (s.frag (at' e)).alive = false ∧ at' e ≠ n) →
      (∀ (k : Nat) (y : Leaving) (e : Nat), parts[k]? = some y → L.ents[k]? = some e → leaves (t.frag (at' e)) y ∧ (t.frag (at' e)).idx = e) ∧
      (stay = 0 → leaves (t.frag n) x ∧ (t.frag n).idx = f.idx) ∧
      (stay ≠ 0 → (t.frag n).own = f.own &&& ~~~gone ∧ (t.frag n).regs.mask 0 = stay ∧ (t.frag n).pc = f.pc ∧ (t.frag n).regs.s = f.regs.s ∧
        (t.frag n).alive = true ∧ (t.frag n).group = f.group ∧ (t.frag n).home = f.home))

/-- LDS, STS, LDV and STV at the fragment's own core and home: values read, bytes written, requests made, and nothing else. (R103,
R212, R213, R216, R217, R218, R222, R224, R231, R232, R310) -/
def Obligations.ScratchpadAndVaultWords : Prop :=
∀ (s : State) (d b i : RegNum) (w : BitVec 3) (o : BitVec 2) (off : Nat → Nat),
    let size := widthOf w
    let lanes := lanesIn s.eff
    let addr := fun l => s.src.addr b i size l
    let val := fun l => storeVal w (s.nmSat (if w.toNat < 2 then 5 else 6)) (s.vl d l)
    let key := fun l => scrKey s.f.coreKey (off l)
    let inScr := fun store => s.g.dev = s.fabric.toNat ∧ NothingBefore s ∧ ∀ l ∈ lanes, (addr l).toNat % size = 0 ∧
      s.scrAt s.g.team s.g.rights.asid (addr l) size store = .ok ⟨s.f.coreKey, off l, none, false⟩
    let inVault := ∀ l ∈ lanes, (addr l).toNat % size = 0 ∧ s.vaultAt s.f.home s.g.rights.asid (addr l) = .ok (off l)
    let sameMem := fun (t : State) => t.mem = s.mem ∧ t.scratch = s.scratch ∧ t.vault = s.vault ∧ t.opmem = s.opmem
    let req := fun (data : Nat → Nat) => (⟨s.cur, s.f.group, s.f.pc, s.g.rights, s.f.home,
      lanes.map fun l => ⟨l, .vault, off l, size, BitVec.ofNat 64 (data l), addr l, none, 0⟩, 1, [s.cur]⟩ : Req)
    (s.poisoned (addrSrcs b i s.eff) = none → s.teamOrder o true = true →
      (inScr false → ∃ t outs, Goes (.lds d b i w o) s t ∧ sameMem t ∧ LeavesOut s t outs (s.src.vEnt d) s.zeroed ∧
        ReadsLanes outs (s.src.vEnt d) s.eff s.zeroed (fun l => (widen w (BitVec.ofNat 64 (s.valIn .scratch (key l) size))).setWidth 32)) ∧
      (inVault → ∃ t outs msgs, Goes (.ldv d b i w o) s t ∧ sameMem t ∧ LeavesOut s t outs (s.src.vEnt d) s.zeroed ∧ t.net = s.net ++ msgs ∧
        (lanes = [] → outs = [] ∧ msgs = []) ∧
        (lanes ≠ [] → ∃ x id, outs = [x] ∧ x.dest = .v (s.src.vEnt d) ∧ x.kind = .remote id (isAcq (o.setWidth 3)) w.toNat ∧
          (∀ l ∈ lanes, x.mask.getLsbD l = true) ∧ msgs = [.read (req fun _ => 0) id]))) ∧
    (s.poisoned (addrSrcs b i s.eff ++ [.v d s.eff]) = none → s.teamOrder o false = true → (s.vreg d).bnd = false →
      (inScr true → ∃ t, Goes (.sts d b i w o) s t ∧ OnlyFrag s t s.f ∧ t.mem = s.mem ∧ t.vault = s.vault ∧ t.opmem = s.opmem ∧
        (∀ k, Apart (lanes.map key) size k → Apart (syncPlaces s) 12 k → t.byteIn .scratch k = s.byteIn .scratch k) ∧
        ∀ l ∈ lanes, ∀ j, j < size → Apart ((lanes.filter (· != l)).map key) size (key l + j) → Apart (syncPlaces s) 12 (key l + j) →
          t.byteIn .scratch (key l + j) = BitVec.ofNat 8 (val l / 256 ^ j)) ∧
      (inVault → ∃ t, Goes (.stv d b i w o) s t ∧ OnlyFrag s t s.f ∧ sameMem t ∧
        t.net = s.net ++ (if lanes = [] then [] else [.store (req val)])))

/-- FENCE, MIGR, HOME, LEASEQ, SPMAP, SPFLUSH and WCFL complete, and what they change. (R103, R207, R214, R215, R217, R226, R229,
R230, R314) That away from the group's device SPMAP and SPFLUSH ask that device and are held is the model's own choice (logs 46,
58). -/
def Obligations.FencesQueriesAndMaps : Prop :=
∀ (s : State) (d a b : RegNum) (k x : BitVec 3),
    let core := s.f.coreKey
    let r := s.g.rights
    let u := translated s [s.sv a]
    let fresh := fun (v : DWord) => s.src.scalarOut .unit d v false false
    let o := ((s.sv b).extractLsb' 0 32).toNat
    let n := ((s.sv b).extractLsb' 32 32).toNat
    let as := rangeParts (s.sv a) n
    let v := translated s (as.map (·.va))
    let meets := s.t.maps.any fun e => decide (e.2.off < o + n ∧ o < e.2.off + e.2.len)
    let own := s.g.dev = s.fabric.toNat
    let asks := fun (op : ScrOp) => s.fabScratch s.f.group s.f.home [s.cur] (some (.frag s.cur)) op []
    (s.fenceMet s.cur (isAcq k) (isRel k) (decide (x = 5)) = true → Goes (.fence k x) s (if x = 5 then s.drainFrag s.cur else s)) ∧
    (s.fenceMet s.cur (isAcq k) (isRel k) (decide (x = 5)) = false → Holds (.fence k x) s (if x = 5 then s.drainFrag s.cur else s)) ∧
    Goes .wcfl s (s.drainFrag s.cur) ∧
    ((s.sreg a).poison = false →
      (s.checkGlobal core r .move 1 false [⟨0, s.sv a, 1⟩] = none → (leafAt s (s.sv a)).dev = s.fabric.toNat → (leafAt s (s.sv a)).home = s.f.home →
        Goes (.migr a) s u) ∧
      (∀ y, s.trCore core r.asid (s.sv a) = .ok y → Goes (.homeOf d a) s ((u.addOut s.cur
        (fresh (BitVec.ofNat 64 (y.home + 2 ^ 4 * y.dev + 2 ^ 16 * y.ord + 2 ^ 18 * y.bnd.toNat)))).setE false)) ∧
      (∀ y, s.trCore core r.asid (s.sv a) = .error y → Goes (.homeOf d a) s ((u.addOut s.cur (fresh (BitVec.allOnes 64))).setE true)) ∧
      (∀ e, s.bestLease r (s.sv a) = some e → Goes (.leaseq d a) s ((s.addOut s.cur
        (fresh (BitVec.ofNat 64 ((e.extractLsb' 226 2).toNat + 4 * (e.extractLsb' 225 1).toNat + 256 * (e.extractLsb' 200 8).toNat)))).setE false)) ∧
      (s.bestLease r (s.sv a) = none → Goes (.leaseq d a) s ((s.addOut s.cur (fresh 0)).setE true))) ∧
    (s.poisoned [.s a, .s b] = none → ¬own → s.answered (.frag s.cur) = [] → (∀ y ∈ s.remote, y.asker ≠ some (.frag s.cur)) →
      Holds (.spmap a b) s (asks (.spmap (s.sv a) (s.sv b))) ∧ Holds (.spflush a b) s (asks (.spflush (s.sv a) (s.sv b)))) ∧
    (s.poisoned [.s a, .s b] = none → own →
      ((s.sv a).toNat % 256 ≠ 0 ∨ o % 256 ≠ 0 ∨ n % 256 ≠ 0 → ∃ y, y.code = 0x13#8 ∧ Faults (.spmap a b) s y) ∧
      ((s.sv a).toNat % 256 = 0 → o % 256 = 0 → n % 256 = 0 → n ≠ 0 →
        (s.t.size < o + n → ∃ y, y.code = 0x11#8 ∧ Faults (.spmap a b) s y) ∧
        (o + n ≤ s.t.size → s.checkRange core r as = none →
          (∀ e, (List.range 8).find? (fun e => (s.t.maps.find e).isNone) = some e → meets = false → ∃ w c t, Goes (.spmap a b) s t ∧
            (t.team s.g.team).maps.get ⟨0, 0, 0, false, false, [], [], r⟩ e = ⟨o, n, s.sv a, c, w, [], [], r⟩ ∧ flagE t.f.regs.cflags = false ∧ t.mem = s.mem) ∧
          (meets = true ∨ (List.range 8).find? (fun e => (s.t.maps.find e).isNone) = none → Goes (.spmap a b) s (v.setE true)))) ∧
      (s.flushDue s.g.team (s.sv a) (s.sv b) = false → s.storesAcked s.cur = true → Goes (.spflush a b) s s) ∧
      (s.flushDue s.g.team (s.sv a) (s.sv b) = true → s.soLine s.g.team (s.sv a) (s.sv b) = none → (∀ y ∈ s.t.maps, s.t.maps.find y.1 = some y.2) →
        ∃ t, Holds (.spflush a b) s t ∧ t.scratch = s.scratch ∧ t.mem = s.mem ∧ ∀ e m, s.t.maps.find e = some m →
          (t.team s.g.team).maps.find e = some { m with dirty := m.dirty.filter fun o => !m.meets (s.sv a) (s.sv b) (o / 256) } ∧
          ∀ o ∈ m.dirty, m.meets (s.sv a) (s.sv b) (o / 256) = true →
            let va := m.gva + BitVec.ofNat 64 o
            ∀ y, s.trCore s.t.coreKey m.rights.asid (m.gva + BitVec.ofNat 64 (256 * (o / 256))) = .ok y → y.dev = s.fabric.toNat →
              s.leased m.rights .write va 1 = true → ∃ q el, Msg.store q ∈ t.net ∧ q.owners = [s.cur] ∧ q.home = y.home ∧ el ∈ q.elems ∧
                el.space = .dram ∧ el.key = s.cellOf y va ∧ el.size = 1 ∧
                el.data = (s.byteIn .scratch (scrKey s.t.coreKey (s.t.base + m.off + o))).setWidth 64))

/-- CZERO, CRD, CWR, CSCL and BSKIP complete: the elements, lanes and mask bits that each writes. (R60, R103, R120, R166, R173,
R179, R182, R183) -/
def Obligations.AccumulatorAndBlockSkipWords : Prop :=
  (∀ (s : State) (t : BitVec 3) (d a b : RegNum),
    let c := s.g.tile t.toNat
    let n := (s.sv b).toNat
    let act := s.mreg 0
    let tileOf := fun (u : State) => u.g.tile t.toNat
    let others := fun (u : State) => SameBut s u ∧ u.f = s.f ∧ ∀ j, j ≠ t.toNat → u.g.tile j = s.g.tile j
    (s.tileCheck false t = none → ∃ u, Goes (.czero t) s u ∧ tileOf u = Tile.fresh ∧ others u) ∧
    (s.tileCheck false t = none → (s.sreg b).poison = false → n < 32 → c.poisonFault t act = none →
      (act = 0 → Goes (.crd d t b) s s) ∧
      (act ≠ 0 → ∃ x, Goes (.crd d t b) s (s.addOut s.cur x) ∧ x.kind = .unit ∧ x.dest = .v (s.src.vEnt d) ∧ x.mask = act ∧ x.bnd = c.bnd ∧
        ∀ l, l < 96 → lane x.vals l = c.elem l n)) ∧
    (s.tileCheck true t = none → s.poisoned [.v a act, .s b] = none → n < 32 → ∃ u, Goes (.cwr t a b) s u ∧ others u ∧
      (tileOf u).empty = false ∧ (tileOf u).bnd = (c.bnd || (s.vreg a).bnd) ∧ (tileOf u).poison = c.poison ∧
      ∀ r j, j < 32 → (tileOf u).elem r j = if act.getLsbD r = true ∧ j = n then s.vl a r else c.elem r j) ∧
    (s.tileCheck false t = none → s.poisoned [.v a act] = none → c.poisonFault t act = none →
      (c.empty = true → Goes (.cscl t a) s s) ∧
      (c.empty = false → ∃ u, Goes (.cscl t a) s u ∧ others u ∧ (tileOf u).empty = false ∧ (tileOf u).bnd = (c.bnd || (s.vreg a).bnd) ∧
        ∀ r j, j < 32 → (tileOf u).elem r j = if act.getLsbD r = true then fmul .rne (c.elem r j) (s.vl a r) else c.elem r j))) ∧
  (∀ (s : State) (m : BitVec 3) (a b : RegNum),
    let keep := fun l => !skipRow (s.vl a l) (s.vl (a + 1) l) ((s.sv b).setWidth 32)
    (a = 63 → Faults (.bskip m a b) s (faultOf 0x01#8)) ∧
    (a ≠ 63 → s.poisoned [.v a (s.mreg 0), .v (a + 1) (s.mreg 0), .s b] = none → Goes (.bskip m a b) s
      ((s.wrCond m keep).setE ((List.range 96).all fun l => !(s.mreg 0).getLsbD l || !keep l))))

/-- CST and CSTZ at the fragment's own home: the elements, or the count, row maps and non-zero elements, that they store. (R46,
R48, R49, R103, R180, R181, R217, R224) -/
def Obligations.TileStores : Prop :=
∀ (s : State) (t : BitVec 3) (a : RegNum) (f : BitVec 4),
    let c := s.g.tile t.toNat
    let e := fmtBits f.toNat / 8
    let sa := s.sv a
    let x := s.sv (a + 1)
    let cols := if (x.extractLsb' 32 6).toNat = 0 then 32 else (x.extractLsb' 32 6).toNat
    let pitch := (x.extractLsb' 0 32).toNat
    let val := fun r n => tileOut s.g.ovt f.toNat (c.elem r n)
    let cst := (lanesIn (s.mreg 0)).flatMap fun r => (List.range cols).map fun n => (sa + BitVec.ofNat 64 (r * pitch) + BitVec.ofNat 64 (n * e), val r n)
    let at' := fun i => cst.getD i (0, 0)
    let keep := fun r n => (s.mreg 0).getLsbD r && !isZeroCode f e (val r n)
    let kept := (List.range 96).flatMap fun r => ((List.range 32).filter fun n => keep r n).map fun n => (r, val r n)
    let z := placeOf s sa
    let obj : List Addr := ⟨0, sa, 4⟩ :: ((List.range 96).map fun r => ⟨r, sa + BitVec.ofNat 64 (64 + 4 * r), 4⟩) ++
      (List.range kept.length).map fun i => ⟨i, sa + BitVec.ofNat 64 (448 + i * e), e⟩
    s.tileCheck false t = none → c.poisonFault t (s.mreg 0) = none → 0 < e →
      (a ≠ 63 → s.poisoned [.s a, .s (a + 1)] = none → cols ≤ 32 → sa.toNat % e = 0 → pitch % e = 0 →
        StoresHere (.cst t a f) s 0 e c.bnd (List.range cst.length) (fun i => (at' i).1) (fun i => (at' i).2) s.f) ∧
      ((s.sreg a).poison = false → sa.toNat % 64 = 0 → s.f.sent = 0 → LocalAccess s .write 1 c.bnd obj → (∀ y ∈ obj, s.readErr (placeOf s y.va) y.size = false) →
        (∀ y ∈ obj, placeOf s y.va = z + (y.va - sa).toNat) →
        ∃ u, Goes (.cstz t a f) s u ∧ u.valIn .dram z 4 = kept.length ∧
          (∀ r, r < 96 → ∀ n, n < 32 → (u.valIn .dram (z + 64 + 4 * r) 4).testBit n = keep r n) ∧
          (∀ i y, kept[i]? = some y → u.valIn .dram (z + 448 + i * e) e = y.2 % 256 ^ e) ∧
          ∀ k, Outside [z] 4 k → Outside [z + 64] (384 + kept.length * e) k → u.byte k = s.byte k)

/-- MMA is accepted with one pass for each octet or beat of active rows; a pass adds the products to its rows; MSYNC waits for
passes. (R52, R166, R174, R175, R176, R177, R178, R375) -/
def Obligations.MatrixOperations : Prop :=
(∀ (s : State) (t : BitVec 3) (a b : BitVec 7) (st : BitVec 2),
    let c := s.f.coreKey
    let fmt := s.src.fmt
    let ps := passes (s.mreg 0)
    (s.mreg 0 = 0 → Goes (.mma t a b st) s s) ∧
    (s.mreg 0 ≠ 0 → mmaK (fmt.extractLsb' 0 4) (fmt.extractLsb' 8 4) ≠ none → s.tileCheck true t = none → s.mmaSlots a b = none →
      (s.core c).mmaQ.length + ps.length ≤ 16 → ∃ u, Goes (.mma t a b st) s u ∧ SameBut s u ∧ u.f = s.f ∧
        (u.core c).mmaQ = (s.core c).mmaQ ++ ps.map (fun p => ⟨s.f.group, st.toNat, s.g.mmaSeq, t.toNat, p.2, a.toNat + p.1, b.toNat,
          fmt.extractLsb' 0 6, fmt.extractLsb' 8 6⟩) ∧
        (u.g.tile t.toNat) = { s.g.tile t.toNat with empty := false } ∧ u.g.mmaSeq = s.g.mmaSeq + 1)) ∧
  (∀ act : Mask, (∀ r, r < 96 → act.getLsbD r = true → ((passes act).filter fun p => p.2.getLsbD r).length = 1) ∧
    ∀ p ∈ passes act, ∀ r, p.2.getLsbD r = true → act.getLsbD r = true ∧ r / 32 = p.1) ∧
  (∀ (s : State) (core n : Nat) (e : MmaEntry) (rest : List MmaEntry) (k : Nat),
    let g := s.group e.group
    takeAt (s.core core).mmaQ n = some (e, rest) → (∀ x ∈ rest, x.group = e.group → x.stream = e.stream → e.seq ≤ x.seq) →
    e.credits ≤ (s.home (core / 256)).credPass → mmaK (e.fmtA.extractLsb' 0 4) (e.fmtB.extractLsb' 0 4) = some k →
      ∃ u, exec (.mmaPassComplete core n) s = .next u ∧ (u.core core).mmaQ = rest ∧ u.mem = s.mem ∧ u.frags = s.frags ∧
        (∀ j, j ≠ e.tile → (u.group e.group).tile j = g.tile j) ∧ ((u.group e.group).tile e.tile).empty = false ∧
        ∀ r j, j < 32 → ((u.group e.group).tile e.tile).elem r j = (if e.rows.getLsbD r = true then
          toF32 .rne (sumExact (ofF32 ((g.tile e.tile).elem r j) :: (List.range k).map fun i =>
            (s.slotElem core e.aSlot e.fmtA (r % 32 * k + i)).mul (s.slotElem core e.bSlot e.fmtB (j * k + i))))
          else (g.tile e.tile).elem r j)) ∧
  (∀ (s : State) (st : BitVec 4) (n upto : Nat),
    let queued := fun (f : Frag) (st : BitVec 4) (p : MmaEntry → Bool) => (s.core f.coreKey).mmaQ.any fun e => e.group == f.group && st.getLsbD e.stream && p e
    (s.placement false = none → queued s.f st (fun _ => true) = false → Goes (.msync st) s s) ∧
    (s.placement false = none → queued s.f st (fun _ => true) = true → Goes (.msync st) s (s.setF { s.f with msync := some (st, s.g.mmaSeq) })) ∧
    ((s.frag n).msync = some (st, upto) → (s.frag n).grp = none → queued (s.frag n) st (fun e => decide (e.seq < upto)) = false →
      exec (.msyncRelease n) s = .next (s.setFrag n { s.frag n with msync := none })))

/-- OCLAIM and OREL complete: whole ranges claimed or released, released slots cleared; and a tile error poisons its octet. (R166,
R169, R170, R171, R173, R183) -/
def Obligations.OperandSlots : Prop :=
(∀ (s : State) (first n : BitVec 7),
    let c := s.f.coreKey
    let S := fun i => first.toNat ≤ i ∧ i ≤ first.toNat + n.toNat
    let mine := SlotSt.claimed s.f.group
    let others := ∃ i g, S i ∧ s.slot c i = .claimed g ∧ g ≠ s.f.group
    first.toNat + n.toNat < 128 →
      ((∀ x, s.placement x = none) → others → Goes (.oclaim first n) s (s.setE true)) ∧
      ((∀ x, s.placement x = none) → ¬others → (∀ i, S i → s.slot c i ≠ .clearing) → ∃ u, Goes (.oclaim first n) s u ∧
        flagE u.f.regs.cflags = false ∧ SameBut s u ∧ ∀ i, u.slot c i = (if S i then mine else s.slot c i)) ∧
      (s.placement false = none → (∀ e ∈ (s.core c).mmaQ, ¬S e.aSlot ∧ ¬S e.bSlot) → (∀ i, S i → s.fillOutstanding c i = false) →
        ∃ u, Goes (.orel first n) s u ∧ SameBut s u ∧ u.f = s.f ∧
          ∀ i, u.slot c i = (if S i ∧ s.slot c i = mine then .clearing else s.slot c i))) ∧
  (∀ (s : State) (core slot : Nat), s.slot core slot = .clearing →
    ∃ u, exec (.slotClearDone core slot) s = .next u ∧ u.slot core slot = .free ∧ (∀ i, i ≠ slot → u.slot core i = s.slot core i) ∧
      (∀ i, i < 2304 → u.opmem.get 0x00#8 (opKey core (2304 * slot + i)) = 0) ∧
      (∀ k, k < opKey core (2304 * slot) ∨ opKey core (2304 * slot + 2304) ≤ k → u.opmem.get 0x00#8 k = s.opmem.get 0x00#8 k) ∧ u.mem = s.mem) ∧
  (∀ (s : State) (group tile part : Nat),
    let g := s.group group
    g.alive = true → tile < g.ntiles → part < 12 → ∃ u, exec (.tileStorageError group tile part) s = .next u ∧
      (∀ q, q < 12 → ((u.group group).tile tile).poison.getLsbD q = (decide (q = part) || (g.tile tile).poison.getLsbD q)) ∧
      ((u.group group).tile tile).elems = (g.tile tile).elems ∧ ∀ j, j ≠ tile → (u.group group).tile j = g.tile j)

/-- OPEN, ADV, TEND, CLOSE and FLDC complete: position, end, row, bits and elements. (R103, R173, R186, R187, R188, R189, R190,
R191, R192, R194, R225) FIB.SCAN left at 0, CROW modulo 2^32, whole-array reads of kinds 4 and 5, and the order of reasons are the
model's own choices (logs 24, 59). -/
def Obligations.FibreAndStreamWords : Prop :=
  (∀ (s : State) (a : RegNum) (m : BitVec 3) (x : BitVec 6),
    let sa := s.sv a
    let f := s.g.fib x.toNat
    let n := (sa.extractLsb' 0 32).toNat
    let becomes := fun (i : Instr) (F : Fib) => ∃ u, Goes i s u ∧ SameBut s u ∧ u.g.fib x.toNat = F ∧ ∀ j, j ≠ x.toNat → u.g.fib j = s.g.fib j
    let moves := fun (F : Fib) => ∃ u, Goes (.adv a x) s u ∧ SameBut s u ∧ u.g.fib x.toNat = F ∧ flagE u.f.regs.cflags = decide (F.pos = F.fin)
    (∀ key, s.placement true = none → NothingBefore s → s.fibBusy x.toNat = false → (s.sreg a).poison = false → sa.toNat % 64 = 0 → s.scrBytes s.g.team s.g.rights.asid sa 64 false = .ok key →
      let img : BitVec 512 := BitVec.ofNat 512 (s.valIn .scratch key 64)
      let D := Fib.ofBits img
      D.refusal (isStream x) (decide (img.extractLsb' 8 120 ≠ 0)) = none →
        (D.rows = false → D.kind ≠ 4 → D.kind ≠ 5 → ReadsHere s D.whole.1 D.whole.2 → fibHeld s D.whole.2 = false →
          becomes (.openReg a x) { D with crow := D.row0, scan := 0, pos := 0, fin := D.len }) ∧
        (D.kind = 4 → ReadsHere s 1 D.whole.2 → fibHeld s D.whole.2 = false →
          let count := ((List.range D.len.toNat).filter fun j => (valueAt s (D.arr + BitVec.ofNat 64 (j / 8)) 1).testBit (j % 8)).length
          becomes (.openReg a x) { D with crow := D.row0, scan := 0, pos := 0, fin := BitVec.ofNat 32 count }) ∧
        (D.kind = 5 → ReadsHere s 8 D.whole.2 → fibHeld s D.whole.2 = false →
          let sum := ((List.range D.len.toNat).map fun j => valueAt s (D.arr + BitVec.ofNat 64 (8 * j)) 8 / 2 ^ 32).sum
          sum < 2 ^ 32 → becomes (.openReg a x) { D with crow := D.row0, scan := 0, pos := 0, fin := BitVec.ofNat 32 sum }) ∧
        (D.rows = true → let N := D.nrow.toNat
          let p := fun i => valueAt s (D.ptrAt i) D.width
          let ends := [D.ptrAt 0, D.ptrAt N, D.ptrAt 1]
          s.checkGlobal s.f.coreKey s.g.rights .read D.width false ((List.range (N + 1)).map fun i => ⟨0, D.ptrAt i, D.width⟩) = none →
          ReadsHere s D.width ends → fibHeld s ends = false → p 0 ≤ p 1 → p 1 ≤ p N →
          (translated s ends).checkGlobal s.f.coreKey s.g.rights .read D.width false ((D.span (p 0) (p N)).map fun va => ⟨0, va, D.width⟩) = none →
            becomes (.openReg a x) { D with crow := D.row0, scan := 0, pos := BitVec.ofNat 32 (p 0), fin := BitVec.ofNat 32 (p 1) })) ∧
    (s.placement false = none → s.fibBusy x.toNat = false → f.kind = 0 →
      becomes (.closeReg x) f ∧ Faults (.tend m x) s (fibFault 4 x) ∧ ((s.sreg a).poison = false → Faults (.adv a x) s (fibFault 4 x))) ∧
    (s.placement false = none → s.fibBusy x.toNat = false → f.kind ≠ 0 →
      ((s.sreg a).poison = false →
        (sa.getLsbD 63 = false → moves { f with pos := BitVec.ofNat 32 (min (f.pos.toNat + n) f.fin.toNat) }) ∧
        (sa.getLsbD 63 = true →
          (f.row0.toNat + f.nrow.toNat ≤ f.crow.toNat + n → moves { f with crow := BitVec.ofNat 32 (f.row0.toNat + f.nrow.toNat), pos := f.fin }) ∧
          (f.crow.toNat + n < f.row0.toNat + f.nrow.toNat → f.rows = false → moves { f with pos := 0 }) ∧
          (f.crow.toNat + n < f.row0.toNat + f.nrow.toNat → f.rows = true →
            let i := f.crow.toNat + n - f.row0.toNat
            let p := fun j => valueAt s (f.ptrAt j) f.width
            let vas := [f.ptrAt 0, f.ptrAt f.nrow.toNat, f.ptrAt i, f.ptrAt (i + 1)]
            ReadsHere s f.width vas → fibHeld s vas = false → p 0 ≤ p i → p i ≤ p (i + 1) → p (i + 1) ≤ p f.nrow.toNat →
              moves { f with crow := BitVec.ofNat 32 (f.crow.toNat + n), pos := BitVec.ofNat 32 (p i), fin := BitVec.ofNat 32 (p (i + 1)) }))) ∧
      Goes (.tend m x) s ((s.wrCond m fun l => decide (f.pos.toNat + ((List.range l).filter fun j => (s.mreg 0).getLsbD j).length < f.fin.toNat)).setE
        (decide (f.pos = f.fin)))) ∧
    (s.placement false = none → s.fibBusy x.toNat = false → f.kind ≠ 0 → becomes (.closeReg x) Fib.closed)) ∧
  (∀ (s : State) (d : RegNum) (x : BitVec 6),
    let f := s.g.fib x.toNat
    let rank := fun l => ((List.range l).filter fun j => (s.mreg 0).getLsbD j).length
    let has := fun l => (s.mreg 0).getLsbD l && decide (f.pos.toNat + rank l < f.fin.toNat)
    let lanes := (List.range 96).filter has
    let addr := fun l => f.arr + BitVec.ofNat 64 (f.width * (f.pos.toNat + rank l))
    let gives := fun (lane' : Nat → Word → Prop) => ∃ u outs, Goes (.fldc d x) s u ∧ u.mem = s.mem ∧ u.f.outs = s.f.outs ++ outs ∧
      (∀ o ∈ outs, o.dest = .v (s.src.vEnt d)) ∧ ∀ l ∈ lanes, ∃ o ∈ outs, o.mask.getLsbD l = true ∧ lane' l (lane o.vals l)
    s.placement false = none → s.fibBusy x.toNat = false →
      (f.kind = 0 → Faults (.fldc d x) s (fibFault 4 x)) ∧
      (f.kind ≠ 0 → lanes = [] → Goes (.fldc d x) s s) ∧
      (lanes ≠ [] → f.kind = 4 → ReadsHere s 1 f.whole.2 → fibHeld s f.whole.2 = false →
        let bit := fun j => (valueAt s (f.arr + BitVec.ofNat 64 (j / 8)) 1).testBit (j % 8)
        gives fun l y => ∀ j, j < f.len.toNat → bit j = true → ((List.range j).filter bit).length = f.pos.toNat + rank l → y = f.aux + BitVec.ofNat 32 j) ∧
      (lanes ≠ [] → f.kind = 5 → ReadsHere s 8 f.whole.2 → fibHeld s f.whole.2 = false →
        let run := fun j => valueAt s (f.arr + BitVec.ofNat 64 (8 * j)) 8
        gives fun l y => ∀ j q, j < f.len.toNat → q < run j / 2 ^ 32 → ((List.range j).map fun i => run i / 2 ^ 32).sum + q = f.pos.toNat + rank l →
          y = BitVec.ofNat 32 (run j % 2 ^ 32 + q)) ∧
      (f.kind ≠ 0 → lanes ≠ [] → f.kind ≠ 4 → f.kind ≠ 5 → s.f.sent = 0 → ReadsHere s f.width (lanes.map addr) → fibHeld s (lanes.map addr) = false →
        (∀ l ∈ lanes, (leafAt s (addr l)).home = s.f.home ∧ (leafAt s (addr l)).ord ≠ 0) →
        gives fun l y => y = widenFmt f.fmt (BitVec.ofNat 32 (valueAt s (addr l) f.width))))

/-- CYC, GTIM, GTSET and PERF complete; numbers without a counter are ILLEGAL_OP; TIMER comes before a chain group. (R103, R106,
R331, R332, R333, R334, R335) -/
def Obligations.CounterWords : Prop :=
(∀ (s : State) (d a : RegNum),
    let n := ((s.sv a).extractLsb' 0 16).toNat
    let listed := n ≤ 8 ∨ (0x10 ≤ n ∧ n ≤ 0x13) ∨ (0x100 ≤ n ∧ n ≤ 0x2FF)
    let now := match s.f.grp with | some g => g.cycles | none => s.cyclesOf s.f.coreKey
    let timer := match s.f.grp with | some g => g.gtimer | none => s.f.gtimer
    let sum := timer.toNat + (s.sv a).toNat
    let array := 512 * s.f.home + (n - 0x100)
    Goes (.cyc d) s (s.wrS d now false) ∧ Goes (.gtim d) s (s.wrS d timer false) ∧
    ((s.sreg a).poison = false →
      ((s.sreg a).bnd = true → Faults (.gtset a) s (faultOf 0x18#8 (a.setWidth 64))) ∧
      ((s.sreg a).bnd = false → Goes (.gtset a) s (s.setF { s.f with gtcmp := if sum < 2 ^ 64 then timer + s.sv a else BitVec.allOnes 64 })) ∧
      (¬listed → Faults (.perf d a) s (faultOf 0x01#8 (BitVec.ofNat 64 n))) ∧
      (listed → ∃ x, Goes (.perf d a) s (s.wrS d x false) ∧
        (n = 0 → x = now) ∧ (n = 8 → x = now - (s.core s.f.coreKey).perf.get 0 8) ∧ (1 ≤ n → n ≤ 7 → x = (s.core s.f.coreKey).perf.get 0 n) ∧
        (0x10 ≤ n → n ≤ 0x13 → x = (s.home s.f.home).perf.get 0 n) ∧
        (0x100 ≤ n → x = if (s.fuseOf s.f.home).arrays.getLsbD (n - 0x100) then (s.xar array).writes.setWidth 64 else 0)))) ∧
  (∀ (s : State) (w v : Word), s.mayIssue s.cur = true → s.f.grp = none → s.f.pfx = none → s.asking s.cur = false → s.f.trap = none →
    let due := fun (ti0 : DWord) => exec .timerTrap s = .next (s.faultOn s.cur ti0 s.f.pc s.f.pc (faultOf 0x50#8 s.f.gtcmp s.f.gtimer))
    (s.f.gtimer < s.f.gtcmp → exec .timerTrap s = .next s) ∧
    (s.f.gtcmp ≤ s.f.gtimer → s.fetch s.cur s.f.pc = .ok w →
      (w.extractLsb' 24 6 ≠ 0x3F → due (w.setWidth 64)) ∧
      (w.extractLsb' 24 6 = 0x3F → s.slotOf s.cur s.f.pc < 2 → s.fetch s.cur (s.f.pc + 4) = .ok v → takesPfx (v.extractLsb' 24 6).toNat = true →
        due (w ++ v)))) ∧
  (∀ (s : State) (d n : Nat), (s.tick d).frag n = if (s.frag n).alive = true ∧ (s.frag n).resident = true ∧ (s.frag n).dev = s.fabric.toNat ∧
    s.setAside n = false then { s.frag n with gtimer := (s.frag n).gtimer + BitVec.ofNat 64 d } else s.frag n) ∧
  (∀ (s : State) (core d : Nat), (s.tickCore core d).cyclesOf core = s.cyclesOf core + BitVec.ofNat 64 d ∧
    ∀ c, c ≠ core → (s.tickCore core d).cyclesOf c = s.cyclesOf c)

/-- OVTLD, HTLD, KEYLD, TLBSD and PTGEN complete, what each writes, and what each refuses. (R8, R103, R217, R280, R281, R317,
R321, R323, R324, R329) KEYLD's selector bits (log 50), OVTLD away from the primary home (log 52), and the homes and waits of
TLBSD and PTGEN (logs 45, 51) are the model's own choices. -/
def Obligations.PrivilegedWords : Prop :=
∀ (s : State) (a b : RegNum),
    let sa := s.sv a
    let sb := s.sv b
    let va := fun i => sa + BitVec.ofNat 64 (8 * i)
    let vas := fun n => (List.range n).map va
    let rd := fun n => s.checkGlobal s.f.coreKey s.g.rights .read 64 false [⟨0, sa, 8⟩] = none ∧ ReadsHere s 8 (vas n)
    let part := (sb.extractLsb' 0 4).toNat
    let image := putCells [] (cellsAt 0 ((List.range 544).flatMap fun i => leBytes 8 (valueAt s (va i) 8)))
    let rcd : BitVec 1024 := BitVec.ofNat 1024 ((List.range 16).foldr (fun i n => valueAt s (va i) 8 + 2 ^ 64 * n) 0)
    let key := Config.unwrap (rcd.extractLsb' 0 512) (rcd.extractLsb' 512 128)
    let u := translated s (vas 16)
    let asid := (sb.extractLsb' 0 16).toNat
    let named := fun (x : TlbEnt) => if sb.getLsbD 17 = true then True else if sb.getLsbD 16 = true then x.asid = asid else x.hits asid sa = true
    let homes := if sb.getLsbD 17 = true then List.range 12 else s.homesOf (((s.asEnt asid).extractLsb' 184 4).toNat)
    let k := (sa.extractLsb' 0 16).toNat
    let e := s.asEnt k
    ((s.sreg a).poison = false →
      ((s.sreg a).bnd = true → Faults (.ovtld a) s (faultOf 0x18#8 (a.setWidth 64))) ∧
      ((s.sreg a).bnd = false →
        let v := sa.setWidth 16
        (s.g.dev = s.fabric.toNat → Goes (.ovtld a) s (s.setG { s.g with ovt := v })) ∧
        (s.g.dev ≠ s.fabric.toNat →
          (s.f.grant = .none → Holds (.ovtld a) s ((s.setF { s.f with grant := .asked }).splitUpdate s.cur (.ovt v))) ∧
          (s.f.grant = .asked → Holds (.ovtld a) s s) ∧
          (s.f.grant = .given [] → Goes (.ovtld a) s ((s.setF { s.f with grant := .none }).setG { s.g with ovt := v })) ∧
          (s.f.grant = .refused → Faults (.ovtld a) s (keyFault s.f.own s.g.dev s.g.home)))) ∧
      (e.getLsbD 191 = false ∨ e.extractLsb' 224 32 = BitVec.allOnes 32 → Faults (.ptgen a) s (faultOf 0x01#8)) ∧
      (e.getLsbD 191 = true → e.extractLsb' 224 32 ≠ BitVec.allOnes 32 → s.dropBusy (.space k) = false → ∃ t, Goes (.ptgen a) s t ∧
        (t.asEnt k).extractLsb' 224 32 = e.extractLsb' 224 32 + 1 ∧ (t.asEnt k).extractLsb' 0 224 = e.extractLsb' 0 224 ∧
        (∀ j, j ≠ k → t.asEnt j = s.asEnt j) ∧ SameBut s t ∧
        ∀ c, (s.homesOf ((e.extractLsb' 184 4).toNat)).contains (c / 256) = true → ∀ x ∈ (t.core c).tlb, x.asid ≠ k)) ∧
    (s.poisoned [.s a, .s b] = none →
      (12 ≤ part → Faults (.htld a b) s (faultOf 0x01#8 0xF)) ∧
      (part < 12 → rd 544 → (tableRefusal image = none → ∃ t, (t.part part).handlers = image ∧ t.mem = s.mem ∧
          (∀ h n, (s.part part).homes.getLsbD h = true → h < 12 → n < 128 → (t.bank (128 * h + n)).pending.getD (t.bank (128 * h + n)).table = image) ∧
          (t.installing part = true → Holds (.htld a b) s t) ∧ (t.installing part = false → Goes (.htld a b) s t)) ∧
        ∀ x y, tableRefusal image = some (x, y) → Faults (.htld a b) s (faultOf 0x01#8 (BitVec.ofNat 64 (x + 16 * y)))) ∧
      (rd 16 → (key = none → Faults (.keyld a b) s (faultOf 0x01#8 1)) ∧
        ∀ p, key = some p →
          let slot := (sb.extractLsb' 0 9).toNat
          let names := rcd.extractLsb' 640 64 = sb ∧ if sb.getLsbD 63 = true then sb.extractLsb' 9 54 = 0 else sb.extractLsb' 12 51 = 0
          let clean := p.extractLsb' 69 3 = 0 ∧ p.extractLsb' 124 3 = 0 ∧ p.extractLsb' 0 64 = 0
          (¬names → Faults (.keyld a b) s (faultOf 0x01#8 2)) ∧
          (names → sb.getLsbD 63 = true → s.slotBusy slot = true → Holds (.keyld a b) s u) ∧
          (names → sb.getLsbD 63 = true → s.slotBusy slot = false → Goes (.keyld a b) s { u with keySlots := s.keySlots.put 0 slot p }) ∧
          (names → sb.getLsbD 63 = false → ¬clean → Faults (.keyld a b) s (faultOf 0x01#8 3)) ∧
          (names → sb.getLsbD 63 = false → clean →
            Goes (.keyld a b) s { u with keyTab := s.keyTab.put 0 ((sb.extractLsb' 0 12).toNat) (p.setWidth 128) })) ∧
      (sb.extractLsb' 18 46 ≠ 0 → Faults (.tlbsd a b) s (faultOf 0x02#8)) ∧
      (sb.extractLsb' 18 46 = 0 → ∃ t, SameBut s t ∧ (s.dropBusy (dropOf sa sb) = true → Holds (.tlbsd a b) s t) ∧
        (s.dropBusy (dropOf sa sb) = false → Goes (.tlbsd a b) s t) ∧
        ∀ c, (homes.contains (c / 256) = true → ∀ x ∈ (t.core c).tlb, x ∈ (s.core c).tlb ∧ ¬named x) ∧
          (homes.contains (c / 256) = false → t.core c = s.core c)))

/-- TRAP takes SWTRAP or BREAK; TRET and TRET.at end trap mode; SAVEQ stores the trap record; and where they are ILLEGAL_OP.
(R217, R224, R339, R343, R344, R345, R346) -/
def Obligations.TrapWords : Prop :=
∀ (s : State) (a : RegNum) (n : BitVec 12) (tr : TrapRec) (off : Nat),
    let m := s.f.regs.m.setIfInBounds 0 (tr.m0 &&& s.f.own)
    let back := s.setF { s.f with trap := none, regs := { s.f.regs with m := m, wbV := tr.wbV, wbS := tr.wbS, cflags := tr.cflags } }
    let rcd : BitVec 512 := tr.rpc ++ (0#16 ++ tr.wbV ++ 0#1 ++ tr.wbS) ++ tr.m0 ++ tr.cflags ++ tr.code ++ tr.swcode ++ BitVec.ofBool tr.mig ++ 0#283
    let p := scrKey s.f.coreKey off
    (s.f.trap = none →
      Faults (.trap n) s ⟨if n = 0 then 0x52#8 else 0x51#8, n, n.setWidth 64, 0, 0, true⟩ ∧
      Faults .tret s (faultOf 0x01#8 1) ∧ Faults (.tretAt a) s (faultOf 0x01#8 1) ∧ Faults (.saveq a) s (faultOf 0x01#8 2)) ∧
    (s.f.trap = some tr →
      Faults (.trap n) s (faultOf 0x01#8 3) ∧
      (Still s → Jumps .tret s back tr.rpc ∧ ((s.sreg a).poison = false → Jumps (.tretAt a) s back (s.sv a))) ∧
      ((s.sreg a).poison = false → (s.sv a).toNat % 64 ≠ 0 → ∃ r, r.code = 0x13#8 ∧ Faults (.saveq a) s r) ∧
      ((s.sreg a).poison = false → (s.sv a).toNat % 64 = 0 → 2 ^ 19 ≤ (s.sv a).toNat → ∃ r, r.code = 0x11#8 ∧ Faults (.saveq a) s r) ∧
      ((s.sreg a).poison = false → (s.sv a).toNat % 64 = 0 → (s.sv a).toNat < 2 ^ 19 → s.g.dev = s.fabric.toNat → s.teamOrder 0 false = true →
        NothingBefore s → (∀ i, i < 64 → Apart (syncPlaces s) 12 (p + i)) →
        (∀ i, i < 8 → s.scrAt s.g.team s.g.rights.asid (s.sv a + BitVec.ofNat 64 (8 * i)) 8 true = .ok ⟨s.f.coreKey, off + 8 * i, none, false⟩) →
        ∃ t, Goes (.saveq a) s t ∧ OnlyFrag s t s.f ∧ t.mem = s.mem ∧ t.vault = s.vault ∧ t.valIn .scratch p 64 = rcd.toNat ∧
          ∀ k, Apart [p] 64 k → Apart (syncPlaces s) 12 k → t.byteIn .scratch k = s.byteIn .scratch k))

/-- Taking a fault: what is saved, where the fragment goes on, and when the fragment or the grid ends instead. (R60, R71, R333,
R339, R340, R341, R343, R347) That LEASE away from the group's device ends the fragment where it stands is the model's own choice
(log 52). -/
def Obligations.TrapEntry : Prop :=
∀ (s : State) (r : FaultRec),
    let t := s.takeFault r
    let p := s.part s.g.rights.part
    let old := s.f.regs
    let rpc := if r.next = true then s.f.pc + 4 else if s.f.pfx = none then s.f.pc else s.f.pc - 4
    let ti0 : DWord := match s.f.pfx with | some x => x.word ++ s.f.word | none => s.f.word.setWidth 64
    s.f.alive = true → Still s → s.f.leave = none → s.f.due = none → s.g.dev = s.fabric.toNat ∨ s.f.grant = .none →
      (r.code ≠ 0x10#8 → s.f.trap = none → p.trapent ≠ 0 → old.wbV.toNat ≤ 184 → old.wbS.toNat ≤ 56 →
        SameBut s t ∧ t.f = { s.f with
          pc := p.trapent, pfx := none, grp := none, chain := false, park := false, held := false, counted := false, sent := 0, kept := [], parked := false,
          turn := if max 1 s.g.weight ≤ s.f.turn then 0 else s.f.turn, gtcmp := BitVec.allOnes 64, ti := #v[ti0, r.ti1, r.ti2, r.ti3],
          trap := some ⟨rpc, old.wbV, old.wbS, old.mask 0, old.cflags, r.code, r.swcode, r.ti3.getLsbD 63⟩,
          regs := { old with
            wbV := old.wbV + 8, wbS := old.wbS + 8,
            s := old.s.put SReg.zero (old.wbS.toNat + 68) ⟨BitVec.ofNat 64 (256 * r.swcode.toNat + r.code.toNat), false, false⟩ } }) ∧
      (r.code ≠ 0x10#8 → s.f.trap ≠ none ∨ p.trapent = 0 ∨ 184 < old.wbV.toNat ∨ 56 < old.wbS.toNat →
        t.f = Frag.free ∨ (t.f.state = .ended ∧ t.f.own = 0)) ∧
      (r.code = 0x10#8 →
        (s.g.dev = s.fabric.toNat → (s.grid (s.team s.g.team).grid).alive = true → (t.grid (s.team s.g.team).grid).stopped = true) ∧
        (s.g.dev ≠ s.fabric.toNat → t.f = Frag.free ∨ (t.f.state = .ended ∧ t.f.own = 0)))

/-- XBLD, XBMV, XBCAL, XBST and ACCEPT complete: what each queues, writes and refuses. (R70, R103, R251, R252, R253, R255, R256,
R257, R258, R260, R374) A sixth product's hold, XBCAL of an empty array, and the order of XBLD's fields (log 35), and how it reads
its record away from the team's device (logs 46, 58) are the model's own choices. -/
def Obligations.CrossbarWords : Prop :=
∀ (s : State) (d a : RegNum) (x : BitVec 4) (y : BitVec 5) (key : Nat),
    let n := 32 * x.toNat + y.toNat
    let q := 512 * s.f.home + n
    let X := s.xar q
    let busy := X.queue.any fun c => match c with | .product .. => false | _ => true
    let act := s.mreg 0
    let h : BitVec 512 := BitVec.ofNat 512 (s.valIn .scratch key 64)
    let rows := (h.extractLsb' 0 16).toNat
    let cols := (h.extractLsb' 16 16).toNat
    let lgen := X.lgen + 1
    let load := XbCmd.load rows cols (h.extractLsb' 40 8).toInt (h.extractLsb' 32 4) (s.bytesIn .scratch (key + 64) (rows * cols))
    let flags := fun (c : BitVec 16) => (X.lastb ++ c.extractLsb' 5 3 ++ BitVec.ofBool (X.lastb == 0xFF) ++ c.extractLsb' 0 4 : BitVec 16)
    ((s.fuseOf s.f.home).arrays.getLsbD n = false → ∀ i ∈ [Instr.xbld d a x y, .xbmv d a x y, .xbcal d x y, .xbst d x y, .accept d a x y],
      Faults i s (faultOf 0x01#8 (BitVec.ofNat 64 n))) ∧
    ((s.fuseOf s.f.home).arrays.getLsbD n = true →
      (RecordAway s a → Holds (.xbld d a x y) s (recordAsked s a)) ∧
      (RecordAt s a key 0 → ∀ o, xblBad h = some o → Faults (.xbld d a x y) s (faultOf 0x01#8 (BitVec.ofNat 64 (256 + o)))) ∧
      (RecordAt s a key (rows * cols) → xblBad h = none → (busy = true → Holds (.xbld d a x y) s s) ∧
        (busy = false → Goes (.xbld d a x y) s ((s.setXar q { X with lgen := lgen, state := .loading, reason := 0, lastb := 0xFF, queue := X.queue ++ [load] }).wrS d
          (lgen.setWidth 64) false))) ∧
      (d = 63 → Faults (.xbmv d a x y) s (faultOf 0x01#8)) ∧
      (d ≠ 63 → act = 0 → Goes (.xbmv d a x y) s s) ∧
      (d ≠ 63 → act ≠ 0 → s.poisoned [.v a (act &&& 0xFFFFFFFFFFFFFFFF#96)] = none →
        (busy = true ∨ 5 ≤ X.queue.length → Holds (.xbmv d a x y) s s) ∧
        (busy = false → X.queue.length < 5 →
          (X.state ≠ .ready → ∃ r, Faults (.xbmv d a x y) s r ∧ r.code = 0x40#8 ∧
            r.ti1 = BitVec.ofNat 64 n ||| (((X.reason ++ X.state.code : BitVec 6).setWidth 64) <<< 16)) ∧
          (X.state = .ready → AsksOvt (.xbmv d a x y) s ∧ ∀ ovt, TakesOvt s ovt → ∃ u o1 o2, Goes (.xbmv d a x y) s u ∧ SameBut s u ∧
            u.f = tookOvt s [o1, o2] ∧ o1.dest = .v (s.src.vEnt d) ∧ o1.mask = act ∧ o1.bnd = true ∧
            o2.dest = .v (s.src.vEnt d + 1) ∧ o2.mask = act &&& 0xFFFFFFFF#96 ∧ o2.bnd = true ∧
            u.xar q = { X with queue := X.queue ++ [.product s.cur s.nextId (s.vreg a).lanes act ovt] } ∧ ∀ j, j ≠ q → u.xar j = s.xar j))) ∧
      (X.state = .empty → Goes (.xbcal d x y) s ((s.wrS d 0 false).setE true)) ∧
      (X.state ≠ .empty → busy = true → Holds (.xbcal d x y) s s) ∧
      (X.state ≠ .empty → busy = false → Goes (.xbcal d x y) s
        (((s.setXar q { X with queue := X.queue ++ [.calibrate] }).wrS d ((X.cgen + 1).setWidth 64) false).setE false)) ∧
      Goes (.xbst d x y) s (s.wrS d (X.lgen ++ X.cgen ++ X.state.code ++ X.reason ++ X.bad ++ 0#2 ++ X.lastb ++ X.drift) false) ∧
      (s.poisoned [.v a act] = none → Goes (.accept d a x y) s ((s.wrLanes d act (fun l => s.vl a l) false).setFlags flags)))

/-- Loading, calibrating, forming a product and reading drift: what an array then holds, and the bound that every column keeps.
(R28, R250, R252, R255, R256, R257, R261, R328, R338, R375) -/
def Obligations.CrossbarSteps : Prop :=
(∀ (s : State) (home array : Nat) (X : Xar) (rest : List XbCmd),
    let q := 512 * home + array
    let only := fun (u : State) => SameBut s u ∧ ∀ j, j ≠ q → u.xar j = s.xar j
    s.xar q = X →
      (∀ rows cols oexp ofmt w, X.queue = .load rows cols oexp ofmt w :: rest → rows ≤ 256 → w.length = rows * cols →
        ∃ u, exec (.xbLoadProgram home array) s = .next u ∧ only u ∧
          (u.xar q).rows = rows ∧ (u.xar q).cols = cols ∧ (u.xar q).oexp = oexp ∧ (u.xar q).ofmt = ofmt ∧
          (∀ i j, i < rows → j < cols → (u.xar q).weight i j = (w.getD (i * cols + j) 0).toInt) ∧
          (u.xar q).writes.toNat = min (X.writes.toNat + 1) 0xFFFFFFFF ∧ (u.xar q).lastb = 0xFF ∧
          ((u.xar q).bad = 0 → (u.xar q).state = .calibrating ∧ (u.xar q).reason = 0 ∧ (u.xar q).queue = .calibrate :: rest) ∧
          ((u.xar q).bad ≠ 0 → (u.xar q).state = .invalid ∧ (u.xar q).reason = 2 ∧ (u.xar q).queue = rest)) ∧
      (X.queue = .calibrate :: rest → X.state ≠ .calibrating → exec (.xbCalibrate home array) s = .next (s.setXar q { X with state := .calibrating, reason := 0 })) ∧
      (X.queue = .calibrate :: rest → X.state = .calibrating → ∃ u, exec (.xbCalibrate home array) s = .next u ∧ only u ∧
        (u.xar q).queue = rest ∧ (u.xar q).cgen = X.cgen + 1 ∧ (u.xar q).w = X.w ∧
        (u.xar q).lastb = 0xFF ∧ (X.unusable = true → (u.xar q).state = .invalid) ∧ ((u.xar q).unusable = true ↔ (u.xar q).state = .invalid) ∧
        (((u.xar q).state = .ready ∧ (u.xar q).reason = 0) ∨ ((u.xar q).state = .invalid ∧ (u.xar q).reason = 3))) ∧
      (∀ frag id va act ovt, X.queue = .product frag id va act ovt :: rest → 0 < (s.home home).credProd →
        let x := xbInput X va act
        let fs := (s.frag frag).outs
        ∃ (u : State) (y : Nat → FVal), exec (.xbProduct home array) s = .next u ∧ only u ∧ (u.home home).credProd + 1 = (s.home home).credProd ∧ (u.xar q).queue = rest ∧
          (u.xar q).lastb = bexp (((List.range 128).map (X.reach x)).foldl max 0) (X.oexp - 8) ∧
          (∀ j, ∃ (v : Int) (e : Nat), y j = .fin (decide (v < 0)) v.natAbs (X.oexp - 8 - e) ∧ (v - X.exact x j * 2 ^ (8 + e)).natAbs ≤ X.reach x j * 2 ^ e) ∧
          ∀ (i : Nat) o, fs[i]? = some o → ∃ o', (u.frag frag).outs[i]? = some o' ∧ (o.kind ≠ .array id → o' = o) ∧
            (o.kind = .array id → o' = { o with kind := .unit, vals := o'.vals } ∧ ∀ l, l < 96 →
              lane o'.vals l = X.output ovt (y (if (fs.take i).any (fun z => z.kind == .array id) then 96 + l else l)))) ∧
      (X.state = .ready → ∃ v, exec (.xbDriftReading home array) s = .next ({ s with free := s.free + 1 }.setXar q
        (if 128 ≤ v then { X with drift := BitVec.ofNat 8 v, state := .invalid, reason := 1 } else { X with drift := BitVec.ofNat 8 v })))) ∧
  (∀ (m : Nat) (e : Int), bexp 0 e = 0 ∧ (0 < m → 1 ≤ (bexp m e).toNat ∧ (bexp m e).toNat ≤ 254 ∧ ((bexp m e).toNat < 254 →
    128 + e ≤ (bexp m e).toNat ∧ m ≤ 2 ^ ((bexp m e).toNat - 128 - e).toNat)))

/-- The Tambour words complete or are held, and the systems' own loads, settles and samplings end as the rules say. (R103, R262,
R263, R264, R265, R267, R268, R269, R270, R375) Model's own choices: NOT_PD's reason, time in clocks, order (log 36); away (46,
58); means (60). -/
def Obligations.TambourWordsAndSteps : Prop :=
  (∀ (s : State) (d a : RegNum) (p : BitVec 2) (key : Nat),
    let q := 4 * s.f.home + p.toNat
    let t := s.tamb q
    let h : BitVec 512 := BitVec.ofNat 512 (s.valIn .scratch key 64)
    let P := s.projected p
    let N := s.projN p
    let C := (s.tambPlan s.f.home).cover p.toNat
    let n := if P = .empty then 0 else N
    let H := fun lo w => (h.extractLsb' lo w).toNat
    let tri := triBytes (H 16 16) (H 32 16)
    let data := fun k => s.bytesIn .scratch (key + 64) k
    let no := fun (i : Instr) (reason info : Nat) => Faults i s (faultOf 0x42#8 (BitVec.ofNat 64 (reason + 256 * p.toNat)) (BitVec.ofNat 64 info))
    let taken := fun (c : TgCmd) (g : BitVec 16) =>
      { s with nextId := s.nextId + 1 }.setTamb q { t with lgen := g, queue := t.queue ++ [c], stamps := t.stamps ++ [s.nextId] }
    let queues := fun (i : Instr) (c : TgCmd) => (8 ≤ t.queue.length → Holds i s s) ∧ (t.queue.length < 8 → Goes i s (taken c t.lgen))
    let loads := fun (i : Instr) (c : TgCmd) => (8 ≤ t.queue.length → Holds i s s) ∧
      (t.queue.length < 8 → Goes i s ((taken c (t.lgen + 1)).wrS d ((t.lgen + 1).setWidth 64) false))
    let pairs := pairsOf (halves (data (4 * H 32 16)))
    let ns := ((s.sv a).extractLsb' 0 32).toNat
    let f := ((s.sv a).extractLsb' 16 4).toNat
    let k0 := ((s.sv a).extractLsb' 0 16).toNat
    let sys := t.cover.getD p.toNat
    let T := s.tamb (4 * s.f.home + sys)
    let reads := fun (i : Instr) (cov : Bool) =>
      (C ≠ none → no i 2 0) ∧
      (C = none → (2 < f → no i 5 0) ∧
        (f ≤ 2 → (t.queue ≠ [] ∨ t.state = .settling ∨ t.state = .sampling → Holds i s s) ∧
          (t.queue = [] → t.state = .failed → Faults i s (faultOf 0x41#8 (BitVec.ofNat 64 (256 * p.toNat)) (BitVec.ofNat 64 t.raili))) ∧
          (t.queue = [] → t.state = .empty ∨ t.state = .loaded ∨ t.state = .settled → no i 6 0) ∧
          (t.queue = [] → t.state = .done → AsksOvt i s ∧ ∀ ovt, TakesOvt s ovt → ∃ u o, Goes i s u ∧ SameBut s u ∧ u.f = tookOvt s [o] ∧ o.dest = .v (s.src.vEnt d) ∧ o.bnd = true ∧ ∀ l, l < 96 →
            o.mask.getLsbD l = ((s.mreg 0).getLsbD l && (t.estimate cov (k0 + l)).isSome) ∧
            ∀ v, t.estimate cov (k0 + l) = some v → lane o.vals l = BitVec.ofNat 32 (ovtOut ovt f v))))
    (RecordAway s a → Holds (.tldc d a p) s (recordAsked s a) ∧ Holds (.tldb d a p) s (recordAsked s a) ∧ Holds (.tsamp a p) s (recordAsked s a)) ∧
    (RecordAt s a key tri →
      (∀ o, tldcBad h p.toNat n = some o → no (.tldc d a p) 1 o) ∧
      (tldcBad h p.toNat n = none → (C ≠ none → no (.tldc d a p) 2 0) ∧
        (C = none → (H 16 16 ≠ 0 → P = .empty → no (.tldc d a p) 3 0) ∧
          (H 16 16 = 0 ∨ P ≠ .empty → loads (.tldc d a p) (.loadC (H 0 16) (H 16 16) (H 32 16) (h.extractLsb' 48 8).toInt (data tri)))))) ∧
    (RecordAt s a key (2 * N) →
      (∀ o, tldbBad h = some o → no (.tldb d a p) 1 o) ∧
      (tldbBad h = none → C ≠ none → no (.tldb d a p) 2 0) ∧
      (tldbBad h = none → C = none → (P = .empty → no (.tldb d a p) 3 0) ∧
        (P ≠ .empty → loads (.tldb d a p) (.loadB (h.extractLsb' 0 8).toInt (h.extractLsb' 8 8).toInt (halves (data (2 * N))))))) ∧
    ((s.sreg a).poison = false → C ≠ none → no (.tsetl a p) 2 0) ∧
    ((s.sreg a).poison = false → C = none → (P = .empty → no (.tsetl a p) 3 0) ∧
      (P ≠ .empty → (ns < 500 ∨ 200000 < ns → no (.tsetl a p) 4 0) ∧ (500 ≤ ns → ns ≤ 200000 → queues (.tsetl a p) (.settle ns)))) ∧
    (RecordAt s a key (4 * H 32 16) →
      (∀ o, tsampBad h = some o → no (.tsamp a p) 1 o) ∧
      (tsampBad h = none → C ≠ none → no (.tsamp a p) 2 0) ∧
      (tsampBad h = none → C = none → (P ≠ .settled → P ≠ .done → no (.tsamp a p) 3 0) ∧
        (P = .settled ∨ P = .done → ((∃ x ∈ pairs, N ≤ x.1 ∨ N ≤ x.2) → no (.tsamp a p) 7 0) ∧
          ((∀ x ∈ pairs, x.1 < N ∧ x.2 < N) → queues (.tsamp a p) (.sample (H 0 32) pairs))))) ∧
    ((s.sreg a).poison = false → reads (.trd d a p) false ∧ reads (.trdc d a p) true) ∧
    Goes (.tstat d p) s (s.addOut s.cur (s.src.scalarOut .unit d
      (T.lgen ++ BitVec.ofNat 16 T.n ++ T.state.code ++ BitVec.ofNat 2 (if T.n = 0 then 0 else sys) ++ BitVec.ofBool T.clip ++ BitVec.ofNat 10 T.raili ++ BitVec.ofNat 4 T.queue.length ++ 0#12)
      false false))) ∧
  ((∀ (s : State) (home part : Nat) (rest : List TgCmd),
    let q := 4 * home + part
    let t := s.tamb q
    let idle := t.state ≠ .settling ∧ t.state ≠ .sampling
    let time := fun ns => s.clock + (21 * ns + 19) / 20
    t.cover = none →
      (idle → ∀ n rows aexp w, t.queue = .loadC n 0 rows aexp w :: rest → rows ≤ 1024 → w.length = triBytes 0 rows → ∃ u,
        exec (.tambLoadPerform home part) s = .next u ∧ SameBut s u ∧
        (u.tamb q).n = n ∧ (u.tamb q).aexp = aexp ∧ (u.tamb q).state = .loaded ∧ (u.tamb q).queue = rest ∧ (u.tamb q).b = [] ∧ (u.tamb q).pairs = [] ∧
        (∀ i j, i < rows → j ≤ i → (u.tamb q).a.get 0x00#8 (1024 * i + j) = w.getD (triBytes 0 i + j) 0) ∧
        ∀ k, k < 4 → part < k → k < part + (n + 255) / 256 → (u.tamb (4 * home + k)).cover = some part ∧ (u.tamb (4 * home + k)).state = .empty) ∧
      (idle → t.state ≠ .empty → ∀ be xe b, t.queue = .loadB be xe b :: rest → ∃ m, exec (.tambLoadPerform home part) s =
        .next (s.setTamb q { t with queue := rest, stamps := t.stamps.drop 1, bexp := be, xexp := xe, b := m, state := .loaded }) ∧ ∀ i, i < b.length → m.get 0 i = b.getD i 0) ∧
      (idle → t.state ≠ .empty → ∀ ns, t.queue = .settle ns :: rest → 0 < (s.home home).credSettle →
        exec (.tambSettleStart home part) s = .next ((s.setHome home { s.home home with credSettle := (s.home home).credSettle - 1 }).setTamb q
          { t with queue := rest, stamps := t.stamps.drop 1, state := .settling, timer := time ns })) ∧
      (t.state = .settled ∨ t.state = .done → ∀ ns ps, t.queue = .sample ns ps :: rest → exec (.tambSampleStart home part) s =
        .next (s.setTamb q { t with queue := rest, stamps := t.stamps.drop 1, state := .sampling, pairs := ps, clip := false, run := 0, timer := time ns })) ∧
      (idle → t.state ≠ .settled → t.state ≠ .done → ∀ ns ps, t.queue = .sample ns ps :: rest →
        exec (.tambSampleStart home part) s = .next (s.setTamb q { t with queue := rest, stamps := t.stamps.drop 1 })) ∧
      (t.state = .settling →
        (t.solution = none → t.settles = false) ∧
        (t.timer ≤ s.clock → t.settles = true → exec (.tambSettleExpiry home part) s = .next (s.setTamb q { t with state := .settled })) ∧
        (t.timer ≤ s.clock → t.settles = false → 0 < t.n → ∃ i, i < t.n ∧
          exec (.tambSettleExpiry home part) s = .next ({ s with free := s.free + 1 }.setTamb q { t with state := .failed, raili := i })) ∧
        (s.clock < t.timer → exec (.tambSettleExpiry home part) s = .next s) ∧
        ∀ i, i < t.n → exec (.tambRailReached home part i) s = .next (s.setTamb q { t with state := .failed, raili := i })) ∧
      (t.state = .sampling → (t.timer ≤ s.clock → exec (.tambSampleExpiry home part) s =
          .next ({ s with free := s.free + 1 }.setTamb q { t with state := .done, run := s.free })) ∧
        (s.clock < t.timer → exec (.tambSampleExpiry home part) s = .next s) ∧
        ∀ i, i < t.n → exec (.tambRailReached home part i) s = .next (s.setTamb q { t with clip := true }))) ∧
  (∀ (t : Tamb) (sol : Option TambSol) (i : Nat), (t.meanOf sol i).within t.xexp = true) ∧
  (∀ (y : List Int × Int) (i : Nat) (e : Int) (x : Int × Nat), 0 < y.2 → ∃ (v : Int) (k : Nat), nearMean y i e x = .fin (decide (v < 0)) v.natAbs (e - 6 - k) ∧
    (v * y.2 - y.1.getD i 0 * 2 ^ (6 + k)).natAbs ≤ (y.1.map Int.natAbs).foldl max 0 * 2 ^ k))

/-- Batches, sync words, write-combining flushes and circular buffers: what each word changes, refuses and waits for. (R63, R103,
R201, R225, R245, R246, R308, R309, R310, R311, R312, R342) Model's own choices: logs 29 (reasons of CBCFG), 30 (early wakes), 58,
61. -/
def Obligations.BatchSyncAndBufferWords : Prop :=
  ((∀ (s : State) (d a : RegNum),
    let g := s.g
    let n := g.batchNo
    let B := (s.sv a).setWidth 8
    let o := ((s.sv a).extractLsb' 0 18).toNat
    let k := scrKey s.t.coreKey (s.t.base + o)
    let v : Word := (s.sv d).setWidth 32
    let owedB := s.owedOf s.f.group ((s.cmds.filter fun c => c.2.group == s.f.group && c.2.batch == some B).map (·.1))
    let gives := fun (i : Instr) (u : State) (x : Nat × Cmd) => exec i s = .next ((u.setCmd x.1 { x.2 with delivered := true }).takeFault x.2.faultRec)
    let named := s.useSync s.g.team o
    let now := named.genAt s.g.team o
    let here := g.dev = s.fabric.toNat
    let waits := fun (i : Instr) (w : TeamWord) (st : FState) (t : DWord → State → State) => AsksTeam i s w t ∧
      (s.f.grant = .word .wait → exec i s = .next ((s.setF { s.f with grant := .none }).beginWait st))
    (¬here → AsksTeam (.bseal d) s .bseal (fun v u => u.wrS d v false) ∧
      ((s.sreg a).poison = false → AsksTeam (.syncw d a) s (.syncw o ((s.sv a).extractLsb' 32 32).toNat) (fun v u => u.wrS d v false) ∧
        (s.f.trap = none → Still s → waits (.bwait a) (.bwait B) (.bwait B) (fun _ u => u.setE false) ∧
          ((s.sreg d).poison = false → waits (.swait d a) (.swait o v) (.swait o v d) fun x u => u.wrS d x false)))) ∧
    (here → 16 ≤ g.batches.length → Holds (.bseal d) s s) ∧
    (here → g.batches.length < 16 → ∃ u : State, Goes (.bseal d) s (u.wrS d (n.setWidth 64) false) ∧ u.frags = s.frags ∧ u.cur = s.cur ∧ u.mem = s.mem ∧
      u.g = { g with batchNo := n + 1, unsealed := [], batches := if g.unsealed = [] then g.batches else g.batches ++ [⟨n, g.unsealed⟩] } ∧
      ∀ c, (u.cmd c) = if c ∈ g.unsealed then { s.cmd c with batch := some n } else s.cmd c) ∧
    (∀ group batch, exec (.batchComplete group batch) s = .next (s.setGroup group { s.group group with
      batches := (s.group group).batches.filter fun b => !(b.num.toNat == batch && b.cmds.all s.cmdComplete) })) ∧
    ((s.sreg a).poison = false → s.f.trap = none → Still s → here →
      (g.incomplete B = true → exec (.bwait a) s = .next (s.beginWait (.bwait B))) ∧
      (g.incomplete B = false → (owedB = none → Goes (.bwait a) s (s.setE false)) ∧ ∀ x, owedB = some x → gives (.bwait a) s x)) ∧
    ((s.sreg a).poison = false → o % 16 = 0 → o + 16 ≤ s.t.size → here → NothingBefore s →
      ∃ u : State, Goes (.syncw d a) s (u.wrS d (BitVec.ofNat 64 (s.valIn .scratch (k + 4) 4)) false) ∧ u.frags = s.frags ∧ u.cur = s.cur ∧ u.mem = s.mem ∧
        u.valIn .scratch (k + 12) 4 = ((s.sv a).extractLsb' 32 32).toNat ∧ u.valIn .scratch (k + 8) 4 = 0 ∧
        ∀ j, j < k + 8 ∨ k + 16 ≤ j → u.byteIn .scratch j = s.byteIn .scratch j) ∧
    (s.poisoned [.s a, .s d] = none → s.f.trap = none → o % 16 = 0 → o + 16 ≤ s.t.size → Still s → here → NothingBefore s →
      (2 ^ 31 ≤ (now - v).toNat → s.syncOwed s.f.group o = none → exec (.swait d a) s = .next (named.beginWait (.swait o v d))) ∧
      ((now - v).toNat < 2 ^ 31 → s.syncOwed s.f.group o = none → Goes (.swait d a) s (named.wrS d (now.setWidth 64) false)) ∧
      ∀ x, s.syncOwed s.f.group o = some x → gives (.swait d a) named x)) ∧
  (∀ (s : State) (n o : Nat), s.nameSync n o = s ∨ s.nameSync n o = s.setTeam n { s.team n with syncs := (s.team n).syncs ++ [o] }) ∧
  (∀ (s : State) (n o : Nat), o ∈ ((s.nameSync n o).team n).syncs ∧ o ∈ ((s.useSync n o).team n).syncs) ∧
  (∀ (s : State) (n o : Nat), o ∈ (s.team n).syncs → s.useSync n o = s) ∧
  (∀ (s : State) (n o : Nat), (s.team n).syncs = [] →
    let k := scrKey (s.team n).coreKey ((s.team n).base + o)
    let target := s.valIn .scratch (k + 12) 4
    let count := s.valIn .scratch (k + 8) 4
    let gen := s.valIn .scratch (k + 4) 4
    let u := s.useSync n o
    u.mem = s.mem ∧ u.frags = s.frags ∧ u.valIn .scratch (k + 12) 4 = target ∧ (∀ j, j < k + 4 ∨ k + 12 ≤ j → u.byteIn .scratch j = s.byteIn .scratch j) ∧
      (target = 0 ∨ count < target → u.valIn .scratch (k + 8) 4 = count ∧ u.valIn .scratch (k + 4) 4 = gen) ∧
      (0 < target → target ≤ count → u.valIn .scratch (k + 8) 4 = count % target ∧ u.valIn .scratch (k + 4) 4 = (gen + count / target) % 2 ^ 32)) ∧
  (∀ (s : State) (m : Nat) (B : BitVec 8) (o : Nat) (v : Word) (d : RegNum),
    let w := s.wake m
    let g := s.group (s.frag m).group
    let gen := s.genAt g.team o
    let asks := fun (i : Instr) (x : TeamWord) => ((s.frag m).grant = .none ∨ (s.frag m).grant = .word .wait → exec i s = .next (s.sendWord m x)) ∧
      ((s.frag m).grant = .asked → exec i s = .next s)
    let w' := w.setF { w.f with grant := .none }
    (s.asleep m = false → g.dev ≠ s.fabric.toNat → ((s.frag m).state = .bwait B → asks (.bwaitWake m) (.bwait B) ∧
        ∀ x, (s.frag m).grant = .word (.done x) → exec (.bwaitWake m) s = .next ((w'.setE false).retire (w.f.pc + 4))) ∧
      ((s.frag m).state = .swait o v d → asks (.swaitWake m) (.swait o v) ∧
        ∀ x, (s.frag m).grant = .word (.done x) → exec (.swaitWake m) s = .next ((w'.wrS d x false).retire (w.f.pc + 4)))) ∧
    ((s.frag m).alive = true → s.asleep m = false → g.dev = s.fabric.toNat →
      ((s.frag m).state = .bwait B → (g.incomplete B = true → exec (.bwaitWake m) s = .next s) ∧
        (g.incomplete B = false → s.owedOf (s.frag m).group ((s.cmds.filter fun c => c.2.group == (s.frag m).group && c.2.batch == some B).map (·.1)) = none →
          exec (.bwaitWake m) s = .next ((w.setE false).retire (w.f.pc + 4)))) ∧
      ((s.frag m).state = .swait o v d → s.syncOwed (s.frag m).group o = none →
        (2 ^ 31 ≤ (gen - v).toNat → exec (.swaitWake m) s = .next s) ∧
        ((gen - v).toNat < 2 ^ 31 → exec (.swaitWake m) s = .next ((w.wrS d (gen.setWidth 64) false).retire (w.f.pc + 4))))))) ∧
  ((∀ (s : State) (d a n : BitVec 6) (b : Cb),
    let x := s.sv a
    let k := (x.extractLsb' 0 32).toNat
    let N := (x.extractLsb' 48 16).toNat + 1
    let fire := (x.extractLsb' 32 16).toNat + 1
    let size := 4 * ((x.extractLsb' 23 9).toNat + 1)
    let base := (x.extractLsb' 0 18).toNat
    let at' := (s.core s.t.coreKey).cbs.find n.toNat
    let no := fun (i : Instr) (reason : Nat) => Faults i s (faultOf 0x25#8 (BitVec.ofNat 64 (reason + 256 * n.toNat)))
    let put := fun (c : Cb) => s.setCore s.t.coreKey { s.core s.t.coreKey with cbs := (s.core s.t.coreKey).cbs.ins n.toNat c }
    let used := (b.p - b.c).toNat
    let present := if x.getLsbD 63 = true then k ≤ b.n - used else k ≤ used
    ((s.sreg a).poison = false → s.g.dev ≠ s.fabric.toNat →
      AsksTeam (.cbcfg a n) s (.cbcfg x n) (fun _ u => u) ∧
      (s.fenceMet s.cur false true false = true → AsksTeam (.cbput a n) s (.cbput x n) fun _ u => u) ∧
      AsksTeam (.cbget d n) s (.cbget n) (fun v u => u.addOut u.cur (u.src.scalarOut .unit d v false false)) ∧
      (s.f.trap = none → Still s → AsksTeam (.cbwait a n) s (.cbwait k (x.getLsbD 63) n false) (fun _ u => u) ∧
        (s.f.grant = .word .wait → exec (.cbwait a n) s = .next ((s.setF { s.f with grant := .none }).beginWait (.cbwait n.toNat k (x.getLsbD 63)))))) ∧
    ((s.sreg a).poison = false → s.g.dev = s.fabric.toNat →
      (at' = some b → b.team ≠ s.g.team → ∀ i ∈ [Instr.cbcfg a n, .cbput a n, .cbget d n], no i 1) ∧
      (at' = none → ∀ i ∈ [Instr.cbput a n, .cbget d n], no i 7) ∧
      ((∀ c, at' = some c → c.team = s.g.team) →
        (x.getLsbD 22 = false → s.t.size < base + N * size → no (.cbcfg a n) 2) ∧
        (x.getLsbD 22 = false → base + N * size ≤ s.t.size → N < fire ∨ x.extractLsb' 18 4 ≠ 0 → no (.cbcfg a n) 3) ∧
        (x.getLsbD 22 = true → s.cbNamed s.g.team n.toNat = false →
          Goes (.cbcfg a n) s (s.setCore s.t.coreKey { s.core s.t.coreKey with cbs := (s.core s.t.coreKey).cbs.del n.toNat })) ∧
        (x.getLsbD 22 = false → base + N * size ≤ s.t.size → fire ≤ N → x.extractLsb' 18 4 = 0 →
          (s.cbNamed s.g.team n.toNat = true → no (.cbcfg a n) 4) ∧
          (s.cbNamed s.g.team n.toNat = false → Goes (.cbcfg a n) s (put ⟨s.g.team, N, fire, size, base, 0, 0, []⟩)))) ∧
      (at' = some b → b.team = s.g.team →
        Goes (.cbget d n) s (s.addOut s.cur (s.src.scalarOut .unit d (b.c ++ b.p) false false)) ∧
        (s.fenceMet s.cur false true false = true →
          (x.getLsbD 63 = false → (b.n - used < k → no (.cbput a n) 5) ∧ (k ≤ b.n - used → Goes (.cbput a n) s (put { b with p := b.p + BitVec.ofNat 32 k }))) ∧
          (x.getLsbD 63 = true → (used < k → no (.cbput a n) 5) ∧ (k ≤ used → Goes (.cbput a n) s (put { b with c := b.c + BitVec.ofNat 32 k })))) ∧
        (s.f.trap = none → (b.n < k → no (.cbwait a n) 6) ∧
          (k ≤ b.n → Still s →
            (∀ y, s.cbOwed s.f.group b = some y → exec (.cbwait a n) s = .next ((s.setCmd y.1 { y.2 with delivered := true }).takeFault y.2.faultRec)) ∧
            (s.cbOwed s.f.group b = none → (present → Goes (.cbwait a n) s s) ∧
              (¬present → exec (.cbwait a n) s = .next (s.beginWait (.cbwait n.toNat k (x.getLsbD 63)))))))))) ∧
  (∀ (s : State) (m n k : Nat) (room : Bool) (b : Cb),
    let g := s.group (s.frag m).group
    let used := (b.p - b.c).toNat
    let present := if room = true then k ≤ b.n - used else k ≤ used
    ((s.frag m).state = .cbwait n k room → s.asleep m = false → g.dev ≠ s.fabric.toNat →
      ((s.frag m).grant = .none ∨ (s.frag m).grant = .word .wait → exec (.cbwaitWake m) s = .next (s.sendWord m (.cbwait k room (BitVec.ofNat 6 n) true))) ∧
      ∀ v, (s.frag m).grant = .word (.done v) →
        exec (.cbwaitWake m) s = .next (((s.wake m).setF { (s.wake m).f with grant := .none }).retire ((s.wake m).f.pc + 4))) ∧
    ((s.frag m).state = .cbwait n k room → g.dev = s.fabric.toNat → (s.core (s.team g.team).coreKey).cbs.find n = some b → s.asleep m = false → s.cbOwed (s.frag m).group b = none →
      (¬present → exec (.cbwaitWake m) s = .next s) ∧
      (present → exec (.cbwaitWake m) s = .next ((s.wake m).retire ((s.wake m).f.pc + 4))))))

/-- ECHAIN, CPY and ESTAT complete: the command an engine takes, when they are held, and what they refuse. (R103, R195, R201,
R244, R302, R308) ESTAT reading 0 before any command (log 30), CPY taking bytes in error as they stand (log 18), and the way to
the team's core from elsewhere (log 58) are the model's own choices. -/
def Obligations.EngineWords : Prop :=
∀ (s : State) (a : RegNum) (d e : BitVec 6) (key : Nat),
    let sa := s.sv a
    let n := s.nextId
    let home := s.g.dev = s.fabric.toNat
    let entry := s.bytesIn .scratch key 64
    let takes := fun (i : Instr) (engine : Nat) (single : Option (List Byte)) =>
      (s.engineFull s.g.team s.f.home engine = true ∨ s.released s.cur false = false → Holds i s s) ∧
      (s.engineFull s.g.team s.f.home engine = false → s.released s.cur false = true → ∃ u, Goes i s u ∧ u.f = s.f ∧ u.mem = s.mem ∧ u.scratch = s.scratch ∧
        (∀ j, j ≠ n → u.cmd j = s.cmd j) ∧ (u.cmd n).alive = true ∧ (u.cmd n).engine = engine ∧ (u.cmd n).group = s.f.group ∧ (u.cmd n).team = s.g.team ∧
        (u.cmd n).rights = s.g.rights ∧ (u.cmd n).ovt = s.g.ovt ∧ (u.cmd n).at' = sa.toNat ∧ (u.cmd n).single = single ∧ (u.cmd n).done = false ∧
        (u.cmd n).fault = 0 ∧ u.g = { s.g with unsealed := s.g.unsealed ++ [n], lastCmd := s.g.lastCmd.ins engine n } ∧
        (engine = 0 → (u.core s.t.coreKey).copyQ = (s.core s.t.coreKey).copyQ ++ [n]) ∧
        (engine = 1 → (u.home s.f.home).caravanQ = (s.home s.f.home).caravanQ ++ [n]))
    (3 ≤ e.toNat → Faults (.echain a e) s (faultOf 0x01#8) ∧ Faults (.estat d e) s (faultOf 0x01#8)) ∧
    ((s.sreg a).poison = false →
      (e.toNat < 3 → sa.toNat % 64 ≠ 0 → ∃ r, r.code = 0x13#8 ∧ Faults (.echain a e) s r ∧ Faults (.cpy a) s r) ∧
      (e.toNat < 3 → sa.toNat % 64 = 0 → home → takes (.echain a e) e.toNat none) ∧
      (sa.toNat % 64 = 0 → ¬home → s.released s.cur false = true → AsksTeam (.cpy a) s (.engine 0 sa true s.f.pc) (fun _ u => u) ∧
        (e.toNat < 3 → AsksTeam (.echain a e) s (.engine e.toNat sa false s.f.pc) fun _ u => u)) ∧
      (sa.toNat % 64 = 0 → home → NothingBefore s → s.scrBytes s.g.team s.g.rights.asid sa 64 false = .ok key → takes (.cpy a) 0 (some entry))) ∧
    (e.toNat < 3 → ¬home → AsksTeam (.estat d e) s (.estat e.toNat) fun v u => u.addOut u.cur (u.src.scalarOut .unit d v false false)) ∧
    (e.toNat < 3 → home → ∃ v, Goes (.estat d e) s (s.addOut s.cur (s.src.scalarOut .unit d v false false)) ∧
      (e.toNat = 2 → v = s.g.bob.status) ∧
      (∀ k, e.toNat ≠ 2 → s.g.lastCmd.find e.toNat = some k → v = (s.cmd k).status) ∧ (e.toNat ≠ 2 → s.g.lastCmd.find e.toNat = none → v = 0))

namespace Sys2Proof.Claim

/-- Two runs of bytes of a memory, `m` from `p` and `n` from `q` on, have no byte in common, whichever memory key each is reached under. -/
def NoCommon (sp : Space) (p m q n : Nat) : Prop :=
  if sp = .dram then p % 2 ^ 40 + m ≤ q % 2 ^ 40 ∨ q % 2 ^ 40 + n ≤ p % 2 ^ 40 else p + m ≤ q ∨ q + n ≤ p
/-- A memory that a transfer writes, operand memory being none of the three spaces: where a place of it is, its bytes, and whether bytes of it are in error. -/
def engTo (ws : Option Space) (k : Nat) (y : Bool) : EPlace := match ws with | some sp => .mem sp k y | none => .slot k
def engByte (s : State) (ws : Option Space) (k : Nat) : Byte := match ws with | some sp => s.byteIn sp k | none => s.opmem.get 0x00#8 k
def engErr (s : State) (ws : Option Space) (k n : Nat) : Bool :=
  match ws with
  | some .dram => s.readErr k n
  | some _ => false
  | none => s.sramBad 3 k n
/-- R217, R259, R308: `n` elements that a command may move at once: their places, reads and writes of given spaces, sizes and addresses, are found on
this device, at homes and in channels that serve them (R19, R275), bounded data goes where it may, no unit is in error, what is read of device memory was written under the memory key it is reached
under, and no two writes and no read and write touch a common byte. -/
def Movable (s : State) (c : Cmd) (n rsp rsize : Nat) (rd : Nat → DWord) (rs : Space) (rk : Nat → Nat) (wsp wsize : Nat) (wr : Nat → DWord)
    (ws : Option Space) (wk : Nat → Nat) : Prop :=
  let ordinary := fun k size => s.served [⟨0, .dram, k, size, 0, 0, none, 0⟩] = true
  (∀ i, i < n → ∃ x y, s.dataPlace c rsp false rsize (rd i) = .ok (.mem rs (rk i) x) ∧ s.dataPlace c wsp true wsize (wr i) = .ok (engTo ws (wk i) y) ∧
    (x = true → ws ≠ none ∧ y = true) ∧ s.errIn rs (rk i) rsize = false ∧ engErr s ws (wk i) wsize = false ∧
    (rs = .dram → ordinary (rk i) rsize) ∧ (ws = some .dram → ordinary (wk i) wsize) ∧
    (rs = .dram → ∀ j, j < rsize → s.memKeys.get 0 ((rk i + j) % 2 ^ 40) = 0 ∨ s.memKeys.get 0 ((rk i + j) % 2 ^ 40) = s.keyAt (rk i))) ∧
  (∀ i j, i < n → j < n → ws = some rs → NoCommon rs (rk i) rsize (wk j) wsize) ∧
  (∀ i j, i < n → j < n → i ≠ j → NoCommon (ws.getD .vault) (wk i) wsize (wk j) wsize)
/-- R305, R306, R310: the elements have been moved: each destination that meets no sync word holds its value, and no other byte of any memory has
changed but those of sync words. -/
def MovedTo (s u : State) (n rsize : Nat) (rs : Space) (rk : Nat → Nat) (wsize : Nat) (ws : Option Space) (wk : Nat → Nat)
    (val : Nat → Nat → Nat) : Prop :=
  let free := fun k => Apart (syncPlaces s) 12 k
  (∀ i, i < n → (ws = some .scratch → ∀ j, j < wsize → free (wk i + j)) → ∀ j, j < wsize →
    engByte u ws (wk i + j) = BitVec.ofNat 8 (val i (s.valIn rs (rk i) rsize) / 256 ^ j)) ∧
    KeepsOthers s u (if ws = some .dram then (List.range n).map wk else []) wsize ∧
    (∀ k, (ws = some .vault → Apart ((List.range n).map wk) wsize k) → u.byteIn .vault k = s.byteIn .vault k) ∧
    (∀ k, (ws = some .scratch → Apart ((List.range n).map wk) wsize k) → free k → u.byteIn .scratch k = s.byteIn .scratch k) ∧
    (∀ k, (ws = none → Apart ((List.range n).map wk) wsize k) → u.opmem.get 0x00#8 k = s.opmem.get 0x00#8 k)
/-- R303: what a step of a data entry leaves of its command: a row further, or at the next entry. -/
def Advanced (c c' : Cmd) (moved rows count : Nat) : Prop :=
  c'.bytes = c.bytes + moved ∧ c'.fault = c.fault ∧
    (rows < count → c'.rows = rows ∧ c'.at' = c.at' ∧ c'.done = c.done) ∧
    (count ≤ rows → c.single = none → c'.rows = 0 ∧ c'.at' = c.at' + 64 ∧ c'.idx = c.idx + 1 ∧ c'.done = c.done) ∧
    (count ≤ rows → c.single ≠ none → c'.done = true)

end Sys2Proof.Claim

/-- COPY, GATHER and SCATTER entries and buffered steps move each element, converted, to its place, change no other byte, and
advance. (R217, R259, R304, R305, R306, R308, R310, R313) Steps of two buffers that differ in FIRE (log 29) and what operand
memory asks no alignment of (log 28) are the model's own choices. -/
def Obligations.DataEntries : Prop :=
∀ (s : State) (n : Nat) (e : List Byte) (rs : Space) (ws : Option Space) (rk wk : Nat → Nat),
    let c := s.cmd n
    let r := c.rows
    let D := c.deltas.get (0, 0) c.at'
    let f := fun o k => entU e o k
    let ready := fun (k : EntKind) => s.cmdBlocked n = false ∧ s.reached c = some e ∧ s.entryBad c = false ∧ kindOf e = some k ∧
      entRefused k c.engine c.single.isSome e = false ∧ entSync e = none ∧ s.answered (.cmd n) = [] ∧ (s.group c.group).alive = true ∧ c.fault = 0
    let sf := f 48 1 / 16
    let df := f 48 1 % 16
    let es := fmtBits sf / 8
    let ed := fmtBits df / 8
    let len := f 28 4
    let conv := fun row i x => if row < f 40 4 ∧ i < f 44 4 then convOvt c.ovt sf df x else 0
    let src := fun i => moved (f 8 8) (D.1 + r * entI e 32 4) + BitVec.ofNat 64 (i * es)
    let dst := fun i => moved (f 16 8) (D.2 + r * entI e 36 4) + BitVec.ofNat 64 (i * ed)
    (ready .copy → entIn e = none → entOut e = none → sf ≠ 5 → df ≠ 5 → r < f 24 4 →
      Movable s c len (f 49 1 / 4) es src rs rk (f 49 1 % 4) ed dst ws wk →
        ∃ u, exec (.copyEntry n) s = .next u ∧ MovedTo s u len es rs rk ed ws wk (conv r) ∧ Advanced c (u.cmd n) (len * ed) (r + 1) (f 24 4)) ∧
    (∀ scatter ∈ [false, true], ready (if scatter then .scatter else .gather) → r < f 28 4 → ∀ sp k b,
      s.engPlace c 1 false 4 (BitVec.ofNat 64 (f 24 4 + 4 * r)) = .ok (.mem sp k b) → s.engBad c (f 24 4 + 4 * r) 4 = false →
        let tf := f 36 1 / 16
        let lf := f 36 1 % 16
        let ts := fmtBits tf / 8
        let ls := fmtBits lf / 8
        let index := match KMap.find c.seen (f 24 4 + 4 * r) with | some bs => leNat bs | none => s.valIn sp k 4
        let table := fun i => moved (f 8 8) (D.1 + ((index * f 32 2 + i) * ts : Nat))
        let here := fun i => moved (f 16 8) (D.2 + ((r * f 32 2 + i) * ls : Nat))
        (scatter = false → Movable s c (f 32 2) 0 ts table rs rk (f 34 1) ls here ws wk → ∃ u, exec (.gatherEntry n) s = .next u ∧
          MovedTo s u (f 32 2) ts rs rk ls ws wk (fun _ x => convOvt c.ovt tf lf x) ∧ Advanced c (u.cmd n) (f 32 2 * ls) (r + 1) (f 28 4)) ∧
        (scatter = true → Movable s c (f 32 2) (f 34 1) ls here rs rk 0 ts table ws wk → ∃ u, exec (.scatterEntry n) s = .next u ∧
          MovedTo s u (f 32 2) ls rs rk ts ws wk (fun _ x => convOvt c.ovt lf tf x) ∧ Advanced c (u.cmd n) (f 32 2 * ts) (r + 1) (f 28 4))) ∧
    (∀ i o I O, ready .copy → entIn e = some i → entOut e = some o → i ≠ o → s.cbOf c i = some I → s.cbOf c o = some O → sf ≠ 5 → df ≠ 5 → r < f 24 4 →
      I.esize = len * es → O.esize = len * ed → 0 < len →
        let core := (s.team c.team).coreKey
        let m := min I.fire (f 24 4 - r)
        ((I.p - I.c).toNat < I.fire ∨ O.n < (O.p - O.c).toNat + O.fire →
          ∃ u, exec (.cbStepFire n) s = .next u ∧ (∀ sp k, u.byteIn sp k = s.byteIn sp k) ∧ u.cores = s.cores ∧ (u.cmd n).rows = r ∧ (u.cmd n).at' = c.at') ∧
        (I.fire ≤ (I.p - I.c).toNat → (O.p - O.c).toNat + O.fire ≤ O.n →
          Movable s c (m * len) 1 es (fun i => I.elem (I.c + BitVec.ofNat 32 (i / len)) + BitVec.ofNat 64 (i % len * es)) rs rk
            1 ed (fun i => O.elem (O.p + BitVec.ofNat 32 (i / len)) + BitVec.ofNat 64 (i % len * ed)) ws wk →
          ∃ u, exec (.cbStepFire n) s = .next u ∧ MovedTo s u (m * len) es rs rk ed ws wk (fun i => conv (r + i / len) (i % len)) ∧
            Advanced c (u.cmd n) (m * len * ed) (r + m) (f 24 4) ∧
            ((c.single = none ∨ r + m < f 24 4) → (u.core core).cbs.find i = some { I with c := I.c + BitVec.ofNat 32 I.fire } ∧
              (u.core core).cbs.find o = some { O with p := O.p + BitVec.ofNat 32 O.fire })))

/-- END, LOOP, BRIF, LINK and BOBBIN entries: where a chain goes on, its working copies, and the commands it starts or ends.
(R303, R304, R307, R308) Targets counted from the entry itself and what ES.ENTRY names then (log 26), and that any COND but 0 acts
as 1 (log 27), are the model's own choices. -/
def Obligations.ControlEntries : Prop :=
∀ (s : State) (n : Nat) (e : List Byte),
    let c := s.cmd n
    let t := s.team c.team
    let f := fun o k => entU e o k
    let free := s.cmdBlocked n = false ∧ c.single = none ∧ (s.group c.group).alive = true
    let ready := fun (k : EntKind) => free ∧ s.reached c = some e ∧ s.entryBad c = false ∧ kindOf e = some k ∧ entRefused k c.engine false e = false
    let on := fun (i : Instr) (c' : Cmd) => exec i s = .next (s.setCmd n c')
    let next := { c with at' := c.at' + 64, idx := c.idx + 1, rows := 0, seen := [] }
    let mine := c.loops.find? fun l => l.at' == c.at'
    let left := match mine with | some l => l.left | none => f 8 4 - 1
    let back := f 12 2
    let others := c.loops.filter fun l => l.at' != c.at'
    let goal : Int := c.at' + 64 * entI e 12 2
    let word := match KMap.find c.seen (f 8 4) with | some bs => leNat bs | none => s.valIn .scratch (scrKey t.coreKey (t.base + f 8 4)) 4
    let block := s.engBytes c (f 16 4) 64 ++ s.engBytes c (f 16 4 + 64) 64
    let g := s.group c.group
    (free → (s.reached c = none → ∃ u, exec (.endEntry n) s = .next u ∧ u.cmd n = { c with
      done := true, fault := 0x01, faultAddr := BitVec.ofNat 64 c.at', syncs := s.cmdSyncs c, cbs := s.cmdCbs c } ∧ u.mem = s.mem)) ∧
    (ready .fin → ∃ u, exec (.endEntry n) s = .next u ∧ 
      u.cmd n = { c with done := true, fault := 0, faultAddr := 0, syncs := s.cmdSyncs c, cbs := s.cmdCbs c } ∧ SameBut { s with cmds := u.cmds } u) ∧
    (ready .loop → 64 * back ≤ c.at' → mine ≠ none ∨ c.loops.length ≠ 4 →
      (left = 0 → on (.loopEntry n) { next with loops := others }) ∧
      (left ≠ 0 → c.at' - 64 * back + 64 ≤ t.size → ∃ m,
        on (.loopEntry n) { c with at' := c.at' - 64 * back, idx := c.idx - back, rows := 0, seen := [], begun := true, deltas := m, loops := others ++ [⟨c.at', left - 1⟩] } ∧
        (∀ i, i < back → m.get (0, 0) (c.at' - 64 * (i + 1)) =
          ((c.deltas.get (0, 0) (c.at' - 64 * (i + 1))).1 + entI e 16 8, (c.deltas.get (0, 0) (c.at' - 64 * (i + 1))).2 + entI e 24 8)) ∧
        ∀ k, (∀ i, i < back → k ≠ c.at' - 64 * (i + 1)) → m.get (0, 0) k = c.deltas.get (0, 0) k)) ∧
    (ready .brif → s.putsOut n = true ∨ s.walkOut n = true → exec (.brifEntry n) s = .next s) ∧
    (ready .brif → s.putsOut n = false → s.walkOut n = false → f 8 4 + 4 ≤ t.size → f 8 4 % 4 = 0 → 0 ≤ goal → goal.toNat + 64 ≤ t.size → s.engBad c (f 8 4) 4 = false →
      let jump := (f 14 1 = 0 ∧ word ≠ 0) ∨ (f 14 1 ≠ 0 ∧ word = 0)
      (jump → on (.brifEntry n) { c with at' := goal.toNat, rows := 0, idx := (c.idx + entI e 12 2).toNat, seen := [], begun := true }) ∧ (¬jump → on (.brifEntry n) next)) ∧
    (ready .link → f 8 4 % 64 = 0 → f 8 4 + 64 ≤ t.size → on (.linkEntry n) { c with at' := f 8 4, rows := 0, idx := c.idx + 1, seen := [], begun := true }) ∧
    (ready .bobbin → (g.bob.state = .running → exec (.bobbinEntry n) s = .next s) ∧
      (∀ A B xs (v : State) fa fb, g.bob.state ≠ .running → g.bob.owed = false → s.descriptor c (f 8 4) = .ok A → s.descriptor c (f 12 4) = .ok B →
        s.readSides (.cmd n) c.coreKey c.rights [A.openReads, B.openReads] = .val xs v → badRead (A.openReads.2 ++ B.openReads.2) xs = none →
        v.openFib c (f 8 4) A (xs.take A.openReads.2.length) = .ok fa → v.openFib c (f 12 4) B (xs.drop A.openReads.2.length) = .ok fb →
        g.depth ≠ 10 → pairRefusal fa fb = none → f 16 4 % 64 = 0 → t.alive = true → f 16 4 + 128 ≤ t.size →
        s.engBad c (f 16 4) 64 = false → s.engBad c (f 16 4 + 64) 64 = false → blockRefusal block = none →
          ∃ u b, exec (.bobbinEntry n) s = .next u ∧ u.mem = s.mem ∧ u.cmd n = { next with bobbin := true } ∧
            (u.group c.group).bob = ⟨.running, if g.bob.used then g.bob.ticket + 1 else 0, true, some b, false⟩ ∧
            b.merge = (f 20 1 != 0) ∧ b.fa = fa ∧ b.fb = fb ∧ b.row = fa.crow.toNat ∧ b.pa = fa.pos.toNat ∧ b.chain = some n ∧
            (u.home c.home).bobbinQ = (s.home c.home).bobbinQ ++ [c.group]))

/-- CXSECT, CMERGE, CWAIT, CURSV and CURLD: the command that starts, the waits and their ends, and the cursor record. (R103, R173,
R195, R197, R201, R203, R204, R308, R342) What of R201 to R204 the rules leave open is the model's own choice: replaced tickets
and cursor records (log 25), the way from another device (log 58), what counts towards the 32 commands (log 59). -/
def Obligations.BobbinWords : Prop :=
∀ (s : State) (d a : RegNum) (u w : BitVec 3) (key m : Nat),
    let g := s.g
    let b := g.bob
    let fa := g.fib u.toNat
    let fb := g.fib w.toNat
    let T : BitVec 8 := (s.sv a).setWidth 8
    let ticket := if b.used = true then b.ticket + 1 else 0
    let full := 32 ≤ s.bobHeld s.f.home ∨ s.released s.cur false = false
    let starts := fun (v : State) (c : BobCmd) => SameBut s v ∧ v.f = s.f ∧ v.g.bob = ⟨.running, ticket, true, some c, false⟩ ∧
      (v.home s.f.home).bobbinQ = (s.home s.f.home).bobbinQ ++ [s.f.group]
    let saved := fun (v : State) (c : BobCmd) (st : BitVec 2) => v.bytesIn .scratch key 320 = c.record b.ticket st ∧ v.frags = s.frags ∧ v.cur = s.cur ∧
      v.mem = s.mem ∧ ∀ k, Apart [key] 320 k → Apart (syncPlaces s) 12 k → v.byteIn .scratch k = s.byteIn .scratch k
    let h : BitVec 512 := BitVec.ofNat 512 (s.valIn .scratch key 64)
    let H := fun lo n => (h.extractLsb' lo n).toNat
    let bs := s.bytesIn .scratch (key + 64) 128
    let image := fun o => (BitVec.ofNat 512 (s.valIn .scratch (key + o) 64) : BitVec 512)
    let A := Fib.ofBits (image 192)
    let B := Fib.ofBits (image 256)
    let rowB := if B.nrow = 1 then B.row0.toNat else B.row0.toNat + (H 480 32 - A.row0.toNat)
    let pa := A.ptrs (H 480 32)
    let pb := B.ptrs rowB
    s.placement false = none → (s.sreg a).poison = false →
      (∀ merge ∈ [false, true],
        let i := if merge = true then Instr.cmerge d a u w else .cxsect d a u w
        (g.depth = 10 → Faults i s (faultOf 0x23#8)) ∧
        (g.depth ≠ 10 → s.fibBusy u.toNat = false → s.fibBusy w.toNat = false → pairRefusal fa fb = none → (s.sv a).toNat % 64 = 0 → s.scrBytes g.team g.rights.asid (s.sv a) 128 false = .ok key →
          NothingBefore s → blockRefusal (s.bytesIn .scratch key 128) = none →
            (b.state = .running → Goes i s (s.setE true)) ∧
            (b.state ≠ .running → full → Holds i s s) ∧
            (b.state ≠ .running → ¬full → b.owed = false → ∃ v c, Goes i s ((v.wrS d (ticket.setWidth 64) false).setE false) ∧ starts v c ∧
              c.merge = merge ∧ c.fa = fa ∧ c.fb = fb ∧ c.row = fa.crow.toNat ∧ c.pa = fa.pos.toNat ∧ c.pend = [] ∧ c.fault = 0))) ∧
      (s.f.trap = none → Still s →
        (b.state = .idle ∨ b.ticket ≠ T → Goes (.cwait d a) s (s.setE true)) ∧
        (b.state = .running → b.ticket = T → exec (.cwait d a) s = .next (s.beginWait (.cwait T d))) ∧
        (∀ c, b.state = .stopped → b.ticket = T → b.owed = true → b.cmd = some c → s.formedDone c.grid = true →
          exec (.cwait d a) s = .next ((s.setBob s.f.group { b with owed := false }).takeFault (c.faultRec T))) ∧
        (∀ c, b.state = .finished → b.ticket = T → b.cmd = some c → c.chain = none →
          Goes (.cwait d a) s (((s.wrS d b.status false).setE false).setBob s.f.group { b with state := .idle }))) ∧
      (∀ c, (s.frag m).state = .cwait (s.group (s.frag m).group).bob.ticket d → s.asleep m = false → (s.group (s.frag m).group).bob.cmd = some c → c.chain = none →
        let b' := (s.group (s.frag m).group).bob
        let z := s.wake m
        (b'.state = .running → exec (.cwaitWake m) s = .next s) ∧
        (b'.state = .finished → exec (.cwaitWake m) s = .next ((((z.wrS d b'.status false).setE false).setBob (s.frag m).group { b' with state := .idle }).retire (z.f.pc + 4)))) ∧
      ((s.sv a).toNat % 64 = 0 → s.scrBytes g.team g.rights.asid (s.sv a) 320 true = .ok key → NothingBefore s →
        (b.state = .idle → Goes (.cursv a) s (s.setE true)) ∧
        (∀ c, b.cmd = some c → c.block.raw.length = 128 → (∀ i, i < 320 → Apart (syncPlaces s) 12 (key + i)) → (b.state = .stopped → ∃ v : State, Goes (.cursv a) s (v.setE false) ∧ saved v c 1) ∧
          (b.state = .finished → ∃ v : State, Goes (.cursv a) s (v.setE false) ∧ saved v c 2) ∧
          (b.state = .running → (c.inRow = false ∧ c.walked = false) ∨ s.walkReads s.f.group = true → Holds (.cursv a) s s) ∧
          (b.state = .running → c.inRow = true ∨ c.walked = true → s.walkReads s.f.group = false → c.pend = [] → ∃ (v : State) (c' : BobCmd), Goes (.cursv a) s (v.setE false) ∧
            v.bytesIn .scratch key 320 = c'.record b.ticket 1 ∧ v.g.bob = { b with state := .stopped, cmd := some c' } ∧
            c'.row = c.row ∧ c'.pa = c.pa ∧ c'.pb = c.pb ∧ c'.gseq = c.gseq ∧ c'.fa = c.fa ∧ c'.fb = c.fb))) ∧
      ((s.sv a).toNat % 64 = 0 → s.scrBytes g.team g.rights.asid (s.sv a) 320 false = .ok key → NothingBefore s → g.depth ≠ 10 → pairRefusal A B = none →
        blockRefusal bs = none → A.refusal false (decide ((image 192).extractLsb' 8 120 ≠ 0)) = none →
        B.refusal false (decide ((image 256).extractLsb' 8 120 ≠ 0)) = none → H 0 332 = 0 →
          (∀ xs (v : State), A.row0.toNat ≤ H 480 32 → H 480 32 < A.row0.toNat + A.nrow.toNat →
            s.readSides (.frag s.cur) s.f.coreKey g.rights [(A.width, pa), (B.width, pb)] = .val xs v → badRead (pa ++ pb) xs = none →
            A.holds (xs.take pa.length) (H 448 32) = true → B.holds (xs.drop pa.length) (H 416 32) = true →
            (H 332 2 = 2 → Goes (.curld a) s (v.setE true)) ∧
            (H 332 2 = 1 → b.state ≠ .running → ¬full → b.owed = false →
              ∃ (z : State) (c : BobCmd), Goes (.curld a) s (z.setE false) ∧ starts z c ∧ c.fa = A ∧ c.fb = B ∧ c.row = H 480 32 ∧ c.pa = H 448 32 ∧
                c.pb = H 416 32 ∧ c.gseq = H 384 32 ∧ c.merge = h.getLsbD 334)))

/-- A walk enters a row, compares the two sides, emits survivors, stops out of order, ends after its last row, and finishes.
(R195, R198, R199, R201, R202) CROW modulo 2^32, whole-array reads of kinds 4 and 5, and that the first element read in a row is
compared with its predecessor are the model's own choices (log 59). -/
def Obligations.BobbinWalk : Prop :=
∀ (s v : State) (n : Nat) (c : BobCmd) (xs : List (DWord × Bool)),
    let b := (s.group n).bob
    let turn := b.state = .running ∧ c.walked = false ∧ (s.grid c.byGrid).stopped = false ∧ s.bobTurn c.home = some n
    let last := c.fa.row0.toNat + c.fa.nrow.toNat - 1
    let rowB := if c.fb.nrow = 1 then c.fb.row0.toNat else c.fb.row0.toNat + (c.row - c.fa.row0.toNat)
    let va := c.fa.ptrs c.row
    let vb := c.fb.ptrs rowB
    let x := c.fa.bounds (xs.take va.length)
    let y := c.fb.bounds (xs.drop va.length)
    let twoA := readsPrev c.lastA c.startA c.pa
    let twoB := readsPrev c.lastB c.startB c.pb
    let ra := c.fa.readsTwo c.pa twoA
    let rb := c.fb.readsTwo c.pb twoB
    let X := c.fa.coordTwo c.pa twoA c.lastA (xs.take ra.2.length)
    let Y := c.fb.coordTwo c.pb twoB c.lastB (xs.drop ra.2.length)
    let ca := X.1.1
    let cb := Y.1.1
    let core := s.bobCore n
    let next := fun (c' : BobCmd) => exec (.bobbinWalkStep n) s = .next (v.setBobCmd n c')
    let out := fun (c' : BobCmd) (z : Surv) => next { c' with pend := c.pend ++ [z], surv := c.surv + 1 }
    let row := BitVec.ofNat 32 c.row
    let at' := fun (p : Nat) => BitVec.ofNat 32 p
    let pa := if c.keepA = true then c.pa else x.1
    let pb := if c.keepB = true then c.pb else y.1
    let fresh := { c with keepA := false, keepB := false, lastA := none, lastB := none }
    let entered := { fresh with inRow := true, pa := pa, pb := pb, finA := x.2.1, finB := y.2.1, startA := x.1, startB := y.1 }
    b.cmd = some c →
      (turn → c.inRow = false → c.row ≤ last → s.readSides (.bobbin n) core c.rights [(c.fa.width, va), (c.fb.width, vb)] = .val xs v →
        badRead (va ++ vb) xs = none → x.2.2 = true → y.2.2 = true →
          next entered) ∧
      (turn → c.inRow = true → c.pa < c.finA → c.pb < c.finB → s.readSides (.bobbin n) core c.rights [ra, rb] = .val xs v →
        X.1.2 = false → Y.1.2 = false →
          ((∀ z, X.2 = some z → z < ca) → (∀ z, Y.2 = some z → z < cb) → c.pend.length + 1 < c.block.gsize →
            (ca = cb → out { c with pa := c.pa + 1, pb := c.pb + 1, lastA := some ca, lastB := some cb } ⟨ca, at' c.pa, at' c.pb, row, true, true⟩) ∧
            (ca < cb → c.merge = false → next { c with pa := c.pa + 1, lastA := some ca, lastB := Y.2 }) ∧
            (cb < ca → c.merge = false → next { c with pb := c.pb + 1, lastA := X.2, lastB := some cb }) ∧
            (ca < cb → c.merge = true → out { c with pa := c.pa + 1, lastA := some ca, lastB := Y.2 } ⟨ca, at' c.pa, 0xFFFFFFFF, row, true, false⟩) ∧
            (cb < ca → c.merge = true → out { c with pb := c.pb + 1, lastA := X.2, lastB := some cb } ⟨cb, 0xFFFFFFFF, at' c.pb, row, false, true⟩)) ∧
          (∀ z, X.2 = some z → ca ≤ z → (s.group n).alive = true → c.grid = 0 → c.pend = [] → ∃ u, exec (.bobbinWalkStep n) s = .next u ∧
            (u.group n).bob = { b with state := .stopped, owed := true, cmd := some { c with walked := true, fault := 0x31, side := false } })) ∧
      (turn → c.inRow = false → last < c.row → c.pend = [] → c.grid = 0 → ∃ u, exec (.bobbinWalkStep n) s = .next u ∧ SameBut s u ∧
        (u.group n).bob = { b with cmd := some { c with walked := true } } ∧ n ∉ (u.home c.home).bobbinQ) ∧
      (b.state = .running → c.walked = true → s.formedDone c.grid = true → exec (.bobbinFinish n) s = .next (s.setBob n { b with state := .finished }))

/-- LAUNCH and LSTAT: the child grid that is created and appended, the records refused, the park on a full queue and its end.
(R22, R103, R212, R290, R291, R292, R294, R298, R342) LAUNCH and LSTAT from another device (log 58), the first command of a parked
LAUNCH (log 57), and bytes of a record in error (log 18) are the model's own choices. -/
def Obligations.LaunchWords : Prop :=
∀ (s : State) (d a : RegNum) (key m : Nat),
    let g := s.g
    let k := s.nextId
    let p := s.part g.rights.part
    let parent := s.grid s.t.grid
    let x : BitVec 512 := BitVec.ofNat 512 (s.valIn .scratch key 64)
    let r := LaunchRec.ofBits x
    let at' := fun (y : BitVec 512) i => (LaunchRec.ofBits y).lease + BitVec.ofNat 64 (8 * i)
    let vasOf := fun y => (List.range (2 * (LaunchRec.ofBits y).nlease)).map (at' y)
    let word := fun y i => (BitVec.ofNat 64 (valueAt s (at' y i) 8) : DWord)
    let lsOf := fun y => (List.range (LaunchRec.ofBits y).nlease).map fun i => leaseEnt (word y (2 * i + 1) ++ word y (2 * i))
    let ls := lsOf x
    let id := BitVec.ofNat 28 p.nextGrid
    let made := fun (u : State) (team k : Nat) (c : Grid) (age : Nat) => (u.grid k).alive = true ∧ (u.grid k).gridid = BitVec.ofNat 28 (s.part c.part).nextGrid ∧
      (u.part c.part).nextGrid = (s.part c.part).nextGrid + 1 ∧ (u.team team).pend = (s.team team).pend ++ [k] ∧ (u.grid k).rcd = c.rcd ∧
      (u.grid k).leases = c.leases ∧ (u.grid k).prio = c.prio ∧ (u.grid k).depth = c.depth ∧ (u.grid k).parent = c.parent ∧ (u.grid k).age = age
    let draft := s.draft s.f.group r (ls.map (·.1))
    (s.f.trap = none → (g.gidx ≠ 0 → Faults (.launch d a) s (faultOf 0x01#8 1)) ∧ (g.gidx = 0 → g.depth = 10 → Faults (.launch d a) s (faultOf 0x23#8))) ∧
    (s.f.trap = none → g.gidx = 0 → g.depth ≠ 10 → (s.sreg a).poison = false → (s.sv a).toNat % 64 = 0 → g.dev ≠ s.fabric.toNat →
      AsksTeam (.launch d a) s (.record (s.sv a)) (fun v u => (u.wrS d v false).setE false) ∧
      (∀ c, s.f.grant = .word (.later c) → exec (.launch d a) s = .next ((s.setF { s.f with grant := .none }).parkLaunch c d)) ∧
      (∀ y, s.f.grant = .word (.record y) → s.accessHeld s.cur = false → s.released s.cur false = true → ReadsHere s 8 (vasOf y) →
        ∃ u : State, Holds (.launch d a) s (u.sendWord s.cur (.launch y (lsOf y))) ∧ u.frags = s.frags ∧ u.net = s.net)) ∧
    (s.f.trap = none → g.gidx = 0 → g.depth ≠ 10 → (s.sreg a).poison = false → (s.sv a).toNat % 64 = 0 → g.dev = s.fabric.toNat →
      s.scrBytes g.team g.rights.asid (s.sv a) 64 false = .ok key → NothingBefore s → s.accessHeld s.cur = false → ReadsHere s 8 (vasOf x) →
        (∀ n off, refusal x ls (some parent.leases) p.nextGrid = some (n, off) →
          Faults (.launch d a) s (faultOf 0x01#8 (BitVec.ofNat 64 n) (BitVec.ofNat 64 off))) ∧
        (refusal x ls (some parent.leases) p.nextGrid = none → s.released s.cur false = true →
          (s.t.pend.length < 4 → ∃ u : State, Goes (.launch d a) s ((u.wrS d (id.setWidth 64) false).setE false) ∧ u.frags = s.frags ∧ u.mem = s.mem ∧
            made u g.team k draft ((k + 1) * 2 ^ 33) ∧ (u.grid k).depth = g.depth + 1 ∧ (u.grid k).prio = min r.prio parent.prio) ∧
          (4 ≤ s.t.pend.length → s.f.outs ≠ [] ∨ (Still s ∧ s.f.leave = none ∧ s.f.due = none) → ∃ u, exec (.launch d a) s = .next u ∧
            (u.frag s.cur).state = .launch k d ∧ (u.frag s.cur).resident = s.f.resident ∧ (u.frag s.cur).pc = s.f.pc + 4 ∧ u.grid k = draft ∧
            u.parts = s.parts ∧ u.mem = s.mem))) ∧
    ((s.frag m).state = .launch key d → (s.group (s.frag m).group).dev ≠ s.fabric.toNat → s.asleep m = false → (s.frag m).outs = [] → (s.frag m).leave = none →
      ((s.frag m).grant = .none → exec (.launchAppendResume m) s = .next (s.sendWord m (.append key))) ∧
      ∀ v, (s.frag m).grant = .word (.done v) → ∃ u, exec (.launchAppendResume m) s = .next u ∧ (u.frag m).state = .ready ∧ (u.frag m).pc = (s.frag m).pc ∧
        (u.frag m).regs = ((({ s with cur := m } : State).wrS d v false).setE false).f.regs) ∧
    ((s.frag m).state = .launch key d → (s.group (s.frag m).group).dev = s.fabric.toNat →
      let team := (s.group (s.frag m).group).team
      (4 ≤ (s.team team).pend.length ∨ s.asleep m = true → exec (.launchAppendResume m) s = .next s) ∧
      let gid := BitVec.ofNat 28 (s.part (s.grid key).part).nextGrid
      ((s.team team).pend.length < 4 → s.asleep m = false → (s.frag m).outs = [] → (s.frag m).leave = none →
        ∃ u, exec (.launchAppendResume m) s = .next u ∧ (u.frag m).state = .ready ∧ (u.frag m).pc = (s.frag m).pc ∧
          (u.frag m).regs = ((({ s with cur := m } : State).wrS d (gid.setWidth 64) false).setE false).f.regs ∧ made u team key (s.grid key) (s.nextId * 2 ^ 33))) ∧
    (g.dev ≠ s.fabric.toNat → AsksTeam (.lstat d) s .lstat fun v u => u.addOut u.cur (u.src.scalarOut .unit d v false false)) ∧
    (g.dev = s.fabric.toNat → Goes (.lstat d) s (s.addOut s.cur (s.src.scalarOut .unit d
      (BitVec.ofNat 64 (min (s.grids.filter fun e => e.2.alive && e.2.byTeam == some g.team).length 65535 * 2 ^ 16 + s.t.pend.length)) false false)))

/-- Host queues, records, dispatch, placement and retirement: what each step creates, counts and frees. (R161, R200, R288, R289,
R292, R293, R294, R296, R298, R322, R327, R336) -/
def Obligations.LaunchSteps : Prop :=
∀ (s : State) (fn q v k core : Nat) (on : Bool),
    let Q := s.lq q
    let val : Word := BitVec.ofNat 32 v
    let G := s.grid k
    let placed := fun (w u : State) (tidx : Nat) =>
      let n := w.nextId
      (u.grid k).placed = tidx + 1 ∧ (u.team n).alive = true ∧ (u.team n).grid = k ∧ (u.team n).tidx = tidx ∧ (u.team n).coreKey = core ∧
      (u.team n).size = G.rcd.scratch ∧ (∀ i, i < G.rcd.scratch → u.scratch.get 0x00#8 (scrKey core ((u.team n).base + i)) = 0) ∧
      ∀ i, i < G.rcd.groups →
        let j := n + 1 + i
        let f := u.frag (fragNo j 0)
        (u.group j).alive = true ∧ (u.group j).team = n ∧ (u.group j).gidx = i ∧ (u.group j).ntiles = G.rcd.tiles ∧ (u.group j).weight = max 1 G.rcd.weight ∧
        f.alive = true ∧ f.group = j ∧ f.own = allLanes ∧ f.regs.mask 0 = allLanes ∧ f.pc = G.rcd.entry ∧
        f.regs.s.get SReg.zero 0 = ⟨G.rcd.args, false, false⟩ ∧ f.regs.s.get SReg.zero 1 = ⟨BitVec.ofNat 64 tidx, false, false⟩ ∧
        f.regs.s.get SReg.zero 2 = ⟨BitVec.ofNat 64 i, false, false⟩ ∧ f.regs.s.get SReg.zero 3 = ⟨BitVec.ofNat 64 G.rcd.teams, false, false⟩
    (q < 64 → fn = 0 ∨ fn = Q.fn.toNat →
      (val = Q.tail ∨ 2 ^ 31 ≤ (val - Q.tail).toNat → exec (.lqTailDoorbell fn q val) s = .next s) ∧
      (val ≠ Q.tail → (val - Q.tail).toNat < 2 ^ 31 → 2 ^ Q.log2.toNat < (val - Q.head).toNat →
        ∃ u, exec (.lqTailDoorbell fn q val) s = .next u ∧ u.lq q = { Q with en := false }) ∧
      (val ≠ Q.tail → (val - Q.tail).toNat < 2 ^ 31 → (val - Q.head).toNat ≤ 2 ^ Q.log2.toNat →
        ∃ u, exec (.lqTailDoorbell fn q val) s = .next u ∧ SameBut s u ∧ u.lq q = { Q with tail := val, ages := Q.ages.filter Q.bellOpen ++ [(val.toNat, s.nextId)] })) ∧
    (q < 64 → exec (.lqEnWrite q on) s = .next (s.setLq q { Q with en := on })) ∧
    (∀ p x y, s.lqReady Q = some p → s.hostBytes Q.asid.toNat (Q.base + BitVec.ofNat 64 (64 * (Q.next.toNat % 2 ^ Q.log2.toNat))) 64 = some x →
      let r := LaunchRec.ofBits (BitVec.ofNat 512 x)
      let new := fun (u : State) => u.grid s.nextId
      ∀ ls : List (LeaseEnt × Bool), ls.length = r.nlease →
        (∀ i, i < r.nlease → (s.hostBytes Q.asid.toNat (r.lease + BitVec.ofNat 64 (16 * i)) 16).map (fun z => leaseEnt (BitVec.ofNat 128 z)) = ls[i]?) →
          ∃ u, exec (.launchRecordRead q) s = .next u ∧ (u.lq q).next = Q.next + 1 ∧
            (refusal (BitVec.ofNat 512 x) ls none (s.part p).nextGrid = none → (new u).alive = true ∧ (new u).rcd = r ∧ (new u).leases = ls.map (·.1) ∧
              (new u).depth = 1 ∧ (new u).part = p ∧ (new u).gridid = BitVec.ofNat 28 (s.part p).nextGrid ∧ (u.part p).nextGrid = (s.part p).nextGrid + 1) ∧
            (refusal (BitVec.ofNat 512 x) ls none (s.part p).nextGrid = some y → u.grids = s.grids)) ∧
    (s.mayDispatch k core = true → (∀ e ∈ s.grids, e.2.part = G.part → e.2.before G = true → ∀ c, c < 3072 → s.mayDispatch e.1 c = false) →
      ∃ u, exec (.gridDispatch k core) s = .next u ∧ (u.grid k).dispatched = true ∧ placed s u 0 ∧
        ∀ i e, G.leases[i]? = some e → ∃ x, x ∈ u.leases ∧ x.1 / 4096 = G.part ∧ s.leases.find x.1 = none ∧ x.2 = leaseBits G.gridid.toNat G.rights.asid i e) ∧
    (G.alive = true → G.stopped = false → G.preempted = none → s.issuerHeld G = false → s.mayPlace k = true → s.coreOf G.part core = true → G.formation = false →
      G.dispatched = true → G.placed < G.rcd.teams → s.depMet G G.placed = true → s.roomFor core G.rcd = true →
        ∃ u, exec (.teamPlace k core) s = .next u ∧ u.mem = s.mem ∧ placed s u G.placed) ∧
    ((s.group q).alive = true → s.fragsOf q = [] → (∀ c ∈ s.cores, ∀ e ∈ c.2.mmaQ, e.group ≠ q) → ∃ u, exec (.groupRetire q) s = .next u ∧
      (u.group q).alive = false ∧ ((s.group q).dev = s.fabric.toNat → (∀ c i, s.slot c i = .claimed q → u.slot c i = .clearing) ∧
        ∀ t, (s.group q).team = t → (s.team t).alive = true → (s.team t).forming = false → (s.team t).maps = [] → u.groupsOf t = [] →
          (u.team t).alive = false ∧ (s.team t).tidx ∈ (u.grid (s.team t).grid).bitmap)) ∧
    (s.gridDone k = true → ∃ u, exec (.gridRetire k) s = .next u ∧ (u.grid k).alive = false ∧ (u.grid k).retired = true ∧
      (G.formation = false → ∀ e ∈ u.leases, ¬(e.1 / 4096 = G.part ∧ (e.2.extractLsb' 228 28) = G.gridid)) ∧
      (G.rcd.done = 0 → u.mem = s.mem) ∧
      ∀ x, G.stopped = false → G.formation = false → G.rcd.done ≠ 0 → fld G.rcd.done 57 7 = 0 → s.walk G.rights.asid G.rcd.done = .ok x → x.r = true → x.w = true →
        x.dev = s.fabric.toNat →
          let c := s.cellOf x G.rcd.done
          s.delivered [⟨0, .dram, c, 4, G.rcd.inc.setWidth 64, G.rcd.done, some .add, 0⟩] = true → s.readErr c 4 = false → c % 2 ^ 40 + 4 ≤ 2 ^ 40 →
            KeepsOthers s u [c] 4 ∧ BitVec.ofNat 32 (u.valIn .dram c 4) = BitVec.ofNat 32 (s.valIn .dram c 4) + G.rcd.inc.setWidth 32)

/-- PREH, the pre-emption request, its escalation, the restore, and the end of a freeze: what each saves, brings back and
exchanges. (R103, R111, R164, R209, R272, R294, R322, R352, R353, R354, R355, R357) When a team is saved and what a restore renews
(log 40), what a freeze waits for (log 41), when a partition's units are erased (log 60), and held states (log 57) are the model's
own choices. -/
def Obligations.PreemptionSteps : Prop :=
∀ (s : State) (x : BitVec 12) (b : RegNum) (part grid core n : Nat),
    let t := s.team n
    let T := s.grid t.grid
    let byte := fun off => s.scratch.get 0x00#8 (scrKey t.coreKey (t.base + off))
    let masks := (s.groupsOf n).map (·.2.preh)
    let kept := fun (u : State) (full : Bool) => (u.team n).saved = true ∧ ∀ off, off < t.size →
      (u.team n).image.scr.get 0x00#8 off = if keptByte masks full off = true then byte off else 0x00#8
    let ks := s.preemptSet part grid
    let late := (s.grids.filter (s.overdue part)).map (·.1)
    let base := (s.fitAt core t.size).getD 0
    let p := s.part part
    let mine := fun (k : Nat) => k / 256 ∈ s.homesOf part
    let dark := fun k => s.shadows.cores.get Core.fresh k
    (s.liveEntry s.cur x.toNat = none → Faults (.preh x b) s (faultOf 0x01#8)) ∧
    (∀ L, s.liveEntry s.cur x.toNat = some L → (s.sreg b).poison = false →
      let r := s.f.regs.applyLive L
      let G := { s.g with preh := some ((s.sv b).setWidth 16) }
      (∀ i, i < 64 → r.v.get VReg.zero (r.wbV.toNat + i) = if L.vmap.getLsbD i then s.f.regs.v.get VReg.zero (r.wbV.toNat + i) else VReg.zero) ∧
      (∀ i, i < 61 → r.s.get SReg.zero (r.wbS.toNat + i) = if L.smap.getLsbD i then s.f.regs.s.get SReg.zero (r.wbS.toNat + i) else SReg.zero) ∧
      (∀ k : BitVec 3, r.mask k = if k = 0 ∨ L.m.getLsbD k.toNat = true then s.f.regs.mask k else 0x0#96) ∧
      (s.f.trap.isSome = true ∨ s.t.alive = false ∨ (s.grid s.t.grid).preempted = none → Goes (.preh x b) s ((s.setF { s.f with regs := r }).setG G)) ∧
      (s.f.trap = none → s.t.alive = true → (s.grid s.t.grid).preempted ≠ none → Still s → s.released s.cur true = true →
        ∃ u, exec (.preh x b) s = .next u ∧ (u.frag s.cur).resident = false ∧ (u.frag s.cur).pc = s.f.pc + 4 ∧ (u.frag s.cur).regs = r ∧
          u.group s.f.group = G)) ∧
    (ks = [] → (∀ n c, (s.group n).bob.cmd = some c → c.pend = []) → exec (.preemptRequest part grid) s = .next s) ∧
    (ks ≠ [] → (∀ n c, (s.group n).bob.cmd = some c → c.pend = []) → ∃ u, exec (.preemptRequest part grid) s = .next u ∧
      (∀ k, k ∈ ks → (s.grid k).preempted = none → (u.grid k).preempted = if s.teamsIn [k] = [] then none else some s.clock) ∧
      (∀ e, e ∈ u.leases → e.1 / 4096 = part → e.2.getLsbD 224 = true → (∃ k, k ∈ ks ∧ (s.grid k).gridid.toNat = fld e.2 228 28) → e.2.getLsbD 225 = true) ∧
      (s.teamsIn ks = [n] → s.holdsCore t = true → t.grid ∈ ks → s.saveReady n false = true → kept u false)) ∧
    (s.teamsIn late = [n] → s.holdsCore t = true → t.grid ∈ late →
      (s.saveReady n true = true → (∃ e, e ∈ s.teamFrags n ∧ s.stands e.1 = false) → ∃ u, exec (.preemptEscalation part) s = .next u ∧ kept u true) ∧
      ((∃ e, e ∈ s.teamFrags n ∧ s.atRest e.1 = false) → ∃ u, exec (.preemptEscalation part) s = .next u ∧ t.grid ∈ (u.part part).held)) ∧
    (late = [] → exec (.preemptEscalation part) s = .next s) ∧
    (s.restorable n core = false → exec (.restore n core) s = .next s) ∧
    (s.restorable n core = true → ∃ u, exec (.restore n core) s = .next u ∧ (u.team n).saved = false ∧ (u.team n).coreKey = core ∧
      (u.team n).base = base ∧ (u.team n).pgen = t.pgen + 1 ∧ (u.grid t.grid).preempted = none ∧
      (∀ off, off < t.size → (∀ e, e ∈ t.image.scr → e.1 ≠ off) → u.scratch.get 0x00#8 (scrKey core (base + off)) = 0) ∧
      (∀ e, e ∈ t.image.scr → (∀ e', e' ∈ t.image.scr → e'.1 = e.1 → e' = e) → u.scratch.get 0x00#8 (scrKey core (base + e.1)) = e.2) ∧
      (∀ e, e ∈ s.groupsOf n → (u.group e.1).home = core / 256 ∧ (u.group e.1).rights.asgen = s.genOf (u.group e.1).rights.asid) ∧
      (∀ e, e ∈ s.teamFrags n → (s.frag e.1).coreKey = t.coreKey → (u.frag e.1).coreKey = core) ∧
      (T.preempted ≠ none → T.formation = false → u.leases = (s.enterLeases T).leases)) ∧
    (s.quiet part = false → exec (.freezeComplete part) s = .next s) ∧
    (s.quiet part = true → p.swapping = false → p.freeze = true → exec (.freezeComplete part) s = .next (s.setPart part { p with frozen := true })) ∧
    (s.quiet part = true → p.swapping = true → ∃ u, exec (.freezeComplete part) s = .next u ∧
      u.part part = { p with shadow := s.liveGrids part, swapping := false, frozen := p.freeze, tenant := (u.part part).tenant } ∧
      (∀ k, mine k → u.core k = (s.core k).swapIn (dark k) ∧ u.shadows.cores.get Core.fresh k = Core.fresh.swapIn (s.core k)) ∧
      ∀ k, mine (k / 2 ^ 18) → (∀ x y, (k, x) ∈ s.shadows.scratch → (k, y) ∈ s.shadows.scratch → x = y) →
        u.scratch.get 0x00#8 k = s.shadows.scratch.get 0x00#8 k)

/-- XATOM, the arrival of its elements, the phases of a channel, the run of a handler and the installing of a table. (R103, R210,
R217, R273, R275, R279, R281, R282, R284, R285, R286, R375) An access held while its channel computes (log 46), the words away
from the team (log 58), and the order in which a source's elements reach a home (log 64) are the model's own choices. -/
def Obligations.BankSteps : Prop :=
∀ (s : State) (d b i : RegNum) (h : BitVec 4) (nc : BitVec 2) (n home chan unit : Nat),
    let words := 2 ^ nc.toNat
    let vs := (List.range words).map fun j => d + BitVec.ofNat 6 j
    let desc := s.sv (b + 0x01#6)
    let R := fld desc 0 19
    let va := fun l => s.src.addr b i 4 l
    let as := (lanesIn s.eff).map fun l => Addr.mk l (va l) 4
    let bnd := vs.any fun v => (s.vreg v).bnd
    let anyBnd := bnd || (lanesIn s.eff).any fun l => (leafAt s (va l)).bnd
    let tell := fun l => XElem.mk s.cur s.f.group s.f.pc s.g.rights (leafAt s (va l)).home (placeOf s (va l) - (leafAt s (va l)).home * 2 ^ 36) (va l) h.toNat
      (vs.map fun v => s.vl v l) (if desc.getLsbD 63 = true then some (R + 8 * l) else none) s.g.team 0 (leafAt s (va l)).ord [s.cur] none
    let ch := s.chan (32 * home + chan)
    let long := fun (since ns : Nat) => 21 * ns ≤ 20 * (s.clock - since)
    let U := s.bank (128 * home + unit)
    let C := s.chan (32 * home + unit / 4)
    let runs := C.compute = true ∧ ¬long C.since 2000 ∧ ¬(s.ordinaryAt home (unit / 4) = true ∧ long C.since 250)
    let arrives := fun (x : XElem) => s.bank (128 * x.home + unitOf x.pa)
    (63 < d.toNat + words - 1 ∨ b = 0x3F#6 → Faults (.xatom d b i h nc) s (faultOf 0x01#8)) ∧
    (d.toNat + words - 1 ≤ 63 → b ≠ 0x3F#6 →
      (hndValid (s.part s.g.rights.part).handlers h.toNat = false → Faults (.xatom d b i h nc) s (faultOf 0x01#8 (h.setWidth 64))) ∧
      (hndValid (s.part s.g.rights.part).handlers h.toNat = true →
        s.poisoned ([.s b, .s (b + 0x01#6)] ++ (if i = 0x00#6 then [] else [.v i s.eff]) ++ vs.map fun v => .v v s.eff) = none →
        (s.eff = 0x0#96 → Goes (.xatom d b i h nc) s s) ∧
        (s.eff ≠ 0x0#96 → s.checkGlobal s.f.coreKey s.g.rights .atom 4 bnd as = none →
          (desc.getLsbD 63 = true → R % 8 ≠ 0 → Faults (.xatom d b i h nc) s
            (faultAt 0x13#8 0 ((lanesIn s.eff).map fun l => ⟨l, BitVec.ofNat 64 (R + 8 * l), 8⟩))) ∧
          (s.replyFault desc (lanesIn s.eff) anyBnd = none → s.accessHeld s.cur = false → (∀ l, l ∈ lanesIn s.eff →
            (leafAt s (va l)).dev = s.fabric.toNat ∧ (leafAt s (va l)).ord ≠ 0) →
              (desc.getLsbD 63 = false ∨ s.g.dev = s.fabric.toNat →
                ∃ u : State, Goes (.xatom d b i h nc) s u ∧ u.net = s.net ++ (lanesIn s.eff).map (fun l => Msg.xatom (tell l)) ∧
                  u.mem = s.mem ∧ u.frags = s.frags ∧ u.banks = s.banks) ∧
              (desc.getLsbD 63 = true → s.g.dev ≠ s.fabric.toNat → s.f.sent = 0 → s.answered (.frag s.cur) = [] →
                (∀ x ∈ s.remote, x.asker ≠ some (.frag s.cur)) → Holds (.xatom d b i h nc) s
                  (s.fabScratch s.f.group s.f.home [s.cur] (some (.frag s.cur)) (.check anyBnd)
                    ((lanesIn s.eff).map fun l => ⟨l, .scratch, 0, 8, 0, BitVec.ofNat 64 (R + 8 * l), none, 0⟩))))))) ∧
    (∀ x, s.net[n]? = some (.xatom x) → s.mayArrive n (.xatom x) (some (128 * x.home + unitOf x.pa)) = true →
      (∀ y, Msg.xatom y ∈ s.net.take n → y.sameSource x = false) →
      (64 ≤ (arrives x).queue.length → exec (.xatomElementArrival n) s = .next s) ∧
      ((arrives x).queue.length < 64 → (s.fuseOf x.home).home = true → x.away ≠ none ∨ s.staleAt x.home x.rights ⟨0, .dram, dramKey x.home x.pa, 4, 0, x.va, none, 0⟩ = false →
        exec (.xatomElementArrival n) s = .next ((s.dropMsg n).setBank (128 * x.home + unitOf x.pa)
          { arrives x with queue := (arrives x).queue ++ [{ x with since := s.clock }] }))) ∧
    (∀ t0, s.oldestAt home chan = some t0 → chan < 32 → ch.compute = false → s.computing home < s.budget (s.home home).maxCompute →
      s.ordinaryAt home chan = false ∨ long t0 1000 → ∃ u, exec (.channelToCompute home chan) s = .next u ∧ SameBut s u ∧ u.frags = s.frags ∧
        u.chan (32 * home + chan) = ⟨true, s.clock⟩) ∧
    (∀ t0, s.oldestAt home chan = some t0 → ch.compute = false → s.ordinaryAt home chan = true → ¬long t0 1000 → exec (.channelToCompute home chan) s = .next s) ∧
    (ch.compute = true → s.oldestAt home chan = none ∨ (s.ordinaryAt home chan = true ∧ long ch.since 250) ∨ long ch.since 2000 →
      exec (.channelToNormal home chan) s = .next (s.setChan (32 * home + chan) ⟨false, s.clock⟩)) ∧
    (¬runs → exec (.handlerRun home unit) s = .next s) ∧
    (∀ x rest, U.queue = x :: rest → x.home = home → runs →
      let row := dramKey home (rowOf x.pa)
      let r0 : Run := ⟨KMap.ins (x.payload.mapIdx fun i w => (i + 1, w)) 0 (BitVec.ofNat 32 (x.pa % 1024)), [], none, 0⟩
      let ran := runFrom (fun o => s.dramByte (row + o)) (hndWord U.table x.handler) (hndLen U.table x.handler) 256 r0
      let tells := fun (u : State) (v : DWord) => ∀ off j, x.away = none → x.reply = some off → (s.team x.team).alive = true → j < 8 →
        s.keeps (s.group x.group) = true → Apart (syncPlaces s) 12 (scrKey (s.team x.team).coreKey ((s.team x.team).base + off) + j) →
        u.scratch.get 0x00#8 (scrKey (s.team x.team).coreKey ((s.team x.team).base + off) + j) = BitVec.ofNat 8 (v.toNat / 256 ^ j)
      (∀ r, s.readErr row 1024 = false → ran = .fin r → ∃ u, exec (.handlerRun home unit) s = .next u ∧
        (u.bank (128 * home + unit)).queue = rest ∧ tells u (match r.reply with | some v => replyRecord 0 v | none => replyRecord 0x01#8 0) ∧
        (∀ o v, KMap.find r.shadow o = some v → o < 1024 ∧ u.dramByte (row + o) = v) ∧
        ∀ k, (∀ o, (KMap.find r.shadow o).isSome = true → k % 2 ^ 40 ≠ (row + o) % 2 ^ 40) →
          u.byte k = s.byte k ∧ u.memKeys.get 0 (k % 2 ^ 40) = s.memKeys.get 0 (k % 2 ^ 40)) ∧
      (∀ c, s.readErr row 1024 = false → ran = .stop c → x.away ≠ none ∨ x.reply ≠ none → ∃ u, exec (.handlerRun home unit) s = .next u ∧
        (u.bank (128 * home + unit)).queue = rest ∧ u.mem = s.mem ∧ tells u (replyRecord c 0)) ∧
      (s.readErr row 1024 = true → x.away ≠ none ∨ x.reply ≠ none → ∃ u, exec (.handlerRun home unit) s = .next u ∧ u.mem = s.mem ∧
        tells u (replyRecord 0x19#8 0))) ∧
    (∀ row len r, r.next < len → runFrom row (fun _ => 0x50000000#32) len 256 r = .stop 0x48#8) ∧
    (∀ t, U.pending = some t → exec (.htldInstall home unit) s = .next (s.setBank (128 * home + unit) { U with table := t, pending := none }))

/-- Parcels: departure, offer, admission, refusal, offer again, placement, the port of another device, and return. (R94, R111,
R112, R219, R220, R236, R299, R300, R301, R323) Held releases and the repeat of the word where a parcel arrives (log 57), what is
sent ahead of a parcel (log 52), and which parcel of a port goes first (log 64) are the model's own choices. -/
def Obligations.ParcelSteps : Prop :=
∀ (s : State) (n core home i : Nat) (dv : Nat) (L : LeaveDue) (z : RegNum) (p : Parcel) (code : BitVec 8) (on : Bool),
    let f := s.frag n
    let keyOf := fun (m : Nat) => (s.frag m).coreKey
    let goes := fun (st : FState) => f.state = st ∧ f.leave = some L
    let general := fun h => ((s.home h).inbound.filter fun e => e.2 == none).length
    let r := f.regs.carry L
    let told := fun (u : State) (m : Nat) (x : FaultRec) (ti3 : DWord) => (u.frag m).alive = true → (u.frag m).ti = #v[L.ti0, x.ti1, x.ti2, ti3]
    let wait := s.parcelsFor home
    let mine := wait.find? fun w => w.2.frag == n
    let older := fun (w : Nat × Parcel) (a : Nat) => w.2.refused = true ∧ w.2.age < a
    let first := (s.core core).egress.find? fun q => 16 * q.dev + q.home == 16 * dv + home
    (r.vreg z = if L.vmap.getLsbD z.toNat = true ∨ z ∈ L.acc.operands.1 then { f.regs.vreg z with poison := 0 } else VReg.zero) ∧
    (z.toNat < 61 → r.sreg z = if L.smap.getLsbD z.toNat = true ∨ z ∈ L.acc.operands.2 then { f.regs.sreg z with poison := false } else SReg.zero) ∧
    (goes (.transit s.fabric.toNat home false) →
      (s.storesAcked n = false ∨ s.siblingFirst n L s.fabric.toNat home = true ∨ (∃ k, k ∈ L.behind ∧ s.partDone k = false) ∨
          8 ≤ (s.core f.coreKey).egress.length → exec (.parcelDepart n) s = .next s) ∧
      (s.storesAcked n = true → s.siblingFirst n L s.fabric.toNat home = false → (∀ k, k ∈ L.behind → s.partDone k = true) → (s.core f.coreKey).egress.length < 8 →
        ∃ u, exec (.parcelDepart n) s = .next u ∧ (u.frag n).state = .transit s.fabric.toNat home true ∧ (u.frag n).resident = false ∧ (u.frag n).regs = r ∧
          u.mem = s.mem ∧ (u.core f.coreKey).egress = (s.core f.coreKey).egress ++ [⟨n, s.fabric.toNat, home, s.nextId, false, false, false⟩])) ∧
    (first = some p → home < 16 → p.home < 16 → p.refused = false → p.offered = false →
      let F := s.frag p.frag
      let G := s.group F.group
      (dv = s.fabric.toNat → ∃ u, exec (.parcelOffer core (16 * dv + home)) s = .next u ∧ u.net = s.net ++ [.parcel p.frag home none] ∧ u.mem = s.mem) ∧
      (dv ≠ s.fabric.toNat → (p.dev, p.port) ∈ s.credNo → exec (.parcelOffer core (16 * dv + home)) s = .next s) ∧
      (dv ≠ s.fabric.toNat → (p.dev, p.port) ∉ s.credNo → s.extended (core / 256) = true → ∃ u, exec (.parcelOffer core (16 * dv + home)) s = .next u ∧
        u.fabOut = s.fabOut ++ [.parcel s.fabric.toNat dv G.rights.keyidx (F.header G F.stag F.vtag) F G p.port] ∧ 12 * home ≤ p.port ∧ p.port < 12 * home + 12 ∧
        ∀ q, q ∈ (u.core core).egress → q.frag ≠ p.frag)) ∧
    (∀ port, s.net[i]? = some (.parcel n home port) → s.mayArrive i (.parcel n home port) none = true → (s.fuseOf home).home = true →
      let age := (mine.map (·.2.age)).or (port.map (·.2))
      (general home < 512 → (∃ m, mine = some m ∧ m.2.credit = true) ∨ ((∀ w, w ∈ wait → w.2.credit = false) ∧
          ∀ w a, w ∈ wait → age = some a → ¬older w a) → ∃ u, exec (.parcelArrival i) s = .next u ∧ u.net = s.net.eraseIdx i ∧
        (u.home home).inbound = (s.home home).inbound ++ [(n, none)] ∧ ((s.parcelFrom n).isSome = true → ∀ q, q ∈ (u.core (keyOf n)).egress → q.frag ≠ n)) ∧
      (∀ h, s.parcelFrom n = some h → (512 ≤ general home ∧ ∃ e, e ∈ (s.home home).inbound ∧ e.2 = some h) ∨
          ((∀ m, mine = some m → m.2.credit = false) ∧ ∃ w a, w ∈ wait ∧ age = some a ∧ older w a) →
        ∃ u, exec (.parcelArrival i) s = .next u ∧ u.net = s.net.eraseIdx i ∧ (u.home home).inbound = (s.home home).inbound ∧
          ∀ q, (u.core (keyOf n)).egress.find? (fun q => q.frag == n) = some q → q.refused = true)) ∧
    (general home + (wait.filter fun w => w.2.credit).length < 512 → p.refused = true → p.dev = s.fabric.toNat → p.home = home → (core, s.core core) ∈ s.cores → p ∈ (s.core core).egress →
      (∀ k, k ∈ s.heldFor home → p.age ≤ k.2) →
      (∀ e q, e ∈ s.cores → q ∈ e.2.egress → q.refused = true → q.dev = s.fabric.toNat → q.home = home → p.age < q.age ∨ (e.1 = core ∧ q = p)) →
        ∃ u, exec (.parcelReoffer home) s = .next u ∧ ∀ q, (u.core core).egress.find? (fun q => q.frag == p.frag) = some q → q.refused = false ∧ q.credit = true) ∧
    (∀ c, s.freest home = some c → c < 256 ∧ (s.fuseOf home).home = true ∧ (s.fuseOf home).cores.getLsbD c = true ∧ s.entries (256 * home + c) < 64 ∧
      ∀ d, d < 256 → (s.fuseOf home).cores.getLsbD d = true → (s.core (256 * home + d)).waits = [] → s.entries (256 * home + d) < 64 →
        s.entries (256 * home + c) < s.entries (256 * home + d) ∨ (s.entries (256 * home + c) = s.entries (256 * home + d) ∧ c ≤ d)) ∧
    (∀ c e rest, (s.home home).inbound = (n, e) :: rest → s.freest home = some c → s.served (s.leaveElems n) = true → (∀ b, b ∈ s.sramErr → b.1 ≠ 5) →
      let key := 256 * home + c
      let R := (s.group f.group).rights
      let as := L.acc.addrs L.src L.eff
      let there := fun (u : State) => exec (.parcelPlacement home) s = .next u ∧ (u.frag n).dev = s.fabric.toNat ∧ (u.frag n).home = home ∧ (u.frag n).core = c
      (f.leave = none → ∃ u, there u ∧ (u.frag n).state = .ready) ∧
      (f.leave.isSome = true → (s.received f R.asid).leave = some L → f.grp = none → s.parcelPoison n L = none → (∃ bar, L.acc = .join bar ∧ ∃ u, there u ∧ (u.frag n).state = .join bar ∧ (u.frag n).leave = none) ∨
        ((∀ bar, L.acc ≠ .join bar) ∧
          (∀ x, s.checkGlobal key R L.acc.need L.acc.size (L.acc.writesBnd L.src) as = some x → x.code ≠ 0x10#8 →
            ∃ u, exec (.parcelPlacement home) s = .next u ∧ told u n x (L.report x).ti3 ∧ (L.report x).ti3.getLsbD 63 = true) ∧
          (s.checkGlobal key R L.acc.need L.acc.size (L.acc.writesBnd L.src) as = none → (∀ a, a ∈ as → s.destOf key R a.va = (s.fabric.toNat, home)) →
            ∃ u, there u ∧ (u.frag n).state = .ready ∧ (u.frag n).leave = none ∧
              ∀ d b w o, L.acc = .loadS d b w o → u.mem = s.mem ∧ (L.park = true → (u.frag n).parked = true) ∧ ∃ x, (u.frag n).outs = f.outs ++ [x] ∧
                x.sval = widen w (BitVec.ofNat 64 (s.valIn .dram (s.cellOf (s.leafOf key R.asid (L.src.sreg b).val) (L.src.sreg b).val) (widthOf w))))))) ∧
    (∀ src dst h, s.fabIn[i]? = some (.credit src dst h on) → ∃ u, exec (.parcelPortIngress i) s = .next u ∧ u.fabIn = s.fabIn.eraseIdx i ∧
      ((src, h) ∈ u.credNo ↔ on = false)) ∧
    (∀ src dst k res0 F G port d h b, s.fabIn[i]? = some (.parcel src dst k res0 F G port) → F.state = .transit d h b →
      (∀ c, s.parcelRefusal src k res0 F G.rights.asid = some c → ∃ u, exec (.parcelPortIngress i) s = .next u ∧ u.fabIn = s.fabIn.eraseIdx i ∧
        u.fabOut = s.fabOut ++ [.returned src F G c] ∧ u.frags = s.frags) ∧
      (s.keyOk k src G.rights.asid 0x01#5 = false → s.parcelRefusal src k res0 F G.rights.asid = some 0x16#8) ∧
      (s.parcelRefusal src k res0 F G.rights.asid = none → 32 ≤ s.portHeld port → exec (.parcelPortIngress i) s = .next s) ∧
      (s.parcelRefusal src k res0 F G.rights.asid = none → s.portHeld port < 32 → ∃ u g, exec (.parcelPortIngress i) s = .next u ∧
        u.fabIn = s.fabIn.eraseIdx i ∧ u.net = s.net ++ [.parcel (fragNo g F.idx) h (some (port, s.nextId))] ∧
        u.frag (fragNo g F.idx) = { s.received F G.rights.asid with group := g, resident := false, outs := [], grp := none, pfx := none, dev := s.fabric.toNat, home := h })) ∧
    (∀ dst F G, s.fabIn[i]? = some (.returned dst F G code) → code ≠ 0x10#8 → F.state = .transit dv home true → F.leave = some L → F.grp = none →
      let x := L.refusedReport F.own code dv home
      ∃ u g, exec (.parcelReturn i) s = .next u ∧ told u (fragNo g F.idx) x x.ti3 ∧ x.ti3.getLsbD 63 = true ∧ x.ti3.getLsbD 62 = true)

/-- Requests in flight: stores, posted operations and reads where they are performed, acknowledgements, returns, and updates of
barriers. (R62, R146, R154, R217, R218, R221, R223, R225, R227, R235, R238, R312) Which device asks which and when an answer ends
the word are the model's own choices (logs 42, 52, 58, 61). -/
def Obligations.MessageSteps : Prop :=
∀ (s : State) (n fr k : Nat) (q : Req),
    let es := q.elems
    let plain := (∀ e, e ∈ es → e.space = .dram ∧ e.key % 2 ^ 40 + e.size ≤ 2 ^ 40 ∧ s.staleAt q.home q.rights e = false ∧
      s.readErr e.key e.size = false) ∧ s.served es = true
    let stores := fun (u : State) => (∀ a, (∀ e, e ∈ es → Outside [e.key] e.size a) →
        u.byte a = s.byte a ∧ u.memKeys.get 0 (a % 2 ^ 40) = s.memKeys.get 0 (a % 2 ^ 40)) ∧
      ∀ e j, e ∈ es → j < e.size → (∀ e', e' ∈ es → e' ≠ e → Outside [e'.key] e'.size (e.key + j)) →
        u.dramByte (e.key + j) = BitVec.ofNat 8 (e.data.toNat / 256 ^ j)
    let noOps := ∀ e, e ∈ es → e.op = none
    let f := s.frag fr
    (s.net[n]? = some (.store q) →
      (s.mayArrive n (.store q) none = false ∨ s.served es = false → exec (.storeRequestPerform n) s = .next s) ∧
      (s.mayArrive n (.store q) none = true → plain → noOps → ∃ u, exec (.storeRequestPerform n) s = .next u ∧ stores u ∧
        u.net = s.net.set n (.ack q.owners (q.ord == 0) (es.any fun e => e.space == .dram)) ∧ u.scratch = s.scratch ∧ u.vault = s.vault)) ∧
    (s.net[n]? = some (.posted q) →
      (s.mayArrive n (.posted q) none = false ∨ s.served es = false → exec (.postedOpPerform n) s = .next s) ∧
      (s.mayArrive n (.posted q) none = true → plain →
        (noOps → ∃ u, exec (.postedOpPerform n) s = .next u ∧ stores u ∧
          OnlyEnds u (if q.ord = 0 then s.net.set n (.ack q.owners true true) else s.net.eraseIdx n)) ∧
        (∀ e o, es = [e] → e.size = 4 → e.op = some o → ∃ u, exec (.postedOpPerform n) s = .next u ∧
          BitVec.ofNat 32 (u.valIn .dram e.key 4) = atomNew o (BitVec.ofNat 32 (s.valIn .dram e.key 4)) (e.data.setWidth 32) e.cmp ∧
          KeepsOthers s u [e.key] 4))) ∧
    (s.net[n]? = some (.read q k) →
      (s.mayArrive n (.read q k) none = false ∨ s.served es = false → exec (.remoteReadPerform n) s = .next s) ∧
      (s.mayArrive n (.read q k) none = true → s.served es = true → (∀ e, e ∈ es → s.staleAt q.home q.rights e = false) →
        ∃ m, exec (.remoteReadPerform n) s = .next (s.putMsg n (.data q.frag k (es.map fun e => (e.lane, BitVec.ofNat 64 (s.valIn e.space e.key e.size))) m)) ∧
          ∀ l, l < 96 → m.getLsbD l = es.any fun e => e.lane == l && s.errIn e.space e.key e.size)) ∧
    (∀ os so gl, s.net[n]? = some (.ack os so gl) → ∃ u, exec (.ackReturn n) s = .next u ∧ OnlyEnds u (s.net.eraseIdx n) ∧ u.mem = s.mem) ∧
    (∀ vals m o rest acq c, s.net[n]? = some (.data fr k vals m) → f.outs = o :: rest → o.kind = .remote k acq c →
      let v := fun l => convRead c ((KMap.find vals l).getD 0)
      let o' := { o with vals := lanesOf fun l => (v l).setWidth 32, sval := v 0, poison := m }
      exec (.remoteReadReturn n) s = .next (((s.dropMsg n).setFrag fr { f with outs := o' :: rest }).deliver fr 0)) ∧
    (∀ o acq, f.outs[k]? = some o → o.kind = .sector acq → exec (.loadSectorReturn fr k) s = .next (s.deliver fr k)) ∧
    (∀ g up w, s.net[n]? = some (.split fr g up w) →
      let behind := ∃ g' up' w' i, i < n ∧ s.net[i]? = some (.split fr g' up' w')
      (behind → exec (.splitUpdateApply n) s = .next s) ∧
      (¬behind → (s.group g).dev = s.fabric.toNat → (s.group g).clashes up = true → s.lateBusy fr = true → exec (.splitUpdateApply n) s = .next s) ∧
      (¬behind → (s.group g).dev = s.fabric.toNat → (s.group g).clashes up = false → ∃ u, exec (.splitUpdateApply n) s = .next u ∧
        OnlyEnds u (s.net.eraseIdx n) ∧ u.group g = (s.group g).applyUpd up ∧
        (∀ b own, up = .bset b own → (u.group g).bar b = ⟨true, lowest own, own, 0⟩) ∧
        (∀ b own, up = .arrive b own → (u.group g).bar b = { (s.group g).bar b with arrived := ((s.group g).bar b).arrived ||| own })) ∧
      (¬behind → (s.group g).dev ≠ s.fabric.toNat → s.portShut (s.frag fr).home (s.group g).dev = false → ∃ u, exec (.splitUpdateApply n) s = .next u ∧
        OnlyEnds u (s.net.eraseIdx n) ∧ u.fabOut = s.fabOut ++ [.split s.fabric.toNat (s.group g).dev (s.group g).rights.keyidx (s.group g).gridid (s.group g).teamid
          (s.group g).gidx (fr % 96) up w])) ∧
    (∀ src dst key gridid teamid gidx idx w at' g, s.fabIn[n]? = some (.split src dst key gridid teamid gidx idx (.word w) at') → s.net = [] →
      s.splitBehind n (.split src dst key gridid teamid gidx idx (.word w) at') = false → s.groupNamed s.fabric.toNat gridid teamid gidx = some g →
      let rest : State := { s with fabIn := s.fabIn.eraseIdx n }
      let r := (rest.setGroup g (s.group g)).teamWord (fragNo g idx) w
      (s.keyOk key src (s.group g).rights.asid 0x01#5 = true → s.holdsCore (s.team (s.group g).team) = true → (s.frag (fragNo g idx)).alive = true →
        (s.frag (fragNo g idx)).dev ≠ s.fabric.toNat → exec (.splitUpdateApply n) s = .next (r.1.tell (fragNo g idx) (.worded r.2))) ∧
      (s.keyOk key src (s.group g).rights.asid 0x01#5 = false → s.portShut (s.group g).home src = false → exec (.splitUpdateApply n) s = .next
        { rest with fabOut := s.fabOut ++ [.split s.fabric.toNat src (s.group g).rights.keyidx gridid teamid gidx idx .refused ⟨0, 0, 0⟩] })) ∧
    (∀ m, let g := s.group (s.frag m).group
      s.teamWord m .lstat = (s, .done (s.lstatOf g.team)) ∧
      (g.batches.length < 16 → s.teamWord m .bseal = (s.sealBatch (s.frag m).group, .done (g.batchNo.setWidth 64))) ∧
      (∀ b c, s.cbOn g.team b = .ok c → s.teamWord m (.cbget b) = (s, .done (c.c ++ c.p)) ∧
        ∀ x, (x.getLsbD 63 = false ∧ (x.extractLsb' 0 32).toNat ≤ c.n - (c.p - c.c).toNat →
            s.teamWord m (.cbput x b) = (s.putCb g.team b { c with p := c.p + x.extractLsb' 0 32 }, .done 0)) ∧
          (x.getLsbD 63 = true ∧ (x.extractLsb' 0 32).toNat ≤ (c.p - c.c).toNat →
            s.teamWord m (.cbput x b) = (s.putCb g.team b { c with c := c.c + x.extractLsb' 0 32 }, .done 0))) ∧
      (∀ o v, o % 16 = 0 → o + 16 ≤ (s.team g.team).size → s.syncOwed (s.frag m).group o = none →
        s.teamWord m (.syncw o v) = (s.setSync g.team o v, .done ((s.genAt g.team o).setWidth 64)) ∧
        ∀ w : Word, let v := s.useSync g.team o
          v.syncOwed (s.frag m).group o = none → 2 ^ 31 ≤ ((v.genAt g.team o) - w).toNat → s.teamWord m (.swait o w) = (v, .wait)))

/-- Requests of other devices: keys and checks, what is performed and answered, drains, ordered flags, close markers and ageing.
(R207, R210, R211, R217, R225, R247, R248, R314, R323, R337, R350) The path of a request and what a port's table counts (log 21),
events of refused requests (log 38), and whose cache serves a port (log 42) are the model's own choices. -/
def Obligations.FabricSteps : Prop :=
∀ (s : State) (n src dst core key asid gen path tag dev : Nat) (kind : BitVec 5) (priv drain bnd epoch : Bool) (es : List Elem) (e e' : Elem) (x : XElem) (rep : Reply),
    let R := s.rightsIn src key asid gen priv
    let req := FabMsg.req src dst core kind key asid gen priv es drain bnd epoch path tag
    let xat := FabMsg.xatom src dst core key asid gen priv x bnd epoch path tag
    let one : Elem := ⟨0, .dram, dramKey x.home 0, 4, 0, x.va, none, 0⟩
    let step := fun (u : State) => if drain = true then exec (.drainArrival n) s = .next u else exec (.remoteRequestIngress n) s = .next u
    let answers := fun (u : State) (a : Reply) => u.fabIn = s.fabIn.eraseIdx n ∧ u.fabOut = s.fabOut ++ [.reply src tag a]
    let stored := fun (u : State) => KeepsOthers s u [e'.key] e'.size ∧
      ∀ j, j < e'.size → u.dramByte (e'.key + j) = BitVec.ofNat 8 (e'.data.toNat / 256 ^ j)
    let whole := e'.key % 2 ^ 40 + e'.size ≤ 2 ^ 40 ∧ s.readErr e'.key e'.size = false ∧ s.served [e'] = true
    let noDue := ∀ c, c ∈ s.cores → ∀ l, l ∈ c.2.wc → l.due = false
    let full := (∀ d, d ∈ s.doneRecs → (d.src, d.core, d.epoch) ≠ (src, core, epoch)) ∧ (∀ h, h ∈ s.heldFlags → (h.src, h.core, h.epoch) ≠ (src, core, epoch)) ∧
      1024 ≤ s.portEntries.length
    let P := s.pathOf core dev
    let closes := ((s.core core).paths.any fun q => q.dev == dev) = true ∧ ((∃ c, c ∈ P.sent ∧ 65535 ≤ c) ∨ 16 ≤ (s.core core).paths.length)
    (s.fabIn[n]? = some req →
      (s.fabBehind n req = true → step s) ∧ (path < 8 → full → step s) ∧
      (s.fabBehind n req = false → s.keyOk key src asid kind = false → ∃ u, step u ∧ u.mem = s.mem ∧
        answers u (Reply.refuse (if drain = true then [0] else allBad kind es) 0x16#8)) ∧
      (s.fabBehind n req = false → s.keyOk key src asid kind = true → es = [e] → (drain = true → kind = 0x04#5) →
        (∀ c, s.ingress R (needOf kind) bnd e = .error c → ∃ u, step u ∧ u.mem = s.mem ∧ answers u (if drain = true then Reply.refuse [0] c.1
          else { Reply.refuse [if kind = 0x02#5 then e.lane else 0] c.1 with reason := c.2 })) ∧
        (s.ingress R (needOf kind) bnd e = .ok e' → kind = 0x04#5 → e.op = none → whole → ∃ u, step u ∧ stored u ∧ answers u (Reply.ok [])))) ∧
    (s.fabIn[n]? = some xat → s.fabBehind n xat = false →
      (s.keyOk key src asid 0x08#5 = false → ∃ u, exec (.remoteRequestIngress n) s = .next u ∧ u.net = s.net ∧ answers u (Reply.refuse [0] 0x16#8)) ∧
      (∀ c, s.keyOk key src asid 0x08#5 = true → s.ingress R .atom bnd one = .error c → ∃ u, exec (.remoteRequestIngress n) s = .next u ∧ u.net = s.net ∧
        answers u (Reply.refuse [0] c.1)) ∧
      (s.keyOk key src asid 0x08#5 = true → s.ingress R .atom bnd one = .ok e' → hndValid (s.part R.part).handlers x.handler = true →
        ∃ u, exec (.remoteRequestIngress n) s = .next u ∧ u.fabIn = s.fabIn.eraseIdx n ∧
          u.net = s.net ++ [.xatom { x with
            rights := R, home := e'.key / 2 ^ 36 % 16, pa := e'.key - e'.key / 2 ^ 36 % 16 * 2 ^ 36, owners := [], away := some ⟨src, tag, core, epoch, path⟩ }])) ∧
    (∀ el sent, let m := FabMsg.flag src dst core key asid gen priv el bnd epoch sent tag
      s.fabIn[n]? = some m →
        (full → exec (.orderedFlagArrival n) s = .next s) ∧
        (s.flagBefore n src core = true → exec (.orderedFlagArrival n) s = .next s) ∧
        (s.fabBehind n m = false → s.flagBefore n src core = false →
          let ok := el = [] ∨ s.keyOk key src asid 0x10#5 = true
          (ok → exec (.orderedFlagArrival n) s = .next { s.dropFab n with heldFlags := s.heldFlags ++ [⟨src, core, key, asid, gen, priv, el, bnd, epoch, sent, tag⟩] }) ∧
          (¬ok → ∃ u, exec (.orderedFlagArrival n) s = .next u ∧ u.mem = s.mem ∧ answers u (Reply.refuse [0] 0x16#8) ∧
            u.heldFlags = s.heldFlags ++ [⟨src, core, key, asid, gen, priv, [], bnd, epoch, sent, tag⟩]))) ∧
    (∀ h, s.heldFlags[n]? = some h →
      (s.flagReady h = true ↔ ∀ p, p < 8 → h.sent[p]?.getD 0 ≤
        (((s.doneRecs.find? fun d => d.src == h.src && d.core == h.core && d.epoch == h.epoch).map (·.done)).getD noCounts)[p]?.getD 0) ∧
      let last := ∀ x, x ∈ s.heldFlags.take n → ¬(x.src = h.src ∧ x.core = h.core)
      (s.flagReady h = false ∨ ¬last → exec (.orderedFlagPerform n) s = .next s) ∧
      (s.flagReady h = true → last → h.elems = [] → ∃ u, exec (.orderedFlagPerform n) s = .next u ∧ u.heldFlags = s.heldFlags.eraseIdx n ∧ u.mem = s.mem ∧
        ∀ d, d ∈ u.doneRecs → ¬(d.src = h.src ∧ d.core = h.core ∧ d.epoch = h.epoch)) ∧
      (s.flagReady h = true → last → h.elems = [e] → e.op = none → s.ingress (s.rightsIn h.src h.keyidx h.asid h.asgen h.priv) .write h.bnd e = .ok e' →
        whole → ∃ u, exec (.orderedFlagPerform n) s = .next u ∧ stored u ∧ u.fabOut = s.fabOut ++ [.reply h.src h.tag (Reply.ok [])] ∧ u.heldFlags = s.heldFlags.eraseIdx n)) ∧
    (∀ r, s.fabIn[n]? = some (.reply dst tag rep) → (s.remote.find? fun r => r.tag == tag) = some r →
      (r.asker = none → rep.code ≠ 0 → rep.vals = [] → r.wc = false → noDue → exec (.ackReturn (s.net.length + n)) s = .next (rep.bad.foldl
        (fun (v : State) (b : Nat × BitVec 8) => v.groupEvent r.group 0x80#8 b.2 0 (v.group r.group).home (r.vaAt b.1) r.pc)
        { s.dropFab n with remote := s.remote.filter fun y => y.tag != tag }).reap) ∧
      (r.asker = none → rep.code = 0 → noDue → ∃ u, exec (.ackReturn (s.net.length + n)) s = .next u ∧ u.fabIn = s.fabIn.eraseIdx n ∧ u.mem = s.mem ∧
        ∀ y, y ∈ u.remote → y.tag ≠ tag) ∧
      (∀ k, r.asker = some (.frag k) → ∃ u, exec (.remoteReadReturn (s.net.length + n)) s = .next u ∧ u.fabIn = s.fabIn.eraseIdx n ∧
        u.answers = s.answers ++ [⟨.frag k, rep⟩] ∧ u.mem = s.mem ∧ ∀ y, y ∈ u.remote → y.tag ≠ tag)) ∧
    (closes → ∃ u, exec (.closeMarker core dev) s = .next u ∧ u.mem = s.mem ∧ (∀ q, q ∈ (u.core core).paths → q.dev ≠ dev) ∧
      KMap.find (u.core core).epochs dev = some (!P.epoch) ∧
      ∃ r : Rights, u.fabOut = s.fabOut ++ [.flag s.fabric.toNat P.dev core r.keyidx r.asid r.asgen r.priv [] false P.epoch P.sent 0]) ∧
    (¬closes → exec (.closeMarker core dev) s = .next s) ∧
    (∀ l, (s.core core).wc[n]? = some l →
      let due := 21 * (250 * (s.part l.rights.part).wcAge.toNat) ≤ 20 * (s.clock - l.start) ∨ l.bytes.length = 256
      (¬due → exec (.wcAgeExpiry core n) s = .next s) ∧
      (due → s.drainBusy l = true → exec (.wcAgeExpiry core n) s = .next (s.setCore core { s.core core with
        wc := (s.core core).wc.map fun y => if y = l then { y with due := true } else y })) ∧
      (due → s.drainBusy l = false → ∃ u, exec (.wcAgeExpiry core n) s = .next u ∧ (u.core core).wc = (s.core core).wc.filter (· != l) ∧
        ∃ r, u.remote = s.remote ++ [r] ∧ r.wc = true ∧ r.owners = l.frags ∧ r.line = l.line))

/-- Joins, team barriers and the wake of WAITW; residency, turns and service passes; register lines; and the fill of a mapped
line. (R108, R109, R110, R149, R150, R156, R157, R158, R163, R165, R214, R351) Model's own choices: a wait of another device (logs
22, 52), line choice (log 44), who gives residency (log 53), a JOINed scalar's tag (log 62). -/
def Obligations.WakeSteps : Prop :=
∀ (s : State) (n g bar team core entry line : Nat),
    let f := s.frag n
    let b := (s.group g).bar bar
    let ws := s.waiters g bar
    let C := s.core core
    let T := s.team team
    let all := ws.foldl (fun m w => m ||| w.2.own) 0x0#96
    let err := fun k => (4, 1024 * n + k) ∈ s.sramErr
    let free := fun k => Apart (syncPlaces s) 12 k
    let asks := f.alive = true ∧ f.resident = true ∧ f.coreKey = core ∧ line < 258 ∧ C.holdsLine n line = false ∧ s.linesBlocked core line = false
    let spent := fun (m : Nat) => (s.unheld m = false ∨ max 1 (s.group (s.frag m).group).weight ≤ (s.frag m).turn)
    ((∀ w, w ∈ ws → w.2.own.getLsbD b.alane = false) → exec (.joinFusion g bar) s = .next s) ∧
    ((s.group g).dev ≠ s.fabric.toNat ∨ b.armed = false ∨ b.arrived ≠ b.expect → exec (.joinFusion g bar) s = .next s) ∧
    (∀ a A, (s.group g).dev = s.fabric.toNat → (ws.find? fun w => w.2.own.getLsbD b.alane) = some (a, A) → A = s.frag a → A.dev = s.fabric.toNat → s.asleep a = false →
      (∀ w, w ∈ ws → w.2.home = A.home ∧ w.2.dev = A.dev ∧ (w.1 ≠ a → w.2 = s.frag w.1)) →
      (all ≠ b.expect → exec (.joinFusion g bar) s = .next s) ∧
      (b.armed = true → b.arrived = b.expect → all = b.expect → ∃ u, exec (.joinFusion g bar) s = .next u ∧ u.mem = s.mem ∧ (u.group g).bar bar = Bar.idle ∧
        (∀ w, w ∈ ws → w.1 ≠ a → (u.frag w.1).alive = false) ∧
        (let F := u.frag a
         F = { A with own := all, pc := A.pc + 4, state := .ready, leave := none, turn := 0, served := 0, regs := F.regs, resident := F.resident, since := F.since } ∧
         F.regs = { A.regs with v := F.regs.v, m := F.regs.m }) ∧
        (∀ e, ((u.frag a).regs.v.get VReg.zero e).bnd = ws.any fun w => (w.2.regs.v.get VReg.zero e).bnd) ∧
        ∀ w l, w ∈ ws → l < 96 → w.2.own.getLsbD l = true → (∀ w', w' ∈ ws → w'.2.own.getLsbD l = true → w' = w) →
          (∀ k : BitVec 3, ((u.frag a).regs.mask k).getLsbD l = (w.2.regs.mask k).getLsbD l) ∧
          ∀ e, let x := (u.frag a).regs.v.get VReg.zero e
            let y := w.2.regs.v.get VReg.zero e
            lane x.lanes l = lane y.lanes l ∧ x.poison.getLsbD l = y.poison.getLsbD l)) ∧
    (let fs := s.fragsOfTeam team
     (fs = [] ∨ (∃ e, e ∈ fs ∧ (s.asleep e.1 = true ∨ ∀ p, e.2.state ≠ .barrt p)) → exec (.barrtRelease team) s = .next s) ∧
     (fs ≠ [] → (∀ e, e ∈ fs → e.2 = s.frag e.1 ∧ s.asleep e.1 = false ∧ ∃ p, e.2.state = .barrt p) →
       ((∃ r e o, Msg.store r ∈ s.net ∧ e ∈ r.elems ∧ e.space ≠ .dram ∧ o ∈ r.owners ∧ o ∈ fs.map (·.1)) → exec (.barrtRelease team) s = .next s) ∧
       ((∀ r, Msg.store r ∈ s.net → (∀ e, e ∈ r.elems → e.space = .dram) ∨ ∀ o, o ∈ r.owners → o ∉ fs.map (·.1)) →
         ∃ u, exec (.barrtRelease team) s = .next u ∧ u.mem = s.mem ∧ (∀ k, k ∉ fs.map (·.1) → u.frag k = s.frag k) ∧
           ∀ e, e ∈ fs → (u.frag e.1 = { e.2 with state := .ready, resident := (u.frag e.1).resident, since := (u.frag e.1).since }) ∧
             (e.2.dev ≠ s.fabric.toNat → s.portShut (s.group e.2.group).home e.2.dev = false → let G := s.group e.2.group
               FabMsg.split s.fabric.toNat e.2.dev G.rights.keyidx G.gridid G.teamid G.gidx e.2.idx .release ⟨0, 0, 0⟩ ∈ u.fabOut)))) ∧
    (∀ key v va gen r e, f.state = .waitw key v va gen true ∧ e = false ∨ f.state = .waitAway key va (some (0, r, e)) → s.asleep n = false →
      f.chain = false → f.outs = [] → f.due = none → f.leave = none → f.grp = none → f.alive = true →
        ∃ u, exec (.waitwWake n) s = .next u ∧ u.mem = s.mem ∧ (u.frag n).state = .ready ∧ (u.frag n).pc = f.pc + 4 ∧ flagE (u.frag n).regs.cflags = e) ∧
    (∀ key va, f.state = .waitAway key va none → exec (.waitwWake n) s = .next s) ∧
    (∀ key va c r e, f.state = .waitAway key va (some (c, r, e)) → c ≠ 0 → s.asleep n = false →
      exec (.waitwWake n) s = .next ((s.wake n).takeFault (faultAt c r [⟨0, va, 4⟩]))) ∧
    (∀ m rest, C.waits = m :: rest →
      let late := C.rot.filter fun x => (s.frag x).alive && !(s.frag x).resident && (s.frag x).state == .ready && !C.waits.contains x
      (64 ≤ s.entries core → (s.evictee core = none → late = [] → exec (.residencyGrant core) s = .next s) ∧
        ∀ v, s.evictee core = some v → (s.frag v).coreKey = core ∧ (s.frag v).outs = [] ∧
          ((s.frag v).state.inLaunch = true ∨ ((s.frag v).state = .ready ∧ (C.behind v = true ∨ (s.frag v).since < (s.frag v).issued))) ∧
          ∃ u, exec (.residencyGrant core) s = .next u ∧ u.mem = s.mem ∧ (u.frag v).resident = false ∧ ∀ l, l ∈ (u.core core).lines → l.frag ≠ v) ∧
      (s.entries core < 64 → s.linesFit core 2 = false → late = [] → exec (.residencyGrant core) s = .next s) ∧
      (s.entries core < 64 → s.linesFit core 2 = true → (s.frag m).coreKey = core → ∃ u, exec (.residencyGrant core) s = .next u ∧ u.mem = s.mem ∧ (u.frag m).resident = true ∧ (u.core core).waits = rest ++ late ∧
        m ∈ (u.core core).rot)) ∧
    ((∀ m, m ∈ C.rot → (s.frag m).turn = 0) → exec (.turnEnd core) s = .next s) ∧
    (∀ m, (C.rot.find? fun m => (s.frag m).turn != 0) = some m →
      (spent m → ∃ u, exec (.turnEnd core) s = .next u ∧ u.mem = s.mem ∧ (u.core core).rot = C.rot.filter (· != m) ++ [m] ∧ (u.frag m).turn = 0) ∧
      (¬spent m → exec (.turnEnd core) s = .next s)) ∧
    (f.alive = true → f.begun = false → 16384 ≤ f.served → ∀ rest, rest ≠ [] → (s.core f.coreKey).svc = [n :: rest] → n ∉ rest →
      ∃ u, exec (.servicePassBound n) s = .next u ∧ u.mem = s.mem ∧ (u.core f.coreKey).svc = [rest ++ [n]] ∧ (u.frag n).served = 0) ∧
    (f.served < 16384 ∨ f.begun = true → exec (.servicePassBound n) s = .next s) ∧
    (s.linesBlocked core line = true → exec (.registerLineFill core n line) s = .next s) ∧
    (asks → ¬err 258 →
      ∃ u, exec (.registerLineFill core n line) s = .next u ∧ u.mem = s.mem ∧ (u.core core).holdsLine n line = true ∧ (∀ k, k ≠ n → u.frag k = s.frag k) ∧
        (¬err line → u.frag n = { f with held := false }) ∧
        (err line → line < 256 → (u.frag n).regs.v.get VReg.zero line = { f.regs.v.get VReg.zero line with poison := f.own } ∧ ¬(4, 1024 * n + line) ∈ u.sramErr)) ∧
    (asks → err 258 →
      ∃ u, exec (.registerLineFill core n line) s = .next u ∧ ((u.frag n).alive = true → (u.frag n).state = .ended ∧ (u.frag n).own = 0)) ∧
    (∀ m, T.maps.find entry = some m → s.holdsCore T = true → (entry, line) ∈ T.fills →
      let va := fun i => m.gva + BitVec.ofNat 64 (256 * line + 8 * i)
      let at' := fun (o : Nat) => scrKey T.coreKey (T.base + m.off + 256 * line) + o
      let leaf := fun i => s.leafOf T.coreKey m.rights.asid (va i)
      s.answered (.fill team entry line) = [] → s.backPending m.rights.asid (va 0) 256 = false →
      (∀ i, i < 32 → s.protOf T.coreKey m.rights .read (va i) = 0 ∧ (leaf i).dev = s.fabric.toNat ∧
        s.served [⟨0, .dram, s.cellOf (leaf i) (va i), 8, 0, va i, none, 0⟩] = true) →
        ∃ u, exec (.mapFill team entry line) s = .next u ∧ u.mem = s.mem ∧ (entry, line) ∉ (u.team team).fills ∧
          (∀ k, (∀ o, o < 256 → k ≠ at' o) → free k → u.scratch.get 0x00#8 k = s.scratch.get 0x00#8 k) ∧
          ∀ o, o < 256 → free (at' o) → u.scratch.get 0x00#8 (at' o) = if (256 * line + o) ∈ m.dirty then s.scratch.get 0x00#8 (at' o) else
            BitVec.ofNat 8 ((BitVec.ofNat 64 (s.valIn .dram (s.cellOf (leaf (o / 8)) (va (o / 8))) 8) : DWord).toNat / 256 ^ (o % 8)))

/-- Writes of PC.CTL, their refusal, the commit of a table entry, and BAR0 writes of a partition's registers and by a function.
(R1, R7, R272, R314, R318, R325, R356, R357, R361, R362, R364, R365) Which writes of PC.EN, PC.HOMES and PC.VF are not taken, and
what they erase, are the model's own choices (log 39). -/
def Obligations.PartitionControl : Prop :=
∀ (s : State) (k fn : Nat) (v : DWord),
    let p := s.part k
    let m := ctlHomes v
    let e : BitVec 256 := v ++ p.tdata.extractLsb' 0 192
    let i := fld p.tidx 0 16
    let steps : List (Instr × Bool) := [(.pcHomesWrite k v, m != p.homes), (.pcEnSet k v, v.getLsbD 0), (.pcEnClear k v, !v.getLsbD 0),
      (.pcVfWrite k v, ctlVf v != p.vf), (.pcFreezeSet k v, v.getLsbD 1), (.pcFreezeRelease k v, !v.getLsbD 1), (.shadowSwap k v, v.getLsbD 3)]
    let clash := ∃ q, q < 12 ∧ q ≠ k ∧ (s.part q).en = true ∧ (s.part q).homes &&& m ≠ 0
    let mayTake := m = p.homes ∨ (p.en = false ∧ s.permits m = true ∧ ¬clash)
    let later := { p with ovt := v.extractLsb' 36 16, homes := m, badshape := if m = p.homes then p.badshape else false }
    let now := { later with swapping := p.swapping || v.getLsbD 3, freeze := v.getLsbD 1, frozen := p.frozen && v.getLsbD 1 }
    let functions := if s.code = 2 then 10 else 12
    let reads := fun (off : Nat) (x : DWord) => s.readBar0 0 (0x200000 + 4096 * k + off) = x
    let reg := fun (off : Nat) (x : DWord) => exec (.registerWrite 0 (0x200000 + 4096 * k + off) x) s
    k < 12 →
      (∀ x, x ∈ steps → x.2 = false → exec x.1 s = .next s) ∧
      (∀ x, x ∈ steps → x.2 = true → ¬mayTake → exec x.1 s = .next (s.setPart k { p with badshape := true })) ∧
      (∀ x, x ∈ steps → x.2 = true → mayTake → ∃ u, exec x.1 s = .next u ∧ u.mem = s.mem ∧
        u.part k = { now with wcAge := (u.part k).wcAge, vf := (u.part k).vf, en := (u.part k).en } ∧
        (u.part k).wcAge = (if v.extractLsb' 28 8 = 0 then 1 else if 128 < (v.extractLsb' 28 8).toNat then 128 else v.extractLsb' 28 8) ∧
        (ctlVf v = 0 → (u.part k).vf = 0) ∧
        (functions < (ctlVf v).toNat → (u.part k).vf = p.vf) ∧
        (ctlVf v ≠ 0 → (ctlVf v).toNat ≤ functions → (u.part k).vf = if (List.range 12).any (fun q => q != k && (s.part q).vf == ctlVf v) = true then p.vf else ctlVf v) ∧
        (v.getLsbD 0 = true → m = 0 → (u.part k).en = p.en) ∧ (v.getLsbD 0 = true → m ≠ 0 → ¬clash → (u.part k).en = true) ∧
        (v.getLsbD 0 = false → (u.part k).en = (p.en && s.busyPart k))) ∧
      (∃ u, exec (.pcTdataCommit k v) s = .next u ∧ u.mem = s.mem ∧ (u.part k).tdata = e ∧
        (p.tidx.getLsbD 63 = false → u.segs = s.segs ∧
          (fld e 184 4 ≠ k → u.asTab = s.asTab) ∧ (fld e 184 4 = k → u.asEnt i = e ∧ ∀ j, j ≠ i → u.asEnt j = s.asEnt j)) ∧
        (p.tidx.getLsbD 63 = true → u.asTab = s.asTab ∧
          ((s.asEnt (fld e 48 16)).getLsbD 191 = false ∨ fld (s.asEnt (fld e 48 16)) 184 4 ≠ k ∨ 1024 ≤ i → u.segs = s.segs))) ∧
      reg 0x008 v = .next (s.setPart k { p with trapent := v &&& 0xFFFFFFFFFFFFFFFC#64 }) ∧
      reg 0x010 v = .next (s.setPart k { p with eqbase := v &&& 0xF000000FFFFFFFE0#64 }) ∧
      reg 0x100 v = .next (s.setPart k { p with tidx := v &&& 0x800000000000FFFF#64 }) ∧
      (∃ log, reg 0x018 v = .next (s.setPart k { p with eqlog := log }) ∧
      log = (if fld v 0 5 = 0 then 0 else if fld v 0 5 < 5 then 5 else if 20 < fld v 0 5 then 20 else v.setWidth 5)) ∧
      reads 0x008 p.trapent ∧ reads 0x010 p.eqbase ∧ reads 0x020 p.eqhead ∧ reads 0x028 p.eqtail ∧ reads 0x100 p.tidx ∧ reads 0x120 0 ∧ reads 0x138 0 ∧
      (functions < fn → ∀ off, exec (.registerWrite fn off v) s = .next s)

/-- BAR2, the mailbox and RESYNC, ports, device reset, power and temperature, boot, and attestation. (R1, R218, R331, R338, R361,
R363, R366, R371, R372, R373, R374, R375) Model's own choices: free answers of the root (log 16), events of host writes (log 38),
the credit window's moment (log 47), what DEVICE_RESET keeps (logs 12, 48). -/
def Obligations.HostAndPowerSteps : Prop :=
∀ (s : State) (home addr count port idx : Nat) (bs : List Byte) (code : BitVec 8) (ext : Bool),
    let inside := fun n => home = s.window ∧ home < 12 ∧ addr + n ≤ 2 ^ 36 ∧ (s.fuseOf home).home = true
    let key := dramKey home addr
    let h := s.home home
    let half := fun (n : Nat) => if s.thermal = .throttled then n / 2 else n
    let tells := fun (k x : Nat) => { s with hostOut := s.hostOut ++ [.spdm k (Config.spdm k x s.image s.secVersion s.free)], free := s.free + 1 }
    let U := s.fuseOf (port / 12)
    let buf := dramKey (fld s.mbAddr 60 4) (fld s.mbAddr 0 36)
    (inside bs.length → (∀ i, i < bs.length → s.readErr (key + i) 1 = false) → ∃ u, exec (.hostWrite home addr bs) s = .next u ∧ u.scratch = s.scratch ∧
      (∀ k, k < key ∨ key + bs.length ≤ k → u.byte k = s.byte k) ∧ ∀ i x, bs[i]? = some x → u.byte (key + i) = x) ∧
    (¬inside bs.length → exec (.hostWrite home addr bs) s = .next s) ∧
    (inside count → ∃ bad, exec (.hostRead home addr count) s =
        .next { s with hostOut := s.hostOut ++ [.read ((List.range count).map fun i => s.byte (key + i)) bad] } ∧
      ∀ i, i ∈ bad ↔ i < count ∧ s.readErr (key + i) 1 = true) ∧
    (¬inside count → exec (.hostRead home addr count) s = .next s) ∧
    (code ≠ 0x01#8 → s.mbStat ≠ 1 →
      exec (.mailboxUnknown code) s = .next { s with mbCmd := code.setWidth 64, mbStat := 3, hostOut := s.hostOut ++ [.msix 0 2] }) ∧
    (code ≠ 0x01#8 → s.mbStat = 1 → exec (.mailboxUnknown code) s = .next { s with mbRefused := true }) ∧
    (s.mbStat ≠ 1 → exec .resync s = .next s) ∧
    (s.mbStat = 1 → ∃ u, exec .resync s = .next u ∧ u.hostOut = s.hostOut ++ [.msix 0 2] ∧ u.mbStat = (if s.mbRefused = true then 4 else if s.mbAddrOk = true then 2 else 3) ∧
      (s.mbAddrOk = false → u.mem = s.mem) ∧
      (s.mbAddrOk = true → s.memErr = [] → u.byte buf = 1 ∧ u.resyncs = s.resyncs + 1 ∧ ∀ k, k < buf ∨ buf + 0xB1000 ≤ k → u.byte k = s.byte k)) ∧
    (port < 144 → U.home = true → U.ports.getLsbD (port % 12) = true → exec (.portTrain port ext) s = .next { s with ports := s.ports.ins port ⟨true, ext⟩ }) ∧
    (144 ≤ port ∨ U.home = false ∨ U.ports.getLsbD (port % 12) = false → exec (.portTrain port ext) s = .next s) ∧
    (∃ u, exec .deviceReset s = .next u ∧ u.frags = [] ∧ u.groups = [] ∧ u.teams = [] ∧ u.grids = [] ∧ u.cmds = [] ∧ u.cores = [] ∧ u.homes = [] ∧ u.tambs = [] ∧
      u.mem = [] ∧ u.memKeys = [] ∧ u.scratch = [] ∧ u.net = [] ∧ u.remote = [] ∧ u.parts = [] ∧ u.lqs = [] ∧ u.asTab = [] ∧ u.leases = [] ∧ u.keyTab = [] ∧ u.keySlots = [] ∧
      u.segs = [] ∧ u.clock = 0 ∧ u.thermal = .normal ∧ u.mbStat = 0 ∧ u.fuse = s.fuse ∧ u.code = s.code ∧ u.rollback = s.rollback ∧ u.image = s.image ∧ u.stage = s.stage ∧ u.keyHash = s.keyHash ∧
      ∀ k, (s.xar k).writes ≠ 0 → u.xar k = { Xar.fresh with writes := (s.xar k).writes }) ∧
    (home < 12 → exec (.powerCreditWindow home) s = .next (s.setHome home
      { h with credPass := half h.maxPass, credProd := half h.maxProd, credSettle := half h.maxSettle })) ∧
    (exec .thermalThrottle s = .next { s with thermal := if s.thermal = .normal then .throttled else s.thermal }) ∧
    (exec .thermalRestore s = .next { s with thermal := if s.thermal = .throttled then .normal else s.thermal }) ∧
    (exec .thermalTrip s = .next { s with thermal := .tripped }) ∧ (s.thermal = .tripped → ∀ n, s.mayIssue n = false) ∧
    exec (.rootBoot idx) s = .next (if Config.imageOk s.keyHash idx = true ∧ s.rollback.toNat ≤ (Config.imageVersion idx).toNat then
        (if Config.isStage idx = true then { s with stage := idx } else { s with image := idx, secVersion := Config.imageVersion idx }) else s) ∧
    (exec .getVersion s = .next (tells 0 0)) ∧ (exec .getCapabilities s = .next (tells 1 0)) ∧ (exec .negotiateAlgorithms s = .next (tells 2 0)) ∧
    (exec .getDigests s = .next (tells 3 0)) ∧ (exec .getCertificate s = .next (tells 4 0)) ∧ (exec (.challenge idx) s = .next (tells 5 idx)) ∧
    (1 ≤ idx → idx ≤ 4 → exec (.getMeasurements idx) s = .next
      { s with hostOut := s.hostOut ++ [.measured idx (s.measurement idx) (Config.spdm 6 idx s.image s.secVersion s.free)], free := s.free + 1 }) ∧
    s.measurement 2 = Config.imageDigest s.image ∧ s.measurement 3 = Config.sha3 s.fuseMap ∧ s.measurement 4 = s.secVersion.setWidth 256 ∧ (idx = 0 ∨ 4 < idx → exec (.getMeasurements idx) s = .next s)

namespace Sys2Proof.Claim

/-- The canonical form of the memories, of the shadow copies (R357), and of what is kept of saved teams (R353). -/
def Canonical (s : State) : Prop :=
  Memory.wf s = true ∧ KMap.wf 0x00#8 s.shadows.scratch = true ∧ KMap.wf 0x00#8 s.shadows.opmem = true ∧
    ∀ e ∈ s.teams, KMap.wf 0x00#8 e.2.image.scr = true ∧ KMap.wf 0x00#8 e.2.image.slots = true

end Sys2Proof.Claim

/-- The machine after reset: the registers the spec gives a reset value hold it, nothing runs, every counter is 0, the memories
are in canonical form. (R7, R252, R270, R288, R318, R331, R335, R364, R365) -/
def Obligations.ResetState : Prop :=
∀ s : State, s = State.reset →
  Canonical s ∧ (∀ n, (s.frag n).alive = false ∧ (s.group n).alive = false) ∧ s.agenda = [] ∧
  (∀ p, (s.part p).wcAge = 8 ∧ (s.part p).ovt = 0 ∧ (s.part p).vf = 0 ∧ (s.part p).homes = 0 ∧ (s.part p).badshape = false ∧
    (s.part p).frozen = false ∧ (s.part p).freeze = false ∧ (s.part p).en = false ∧ (s.part p).trapent = 0 ∧ (s.part p).eqbase = 0 ∧
    (s.part p).eqlog = 0 ∧ (s.part p).eqhead = 0 ∧ (s.part p).eqtail = 0 ∧ (s.part p).tidx = 0 ∧ (s.part p).tdata = 0 ∧ (s.part p).nextGrid = 1) ∧
  (∀ q, (s.lq q).tail = 0 ∧ (s.lq q).head = 0 ∧ (s.lq q).base = 0 ∧ (s.lq q).asid = 0 ∧ (s.lq q).part = 0 ∧ (s.lq q).fn = 0 ∧
    (s.lq q).prio = 0 ∧ (s.lq q).log2 = 0 ∧ (s.lq q).en = false) ∧
  (∀ a, (s.xar a).lgen = 0 ∧ (s.xar a).cgen = 0 ∧ (s.xar a).state = .empty ∧ (s.xar a).reason = 0 ∧ (s.xar a).bad = 0 ∧
    (s.xar a).lastb = 0xFF ∧ (s.xar a).drift = 0) ∧
  (∀ t, (s.tamb t).lgen = 0 ∧ (s.tamb t).n = 0 ∧ (s.tamb t).state = .empty ∧ (s.tamb t).cover = none ∧ (s.tamb t).clip = false ∧
    (s.tamb t).raili = 0 ∧ (s.tamb t).queue = []) ∧
  (∀ a, s.asEnt a = 0) ∧ (∀ c, s.cyclesOf c = 0) ∧ (∀ n x, s.perfCounter n = some x → x = 0) ∧
  (∀ k, s.byte k = 0 ∧ s.byteIn .scratch k = 0 ∧ s.byteIn .vault k = 0 ∧ KMap.get 0x00#8 s.opmem k = 0) ∧ s.memErr = [] ∧
  (∀ c, (s.chan c).compute = false)

namespace Sys2Proof.Claim

/-- Fragment `n` is the next to issue, and `u` is the state once the clocks before its word have passed. -/
def AtIssue (s : State) (n : Nat) (u : State) : Prop :=
  (s.forced = some n ∧ u = { s with cur := n }) ∨
  (s.forced = none ∧ ∃ rest, s.agenda = .issue n :: rest ∧ ({ s with agenda := rest } : State).mayIssue n = true ∧
    u = { ({ s with agenda := rest } : State).timed n with cur := n })

end Sys2Proof.Claim

/-- A step of a fragment at issue fetches the word at its pc and runs exec of the instruction it decodes to, or takes the fault
that R71 or R333 names. (R57, R58, R60, R62, R64, R65, R71, R207, R333, R392) Which agent moves next and the clocks it takes (log
8), register lines (log 44), the translation that a word uses (log 49), and the instruction cache (log 56) are the model's own
choices. -/
def Obligations.StepRunsTheDecodedWord : Prop :=
(∀ (s u : State) (n : Nat) (w : Word), AtIssue s n u → u.fetch n u.f.pc = .ok w →
    let v := (u.cache u.f.coreKey u.g.rights.asid [u.f.pc]).keepCode u.f.coreKey u.g.rights.asid u.f.pc
    let v' := v.setF { u.f with word := w, chain := false, park := false }
    let first := u.f.grp = none ∧ (u.f.pfx = none ∨ u.f.held = true) ∧ u.asking n = false
    (first → u.f.timerDue = true →
      step s = .next (if u.f.pfx = none then v.timerFault n u.f.pc (v.groupTi0 n w) else v.timerFault n u.f.rpc u.f.ti0)) ∧
    (¬(first ∧ u.f.timerDue = true) → majorOf w ≠ 0x3F →
      (∀ r, v'.check71 n w (decodeWord w) = some r → step s = .next (v'.takeFault r)) ∧
      (∀ slot, decodeWord w = .ok slot → v'.check71 n w (decodeWord w) = none → v'.lacks n w slot.instr ≠ [] ∨ v'.newLines n w slot.instr = false →
        step s = .next ((v'.setF { v'.f with held := true }).endTurnOf n)) ∧
      (∀ slot, decodeWord w = .ok slot → v'.check71 n w (decodeWord w) = none → v'.lacks n w slot.instr = [] → v'.newLines n w slot.instr = true →
        let t := v'.latch w slot
        step s = exec slot.instr t ∧ t.cur = n ∧ t.f.regs = u.f.regs ∧ t.src = u.src ∧ t.f.pc = u.f.pc ∧ t.f.pfx = u.f.pfx ∧ t.f.word = w ∧
          t.f.chain = slot.chain ∧ t.f.park = slot.park ∧ t.mem = s.mem ∧ t.scratch = s.scratch ∧ t.vault = s.vault ∧ t.opmem = s.opmem) ∧
      (∀ slot, decodeWord w = .ok slot → u.f.pfx = none → majorOf w = 0x3B → (w.getLsbD 31 = false ∨ v'.slotOf n u.f.pc ≠ 2) →
        u.g.rights.priv = false → step s = .next (v'.takeFault (faultOf 0x06#8)))) ∧
    (¬(first ∧ u.f.timerDue = true) → majorOf w = 0x3F → u.f.pfx = none → v.slotOf n u.f.pc ≠ 2 →
      (∀ x, v.fetch n (u.f.pc + 4) = .ok x → takesPfx (majorOf x) = true) →
      (∀ slot, decodeWord w = .ok slot → step s = exec slot.instr (v.setF { u.f with word := w })) ∧
      (∀ r, decodeWord w = .error r → step s = .next (v.setF { u.f with pfx := some (pfxOf w), pc := u.f.pc + 4, word := w }))) ∧
    (¬(first ∧ u.f.timerDue = true) → majorOf w = 0x3F → u.f.pfx ≠ none ∨ v.slotOf n u.f.pc = 2 ∨
      (∃ x, v.fetch n (u.f.pc + 4) = .ok x ∧ takesPfx (majorOf x) = false) →
        step s = .next (v.faultOn n (w.setWidth 64) u.f.pc u.f.pc (faultOf 0x03#8)))) ∧
  (∀ (s : State) (n : Nat) (pc : DWord) (w : Word), s.fetch n pc = .ok w →
    let r := (s.group (s.frag n).group).rights
    let core := (s.frag n).coreKey
    pc.toNat < 2 ^ 57 ∧ pc.toNat % 4 = 0 ∧ (∃ seg, s.segOf r.part r.asid pc = some seg) ∧
      ∃ x, s.trCore core r.asid pc = .ok x ∧ x.x = true ∧ (∀ y, ((s.core core).icache.find? fun e => e.1 == s.cellOf x pc) = some y → w = y.2) ∧
        ((∀ e, e ∈ (s.core core).icache → e.1 ≠ s.cellOf x pc) → ∀ i, i < 4 → w.extractLsb' (8 * i) 8 = s.dramByte (s.cellOf x pc + i))) ∧
  (∀ (s : State) (m : Move) (rest : List Move), s.forced = none → s.agenda = m :: rest →
    let u : State := { s with agenda := rest }
    (∀ i, m = .event i → i.fields = none → step s = exec i u) ∧
    (∀ n, m = .issue n → u.mayIssue n = false → step s = .next u))

/-- Words that the rules write out decode to the instructions they stand for, with their chain bits and park markers. (R56, R84,
R125, R153, R155, R160, R163, R171, R175, R221, R229, R334) -/
def Obligations.DecodedWords : Prop :=
decodeWord 0x00000000 = .ok ⟨false, false, .nop⟩ ∧
  decodeWord 0x1A440010 = .ok ⟨false, false, .call 2 1 16⟩ ∧
  decodeWord 0x06140013 = .ok ⟨false, false, .sread 5 0x013⟩ ∧
  decodeWord 0x1B080002 = .ok ⟨false, false, .bset 2⟩ ∧
  decodeWord 0x1B002206 = .ok ⟨false, false, .spawn 2 8⟩ ∧
  decodeWord 0x1B0061CA = .ok ⟨false, false, .waitw 6 7⟩ ∧
  decodeWord 0x31040100 = .ok ⟨false, false, .oclaim 8 1⟩ ∧
  decodeWord 0x30220640 = .ok ⟨false, false, .mma 1 8 12 2⟩ ∧
  decodeWord 0x32044103 = .ok ⟨false, false, .cst 1 4 1⟩ ∧
  decodeWord 0x27004143 = .ok ⟨false, false, .spmap 4 5⟩ ∧
  decodeWord 0x202030A1 = .ok ⟨false, false, .ldV 8 3 2 4 1⟩ ∧
  decodeWord 0x250C2124 = .ok ⟨false, false, .ldv 3 2 4 4 0⟩ ∧
  decodeWord 0x27007001 = .ok ⟨false, false, .migr 7⟩ ∧
  decodeWord 0x2B10204D = .ok ⟨false, false, .xatom 4 2 1 3 1⟩ ∧
  decodeWord 0xBA140000 = .ok ⟨true, false, .cyc 5⟩ ∧
  decodeWord 0x7A140000 = .ok ⟨false, true, .cyc 5⟩ ∧
  decodeWord 0x3E000000 = .error .illegalOp ∧
  decodeWord 0x00001000 = .error .reservedBits

/-- Decoding the word of every well-formed instruction gives it back, and every word that decodes is the one word of a well-formed
instruction. (R6, R56, R64, R67, R69, R70) -/
def Obligations.DecodeAndEncodeAgree : Prop :=
(∀ t : Slot, t.instr.wf = true → t.instr.fields ≠ none → (∀ m r a z u, t.instr = .pfx m r a z u → t.chain = false ∧ t.park = false) →
    ∃ w, encodeWord t = some w ∧ decodeWord w = .ok t) ∧
  (∀ (w : Word) (t : Slot), decodeWord w = .ok t → t.instr.wf = true ∧ encodeWord t = some w) ∧
  (∀ w : Word, bytesWord (wordBytes w) = w)

/-- From every state the device goes on: every instruction, event and step answers a next state, never a fault or a refusal of the
model. (R13, R61, R340, R348) -/
def Obligations.EveryStepAnswersANextState : Prop :=
(∀ (i : Instr) (s : State), ∃ t, exec i s = .next t) ∧ (∀ s : State, ∃ t, step s = .next t)

/-- Every step keeps every memory of the device in its canonical form, so that equal contents are equal data. (R183, R206, R224,
R272, R353, R355, R357) -/
def Obligations.EveryStepKeepsTheMemoriesCanonical : Prop :=
∀ s t : State, Canonical s → step s = .next t → Canonical t

namespace Sys2Proof.Claim

/-- R43: the words that round, under the mode code rs by a sample of NSTEP. -/
def Rounds (i : Instr) : Prop :=
  (∃ v d a b, i = .faddV v d a b ∨ i = .fsubV v d a b ∨ i = .fmulV v d a b ∨ i = .ffmaV v d a b) ∨
  (∃ d a b, i = .faddS d a b ∨ i = .fsubS d a b ∨ i = .fmulS d a b ∨ i = .ffmaS d a b ∨ i = .pack4 d a b) ∨
  (∃ v d a k, i = .frndV v d a k) ∨ (∃ d a k, i = .frndS d a k) ∨
  (∃ d a f, i = .cvtfNarrow d a f) ∨ (∃ d a f, i = .cvfi d a f) ∨ ∃ d a f, i = .cvti d a f

end Sys2Proof.Claim

/-- The frame of every scalar, integer, mask and floating-point word: only the registers the word names, and nothing else of the
device. (R59, R60, R61, R62, R66, R99, R101, R105, R116) -/
def Obligations.RegisterWordsChangeOnlyTheirRegisters : Prop :=
∀ (i : Instr) (s : State) (third : RegNum),
    let u := usesOf i third
    let out := (u.writes s.f.regs).map (·.1)
    let r := s.f.regs
    let bare := fun (g : GroupCtx) => { g with rounded := 0 }
    (u.pipe = .sc ∨ u.pipe = .vi ∨ u.pipe = .vf) →
      (∃ e, Faults i s e) ∨
      ∃ t, Goes i s t ∧ t = { s with frags := t.frags } ∧ (∀ n, n ≠ s.cur → t.frag n = s.frag n) ∧
        t.f = { s.f with regs := t.f.regs, gtcmp := t.f.gtcmp, grp := t.f.grp } ∧ t.f.grp.map bare = s.f.grp.map bare ∧ (¬Rounds i → (∀ a b, i ≠ .setnm a b) → t.f.grp = s.f.grp) ∧ t.f.regs.wbV = r.wbV ∧ t.f.regs.wbS = r.wbS ∧
        (∀ e, RegId.v e ∉ out → t.f.regs.v.get VReg.zero e = r.v.get VReg.zero e) ∧
        (∀ e, RegId.s e ∉ out → t.f.regs.s.get SReg.zero e = r.s.get SReg.zero e) ∧
        (∀ k : BitVec 3, RegId.m k.toNat ∉ out → t.f.regs.mask k = r.mask k) ∧
        (u.flags = false → t.f.regs.cflags = r.cflags) ∧
        ((∀ a n, i ≠ .swrite a n) → (∀ a, i ≠ .setfmt a) → (∀ a b, i ≠ .setnm a b) →
          t.f.regs.fmt = r.fmt ∧ t.f.regs.nmode = r.nmode ∧ t.f.regs.nseed = r.nseed ∧ (¬Rounds i → t.f.regs.nstep = r.nstep)) ∧
        (Rounds i → t.f.regs.nstep = r.nstep ∨ t.f.regs.nstep = r.nstep + 1) ∧
        ((∀ a n, i ≠ .swrite a n) → (∀ a, i ≠ .gtset a) → t.f.gtcmp = s.f.gtcmp)
end

