-- ==== Sys2Proof/Laws/Map.lean ====
section
/-! SUPPORT. Laws of sparse maps: reading after writing, keys left alone, and the canonical form, kept by every operation. -/

set_option Elab.async false

namespace Sys2Proof.Machine

theorem KMap.get_ins_same {α : Type} (d : α) (m : KMap α) (k : Nat) (x : α) : (KMap.ins m k x).get d k = x := by
  induction m with
  | nil => simp [KMap.ins, KMap.get]
  | cons e r ih =>
    obtain ⟨k', y⟩ := e
    simp only [KMap.ins]
    split_ifs with h1 h2
    · simp [KMap.get]
    · simp [KMap.get]
    · simp [KMap.get, h2, ih]

theorem KMap.get_ins_other {α : Type} (d : α) (m : KMap α) (k j : Nat) (x : α) (h : j ≠ k) : (KMap.ins m k x).get d j = m.get d j := by
  induction m with
  | nil => simp [KMap.ins, KMap.get, h]
  | cons e r ih =>
    obtain ⟨k', y⟩ := e
    simp only [KMap.ins]
    split_ifs with h1 h2
    · simp [KMap.get, h]
    · subst h2; simp [KMap.get, h]
    · simp only [KMap.get, ih]

/-- Reading a key of a map after it was listed there. -/
theorem KMap.get_ins {α : Type} (d : α) (m : KMap α) (k j : Nat) (x : α) : (KMap.ins m k x).get d j = if j = k then x else m.get d j := by
  split_ifs with h
  · rw [h, KMap.get_ins_same]
  · exact KMap.get_ins_other d m k j x h

theorem KMap.get_del_same {α : Type} (d : α) (m : KMap α) (k : Nat) : (KMap.del m k).get d k = d := by
  induction m with
  | nil => rfl
  | cons e r ih =>
    obtain ⟨k', y⟩ := e
    by_cases h : k' = k
    · simpa [KMap.del, h] using ih
    · simpa [KMap.del, h, KMap.get, Ne.symm h] using ih

theorem KMap.get_del_other {α : Type} (d : α) (m : KMap α) (k j : Nat) (h : j ≠ k) : (KMap.del m k).get d j = m.get d j := by
  induction m with
  | nil => rfl
  | cons e r ih =>
    obtain ⟨k', y⟩ := e
    by_cases h' : k' = k
    · subst h'; simpa [KMap.del, KMap.get, h] using ih
    · have : KMap.del ((k', y) :: r) k = (k', y) :: KMap.del r k := by simp [KMap.del, h']
      rw [this, KMap.get, KMap.get, ih]

/-- Reading a key after a value was put: the value, or what was there. -/
theorem KMap.get_put {α : Type} [DecidableEq α] (d : α) (m : KMap α) (k j : Nat) (x : α) :
    (KMap.put d m k x).get d j = if j = k then x else m.get d j := by
  unfold KMap.put
  split_ifs with h1 h2 h2
  · rw [h2, h1, KMap.get_del_same]
  · exact KMap.get_del_other d m k j h2
  · rw [h2, KMap.get_ins_same]
  · exact KMap.get_ins_other d m k j x h2

/-- Every key of a map lies above `n`. -/
def KMap.above {α : Type} (n : Nat) (m : KMap α) : Bool := m.all fun e => decide (n < e.1)

theorem KMap.wf_cons {α : Type} [DecidableEq α] (d : α) (k : Nat) (x : α) (r : KMap α) :
    KMap.wf d ((k, x) :: r) = true ↔ x ≠ d ∧ KMap.above k r = true ∧ KMap.wf d r = true := by
  simp [KMap.wf, KMap.above, and_assoc]

theorem KMap.above_ins {α : Type} (n k : Nat) (x : α) (m : KMap α) (h : KMap.above n m = true) (hk : n < k) :
    KMap.above n (KMap.ins m k x) = true := by
  induction m with
  | nil => simp [KMap.ins, KMap.above, hk]
  | cons e r ih =>
    obtain ⟨k', y⟩ := e
    simp only [KMap.above, List.all_cons, Bool.and_eq_true, decide_eq_true_eq] at h ih
    simp only [KMap.ins]
    split_ifs with h1 h2
    · simpa [KMap.above, hk, h.1] using h.2
    · simpa [KMap.above, hk] using h.2
    · simpa [KMap.above, h.1] using ih h.2

theorem KMap.above_mono {α : Type} (n k : Nat) (m : KMap α) (h : KMap.above k m = true) (hk : n ≤ k) : KMap.above n m = true := by
  simp only [KMap.above, List.all_eq_true, decide_eq_true_eq] at *
  exact fun e he => lt_of_le_of_lt hk (h e he)

/-- Listing a value other than the default keeps the canonical form. -/
theorem KMap.wf_ins {α : Type} [DecidableEq α] (d : α) (m : KMap α) (k : Nat) (x : α) (h : KMap.wf d m = true) (hx : x ≠ d) :
    KMap.wf d (KMap.ins m k x) = true := by
  induction m with
  | nil => simp [KMap.ins, KMap.wf, hx]
  | cons e r ih =>
    obtain ⟨k', y⟩ := e
    have h' := (KMap.wf_cons d k' y r).1 h
    simp only [KMap.ins]
    split_ifs with h1 h2
    · refine (KMap.wf_cons d k x _).2 ⟨hx, ?_, h⟩
      simpa [KMap.above, h1] using KMap.above_mono k k' r h'.2.1 (le_of_lt h1)
    · exact (KMap.wf_cons d k x r).2 ⟨hx, h2 ▸ h'.2.1, h'.2.2⟩
    · exact (KMap.wf_cons d k' y _).2 ⟨h'.1, KMap.above_ins k' k x r h'.2.1 (by omega), ih h'.2.2⟩

/-- Removing entries keeps the canonical form. -/
theorem KMap.wf_filter {α : Type} [DecidableEq α] (d : α) (m : KMap α) (p : Nat × α → Bool) (h : KMap.wf d m = true) :
    KMap.wf d (m.filter p) = true := by
  induction m with
  | nil => rfl
  | cons e r ih =>
    obtain ⟨k', y⟩ := e
    have h' := (KMap.wf_cons d k' y r).1 h
    rw [List.filter_cons]
    split_ifs with hp
    · refine (KMap.wf_cons d k' y _).2 ⟨h'.1, ?_, ih h'.2.2⟩
      have ha := h'.2.1
      simp only [KMap.above, List.all_eq_true, decide_eq_true_eq] at *
      exact fun e he => ha e (List.mem_filter.1 he).1
    · exact ih h'.2.2

theorem KMap.wf_del {α : Type} [DecidableEq α] (d : α) (m : KMap α) (k : Nat) (h : KMap.wf d m = true) : KMap.wf d (KMap.del m k) = true :=
  KMap.wf_filter d m _ h

/-- Every write keeps the canonical form. -/
theorem KMap.wf_put {α : Type} [DecidableEq α] (d : α) (m : KMap α) (k : Nat) (x : α) (h : KMap.wf d m = true) :
    KMap.wf d (KMap.put d m k x) = true := by
  unfold KMap.put
  split_ifs with hx
  · exact KMap.wf_del d m k h
  · exact KMap.wf_ins d m k x h hx

/-- Maps in canonical form that read the same everywhere are the same data. -/
theorem KMap.above_get {α : Type} (d : α) (n : Nat) (m : KMap α) (h : KMap.above n m = true) : m.get d n = d := by
  induction m with
  | nil => rfl
  | cons e r ih =>
    obtain ⟨k', y⟩ := e
    simp only [KMap.above, List.all_cons, Bool.and_eq_true, decide_eq_true_eq] at h ih
    have : n ≠ k' := by omega
    simpa [KMap.get, this] using ih h.2

/-- Writing cells keeps the canonical form of a memory. -/
theorem putCells_wf (m : KMap Byte) (cells : List (Nat × Byte)) (h : KMap.wf 0x00#8 m = true) : KMap.wf 0x00#8 (putCells m cells) = true := by
  unfold putCells
  induction cells generalizing m with
  | nil => exact h
  | cons c r ih => exact ih _ (KMap.wf_put _ _ _ _ h)

/-- Listing or clearing values one after another keeps the canonical form. -/
theorem foldl_put_wf {α β : Type} [DecidableEq α] (d : α) (key : β → Nat) (val : β → α) (cells : List β) (m : KMap α) (h : KMap.wf d m = true) :
    KMap.wf d (cells.foldl (fun (m : KMap α) c => KMap.put d m (key c) (val c)) m) = true := by
  induction cells generalizing m with
  | nil => exact h
  | cons c r ih => exact ih _ (KMap.wf_put _ _ _ _ h)

/-- A byte that no cell names reads as before. -/
theorem putCells_other (m : KMap Byte) (cells : List (Nat × Byte)) (a : Nat) (h : ∀ c ∈ cells, c.1 ≠ a) :
    (putCells m cells).get 0x00#8 a = m.get 0x00#8 a := by
  unfold putCells
  induction cells generalizing m with
  | nil => rfl
  | cons c r ih =>
    rw [List.foldl_cons, ih _ fun c' hc' => h c' (List.mem_cons_of_mem _ hc'), KMap.get_put]
    simp [(h c (List.mem_cons_self ..)).symm]

/-- A byte whose last cell is the last of a list reads as that cell says. -/
theorem putCells_last (m : KMap Byte) (cells : List (Nat × Byte)) (a : Nat) (x : Byte) :
    (putCells m (cells ++ [(a, x)])).get 0x00#8 a = x := by
  simp [putCells, List.foldl_append, KMap.get_put]

end Sys2Proof.Machine
end

