-- ==== Sys2Proof/Laws/State.lean ====
section
/-! SUPPORT. Each field of the state after each update of a part of it, true by definition. -/

namespace Sys2Proof.Machine

/-! State.setFrag -/

section
variable (s : State) (n : Nat) (f : Frag)
@[simp] theorem State.setFrag_frags : (s.setFrag n f).frags = KMap.ins s.frags n f := rfl
@[simp] theorem State.setFrag_cur : (s.setFrag n f).cur = s.cur := rfl
@[simp] theorem State.setFrag_groups : (s.setFrag n f).groups = s.groups := rfl
@[simp] theorem State.setFrag_teams : (s.setFrag n f).teams = s.teams := rfl
@[simp] theorem State.setFrag_grids : (s.setFrag n f).grids = s.grids := rfl
@[simp] theorem State.setFrag_cmds : (s.setFrag n f).cmds = s.cmds := rfl
@[simp] theorem State.setFrag_cores : (s.setFrag n f).cores = s.cores := rfl
@[simp] theorem State.setFrag_homes : (s.setFrag n f).homes = s.homes := rfl
@[simp] theorem State.setFrag_xars : (s.setFrag n f).xars = s.xars := rfl
@[simp] theorem State.setFrag_tambs : (s.setFrag n f).tambs = s.tambs := rfl
@[simp] theorem State.setFrag_banks : (s.setFrag n f).banks = s.banks := rfl
@[simp] theorem State.setFrag_chans : (s.setFrag n f).chans = s.chans := rfl
@[simp] theorem State.setFrag_mem : (s.setFrag n f).mem = s.mem := rfl
@[simp] theorem State.setFrag_memKeys : (s.setFrag n f).memKeys = s.memKeys := rfl
@[simp] theorem State.setFrag_memErr : (s.setFrag n f).memErr = s.memErr := rfl
@[simp] theorem State.setFrag_sramErr : (s.setFrag n f).sramErr = s.sramErr := rfl
@[simp] theorem State.setFrag_scratch : (s.setFrag n f).scratch = s.scratch := rfl
@[simp] theorem State.setFrag_vault : (s.setFrag n f).vault = s.vault := rfl
@[simp] theorem State.setFrag_opmem : (s.setFrag n f).opmem = s.opmem := rfl
@[simp] theorem State.setFrag_net : (s.setFrag n f).net = s.net := rfl
@[simp] theorem State.setFrag_remote : (s.setFrag n f).remote = s.remote := rfl
@[simp] theorem State.setFrag_answers : (s.setFrag n f).answers = s.answers := rfl
@[simp] theorem State.setFrag_chanWaits : (s.setFrag n f).chanWaits = s.chanWaits := rfl
@[simp] theorem State.setFrag_parts : (s.setFrag n f).parts = s.parts := rfl
@[simp] theorem State.setFrag_shadows : (s.setFrag n f).shadows = s.shadows := rfl
@[simp] theorem State.setFrag_lqs : (s.setFrag n f).lqs = s.lqs := rfl
@[simp] theorem State.setFrag_asTab : (s.setFrag n f).asTab = s.asTab := rfl
@[simp] theorem State.setFrag_leases : (s.setFrag n f).leases = s.leases := rfl
@[simp] theorem State.setFrag_keyTab : (s.setFrag n f).keyTab = s.keyTab := rfl
@[simp] theorem State.setFrag_keySlots : (s.setFrag n f).keySlots = s.keySlots := rfl
@[simp] theorem State.setFrag_segs : (s.setFrag n f).segs = s.segs := rfl
@[simp] theorem State.setFrag_ports : (s.setFrag n f).ports = s.ports := rfl
@[simp] theorem State.setFrag_fuse : (s.setFrag n f).fuse = s.fuse := rfl
@[simp] theorem State.setFrag_code : (s.setFrag n f).code = s.code := rfl
@[simp] theorem State.setFrag_fabric : (s.setFrag n f).fabric = s.fabric := rfl
@[simp] theorem State.setFrag_window : (s.setFrag n f).window = s.window := rfl
@[simp] theorem State.setFrag_shares : (s.setFrag n f).shares = s.shares := rfl
@[simp] theorem State.setFrag_thermal : (s.setFrag n f).thermal = s.thermal := rfl
@[simp] theorem State.setFrag_mbCmd : (s.setFrag n f).mbCmd = s.mbCmd := rfl
@[simp] theorem State.setFrag_mbAddr : (s.setFrag n f).mbAddr = s.mbAddr := rfl
@[simp] theorem State.setFrag_mbStat : (s.setFrag n f).mbStat = s.mbStat := rfl
@[simp] theorem State.setFrag_mbRefused : (s.setFrag n f).mbRefused = s.mbRefused := rfl
@[simp] theorem State.setFrag_resyncs : (s.setFrag n f).resyncs = s.resyncs := rfl
@[simp] theorem State.setFrag_image : (s.setFrag n f).image = s.image := rfl
@[simp] theorem State.setFrag_stage : (s.setFrag n f).stage = s.stage := rfl
@[simp] theorem State.setFrag_secVersion : (s.setFrag n f).secVersion = s.secVersion := rfl
@[simp] theorem State.setFrag_keyHash : (s.setFrag n f).keyHash = s.keyHash := rfl
@[simp] theorem State.setFrag_rollback : (s.setFrag n f).rollback = s.rollback := rfl
@[simp] theorem State.setFrag_hostOut : (s.setFrag n f).hostOut = s.hostOut := rfl
@[simp] theorem State.setFrag_awayWatches : (s.setFrag n f).awayWatches = s.awayWatches := rfl
@[simp] theorem State.setFrag_fabIn : (s.setFrag n f).fabIn = s.fabIn := rfl
@[simp] theorem State.setFrag_fabOut : (s.setFrag n f).fabOut = s.fabOut := rfl
@[simp] theorem State.setFrag_credNo : (s.setFrag n f).credNo = s.credNo := rfl
@[simp] theorem State.setFrag_credOff : (s.setFrag n f).credOff = s.credOff := rfl
@[simp] theorem State.setFrag_heldFlags : (s.setFrag n f).heldFlags = s.heldFlags := rfl
@[simp] theorem State.setFrag_doneRecs : (s.setFrag n f).doneRecs = s.doneRecs := rfl
@[simp] theorem State.setFrag_clock : (s.setFrag n f).clock = s.clock := rfl
@[simp] theorem State.setFrag_agenda : (s.setFrag n f).agenda = s.agenda := rfl
@[simp] theorem State.setFrag_pace : (s.setFrag n f).pace = s.pace := rfl
@[simp] theorem State.setFrag_free : (s.setFrag n f).free = s.free := rfl
@[simp] theorem State.setFrag_nextId : (s.setFrag n f).nextId = s.nextId := rfl
@[simp] theorem State.setFrag_records : (s.setFrag n f).records = s.records := rfl
end

/-! State.setGroup -/

section
variable (s : State) (n : Nat) (g : Group)
@[simp] theorem State.setGroup_frags : (s.setGroup n g).frags = s.frags := rfl
@[simp] theorem State.setGroup_cur : (s.setGroup n g).cur = s.cur := rfl
@[simp] theorem State.setGroup_groups : (s.setGroup n g).groups = KMap.ins s.groups n g := rfl
@[simp] theorem State.setGroup_teams : (s.setGroup n g).teams = s.teams := rfl
@[simp] theorem State.setGroup_grids : (s.setGroup n g).grids = s.grids := rfl
@[simp] theorem State.setGroup_cmds : (s.setGroup n g).cmds = s.cmds := rfl
@[simp] theorem State.setGroup_cores : (s.setGroup n g).cores = s.cores := rfl
@[simp] theorem State.setGroup_homes : (s.setGroup n g).homes = s.homes := rfl
@[simp] theorem State.setGroup_xars : (s.setGroup n g).xars = s.xars := rfl
@[simp] theorem State.setGroup_tambs : (s.setGroup n g).tambs = s.tambs := rfl
@[simp] theorem State.setGroup_banks : (s.setGroup n g).banks = s.banks := rfl
@[simp] theorem State.setGroup_chans : (s.setGroup n g).chans = s.chans := rfl
@[simp] theorem State.setGroup_mem : (s.setGroup n g).mem = s.mem := rfl
@[simp] theorem State.setGroup_memKeys : (s.setGroup n g).memKeys = s.memKeys := rfl
@[simp] theorem State.setGroup_memErr : (s.setGroup n g).memErr = s.memErr := rfl
@[simp] theorem State.setGroup_sramErr : (s.setGroup n g).sramErr = s.sramErr := rfl
@[simp] theorem State.setGroup_scratch : (s.setGroup n g).scratch = s.scratch := rfl
@[simp] theorem State.setGroup_vault : (s.setGroup n g).vault = s.vault := rfl
@[simp] theorem State.setGroup_opmem : (s.setGroup n g).opmem = s.opmem := rfl
@[simp] theorem State.setGroup_net : (s.setGroup n g).net = s.net := rfl
@[simp] theorem State.setGroup_remote : (s.setGroup n g).remote = s.remote := rfl
@[simp] theorem State.setGroup_answers : (s.setGroup n g).answers = s.answers := rfl
@[simp] theorem State.setGroup_chanWaits : (s.setGroup n g).chanWaits = s.chanWaits := rfl
@[simp] theorem State.setGroup_parts : (s.setGroup n g).parts = s.parts := rfl
@[simp] theorem State.setGroup_shadows : (s.setGroup n g).shadows = s.shadows := rfl
@[simp] theorem State.setGroup_lqs : (s.setGroup n g).lqs = s.lqs := rfl
@[simp] theorem State.setGroup_asTab : (s.setGroup n g).asTab = s.asTab := rfl
@[simp] theorem State.setGroup_leases : (s.setGroup n g).leases = s.leases := rfl
@[simp] theorem State.setGroup_keyTab : (s.setGroup n g).keyTab = s.keyTab := rfl
@[simp] theorem State.setGroup_keySlots : (s.setGroup n g).keySlots = s.keySlots := rfl
@[simp] theorem State.setGroup_segs : (s.setGroup n g).segs = s.segs := rfl
@[simp] theorem State.setGroup_ports : (s.setGroup n g).ports = s.ports := rfl
@[simp] theorem State.setGroup_fuse : (s.setGroup n g).fuse = s.fuse := rfl
@[simp] theorem State.setGroup_code : (s.setGroup n g).code = s.code := rfl
@[simp] theorem State.setGroup_fabric : (s.setGroup n g).fabric = s.fabric := rfl
@[simp] theorem State.setGroup_window : (s.setGroup n g).window = s.window := rfl
@[simp] theorem State.setGroup_shares : (s.setGroup n g).shares = s.shares := rfl
@[simp] theorem State.setGroup_thermal : (s.setGroup n g).thermal = s.thermal := rfl
@[simp] theorem State.setGroup_mbCmd : (s.setGroup n g).mbCmd = s.mbCmd := rfl
@[simp] theorem State.setGroup_mbAddr : (s.setGroup n g).mbAddr = s.mbAddr := rfl
@[simp] theorem State.setGroup_mbStat : (s.setGroup n g).mbStat = s.mbStat := rfl
@[simp] theorem State.setGroup_mbRefused : (s.setGroup n g).mbRefused = s.mbRefused := rfl
@[simp] theorem State.setGroup_resyncs : (s.setGroup n g).resyncs = s.resyncs := rfl
@[simp] theorem State.setGroup_image : (s.setGroup n g).image = s.image := rfl
@[simp] theorem State.setGroup_stage : (s.setGroup n g).stage = s.stage := rfl
@[simp] theorem State.setGroup_secVersion : (s.setGroup n g).secVersion = s.secVersion := rfl
@[simp] theorem State.setGroup_keyHash : (s.setGroup n g).keyHash = s.keyHash := rfl
@[simp] theorem State.setGroup_rollback : (s.setGroup n g).rollback = s.rollback := rfl
@[simp] theorem State.setGroup_hostOut : (s.setGroup n g).hostOut = s.hostOut := rfl
@[simp] theorem State.setGroup_awayWatches : (s.setGroup n g).awayWatches = s.awayWatches := rfl
@[simp] theorem State.setGroup_fabIn : (s.setGroup n g).fabIn = s.fabIn := rfl
@[simp] theorem State.setGroup_fabOut : (s.setGroup n g).fabOut = s.fabOut := rfl
@[simp] theorem State.setGroup_credNo : (s.setGroup n g).credNo = s.credNo := rfl
@[simp] theorem State.setGroup_credOff : (s.setGroup n g).credOff = s.credOff := rfl
@[simp] theorem State.setGroup_heldFlags : (s.setGroup n g).heldFlags = s.heldFlags := rfl
@[simp] theorem State.setGroup_doneRecs : (s.setGroup n g).doneRecs = s.doneRecs := rfl
@[simp] theorem State.setGroup_clock : (s.setGroup n g).clock = s.clock := rfl
@[simp] theorem State.setGroup_agenda : (s.setGroup n g).agenda = s.agenda := rfl
@[simp] theorem State.setGroup_pace : (s.setGroup n g).pace = s.pace := rfl
@[simp] theorem State.setGroup_free : (s.setGroup n g).free = s.free := rfl
@[simp] theorem State.setGroup_nextId : (s.setGroup n g).nextId = s.nextId := rfl
@[simp] theorem State.setGroup_records : (s.setGroup n g).records = s.records := rfl
end

/-! State.setTeam -/

section
variable (s : State) (n : Nat) (t : Team)
@[simp] theorem State.setTeam_frags : (s.setTeam n t).frags = s.frags := rfl
@[simp] theorem State.setTeam_cur : (s.setTeam n t).cur = s.cur := rfl
@[simp] theorem State.setTeam_groups : (s.setTeam n t).groups = s.groups := rfl
@[simp] theorem State.setTeam_teams : (s.setTeam n t).teams = KMap.ins s.teams n t := rfl
@[simp] theorem State.setTeam_grids : (s.setTeam n t).grids = s.grids := rfl
@[simp] theorem State.setTeam_cmds : (s.setTeam n t).cmds = s.cmds := rfl
@[simp] theorem State.setTeam_cores : (s.setTeam n t).cores = s.cores := rfl
@[simp] theorem State.setTeam_homes : (s.setTeam n t).homes = s.homes := rfl
@[simp] theorem State.setTeam_xars : (s.setTeam n t).xars = s.xars := rfl
@[simp] theorem State.setTeam_tambs : (s.setTeam n t).tambs = s.tambs := rfl
@[simp] theorem State.setTeam_banks : (s.setTeam n t).banks = s.banks := rfl
@[simp] theorem State.setTeam_chans : (s.setTeam n t).chans = s.chans := rfl
@[simp] theorem State.setTeam_mem : (s.setTeam n t).mem = s.mem := rfl
@[simp] theorem State.setTeam_memKeys : (s.setTeam n t).memKeys = s.memKeys := rfl
@[simp] theorem State.setTeam_memErr : (s.setTeam n t).memErr = s.memErr := rfl
@[simp] theorem State.setTeam_sramErr : (s.setTeam n t).sramErr = s.sramErr := rfl
@[simp] theorem State.setTeam_scratch : (s.setTeam n t).scratch = s.scratch := rfl
@[simp] theorem State.setTeam_vault : (s.setTeam n t).vault = s.vault := rfl
@[simp] theorem State.setTeam_opmem : (s.setTeam n t).opmem = s.opmem := rfl
@[simp] theorem State.setTeam_net : (s.setTeam n t).net = s.net := rfl
@[simp] theorem State.setTeam_remote : (s.setTeam n t).remote = s.remote := rfl
@[simp] theorem State.setTeam_answers : (s.setTeam n t).answers = s.answers := rfl
@[simp] theorem State.setTeam_chanWaits : (s.setTeam n t).chanWaits = s.chanWaits := rfl
@[simp] theorem State.setTeam_parts : (s.setTeam n t).parts = s.parts := rfl
@[simp] theorem State.setTeam_shadows : (s.setTeam n t).shadows = s.shadows := rfl
@[simp] theorem State.setTeam_lqs : (s.setTeam n t).lqs = s.lqs := rfl
@[simp] theorem State.setTeam_asTab : (s.setTeam n t).asTab = s.asTab := rfl
@[simp] theorem State.setTeam_leases : (s.setTeam n t).leases = s.leases := rfl
@[simp] theorem State.setTeam_keyTab : (s.setTeam n t).keyTab = s.keyTab := rfl
@[simp] theorem State.setTeam_keySlots : (s.setTeam n t).keySlots = s.keySlots := rfl
@[simp] theorem State.setTeam_segs : (s.setTeam n t).segs = s.segs := rfl
@[simp] theorem State.setTeam_ports : (s.setTeam n t).ports = s.ports := rfl
@[simp] theorem State.setTeam_fuse : (s.setTeam n t).fuse = s.fuse := rfl
@[simp] theorem State.setTeam_code : (s.setTeam n t).code = s.code := rfl
@[simp] theorem State.setTeam_fabric : (s.setTeam n t).fabric = s.fabric := rfl
@[simp] theorem State.setTeam_window : (s.setTeam n t).window = s.window := rfl
@[simp] theorem State.setTeam_shares : (s.setTeam n t).shares = s.shares := rfl
@[simp] theorem State.setTeam_thermal : (s.setTeam n t).thermal = s.thermal := rfl
@[simp] theorem State.setTeam_mbCmd : (s.setTeam n t).mbCmd = s.mbCmd := rfl
@[simp] theorem State.setTeam_mbAddr : (s.setTeam n t).mbAddr = s.mbAddr := rfl
@[simp] theorem State.setTeam_mbStat : (s.setTeam n t).mbStat = s.mbStat := rfl
@[simp] theorem State.setTeam_mbRefused : (s.setTeam n t).mbRefused = s.mbRefused := rfl
@[simp] theorem State.setTeam_resyncs : (s.setTeam n t).resyncs = s.resyncs := rfl
@[simp] theorem State.setTeam_image : (s.setTeam n t).image = s.image := rfl
@[simp] theorem State.setTeam_stage : (s.setTeam n t).stage = s.stage := rfl
@[simp] theorem State.setTeam_secVersion : (s.setTeam n t).secVersion = s.secVersion := rfl
@[simp] theorem State.setTeam_keyHash : (s.setTeam n t).keyHash = s.keyHash := rfl
@[simp] theorem State.setTeam_rollback : (s.setTeam n t).rollback = s.rollback := rfl
@[simp] theorem State.setTeam_hostOut : (s.setTeam n t).hostOut = s.hostOut := rfl
@[simp] theorem State.setTeam_awayWatches : (s.setTeam n t).awayWatches = s.awayWatches := rfl
@[simp] theorem State.setTeam_fabIn : (s.setTeam n t).fabIn = s.fabIn := rfl
@[simp] theorem State.setTeam_fabOut : (s.setTeam n t).fabOut = s.fabOut := rfl
@[simp] theorem State.setTeam_credNo : (s.setTeam n t).credNo = s.credNo := rfl
@[simp] theorem State.setTeam_credOff : (s.setTeam n t).credOff = s.credOff := rfl
@[simp] theorem State.setTeam_heldFlags : (s.setTeam n t).heldFlags = s.heldFlags := rfl
@[simp] theorem State.setTeam_doneRecs : (s.setTeam n t).doneRecs = s.doneRecs := rfl
@[simp] theorem State.setTeam_clock : (s.setTeam n t).clock = s.clock := rfl
@[simp] theorem State.setTeam_agenda : (s.setTeam n t).agenda = s.agenda := rfl
@[simp] theorem State.setTeam_pace : (s.setTeam n t).pace = s.pace := rfl
@[simp] theorem State.setTeam_free : (s.setTeam n t).free = s.free := rfl
@[simp] theorem State.setTeam_nextId : (s.setTeam n t).nextId = s.nextId := rfl
@[simp] theorem State.setTeam_records : (s.setTeam n t).records = s.records := rfl
end

/-! State.setGrid -/

section
variable (s : State) (n : Nat) (g : Grid)
@[simp] theorem State.setGrid_frags : (s.setGrid n g).frags = s.frags := rfl
@[simp] theorem State.setGrid_cur : (s.setGrid n g).cur = s.cur := rfl
@[simp] theorem State.setGrid_groups : (s.setGrid n g).groups = s.groups := rfl
@[simp] theorem State.setGrid_teams : (s.setGrid n g).teams = s.teams := rfl
@[simp] theorem State.setGrid_grids : (s.setGrid n g).grids = KMap.ins s.grids n g := rfl
@[simp] theorem State.setGrid_cmds : (s.setGrid n g).cmds = s.cmds := rfl
@[simp] theorem State.setGrid_cores : (s.setGrid n g).cores = s.cores := rfl
@[simp] theorem State.setGrid_homes : (s.setGrid n g).homes = s.homes := rfl
@[simp] theorem State.setGrid_xars : (s.setGrid n g).xars = s.xars := rfl
@[simp] theorem State.setGrid_tambs : (s.setGrid n g).tambs = s.tambs := rfl
@[simp] theorem State.setGrid_banks : (s.setGrid n g).banks = s.banks := rfl
@[simp] theorem State.setGrid_chans : (s.setGrid n g).chans = s.chans := rfl
@[simp] theorem State.setGrid_mem : (s.setGrid n g).mem = s.mem := rfl
@[simp] theorem State.setGrid_memKeys : (s.setGrid n g).memKeys = s.memKeys := rfl
@[simp] theorem State.setGrid_memErr : (s.setGrid n g).memErr = s.memErr := rfl
@[simp] theorem State.setGrid_sramErr : (s.setGrid n g).sramErr = s.sramErr := rfl
@[simp] theorem State.setGrid_scratch : (s.setGrid n g).scratch = s.scratch := rfl
@[simp] theorem State.setGrid_vault : (s.setGrid n g).vault = s.vault := rfl
@[simp] theorem State.setGrid_opmem : (s.setGrid n g).opmem = s.opmem := rfl
@[simp] theorem State.setGrid_net : (s.setGrid n g).net = s.net := rfl
@[simp] theorem State.setGrid_remote : (s.setGrid n g).remote = s.remote := rfl
@[simp] theorem State.setGrid_answers : (s.setGrid n g).answers = s.answers := rfl
@[simp] theorem State.setGrid_chanWaits : (s.setGrid n g).chanWaits = s.chanWaits := rfl
@[simp] theorem State.setGrid_parts : (s.setGrid n g).parts = s.parts := rfl
@[simp] theorem State.setGrid_shadows : (s.setGrid n g).shadows = s.shadows := rfl
@[simp] theorem State.setGrid_lqs : (s.setGrid n g).lqs = s.lqs := rfl
@[simp] theorem State.setGrid_asTab : (s.setGrid n g).asTab = s.asTab := rfl
@[simp] theorem State.setGrid_leases : (s.setGrid n g).leases = s.leases := rfl
@[simp] theorem State.setGrid_keyTab : (s.setGrid n g).keyTab = s.keyTab := rfl
@[simp] theorem State.setGrid_keySlots : (s.setGrid n g).keySlots = s.keySlots := rfl
@[simp] theorem State.setGrid_segs : (s.setGrid n g).segs = s.segs := rfl
@[simp] theorem State.setGrid_ports : (s.setGrid n g).ports = s.ports := rfl
@[simp] theorem State.setGrid_fuse : (s.setGrid n g).fuse = s.fuse := rfl
@[simp] theorem State.setGrid_code : (s.setGrid n g).code = s.code := rfl
@[simp] theorem State.setGrid_fabric : (s.setGrid n g).fabric = s.fabric := rfl
@[simp] theorem State.setGrid_window : (s.setGrid n g).window = s.window := rfl
@[simp] theorem State.setGrid_shares : (s.setGrid n g).shares = s.shares := rfl
@[simp] theorem State.setGrid_thermal : (s.setGrid n g).thermal = s.thermal := rfl
@[simp] theorem State.setGrid_mbCmd : (s.setGrid n g).mbCmd = s.mbCmd := rfl
@[simp] theorem State.setGrid_mbAddr : (s.setGrid n g).mbAddr = s.mbAddr := rfl
@[simp] theorem State.setGrid_mbStat : (s.setGrid n g).mbStat = s.mbStat := rfl
@[simp] theorem State.setGrid_mbRefused : (s.setGrid n g).mbRefused = s.mbRefused := rfl
@[simp] theorem State.setGrid_resyncs : (s.setGrid n g).resyncs = s.resyncs := rfl
@[simp] theorem State.setGrid_image : (s.setGrid n g).image = s.image := rfl
@[simp] theorem State.setGrid_stage : (s.setGrid n g).stage = s.stage := rfl
@[simp] theorem State.setGrid_secVersion : (s.setGrid n g).secVersion = s.secVersion := rfl
@[simp] theorem State.setGrid_keyHash : (s.setGrid n g).keyHash = s.keyHash := rfl
@[simp] theorem State.setGrid_rollback : (s.setGrid n g).rollback = s.rollback := rfl
@[simp] theorem State.setGrid_hostOut : (s.setGrid n g).hostOut = s.hostOut := rfl
@[simp] theorem State.setGrid_awayWatches : (s.setGrid n g).awayWatches = s.awayWatches := rfl
@[simp] theorem State.setGrid_fabIn : (s.setGrid n g).fabIn = s.fabIn := rfl
@[simp] theorem State.setGrid_fabOut : (s.setGrid n g).fabOut = s.fabOut := rfl
@[simp] theorem State.setGrid_credNo : (s.setGrid n g).credNo = s.credNo := rfl
@[simp] theorem State.setGrid_credOff : (s.setGrid n g).credOff = s.credOff := rfl
@[simp] theorem State.setGrid_heldFlags : (s.setGrid n g).heldFlags = s.heldFlags := rfl
@[simp] theorem State.setGrid_doneRecs : (s.setGrid n g).doneRecs = s.doneRecs := rfl
@[simp] theorem State.setGrid_clock : (s.setGrid n g).clock = s.clock := rfl
@[simp] theorem State.setGrid_agenda : (s.setGrid n g).agenda = s.agenda := rfl
@[simp] theorem State.setGrid_pace : (s.setGrid n g).pace = s.pace := rfl
@[simp] theorem State.setGrid_free : (s.setGrid n g).free = s.free := rfl
@[simp] theorem State.setGrid_nextId : (s.setGrid n g).nextId = s.nextId := rfl
@[simp] theorem State.setGrid_records : (s.setGrid n g).records = s.records := rfl
end

/-! State.setCmd -/

section
variable (s : State) (n : Nat) (c : Cmd)
@[simp] theorem State.setCmd_frags : (s.setCmd n c).frags = s.frags := rfl
@[simp] theorem State.setCmd_cur : (s.setCmd n c).cur = s.cur := rfl
@[simp] theorem State.setCmd_groups : (s.setCmd n c).groups = s.groups := rfl
@[simp] theorem State.setCmd_teams : (s.setCmd n c).teams = s.teams := rfl
@[simp] theorem State.setCmd_grids : (s.setCmd n c).grids = s.grids := rfl
@[simp] theorem State.setCmd_cmds : (s.setCmd n c).cmds = KMap.ins s.cmds n c := rfl
@[simp] theorem State.setCmd_cores : (s.setCmd n c).cores = s.cores := rfl
@[simp] theorem State.setCmd_homes : (s.setCmd n c).homes = s.homes := rfl
@[simp] theorem State.setCmd_xars : (s.setCmd n c).xars = s.xars := rfl
@[simp] theorem State.setCmd_tambs : (s.setCmd n c).tambs = s.tambs := rfl
@[simp] theorem State.setCmd_banks : (s.setCmd n c).banks = s.banks := rfl
@[simp] theorem State.setCmd_chans : (s.setCmd n c).chans = s.chans := rfl
@[simp] theorem State.setCmd_mem : (s.setCmd n c).mem = s.mem := rfl
@[simp] theorem State.setCmd_memKeys : (s.setCmd n c).memKeys = s.memKeys := rfl
@[simp] theorem State.setCmd_memErr : (s.setCmd n c).memErr = s.memErr := rfl
@[simp] theorem State.setCmd_sramErr : (s.setCmd n c).sramErr = s.sramErr := rfl
@[simp] theorem State.setCmd_scratch : (s.setCmd n c).scratch = s.scratch := rfl
@[simp] theorem State.setCmd_vault : (s.setCmd n c).vault = s.vault := rfl
@[simp] theorem State.setCmd_opmem : (s.setCmd n c).opmem = s.opmem := rfl
@[simp] theorem State.setCmd_net : (s.setCmd n c).net = s.net := rfl
@[simp] theorem State.setCmd_remote : (s.setCmd n c).remote = s.remote := rfl
@[simp] theorem State.setCmd_answers : (s.setCmd n c).answers = s.answers := rfl
@[simp] theorem State.setCmd_chanWaits : (s.setCmd n c).chanWaits = s.chanWaits := rfl
@[simp] theorem State.setCmd_parts : (s.setCmd n c).parts = s.parts := rfl
@[simp] theorem State.setCmd_shadows : (s.setCmd n c).shadows = s.shadows := rfl
@[simp] theorem State.setCmd_lqs : (s.setCmd n c).lqs = s.lqs := rfl
@[simp] theorem State.setCmd_asTab : (s.setCmd n c).asTab = s.asTab := rfl
@[simp] theorem State.setCmd_leases : (s.setCmd n c).leases = s.leases := rfl
@[simp] theorem State.setCmd_keyTab : (s.setCmd n c).keyTab = s.keyTab := rfl
@[simp] theorem State.setCmd_keySlots : (s.setCmd n c).keySlots = s.keySlots := rfl
@[simp] theorem State.setCmd_segs : (s.setCmd n c).segs = s.segs := rfl
@[simp] theorem State.setCmd_ports : (s.setCmd n c).ports = s.ports := rfl
@[simp] theorem State.setCmd_fuse : (s.setCmd n c).fuse = s.fuse := rfl
@[simp] theorem State.setCmd_code : (s.setCmd n c).code = s.code := rfl
@[simp] theorem State.setCmd_fabric : (s.setCmd n c).fabric = s.fabric := rfl
@[simp] theorem State.setCmd_window : (s.setCmd n c).window = s.window := rfl
@[simp] theorem State.setCmd_shares : (s.setCmd n c).shares = s.shares := rfl
@[simp] theorem State.setCmd_thermal : (s.setCmd n c).thermal = s.thermal := rfl
@[simp] theorem State.setCmd_mbCmd : (s.setCmd n c).mbCmd = s.mbCmd := rfl
@[simp] theorem State.setCmd_mbAddr : (s.setCmd n c).mbAddr = s.mbAddr := rfl
@[simp] theorem State.setCmd_mbStat : (s.setCmd n c).mbStat = s.mbStat := rfl
@[simp] theorem State.setCmd_mbRefused : (s.setCmd n c).mbRefused = s.mbRefused := rfl
@[simp] theorem State.setCmd_resyncs : (s.setCmd n c).resyncs = s.resyncs := rfl
@[simp] theorem State.setCmd_image : (s.setCmd n c).image = s.image := rfl
@[simp] theorem State.setCmd_stage : (s.setCmd n c).stage = s.stage := rfl
@[simp] theorem State.setCmd_secVersion : (s.setCmd n c).secVersion = s.secVersion := rfl
@[simp] theorem State.setCmd_keyHash : (s.setCmd n c).keyHash = s.keyHash := rfl
@[simp] theorem State.setCmd_rollback : (s.setCmd n c).rollback = s.rollback := rfl
@[simp] theorem State.setCmd_hostOut : (s.setCmd n c).hostOut = s.hostOut := rfl
@[simp] theorem State.setCmd_awayWatches : (s.setCmd n c).awayWatches = s.awayWatches := rfl
@[simp] theorem State.setCmd_fabIn : (s.setCmd n c).fabIn = s.fabIn := rfl
@[simp] theorem State.setCmd_fabOut : (s.setCmd n c).fabOut = s.fabOut := rfl
@[simp] theorem State.setCmd_credNo : (s.setCmd n c).credNo = s.credNo := rfl
@[simp] theorem State.setCmd_credOff : (s.setCmd n c).credOff = s.credOff := rfl
@[simp] theorem State.setCmd_heldFlags : (s.setCmd n c).heldFlags = s.heldFlags := rfl
@[simp] theorem State.setCmd_doneRecs : (s.setCmd n c).doneRecs = s.doneRecs := rfl
@[simp] theorem State.setCmd_clock : (s.setCmd n c).clock = s.clock := rfl
@[simp] theorem State.setCmd_agenda : (s.setCmd n c).agenda = s.agenda := rfl
@[simp] theorem State.setCmd_pace : (s.setCmd n c).pace = s.pace := rfl
@[simp] theorem State.setCmd_free : (s.setCmd n c).free = s.free := rfl
@[simp] theorem State.setCmd_nextId : (s.setCmd n c).nextId = s.nextId := rfl
@[simp] theorem State.setCmd_records : (s.setCmd n c).records = s.records := rfl
end

/-! State.setCore -/

section
variable (s : State) (n : Nat) (c : Core)
@[simp] theorem State.setCore_frags : (s.setCore n c).frags = s.frags := rfl
@[simp] theorem State.setCore_cur : (s.setCore n c).cur = s.cur := rfl
@[simp] theorem State.setCore_groups : (s.setCore n c).groups = s.groups := rfl
@[simp] theorem State.setCore_teams : (s.setCore n c).teams = s.teams := rfl
@[simp] theorem State.setCore_grids : (s.setCore n c).grids = s.grids := rfl
@[simp] theorem State.setCore_cmds : (s.setCore n c).cmds = s.cmds := rfl
@[simp] theorem State.setCore_cores : (s.setCore n c).cores = KMap.ins s.cores n c := rfl
@[simp] theorem State.setCore_homes : (s.setCore n c).homes = s.homes := rfl
@[simp] theorem State.setCore_xars : (s.setCore n c).xars = s.xars := rfl
@[simp] theorem State.setCore_tambs : (s.setCore n c).tambs = s.tambs := rfl
@[simp] theorem State.setCore_banks : (s.setCore n c).banks = s.banks := rfl
@[simp] theorem State.setCore_chans : (s.setCore n c).chans = s.chans := rfl
@[simp] theorem State.setCore_mem : (s.setCore n c).mem = s.mem := rfl
@[simp] theorem State.setCore_memKeys : (s.setCore n c).memKeys = s.memKeys := rfl
@[simp] theorem State.setCore_memErr : (s.setCore n c).memErr = s.memErr := rfl
@[simp] theorem State.setCore_sramErr : (s.setCore n c).sramErr = s.sramErr := rfl
@[simp] theorem State.setCore_scratch : (s.setCore n c).scratch = s.scratch := rfl
@[simp] theorem State.setCore_vault : (s.setCore n c).vault = s.vault := rfl
@[simp] theorem State.setCore_opmem : (s.setCore n c).opmem = s.opmem := rfl
@[simp] theorem State.setCore_net : (s.setCore n c).net = s.net := rfl
@[simp] theorem State.setCore_remote : (s.setCore n c).remote = s.remote := rfl
@[simp] theorem State.setCore_answers : (s.setCore n c).answers = s.answers := rfl
@[simp] theorem State.setCore_chanWaits : (s.setCore n c).chanWaits = s.chanWaits := rfl
@[simp] theorem State.setCore_parts : (s.setCore n c).parts = s.parts := rfl
@[simp] theorem State.setCore_shadows : (s.setCore n c).shadows = s.shadows := rfl
@[simp] theorem State.setCore_lqs : (s.setCore n c).lqs = s.lqs := rfl
@[simp] theorem State.setCore_asTab : (s.setCore n c).asTab = s.asTab := rfl
@[simp] theorem State.setCore_leases : (s.setCore n c).leases = s.leases := rfl
@[simp] theorem State.setCore_keyTab : (s.setCore n c).keyTab = s.keyTab := rfl
@[simp] theorem State.setCore_keySlots : (s.setCore n c).keySlots = s.keySlots := rfl
@[simp] theorem State.setCore_segs : (s.setCore n c).segs = s.segs := rfl
@[simp] theorem State.setCore_ports : (s.setCore n c).ports = s.ports := rfl
@[simp] theorem State.setCore_fuse : (s.setCore n c).fuse = s.fuse := rfl
@[simp] theorem State.setCore_code : (s.setCore n c).code = s.code := rfl
@[simp] theorem State.setCore_fabric : (s.setCore n c).fabric = s.fabric := rfl
@[simp] theorem State.setCore_window : (s.setCore n c).window = s.window := rfl
@[simp] theorem State.setCore_shares : (s.setCore n c).shares = s.shares := rfl
@[simp] theorem State.setCore_thermal : (s.setCore n c).thermal = s.thermal := rfl
@[simp] theorem State.setCore_mbCmd : (s.setCore n c).mbCmd = s.mbCmd := rfl
@[simp] theorem State.setCore_mbAddr : (s.setCore n c).mbAddr = s.mbAddr := rfl
@[simp] theorem State.setCore_mbStat : (s.setCore n c).mbStat = s.mbStat := rfl
@[simp] theorem State.setCore_mbRefused : (s.setCore n c).mbRefused = s.mbRefused := rfl
@[simp] theorem State.setCore_resyncs : (s.setCore n c).resyncs = s.resyncs := rfl
@[simp] theorem State.setCore_image : (s.setCore n c).image = s.image := rfl
@[simp] theorem State.setCore_stage : (s.setCore n c).stage = s.stage := rfl
@[simp] theorem State.setCore_secVersion : (s.setCore n c).secVersion = s.secVersion := rfl
@[simp] theorem State.setCore_keyHash : (s.setCore n c).keyHash = s.keyHash := rfl
@[simp] theorem State.setCore_rollback : (s.setCore n c).rollback = s.rollback := rfl
@[simp] theorem State.setCore_hostOut : (s.setCore n c).hostOut = s.hostOut := rfl
@[simp] theorem State.setCore_awayWatches : (s.setCore n c).awayWatches = s.awayWatches := rfl
@[simp] theorem State.setCore_fabIn : (s.setCore n c).fabIn = s.fabIn := rfl
@[simp] theorem State.setCore_fabOut : (s.setCore n c).fabOut = s.fabOut := rfl
@[simp] theorem State.setCore_credNo : (s.setCore n c).credNo = s.credNo := rfl
@[simp] theorem State.setCore_credOff : (s.setCore n c).credOff = s.credOff := rfl
@[simp] theorem State.setCore_heldFlags : (s.setCore n c).heldFlags = s.heldFlags := rfl
@[simp] theorem State.setCore_doneRecs : (s.setCore n c).doneRecs = s.doneRecs := rfl
@[simp] theorem State.setCore_clock : (s.setCore n c).clock = s.clock := rfl
@[simp] theorem State.setCore_agenda : (s.setCore n c).agenda = s.agenda := rfl
@[simp] theorem State.setCore_pace : (s.setCore n c).pace = s.pace := rfl
@[simp] theorem State.setCore_free : (s.setCore n c).free = s.free := rfl
@[simp] theorem State.setCore_nextId : (s.setCore n c).nextId = s.nextId := rfl
@[simp] theorem State.setCore_records : (s.setCore n c).records = s.records := rfl
end

/-! State.setHome -/

section
variable (s : State) (n : Nat) (h : HomeSt)
@[simp] theorem State.setHome_frags : (s.setHome n h).frags = s.frags := rfl
@[simp] theorem State.setHome_cur : (s.setHome n h).cur = s.cur := rfl
@[simp] theorem State.setHome_groups : (s.setHome n h).groups = s.groups := rfl
@[simp] theorem State.setHome_teams : (s.setHome n h).teams = s.teams := rfl
@[simp] theorem State.setHome_grids : (s.setHome n h).grids = s.grids := rfl
@[simp] theorem State.setHome_cmds : (s.setHome n h).cmds = s.cmds := rfl
@[simp] theorem State.setHome_cores : (s.setHome n h).cores = s.cores := rfl
@[simp] theorem State.setHome_homes : (s.setHome n h).homes = KMap.ins s.homes n h := rfl
@[simp] theorem State.setHome_xars : (s.setHome n h).xars = s.xars := rfl
@[simp] theorem State.setHome_tambs : (s.setHome n h).tambs = s.tambs := rfl
@[simp] theorem State.setHome_banks : (s.setHome n h).banks = s.banks := rfl
@[simp] theorem State.setHome_chans : (s.setHome n h).chans = s.chans := rfl
@[simp] theorem State.setHome_mem : (s.setHome n h).mem = s.mem := rfl
@[simp] theorem State.setHome_memKeys : (s.setHome n h).memKeys = s.memKeys := rfl
@[simp] theorem State.setHome_memErr : (s.setHome n h).memErr = s.memErr := rfl
@[simp] theorem State.setHome_sramErr : (s.setHome n h).sramErr = s.sramErr := rfl
@[simp] theorem State.setHome_scratch : (s.setHome n h).scratch = s.scratch := rfl
@[simp] theorem State.setHome_vault : (s.setHome n h).vault = s.vault := rfl
@[simp] theorem State.setHome_opmem : (s.setHome n h).opmem = s.opmem := rfl
@[simp] theorem State.setHome_net : (s.setHome n h).net = s.net := rfl
@[simp] theorem State.setHome_remote : (s.setHome n h).remote = s.remote := rfl
@[simp] theorem State.setHome_answers : (s.setHome n h).answers = s.answers := rfl
@[simp] theorem State.setHome_chanWaits : (s.setHome n h).chanWaits = s.chanWaits := rfl
@[simp] theorem State.setHome_parts : (s.setHome n h).parts = s.parts := rfl
@[simp] theorem State.setHome_shadows : (s.setHome n h).shadows = s.shadows := rfl
@[simp] theorem State.setHome_lqs : (s.setHome n h).lqs = s.lqs := rfl
@[simp] theorem State.setHome_asTab : (s.setHome n h).asTab = s.asTab := rfl
@[simp] theorem State.setHome_leases : (s.setHome n h).leases = s.leases := rfl
@[simp] theorem State.setHome_keyTab : (s.setHome n h).keyTab = s.keyTab := rfl
@[simp] theorem State.setHome_keySlots : (s.setHome n h).keySlots = s.keySlots := rfl
@[simp] theorem State.setHome_segs : (s.setHome n h).segs = s.segs := rfl
@[simp] theorem State.setHome_ports : (s.setHome n h).ports = s.ports := rfl
@[simp] theorem State.setHome_fuse : (s.setHome n h).fuse = s.fuse := rfl
@[simp] theorem State.setHome_code : (s.setHome n h).code = s.code := rfl
@[simp] theorem State.setHome_fabric : (s.setHome n h).fabric = s.fabric := rfl
@[simp] theorem State.setHome_window : (s.setHome n h).window = s.window := rfl
@[simp] theorem State.setHome_shares : (s.setHome n h).shares = s.shares := rfl
@[simp] theorem State.setHome_thermal : (s.setHome n h).thermal = s.thermal := rfl
@[simp] theorem State.setHome_mbCmd : (s.setHome n h).mbCmd = s.mbCmd := rfl
@[simp] theorem State.setHome_mbAddr : (s.setHome n h).mbAddr = s.mbAddr := rfl
@[simp] theorem State.setHome_mbStat : (s.setHome n h).mbStat = s.mbStat := rfl
@[simp] theorem State.setHome_mbRefused : (s.setHome n h).mbRefused = s.mbRefused := rfl
@[simp] theorem State.setHome_resyncs : (s.setHome n h).resyncs = s.resyncs := rfl
@[simp] theorem State.setHome_image : (s.setHome n h).image = s.image := rfl
@[simp] theorem State.setHome_stage : (s.setHome n h).stage = s.stage := rfl
@[simp] theorem State.setHome_secVersion : (s.setHome n h).secVersion = s.secVersion := rfl
@[simp] theorem State.setHome_keyHash : (s.setHome n h).keyHash = s.keyHash := rfl
@[simp] theorem State.setHome_rollback : (s.setHome n h).rollback = s.rollback := rfl
@[simp] theorem State.setHome_hostOut : (s.setHome n h).hostOut = s.hostOut := rfl
@[simp] theorem State.setHome_awayWatches : (s.setHome n h).awayWatches = s.awayWatches := rfl
@[simp] theorem State.setHome_fabIn : (s.setHome n h).fabIn = s.fabIn := rfl
@[simp] theorem State.setHome_fabOut : (s.setHome n h).fabOut = s.fabOut := rfl
@[simp] theorem State.setHome_credNo : (s.setHome n h).credNo = s.credNo := rfl
@[simp] theorem State.setHome_credOff : (s.setHome n h).credOff = s.credOff := rfl
@[simp] theorem State.setHome_heldFlags : (s.setHome n h).heldFlags = s.heldFlags := rfl
@[simp] theorem State.setHome_doneRecs : (s.setHome n h).doneRecs = s.doneRecs := rfl
@[simp] theorem State.setHome_clock : (s.setHome n h).clock = s.clock := rfl
@[simp] theorem State.setHome_agenda : (s.setHome n h).agenda = s.agenda := rfl
@[simp] theorem State.setHome_pace : (s.setHome n h).pace = s.pace := rfl
@[simp] theorem State.setHome_free : (s.setHome n h).free = s.free := rfl
@[simp] theorem State.setHome_nextId : (s.setHome n h).nextId = s.nextId := rfl
@[simp] theorem State.setHome_records : (s.setHome n h).records = s.records := rfl
end

/-! State.setXar -/

section
variable (s : State) (n : Nat) (x : Xar)
@[simp] theorem State.setXar_frags : (s.setXar n x).frags = s.frags := rfl
@[simp] theorem State.setXar_cur : (s.setXar n x).cur = s.cur := rfl
@[simp] theorem State.setXar_groups : (s.setXar n x).groups = s.groups := rfl
@[simp] theorem State.setXar_teams : (s.setXar n x).teams = s.teams := rfl
@[simp] theorem State.setXar_grids : (s.setXar n x).grids = s.grids := rfl
@[simp] theorem State.setXar_cmds : (s.setXar n x).cmds = s.cmds := rfl
@[simp] theorem State.setXar_cores : (s.setXar n x).cores = s.cores := rfl
@[simp] theorem State.setXar_homes : (s.setXar n x).homes = s.homes := rfl
@[simp] theorem State.setXar_xars : (s.setXar n x).xars = KMap.ins s.xars n x := rfl
@[simp] theorem State.setXar_tambs : (s.setXar n x).tambs = s.tambs := rfl
@[simp] theorem State.setXar_banks : (s.setXar n x).banks = s.banks := rfl
@[simp] theorem State.setXar_chans : (s.setXar n x).chans = s.chans := rfl
@[simp] theorem State.setXar_mem : (s.setXar n x).mem = s.mem := rfl
@[simp] theorem State.setXar_memKeys : (s.setXar n x).memKeys = s.memKeys := rfl
@[simp] theorem State.setXar_memErr : (s.setXar n x).memErr = s.memErr := rfl
@[simp] theorem State.setXar_sramErr : (s.setXar n x).sramErr = s.sramErr := rfl
@[simp] theorem State.setXar_scratch : (s.setXar n x).scratch = s.scratch := rfl
@[simp] theorem State.setXar_vault : (s.setXar n x).vault = s.vault := rfl
@[simp] theorem State.setXar_opmem : (s.setXar n x).opmem = s.opmem := rfl
@[simp] theorem State.setXar_net : (s.setXar n x).net = s.net := rfl
@[simp] theorem State.setXar_remote : (s.setXar n x).remote = s.remote := rfl
@[simp] theorem State.setXar_answers : (s.setXar n x).answers = s.answers := rfl
@[simp] theorem State.setXar_chanWaits : (s.setXar n x).chanWaits = s.chanWaits := rfl
@[simp] theorem State.setXar_parts : (s.setXar n x).parts = s.parts := rfl
@[simp] theorem State.setXar_shadows : (s.setXar n x).shadows = s.shadows := rfl
@[simp] theorem State.setXar_lqs : (s.setXar n x).lqs = s.lqs := rfl
@[simp] theorem State.setXar_asTab : (s.setXar n x).asTab = s.asTab := rfl
@[simp] theorem State.setXar_leases : (s.setXar n x).leases = s.leases := rfl
@[simp] theorem State.setXar_keyTab : (s.setXar n x).keyTab = s.keyTab := rfl
@[simp] theorem State.setXar_keySlots : (s.setXar n x).keySlots = s.keySlots := rfl
@[simp] theorem State.setXar_segs : (s.setXar n x).segs = s.segs := rfl
@[simp] theorem State.setXar_ports : (s.setXar n x).ports = s.ports := rfl
@[simp] theorem State.setXar_fuse : (s.setXar n x).fuse = s.fuse := rfl
@[simp] theorem State.setXar_code : (s.setXar n x).code = s.code := rfl
@[simp] theorem State.setXar_fabric : (s.setXar n x).fabric = s.fabric := rfl
@[simp] theorem State.setXar_window : (s.setXar n x).window = s.window := rfl
@[simp] theorem State.setXar_shares : (s.setXar n x).shares = s.shares := rfl
@[simp] theorem State.setXar_thermal : (s.setXar n x).thermal = s.thermal := rfl
@[simp] theorem State.setXar_mbCmd : (s.setXar n x).mbCmd = s.mbCmd := rfl
@[simp] theorem State.setXar_mbAddr : (s.setXar n x).mbAddr = s.mbAddr := rfl
@[simp] theorem State.setXar_mbStat : (s.setXar n x).mbStat = s.mbStat := rfl
@[simp] theorem State.setXar_mbRefused : (s.setXar n x).mbRefused = s.mbRefused := rfl
@[simp] theorem State.setXar_resyncs : (s.setXar n x).resyncs = s.resyncs := rfl
@[simp] theorem State.setXar_image : (s.setXar n x).image = s.image := rfl
@[simp] theorem State.setXar_stage : (s.setXar n x).stage = s.stage := rfl
@[simp] theorem State.setXar_secVersion : (s.setXar n x).secVersion = s.secVersion := rfl
@[simp] theorem State.setXar_keyHash : (s.setXar n x).keyHash = s.keyHash := rfl
@[simp] theorem State.setXar_rollback : (s.setXar n x).rollback = s.rollback := rfl
@[simp] theorem State.setXar_hostOut : (s.setXar n x).hostOut = s.hostOut := rfl
@[simp] theorem State.setXar_awayWatches : (s.setXar n x).awayWatches = s.awayWatches := rfl
@[simp] theorem State.setXar_fabIn : (s.setXar n x).fabIn = s.fabIn := rfl
@[simp] theorem State.setXar_fabOut : (s.setXar n x).fabOut = s.fabOut := rfl
@[simp] theorem State.setXar_credNo : (s.setXar n x).credNo = s.credNo := rfl
@[simp] theorem State.setXar_credOff : (s.setXar n x).credOff = s.credOff := rfl
@[simp] theorem State.setXar_heldFlags : (s.setXar n x).heldFlags = s.heldFlags := rfl
@[simp] theorem State.setXar_doneRecs : (s.setXar n x).doneRecs = s.doneRecs := rfl
@[simp] theorem State.setXar_clock : (s.setXar n x).clock = s.clock := rfl
@[simp] theorem State.setXar_agenda : (s.setXar n x).agenda = s.agenda := rfl
@[simp] theorem State.setXar_pace : (s.setXar n x).pace = s.pace := rfl
@[simp] theorem State.setXar_free : (s.setXar n x).free = s.free := rfl
@[simp] theorem State.setXar_nextId : (s.setXar n x).nextId = s.nextId := rfl
@[simp] theorem State.setXar_records : (s.setXar n x).records = s.records := rfl
end

/-! State.setTamb -/

section
variable (s : State) (n : Nat) (t : Tamb)
@[simp] theorem State.setTamb_frags : (s.setTamb n t).frags = s.frags := rfl
@[simp] theorem State.setTamb_cur : (s.setTamb n t).cur = s.cur := rfl
@[simp] theorem State.setTamb_groups : (s.setTamb n t).groups = s.groups := rfl
@[simp] theorem State.setTamb_teams : (s.setTamb n t).teams = s.teams := rfl
@[simp] theorem State.setTamb_grids : (s.setTamb n t).grids = s.grids := rfl
@[simp] theorem State.setTamb_cmds : (s.setTamb n t).cmds = s.cmds := rfl
@[simp] theorem State.setTamb_cores : (s.setTamb n t).cores = s.cores := rfl
@[simp] theorem State.setTamb_homes : (s.setTamb n t).homes = s.homes := rfl
@[simp] theorem State.setTamb_xars : (s.setTamb n t).xars = s.xars := rfl
@[simp] theorem State.setTamb_tambs : (s.setTamb n t).tambs = KMap.ins s.tambs n t := rfl
@[simp] theorem State.setTamb_banks : (s.setTamb n t).banks = s.banks := rfl
@[simp] theorem State.setTamb_chans : (s.setTamb n t).chans = s.chans := rfl
@[simp] theorem State.setTamb_mem : (s.setTamb n t).mem = s.mem := rfl
@[simp] theorem State.setTamb_memKeys : (s.setTamb n t).memKeys = s.memKeys := rfl
@[simp] theorem State.setTamb_memErr : (s.setTamb n t).memErr = s.memErr := rfl
@[simp] theorem State.setTamb_sramErr : (s.setTamb n t).sramErr = s.sramErr := rfl
@[simp] theorem State.setTamb_scratch : (s.setTamb n t).scratch = s.scratch := rfl
@[simp] theorem State.setTamb_vault : (s.setTamb n t).vault = s.vault := rfl
@[simp] theorem State.setTamb_opmem : (s.setTamb n t).opmem = s.opmem := rfl
@[simp] theorem State.setTamb_net : (s.setTamb n t).net = s.net := rfl
@[simp] theorem State.setTamb_remote : (s.setTamb n t).remote = s.remote := rfl
@[simp] theorem State.setTamb_answers : (s.setTamb n t).answers = s.answers := rfl
@[simp] theorem State.setTamb_chanWaits : (s.setTamb n t).chanWaits = s.chanWaits := rfl
@[simp] theorem State.setTamb_parts : (s.setTamb n t).parts = s.parts := rfl
@[simp] theorem State.setTamb_shadows : (s.setTamb n t).shadows = s.shadows := rfl
@[simp] theorem State.setTamb_lqs : (s.setTamb n t).lqs = s.lqs := rfl
@[simp] theorem State.setTamb_asTab : (s.setTamb n t).asTab = s.asTab := rfl
@[simp] theorem State.setTamb_leases : (s.setTamb n t).leases = s.leases := rfl
@[simp] theorem State.setTamb_keyTab : (s.setTamb n t).keyTab = s.keyTab := rfl
@[simp] theorem State.setTamb_keySlots : (s.setTamb n t).keySlots = s.keySlots := rfl
@[simp] theorem State.setTamb_segs : (s.setTamb n t).segs = s.segs := rfl
@[simp] theorem State.setTamb_ports : (s.setTamb n t).ports = s.ports := rfl
@[simp] theorem State.setTamb_fuse : (s.setTamb n t).fuse = s.fuse := rfl
@[simp] theorem State.setTamb_code : (s.setTamb n t).code = s.code := rfl
@[simp] theorem State.setTamb_fabric : (s.setTamb n t).fabric = s.fabric := rfl
@[simp] theorem State.setTamb_window : (s.setTamb n t).window = s.window := rfl
@[simp] theorem State.setTamb_shares : (s.setTamb n t).shares = s.shares := rfl
@[simp] theorem State.setTamb_thermal : (s.setTamb n t).thermal = s.thermal := rfl
@[simp] theorem State.setTamb_mbCmd : (s.setTamb n t).mbCmd = s.mbCmd := rfl
@[simp] theorem State.setTamb_mbAddr : (s.setTamb n t).mbAddr = s.mbAddr := rfl
@[simp] theorem State.setTamb_mbStat : (s.setTamb n t).mbStat = s.mbStat := rfl
@[simp] theorem State.setTamb_mbRefused : (s.setTamb n t).mbRefused = s.mbRefused := rfl
@[simp] theorem State.setTamb_resyncs : (s.setTamb n t).resyncs = s.resyncs := rfl
@[simp] theorem State.setTamb_image : (s.setTamb n t).image = s.image := rfl
@[simp] theorem State.setTamb_stage : (s.setTamb n t).stage = s.stage := rfl
@[simp] theorem State.setTamb_secVersion : (s.setTamb n t).secVersion = s.secVersion := rfl
@[simp] theorem State.setTamb_keyHash : (s.setTamb n t).keyHash = s.keyHash := rfl
@[simp] theorem State.setTamb_rollback : (s.setTamb n t).rollback = s.rollback := rfl
@[simp] theorem State.setTamb_hostOut : (s.setTamb n t).hostOut = s.hostOut := rfl
@[simp] theorem State.setTamb_awayWatches : (s.setTamb n t).awayWatches = s.awayWatches := rfl
@[simp] theorem State.setTamb_fabIn : (s.setTamb n t).fabIn = s.fabIn := rfl
@[simp] theorem State.setTamb_fabOut : (s.setTamb n t).fabOut = s.fabOut := rfl
@[simp] theorem State.setTamb_credNo : (s.setTamb n t).credNo = s.credNo := rfl
@[simp] theorem State.setTamb_credOff : (s.setTamb n t).credOff = s.credOff := rfl
@[simp] theorem State.setTamb_heldFlags : (s.setTamb n t).heldFlags = s.heldFlags := rfl
@[simp] theorem State.setTamb_doneRecs : (s.setTamb n t).doneRecs = s.doneRecs := rfl
@[simp] theorem State.setTamb_clock : (s.setTamb n t).clock = s.clock := rfl
@[simp] theorem State.setTamb_agenda : (s.setTamb n t).agenda = s.agenda := rfl
@[simp] theorem State.setTamb_pace : (s.setTamb n t).pace = s.pace := rfl
@[simp] theorem State.setTamb_free : (s.setTamb n t).free = s.free := rfl
@[simp] theorem State.setTamb_nextId : (s.setTamb n t).nextId = s.nextId := rfl
@[simp] theorem State.setTamb_records : (s.setTamb n t).records = s.records := rfl
end

/-! State.setBank -/

section
variable (s : State) (n : Nat) (b : BankUnit)
@[simp] theorem State.setBank_frags : (s.setBank n b).frags = s.frags := rfl
@[simp] theorem State.setBank_cur : (s.setBank n b).cur = s.cur := rfl
@[simp] theorem State.setBank_groups : (s.setBank n b).groups = s.groups := rfl
@[simp] theorem State.setBank_teams : (s.setBank n b).teams = s.teams := rfl
@[simp] theorem State.setBank_grids : (s.setBank n b).grids = s.grids := rfl
@[simp] theorem State.setBank_cmds : (s.setBank n b).cmds = s.cmds := rfl
@[simp] theorem State.setBank_cores : (s.setBank n b).cores = s.cores := rfl
@[simp] theorem State.setBank_homes : (s.setBank n b).homes = s.homes := rfl
@[simp] theorem State.setBank_xars : (s.setBank n b).xars = s.xars := rfl
@[simp] theorem State.setBank_tambs : (s.setBank n b).tambs = s.tambs := rfl
@[simp] theorem State.setBank_banks : (s.setBank n b).banks = KMap.ins s.banks n b := rfl
@[simp] theorem State.setBank_chans : (s.setBank n b).chans = s.chans := rfl
@[simp] theorem State.setBank_mem : (s.setBank n b).mem = s.mem := rfl
@[simp] theorem State.setBank_memKeys : (s.setBank n b).memKeys = s.memKeys := rfl
@[simp] theorem State.setBank_memErr : (s.setBank n b).memErr = s.memErr := rfl
@[simp] theorem State.setBank_sramErr : (s.setBank n b).sramErr = s.sramErr := rfl
@[simp] theorem State.setBank_scratch : (s.setBank n b).scratch = s.scratch := rfl
@[simp] theorem State.setBank_vault : (s.setBank n b).vault = s.vault := rfl
@[simp] theorem State.setBank_opmem : (s.setBank n b).opmem = s.opmem := rfl
@[simp] theorem State.setBank_net : (s.setBank n b).net = s.net := rfl
@[simp] theorem State.setBank_remote : (s.setBank n b).remote = s.remote := rfl
@[simp] theorem State.setBank_answers : (s.setBank n b).answers = s.answers := rfl
@[simp] theorem State.setBank_chanWaits : (s.setBank n b).chanWaits = s.chanWaits := rfl
@[simp] theorem State.setBank_parts : (s.setBank n b).parts = s.parts := rfl
@[simp] theorem State.setBank_shadows : (s.setBank n b).shadows = s.shadows := rfl
@[simp] theorem State.setBank_lqs : (s.setBank n b).lqs = s.lqs := rfl
@[simp] theorem State.setBank_asTab : (s.setBank n b).asTab = s.asTab := rfl
@[simp] theorem State.setBank_leases : (s.setBank n b).leases = s.leases := rfl
@[simp] theorem State.setBank_keyTab : (s.setBank n b).keyTab = s.keyTab := rfl
@[simp] theorem State.setBank_keySlots : (s.setBank n b).keySlots = s.keySlots := rfl
@[simp] theorem State.setBank_segs : (s.setBank n b).segs = s.segs := rfl
@[simp] theorem State.setBank_ports : (s.setBank n b).ports = s.ports := rfl
@[simp] theorem State.setBank_fuse : (s.setBank n b).fuse = s.fuse := rfl
@[simp] theorem State.setBank_code : (s.setBank n b).code = s.code := rfl
@[simp] theorem State.setBank_fabric : (s.setBank n b).fabric = s.fabric := rfl
@[simp] theorem State.setBank_window : (s.setBank n b).window = s.window := rfl
@[simp] theorem State.setBank_shares : (s.setBank n b).shares = s.shares := rfl
@[simp] theorem State.setBank_thermal : (s.setBank n b).thermal = s.thermal := rfl
@[simp] theorem State.setBank_mbCmd : (s.setBank n b).mbCmd = s.mbCmd := rfl
@[simp] theorem State.setBank_mbAddr : (s.setBank n b).mbAddr = s.mbAddr := rfl
@[simp] theorem State.setBank_mbStat : (s.setBank n b).mbStat = s.mbStat := rfl
@[simp] theorem State.setBank_mbRefused : (s.setBank n b).mbRefused = s.mbRefused := rfl
@[simp] theorem State.setBank_resyncs : (s.setBank n b).resyncs = s.resyncs := rfl
@[simp] theorem State.setBank_image : (s.setBank n b).image = s.image := rfl
@[simp] theorem State.setBank_stage : (s.setBank n b).stage = s.stage := rfl
@[simp] theorem State.setBank_secVersion : (s.setBank n b).secVersion = s.secVersion := rfl
@[simp] theorem State.setBank_keyHash : (s.setBank n b).keyHash = s.keyHash := rfl
@[simp] theorem State.setBank_rollback : (s.setBank n b).rollback = s.rollback := rfl
@[simp] theorem State.setBank_hostOut : (s.setBank n b).hostOut = s.hostOut := rfl
@[simp] theorem State.setBank_awayWatches : (s.setBank n b).awayWatches = s.awayWatches := rfl
@[simp] theorem State.setBank_fabIn : (s.setBank n b).fabIn = s.fabIn := rfl
@[simp] theorem State.setBank_fabOut : (s.setBank n b).fabOut = s.fabOut := rfl
@[simp] theorem State.setBank_credNo : (s.setBank n b).credNo = s.credNo := rfl
@[simp] theorem State.setBank_credOff : (s.setBank n b).credOff = s.credOff := rfl
@[simp] theorem State.setBank_heldFlags : (s.setBank n b).heldFlags = s.heldFlags := rfl
@[simp] theorem State.setBank_doneRecs : (s.setBank n b).doneRecs = s.doneRecs := rfl
@[simp] theorem State.setBank_clock : (s.setBank n b).clock = s.clock := rfl
@[simp] theorem State.setBank_agenda : (s.setBank n b).agenda = s.agenda := rfl
@[simp] theorem State.setBank_pace : (s.setBank n b).pace = s.pace := rfl
@[simp] theorem State.setBank_free : (s.setBank n b).free = s.free := rfl
@[simp] theorem State.setBank_nextId : (s.setBank n b).nextId = s.nextId := rfl
@[simp] theorem State.setBank_records : (s.setBank n b).records = s.records := rfl
end

/-! State.setChan -/

section
variable (s : State) (n : Nat) (c : Chan)
@[simp] theorem State.setChan_frags : (s.setChan n c).frags = s.frags := rfl
@[simp] theorem State.setChan_cur : (s.setChan n c).cur = s.cur := rfl
@[simp] theorem State.setChan_groups : (s.setChan n c).groups = s.groups := rfl
@[simp] theorem State.setChan_teams : (s.setChan n c).teams = s.teams := rfl
@[simp] theorem State.setChan_grids : (s.setChan n c).grids = s.grids := rfl
@[simp] theorem State.setChan_cmds : (s.setChan n c).cmds = s.cmds := rfl
@[simp] theorem State.setChan_cores : (s.setChan n c).cores = s.cores := rfl
@[simp] theorem State.setChan_homes : (s.setChan n c).homes = s.homes := rfl
@[simp] theorem State.setChan_xars : (s.setChan n c).xars = s.xars := rfl
@[simp] theorem State.setChan_tambs : (s.setChan n c).tambs = s.tambs := rfl
@[simp] theorem State.setChan_banks : (s.setChan n c).banks = s.banks := rfl
@[simp] theorem State.setChan_chans : (s.setChan n c).chans = KMap.ins s.chans n c := rfl
@[simp] theorem State.setChan_mem : (s.setChan n c).mem = s.mem := rfl
@[simp] theorem State.setChan_memKeys : (s.setChan n c).memKeys = s.memKeys := rfl
@[simp] theorem State.setChan_memErr : (s.setChan n c).memErr = s.memErr := rfl
@[simp] theorem State.setChan_sramErr : (s.setChan n c).sramErr = s.sramErr := rfl
@[simp] theorem State.setChan_scratch : (s.setChan n c).scratch = s.scratch := rfl
@[simp] theorem State.setChan_vault : (s.setChan n c).vault = s.vault := rfl
@[simp] theorem State.setChan_opmem : (s.setChan n c).opmem = s.opmem := rfl
@[simp] theorem State.setChan_net : (s.setChan n c).net = s.net := rfl
@[simp] theorem State.setChan_remote : (s.setChan n c).remote = s.remote := rfl
@[simp] theorem State.setChan_answers : (s.setChan n c).answers = s.answers := rfl
@[simp] theorem State.setChan_chanWaits : (s.setChan n c).chanWaits = s.chanWaits := rfl
@[simp] theorem State.setChan_parts : (s.setChan n c).parts = s.parts := rfl
@[simp] theorem State.setChan_shadows : (s.setChan n c).shadows = s.shadows := rfl
@[simp] theorem State.setChan_lqs : (s.setChan n c).lqs = s.lqs := rfl
@[simp] theorem State.setChan_asTab : (s.setChan n c).asTab = s.asTab := rfl
@[simp] theorem State.setChan_leases : (s.setChan n c).leases = s.leases := rfl
@[simp] theorem State.setChan_keyTab : (s.setChan n c).keyTab = s.keyTab := rfl
@[simp] theorem State.setChan_keySlots : (s.setChan n c).keySlots = s.keySlots := rfl
@[simp] theorem State.setChan_segs : (s.setChan n c).segs = s.segs := rfl
@[simp] theorem State.setChan_ports : (s.setChan n c).ports = s.ports := rfl
@[simp] theorem State.setChan_fuse : (s.setChan n c).fuse = s.fuse := rfl
@[simp] theorem State.setChan_code : (s.setChan n c).code = s.code := rfl
@[simp] theorem State.setChan_fabric : (s.setChan n c).fabric = s.fabric := rfl
@[simp] theorem State.setChan_window : (s.setChan n c).window = s.window := rfl
@[simp] theorem State.setChan_shares : (s.setChan n c).shares = s.shares := rfl
@[simp] theorem State.setChan_thermal : (s.setChan n c).thermal = s.thermal := rfl
@[simp] theorem State.setChan_mbCmd : (s.setChan n c).mbCmd = s.mbCmd := rfl
@[simp] theorem State.setChan_mbAddr : (s.setChan n c).mbAddr = s.mbAddr := rfl
@[simp] theorem State.setChan_mbStat : (s.setChan n c).mbStat = s.mbStat := rfl
@[simp] theorem State.setChan_mbRefused : (s.setChan n c).mbRefused = s.mbRefused := rfl
@[simp] theorem State.setChan_resyncs : (s.setChan n c).resyncs = s.resyncs := rfl
@[simp] theorem State.setChan_image : (s.setChan n c).image = s.image := rfl
@[simp] theorem State.setChan_stage : (s.setChan n c).stage = s.stage := rfl
@[simp] theorem State.setChan_secVersion : (s.setChan n c).secVersion = s.secVersion := rfl
@[simp] theorem State.setChan_keyHash : (s.setChan n c).keyHash = s.keyHash := rfl
@[simp] theorem State.setChan_rollback : (s.setChan n c).rollback = s.rollback := rfl
@[simp] theorem State.setChan_hostOut : (s.setChan n c).hostOut = s.hostOut := rfl
@[simp] theorem State.setChan_awayWatches : (s.setChan n c).awayWatches = s.awayWatches := rfl
@[simp] theorem State.setChan_fabIn : (s.setChan n c).fabIn = s.fabIn := rfl
@[simp] theorem State.setChan_fabOut : (s.setChan n c).fabOut = s.fabOut := rfl
@[simp] theorem State.setChan_credNo : (s.setChan n c).credNo = s.credNo := rfl
@[simp] theorem State.setChan_credOff : (s.setChan n c).credOff = s.credOff := rfl
@[simp] theorem State.setChan_heldFlags : (s.setChan n c).heldFlags = s.heldFlags := rfl
@[simp] theorem State.setChan_doneRecs : (s.setChan n c).doneRecs = s.doneRecs := rfl
@[simp] theorem State.setChan_clock : (s.setChan n c).clock = s.clock := rfl
@[simp] theorem State.setChan_agenda : (s.setChan n c).agenda = s.agenda := rfl
@[simp] theorem State.setChan_pace : (s.setChan n c).pace = s.pace := rfl
@[simp] theorem State.setChan_free : (s.setChan n c).free = s.free := rfl
@[simp] theorem State.setChan_nextId : (s.setChan n c).nextId = s.nextId := rfl
@[simp] theorem State.setChan_records : (s.setChan n c).records = s.records := rfl
end

/-! State.setPart -/

section
variable (s : State) (n : Nat) (p : Part)
@[simp] theorem State.setPart_frags : (s.setPart n p).frags = s.frags := rfl
@[simp] theorem State.setPart_cur : (s.setPart n p).cur = s.cur := rfl
@[simp] theorem State.setPart_groups : (s.setPart n p).groups = s.groups := rfl
@[simp] theorem State.setPart_teams : (s.setPart n p).teams = s.teams := rfl
@[simp] theorem State.setPart_grids : (s.setPart n p).grids = s.grids := rfl
@[simp] theorem State.setPart_cmds : (s.setPart n p).cmds = s.cmds := rfl
@[simp] theorem State.setPart_cores : (s.setPart n p).cores = s.cores := rfl
@[simp] theorem State.setPart_homes : (s.setPart n p).homes = s.homes := rfl
@[simp] theorem State.setPart_xars : (s.setPart n p).xars = s.xars := rfl
@[simp] theorem State.setPart_tambs : (s.setPart n p).tambs = s.tambs := rfl
@[simp] theorem State.setPart_banks : (s.setPart n p).banks = s.banks := rfl
@[simp] theorem State.setPart_chans : (s.setPart n p).chans = s.chans := rfl
@[simp] theorem State.setPart_mem : (s.setPart n p).mem = s.mem := rfl
@[simp] theorem State.setPart_memKeys : (s.setPart n p).memKeys = s.memKeys := rfl
@[simp] theorem State.setPart_memErr : (s.setPart n p).memErr = s.memErr := rfl
@[simp] theorem State.setPart_sramErr : (s.setPart n p).sramErr = s.sramErr := rfl
@[simp] theorem State.setPart_scratch : (s.setPart n p).scratch = s.scratch := rfl
@[simp] theorem State.setPart_vault : (s.setPart n p).vault = s.vault := rfl
@[simp] theorem State.setPart_opmem : (s.setPart n p).opmem = s.opmem := rfl
@[simp] theorem State.setPart_net : (s.setPart n p).net = s.net := rfl
@[simp] theorem State.setPart_remote : (s.setPart n p).remote = s.remote := rfl
@[simp] theorem State.setPart_answers : (s.setPart n p).answers = s.answers := rfl
@[simp] theorem State.setPart_chanWaits : (s.setPart n p).chanWaits = s.chanWaits := rfl
@[simp] theorem State.setPart_parts : (s.setPart n p).parts = KMap.ins s.parts n p := rfl
@[simp] theorem State.setPart_shadows : (s.setPart n p).shadows = s.shadows := rfl
@[simp] theorem State.setPart_lqs : (s.setPart n p).lqs = s.lqs := rfl
@[simp] theorem State.setPart_asTab : (s.setPart n p).asTab = s.asTab := rfl
@[simp] theorem State.setPart_leases : (s.setPart n p).leases = s.leases := rfl
@[simp] theorem State.setPart_keyTab : (s.setPart n p).keyTab = s.keyTab := rfl
@[simp] theorem State.setPart_keySlots : (s.setPart n p).keySlots = s.keySlots := rfl
@[simp] theorem State.setPart_segs : (s.setPart n p).segs = s.segs := rfl
@[simp] theorem State.setPart_ports : (s.setPart n p).ports = s.ports := rfl
@[simp] theorem State.setPart_fuse : (s.setPart n p).fuse = s.fuse := rfl
@[simp] theorem State.setPart_code : (s.setPart n p).code = s.code := rfl
@[simp] theorem State.setPart_fabric : (s.setPart n p).fabric = s.fabric := rfl
@[simp] theorem State.setPart_window : (s.setPart n p).window = s.window := rfl
@[simp] theorem State.setPart_shares : (s.setPart n p).shares = s.shares := rfl
@[simp] theorem State.setPart_thermal : (s.setPart n p).thermal = s.thermal := rfl
@[simp] theorem State.setPart_mbCmd : (s.setPart n p).mbCmd = s.mbCmd := rfl
@[simp] theorem State.setPart_mbAddr : (s.setPart n p).mbAddr = s.mbAddr := rfl
@[simp] theorem State.setPart_mbStat : (s.setPart n p).mbStat = s.mbStat := rfl
@[simp] theorem State.setPart_mbRefused : (s.setPart n p).mbRefused = s.mbRefused := rfl
@[simp] theorem State.setPart_resyncs : (s.setPart n p).resyncs = s.resyncs := rfl
@[simp] theorem State.setPart_image : (s.setPart n p).image = s.image := rfl
@[simp] theorem State.setPart_stage : (s.setPart n p).stage = s.stage := rfl
@[simp] theorem State.setPart_secVersion : (s.setPart n p).secVersion = s.secVersion := rfl
@[simp] theorem State.setPart_keyHash : (s.setPart n p).keyHash = s.keyHash := rfl
@[simp] theorem State.setPart_rollback : (s.setPart n p).rollback = s.rollback := rfl
@[simp] theorem State.setPart_hostOut : (s.setPart n p).hostOut = s.hostOut := rfl
@[simp] theorem State.setPart_awayWatches : (s.setPart n p).awayWatches = s.awayWatches := rfl
@[simp] theorem State.setPart_fabIn : (s.setPart n p).fabIn = s.fabIn := rfl
@[simp] theorem State.setPart_fabOut : (s.setPart n p).fabOut = s.fabOut := rfl
@[simp] theorem State.setPart_credNo : (s.setPart n p).credNo = s.credNo := rfl
@[simp] theorem State.setPart_credOff : (s.setPart n p).credOff = s.credOff := rfl
@[simp] theorem State.setPart_heldFlags : (s.setPart n p).heldFlags = s.heldFlags := rfl
@[simp] theorem State.setPart_doneRecs : (s.setPart n p).doneRecs = s.doneRecs := rfl
@[simp] theorem State.setPart_clock : (s.setPart n p).clock = s.clock := rfl
@[simp] theorem State.setPart_agenda : (s.setPart n p).agenda = s.agenda := rfl
@[simp] theorem State.setPart_pace : (s.setPart n p).pace = s.pace := rfl
@[simp] theorem State.setPart_free : (s.setPart n p).free = s.free := rfl
@[simp] theorem State.setPart_nextId : (s.setPart n p).nextId = s.nextId := rfl
@[simp] theorem State.setPart_records : (s.setPart n p).records = s.records := rfl
end

/-! State.setLq -/

section
variable (s : State) (n : Nat) (q : Lq)
@[simp] theorem State.setLq_frags : (s.setLq n q).frags = s.frags := rfl
@[simp] theorem State.setLq_cur : (s.setLq n q).cur = s.cur := rfl
@[simp] theorem State.setLq_groups : (s.setLq n q).groups = s.groups := rfl
@[simp] theorem State.setLq_teams : (s.setLq n q).teams = s.teams := rfl
@[simp] theorem State.setLq_grids : (s.setLq n q).grids = s.grids := rfl
@[simp] theorem State.setLq_cmds : (s.setLq n q).cmds = s.cmds := rfl
@[simp] theorem State.setLq_cores : (s.setLq n q).cores = s.cores := rfl
@[simp] theorem State.setLq_homes : (s.setLq n q).homes = s.homes := rfl
@[simp] theorem State.setLq_xars : (s.setLq n q).xars = s.xars := rfl
@[simp] theorem State.setLq_tambs : (s.setLq n q).tambs = s.tambs := rfl
@[simp] theorem State.setLq_banks : (s.setLq n q).banks = s.banks := rfl
@[simp] theorem State.setLq_chans : (s.setLq n q).chans = s.chans := rfl
@[simp] theorem State.setLq_mem : (s.setLq n q).mem = s.mem := rfl
@[simp] theorem State.setLq_memKeys : (s.setLq n q).memKeys = s.memKeys := rfl
@[simp] theorem State.setLq_memErr : (s.setLq n q).memErr = s.memErr := rfl
@[simp] theorem State.setLq_sramErr : (s.setLq n q).sramErr = s.sramErr := rfl
@[simp] theorem State.setLq_scratch : (s.setLq n q).scratch = s.scratch := rfl
@[simp] theorem State.setLq_vault : (s.setLq n q).vault = s.vault := rfl
@[simp] theorem State.setLq_opmem : (s.setLq n q).opmem = s.opmem := rfl
@[simp] theorem State.setLq_net : (s.setLq n q).net = s.net := rfl
@[simp] theorem State.setLq_remote : (s.setLq n q).remote = s.remote := rfl
@[simp] theorem State.setLq_answers : (s.setLq n q).answers = s.answers := rfl
@[simp] theorem State.setLq_chanWaits : (s.setLq n q).chanWaits = s.chanWaits := rfl
@[simp] theorem State.setLq_parts : (s.setLq n q).parts = s.parts := rfl
@[simp] theorem State.setLq_shadows : (s.setLq n q).shadows = s.shadows := rfl
@[simp] theorem State.setLq_lqs : (s.setLq n q).lqs = KMap.ins s.lqs n q := rfl
@[simp] theorem State.setLq_asTab : (s.setLq n q).asTab = s.asTab := rfl
@[simp] theorem State.setLq_leases : (s.setLq n q).leases = s.leases := rfl
@[simp] theorem State.setLq_keyTab : (s.setLq n q).keyTab = s.keyTab := rfl
@[simp] theorem State.setLq_keySlots : (s.setLq n q).keySlots = s.keySlots := rfl
@[simp] theorem State.setLq_segs : (s.setLq n q).segs = s.segs := rfl
@[simp] theorem State.setLq_ports : (s.setLq n q).ports = s.ports := rfl
@[simp] theorem State.setLq_fuse : (s.setLq n q).fuse = s.fuse := rfl
@[simp] theorem State.setLq_code : (s.setLq n q).code = s.code := rfl
@[simp] theorem State.setLq_fabric : (s.setLq n q).fabric = s.fabric := rfl
@[simp] theorem State.setLq_window : (s.setLq n q).window = s.window := rfl
@[simp] theorem State.setLq_shares : (s.setLq n q).shares = s.shares := rfl
@[simp] theorem State.setLq_thermal : (s.setLq n q).thermal = s.thermal := rfl
@[simp] theorem State.setLq_mbCmd : (s.setLq n q).mbCmd = s.mbCmd := rfl
@[simp] theorem State.setLq_mbAddr : (s.setLq n q).mbAddr = s.mbAddr := rfl
@[simp] theorem State.setLq_mbStat : (s.setLq n q).mbStat = s.mbStat := rfl
@[simp] theorem State.setLq_mbRefused : (s.setLq n q).mbRefused = s.mbRefused := rfl
@[simp] theorem State.setLq_resyncs : (s.setLq n q).resyncs = s.resyncs := rfl
@[simp] theorem State.setLq_image : (s.setLq n q).image = s.image := rfl
@[simp] theorem State.setLq_stage : (s.setLq n q).stage = s.stage := rfl
@[simp] theorem State.setLq_secVersion : (s.setLq n q).secVersion = s.secVersion := rfl
@[simp] theorem State.setLq_keyHash : (s.setLq n q).keyHash = s.keyHash := rfl
@[simp] theorem State.setLq_rollback : (s.setLq n q).rollback = s.rollback := rfl
@[simp] theorem State.setLq_hostOut : (s.setLq n q).hostOut = s.hostOut := rfl
@[simp] theorem State.setLq_awayWatches : (s.setLq n q).awayWatches = s.awayWatches := rfl
@[simp] theorem State.setLq_fabIn : (s.setLq n q).fabIn = s.fabIn := rfl
@[simp] theorem State.setLq_fabOut : (s.setLq n q).fabOut = s.fabOut := rfl
@[simp] theorem State.setLq_credNo : (s.setLq n q).credNo = s.credNo := rfl
@[simp] theorem State.setLq_credOff : (s.setLq n q).credOff = s.credOff := rfl
@[simp] theorem State.setLq_heldFlags : (s.setLq n q).heldFlags = s.heldFlags := rfl
@[simp] theorem State.setLq_doneRecs : (s.setLq n q).doneRecs = s.doneRecs := rfl
@[simp] theorem State.setLq_clock : (s.setLq n q).clock = s.clock := rfl
@[simp] theorem State.setLq_agenda : (s.setLq n q).agenda = s.agenda := rfl
@[simp] theorem State.setLq_pace : (s.setLq n q).pace = s.pace := rfl
@[simp] theorem State.setLq_free : (s.setLq n q).free = s.free := rfl
@[simp] theorem State.setLq_nextId : (s.setLq n q).nextId = s.nextId := rfl
@[simp] theorem State.setLq_records : (s.setLq n q).records = s.records := rfl
end

/-! State.setF -/

section
variable (s : State) (f : Frag)
@[simp] theorem State.setF_frags : (s.setF f).frags = KMap.ins s.frags s.cur f := rfl
@[simp] theorem State.setF_cur : (s.setF f).cur = s.cur := rfl
@[simp] theorem State.setF_groups : (s.setF f).groups = s.groups := rfl
@[simp] theorem State.setF_teams : (s.setF f).teams = s.teams := rfl
@[simp] theorem State.setF_grids : (s.setF f).grids = s.grids := rfl
@[simp] theorem State.setF_cmds : (s.setF f).cmds = s.cmds := rfl
@[simp] theorem State.setF_cores : (s.setF f).cores = s.cores := rfl
@[simp] theorem State.setF_homes : (s.setF f).homes = s.homes := rfl
@[simp] theorem State.setF_xars : (s.setF f).xars = s.xars := rfl
@[simp] theorem State.setF_tambs : (s.setF f).tambs = s.tambs := rfl
@[simp] theorem State.setF_banks : (s.setF f).banks = s.banks := rfl
@[simp] theorem State.setF_chans : (s.setF f).chans = s.chans := rfl
@[simp] theorem State.setF_mem : (s.setF f).mem = s.mem := rfl
@[simp] theorem State.setF_memKeys : (s.setF f).memKeys = s.memKeys := rfl
@[simp] theorem State.setF_memErr : (s.setF f).memErr = s.memErr := rfl
@[simp] theorem State.setF_sramErr : (s.setF f).sramErr = s.sramErr := rfl
@[simp] theorem State.setF_scratch : (s.setF f).scratch = s.scratch := rfl
@[simp] theorem State.setF_vault : (s.setF f).vault = s.vault := rfl
@[simp] theorem State.setF_opmem : (s.setF f).opmem = s.opmem := rfl
@[simp] theorem State.setF_net : (s.setF f).net = s.net := rfl
@[simp] theorem State.setF_remote : (s.setF f).remote = s.remote := rfl
@[simp] theorem State.setF_answers : (s.setF f).answers = s.answers := rfl
@[simp] theorem State.setF_chanWaits : (s.setF f).chanWaits = s.chanWaits := rfl
@[simp] theorem State.setF_parts : (s.setF f).parts = s.parts := rfl
@[simp] theorem State.setF_shadows : (s.setF f).shadows = s.shadows := rfl
@[simp] theorem State.setF_lqs : (s.setF f).lqs = s.lqs := rfl
@[simp] theorem State.setF_asTab : (s.setF f).asTab = s.asTab := rfl
@[simp] theorem State.setF_leases : (s.setF f).leases = s.leases := rfl
@[simp] theorem State.setF_keyTab : (s.setF f).keyTab = s.keyTab := rfl
@[simp] theorem State.setF_keySlots : (s.setF f).keySlots = s.keySlots := rfl
@[simp] theorem State.setF_segs : (s.setF f).segs = s.segs := rfl
@[simp] theorem State.setF_ports : (s.setF f).ports = s.ports := rfl
@[simp] theorem State.setF_fuse : (s.setF f).fuse = s.fuse := rfl
@[simp] theorem State.setF_code : (s.setF f).code = s.code := rfl
@[simp] theorem State.setF_fabric : (s.setF f).fabric = s.fabric := rfl
@[simp] theorem State.setF_window : (s.setF f).window = s.window := rfl
@[simp] theorem State.setF_shares : (s.setF f).shares = s.shares := rfl
@[simp] theorem State.setF_thermal : (s.setF f).thermal = s.thermal := rfl
@[simp] theorem State.setF_mbCmd : (s.setF f).mbCmd = s.mbCmd := rfl
@[simp] theorem State.setF_mbAddr : (s.setF f).mbAddr = s.mbAddr := rfl
@[simp] theorem State.setF_mbStat : (s.setF f).mbStat = s.mbStat := rfl
@[simp] theorem State.setF_mbRefused : (s.setF f).mbRefused = s.mbRefused := rfl
@[simp] theorem State.setF_resyncs : (s.setF f).resyncs = s.resyncs := rfl
@[simp] theorem State.setF_image : (s.setF f).image = s.image := rfl
@[simp] theorem State.setF_stage : (s.setF f).stage = s.stage := rfl
@[simp] theorem State.setF_secVersion : (s.setF f).secVersion = s.secVersion := rfl
@[simp] theorem State.setF_keyHash : (s.setF f).keyHash = s.keyHash := rfl
@[simp] theorem State.setF_rollback : (s.setF f).rollback = s.rollback := rfl
@[simp] theorem State.setF_hostOut : (s.setF f).hostOut = s.hostOut := rfl
@[simp] theorem State.setF_awayWatches : (s.setF f).awayWatches = s.awayWatches := rfl
@[simp] theorem State.setF_fabIn : (s.setF f).fabIn = s.fabIn := rfl
@[simp] theorem State.setF_fabOut : (s.setF f).fabOut = s.fabOut := rfl
@[simp] theorem State.setF_credNo : (s.setF f).credNo = s.credNo := rfl
@[simp] theorem State.setF_credOff : (s.setF f).credOff = s.credOff := rfl
@[simp] theorem State.setF_heldFlags : (s.setF f).heldFlags = s.heldFlags := rfl
@[simp] theorem State.setF_doneRecs : (s.setF f).doneRecs = s.doneRecs := rfl
@[simp] theorem State.setF_clock : (s.setF f).clock = s.clock := rfl
@[simp] theorem State.setF_agenda : (s.setF f).agenda = s.agenda := rfl
@[simp] theorem State.setF_pace : (s.setF f).pace = s.pace := rfl
@[simp] theorem State.setF_free : (s.setF f).free = s.free := rfl
@[simp] theorem State.setF_nextId : (s.setF f).nextId = s.nextId := rfl
@[simp] theorem State.setF_records : (s.setF f).records = s.records := rfl
end

/-! State.modRegs -/

section
variable (s : State) (g : Regs → Regs)
@[simp] theorem State.modRegs_frags : (s.modRegs g).frags = KMap.ins s.frags s.cur { s.f with regs := g s.f.regs } := rfl
@[simp] theorem State.modRegs_cur : (s.modRegs g).cur = s.cur := rfl
@[simp] theorem State.modRegs_groups : (s.modRegs g).groups = s.groups := rfl
@[simp] theorem State.modRegs_teams : (s.modRegs g).teams = s.teams := rfl
@[simp] theorem State.modRegs_grids : (s.modRegs g).grids = s.grids := rfl
@[simp] theorem State.modRegs_cmds : (s.modRegs g).cmds = s.cmds := rfl
@[simp] theorem State.modRegs_cores : (s.modRegs g).cores = s.cores := rfl
@[simp] theorem State.modRegs_homes : (s.modRegs g).homes = s.homes := rfl
@[simp] theorem State.modRegs_xars : (s.modRegs g).xars = s.xars := rfl
@[simp] theorem State.modRegs_tambs : (s.modRegs g).tambs = s.tambs := rfl
@[simp] theorem State.modRegs_banks : (s.modRegs g).banks = s.banks := rfl
@[simp] theorem State.modRegs_chans : (s.modRegs g).chans = s.chans := rfl
@[simp] theorem State.modRegs_mem : (s.modRegs g).mem = s.mem := rfl
@[simp] theorem State.modRegs_memKeys : (s.modRegs g).memKeys = s.memKeys := rfl
@[simp] theorem State.modRegs_memErr : (s.modRegs g).memErr = s.memErr := rfl
@[simp] theorem State.modRegs_sramErr : (s.modRegs g).sramErr = s.sramErr := rfl
@[simp] theorem State.modRegs_scratch : (s.modRegs g).scratch = s.scratch := rfl
@[simp] theorem State.modRegs_vault : (s.modRegs g).vault = s.vault := rfl
@[simp] theorem State.modRegs_opmem : (s.modRegs g).opmem = s.opmem := rfl
@[simp] theorem State.modRegs_net : (s.modRegs g).net = s.net := rfl
@[simp] theorem State.modRegs_remote : (s.modRegs g).remote = s.remote := rfl
@[simp] theorem State.modRegs_answers : (s.modRegs g).answers = s.answers := rfl
@[simp] theorem State.modRegs_chanWaits : (s.modRegs g).chanWaits = s.chanWaits := rfl
@[simp] theorem State.modRegs_parts : (s.modRegs g).parts = s.parts := rfl
@[simp] theorem State.modRegs_shadows : (s.modRegs g).shadows = s.shadows := rfl
@[simp] theorem State.modRegs_lqs : (s.modRegs g).lqs = s.lqs := rfl
@[simp] theorem State.modRegs_asTab : (s.modRegs g).asTab = s.asTab := rfl
@[simp] theorem State.modRegs_leases : (s.modRegs g).leases = s.leases := rfl
@[simp] theorem State.modRegs_keyTab : (s.modRegs g).keyTab = s.keyTab := rfl
@[simp] theorem State.modRegs_keySlots : (s.modRegs g).keySlots = s.keySlots := rfl
@[simp] theorem State.modRegs_segs : (s.modRegs g).segs = s.segs := rfl
@[simp] theorem State.modRegs_ports : (s.modRegs g).ports = s.ports := rfl
@[simp] theorem State.modRegs_fuse : (s.modRegs g).fuse = s.fuse := rfl
@[simp] theorem State.modRegs_code : (s.modRegs g).code = s.code := rfl
@[simp] theorem State.modRegs_fabric : (s.modRegs g).fabric = s.fabric := rfl
@[simp] theorem State.modRegs_window : (s.modRegs g).window = s.window := rfl
@[simp] theorem State.modRegs_shares : (s.modRegs g).shares = s.shares := rfl
@[simp] theorem State.modRegs_thermal : (s.modRegs g).thermal = s.thermal := rfl
@[simp] theorem State.modRegs_mbCmd : (s.modRegs g).mbCmd = s.mbCmd := rfl
@[simp] theorem State.modRegs_mbAddr : (s.modRegs g).mbAddr = s.mbAddr := rfl
@[simp] theorem State.modRegs_mbStat : (s.modRegs g).mbStat = s.mbStat := rfl
@[simp] theorem State.modRegs_mbRefused : (s.modRegs g).mbRefused = s.mbRefused := rfl
@[simp] theorem State.modRegs_resyncs : (s.modRegs g).resyncs = s.resyncs := rfl
@[simp] theorem State.modRegs_image : (s.modRegs g).image = s.image := rfl
@[simp] theorem State.modRegs_stage : (s.modRegs g).stage = s.stage := rfl
@[simp] theorem State.modRegs_secVersion : (s.modRegs g).secVersion = s.secVersion := rfl
@[simp] theorem State.modRegs_keyHash : (s.modRegs g).keyHash = s.keyHash := rfl
@[simp] theorem State.modRegs_rollback : (s.modRegs g).rollback = s.rollback := rfl
@[simp] theorem State.modRegs_hostOut : (s.modRegs g).hostOut = s.hostOut := rfl
@[simp] theorem State.modRegs_awayWatches : (s.modRegs g).awayWatches = s.awayWatches := rfl
@[simp] theorem State.modRegs_fabIn : (s.modRegs g).fabIn = s.fabIn := rfl
@[simp] theorem State.modRegs_fabOut : (s.modRegs g).fabOut = s.fabOut := rfl
@[simp] theorem State.modRegs_credNo : (s.modRegs g).credNo = s.credNo := rfl
@[simp] theorem State.modRegs_credOff : (s.modRegs g).credOff = s.credOff := rfl
@[simp] theorem State.modRegs_heldFlags : (s.modRegs g).heldFlags = s.heldFlags := rfl
@[simp] theorem State.modRegs_doneRecs : (s.modRegs g).doneRecs = s.doneRecs := rfl
@[simp] theorem State.modRegs_clock : (s.modRegs g).clock = s.clock := rfl
@[simp] theorem State.modRegs_agenda : (s.modRegs g).agenda = s.agenda := rfl
@[simp] theorem State.modRegs_pace : (s.modRegs g).pace = s.pace := rfl
@[simp] theorem State.modRegs_free : (s.modRegs g).free = s.free := rfl
@[simp] theorem State.modRegs_nextId : (s.modRegs g).nextId = s.nextId := rfl
@[simp] theorem State.modRegs_records : (s.modRegs g).records = s.records := rfl
end

/-! Reading a part back -/

@[simp] theorem State.frag_setFrag_same (s : State) (n : Nat) (f : Frag) : (s.setFrag n f).frag n = f := KMap.get_ins_same _ _ _ _
theorem State.frag_setFrag_other (s : State) (n k : Nat) (f : Frag) (h : k ≠ n) : (s.setFrag n f).frag k = s.frag k := KMap.get_ins_other _ _ _ _ _ h
@[simp] theorem State.f_setF (s : State) (f : Frag) : (s.setF f).f = f := KMap.get_ins_same _ _ _ _
@[simp] theorem State.frag_cur (s : State) : s.frag s.cur = s.f := rfl
@[simp] theorem State.frag_setF_cur (s : State) (f : Frag) : (s.setF f).frag s.cur = f := KMap.get_ins_same _ _ _ _
theorem State.frag_setF_other (s : State) (k : Nat) (f : Frag) (h : k ≠ s.cur) : (s.setF f).frag k = s.frag k := KMap.get_ins_other _ _ _ _ _ h
@[simp] theorem State.f_modRegs (s : State) (g : Regs → Regs) : (s.modRegs g).f = { s.f with regs := g s.f.regs } := KMap.get_ins_same _ _ _ _
@[simp] theorem State.group_setGroup_same (s : State) (n : Nat) (g : Group) : (s.setGroup n g).group n = g := KMap.get_ins_same _ _ _ _
@[simp] theorem State.team_setTeam_same (s : State) (n : Nat) (t : Team) : (s.setTeam n t).team n = t := KMap.get_ins_same _ _ _ _
@[simp] theorem State.core_setCore_same (s : State) (n : Nat) (c : Core) : (s.setCore n c).core n = c := KMap.get_ins_same _ _ _ _
@[simp] theorem State.part_setPart_same (s : State) (n : Nat) (p : Part) : (s.setPart n p).part n = p := KMap.get_ins_same _ _ _ _
@[simp] theorem State.frag_setGroup (s : State) (n k : Nat) (g : Group) : (s.setGroup n g).frag k = s.frag k := rfl
@[simp] theorem State.frag_setTeam (s : State) (n k : Nat) (t : Team) : (s.setTeam n t).frag k = s.frag k := rfl
@[simp] theorem State.frag_setCore (s : State) (n k : Nat) (c : Core) : (s.setCore n c).frag k = s.frag k := rfl
@[simp] theorem State.frag_setPart (s : State) (n k : Nat) (p : Part) : (s.setPart n p).frag k = s.frag k := rfl
@[simp] theorem State.group_setFrag (s : State) (n k : Nat) (f : Frag) : (s.setFrag n f).group k = s.group k := rfl
@[simp] theorem State.team_setFrag (s : State) (n k : Nat) (f : Frag) : (s.setFrag n f).team k = s.team k := rfl
@[simp] theorem State.part_setFrag (s : State) (n k : Nat) (f : Frag) : (s.setFrag n f).part k = s.part k := rfl
@[simp] theorem State.byte_setFrag (s : State) (n a : Nat) (f : Frag) : (s.setFrag n f).byte a = s.byte a := rfl

end Sys2Proof.Machine
end

