-- ==== Sys2Proof/Laws/Ops.lean ====
section
/-! SUPPORT. One lemma for each shared operation of a word: the poison check, how a word ends, what a register write leaves. -/

set_option Elab.async false

namespace Sys2Proof.Machine

/-! The end of a word -/

@[simp] theorem finish_done (s t : State) : finish s (.done t) = .next (t.retire (t.f.pc + 4)) := rfl
@[simp] theorem finish_jump (s t : State) (pc : DWord) : finish s (.jump t pc) = .next (t.retire pc) := rfl
@[simp] theorem finish_fault (s : State) (r : FaultRec) : finish s (.fault r) = .next (s.takeFault r) := rfl
@[simp] theorem finish_hold (s t : State) : finish s (.hold t) = .next ((t.setF t.f.hold).endTurnOf s.cur) := rfl
@[simp] theorem finish_away (s t : State) : finish s (.away t) = .next t := rfl

/-- Every action ends in a next state. -/
theorem finish_next (s : State) (a : Act) : ∃ t, finish s a = .next t := by
  cases a <;> exact ⟨_, rfl⟩

/-- R103: a word whose sources hold no poison has its effect. -/
theorem State.clean_none (s : State) (xs : List Src) (k : Act) (h : s.poisoned xs = none) : s.clean xs k = k := by
  simp only [State.clean, h]
/-- R103: a word with a poisoned source takes POISON instead. -/
theorem State.clean_some (s : State) (xs : List Src) (k : Act) (r : FaultRec) (h : s.poisoned xs = some r) : s.clean xs k = .fault r := by
  simp only [State.clean, h]
@[simp] theorem State.clean_nil (s : State) (k : Act) : s.clean [] k = k := rfl

/-! A word of a fragment on another device: while its answer is under way it is held, a refusal is KEY, and an answer decides how it goes on. -/

theorem State.wordAway_asked (s : State) (w : TeamWord) (k : WordReply → State → Act) (h : s.f.grant = .asked) : s.wordAway w k = .hold s := by
  simp only [State.wordAway, h]

theorem State.wordAway_refused (s : State) (w : TeamWord) (k : WordReply → State → Act) (h : s.f.grant = .refused) :
    s.wordAway w k = .fault (keyFault s.f.own s.g.dev s.g.home) := by
  simp only [State.wordAway, h]

theorem State.wordAway_word (s : State) (w : TeamWord) (k : WordReply → State → Act) (r : WordReply) (h : s.f.grant = .word r) :
    s.wordAway w k = k r (s.setF { s.f with grant := .none }) := by
  simp only [State.wordAway, h]

theorem onDone_done (k : DWord → State → Act) (v : DWord) (s : State) : onDone k (.done v) s = k v s := rfl

theorem onDone_fault (k : DWord → State → Act) (x : FaultRec) (s : State) : onDone k (.fault x) s = .fault x := rfl

/-- R60, R63: what ending a word does where nothing falls due. -/
theorem State.retire_calm (s : State) (pc : DWord) (h : s.calm = true) : s.retire pc = s.setF (s.f.goOn pc) := by
  unfold State.retire
  by_cases hc : s.f.chain = true
  · simp [hc, Frag.goOn]
  · simp only [hc, if_false, Bool.false_eq_true]
    simp only [State.calm, hc, Bool.false_or, Bool.and_eq_true, Bool.not_eq_true', Option.isNone_iff_eq_none] at h
    obtain ⟨⟨⟨⟨⟨h1, h2⟩, h3⟩, h4⟩, h6⟩, h5⟩ := h
    have h6 := of_decide_eq_true h6
    have key : ∀ f : Frag, f.leave = none → f.due = none → f.parked = false → f.held = false → f.turn = s.f.turn → f.group = s.f.group →
        ((s.setF f).settle s.cur).endTurnOf s.cur = s.setF f := by
      intro f a b c d e g
      have hs : (s.setF f).settle s.cur = s.setF f := by
        unfold State.settle
        rw [State.frag_setF_cur]
        simp only [a, b, c]
        split_ifs <;> simp_all
      rw [hs]
      have hn : ¬ max 1 ((s.setF f).group s.f.group).weight ≤ s.f.turn := Nat.not_le.mpr h6
      simp [State.endTurnOf, c, d, e, g, hn]
    cases hg : s.f.grp with
    | none =>
      dsimp only
      rw [key] <;> simp [Frag.goOn, h1, h2, h3, h4, hc]
    | some g =>
      simp only [hg, Bool.and_eq_true, Bool.not_eq_true', Option.isNone_iff_eq_none] at h5
      dsimp only
      rw [h5.2, h5.1]
      rw [key] <;> simp [Frag.goOn, h1, h2, h3, h4, hc]

/-- A word that goes on leaves memory, and everything but its fragment, as its effect left them. -/
theorem State.retire_calm_f (s : State) (pc : DWord) (h : s.calm = true) : (s.retire pc).f = s.f.goOn pc := by
  rw [State.retire_calm s pc h, State.f_setF]

/-! Register writes -/

@[simp] theorem State.modRegs_calm (s : State) (g : Regs → Regs) : (s.modRegs g).calm = s.calm := by simp [State.calm, State.group]
@[simp] theorem State.modRegs_pc (s : State) (g : Regs → Regs) : (s.modRegs g).f.pc = s.f.pc := by simp
@[simp] theorem State.wrS_calm (s : State) (d : RegNum) (x : DWord) (t : Bool) : (s.wrS d x t).calm = s.calm := by simp [State.wrS]
@[simp] theorem State.wrV_calm (s : State) (d : RegNum) (x : Nat → Word) (t : Bool) : (s.wrV d x t).calm = s.calm := by simp [State.wrV]
@[simp] theorem State.wrLanes_calm (s : State) (d : RegNum) (W : Mask) (x : Nat → Word) (t : Bool) : (s.wrLanes d W x t).calm = s.calm := by
  simp [State.wrLanes]
@[simp] theorem State.wrM_calm (s : State) (k : BitVec 3) (x : Mask) : (s.wrM k x).calm = s.calm := by simp [State.wrM]
@[simp] theorem State.wrCond_calm (s : State) (k : BitVec 3) (x : Nat → Bool) : (s.wrCond k x).calm = s.calm := by simp [State.wrCond]
@[simp] theorem State.setFlags_calm (s : State) (g : BitVec 16 → BitVec 16) : (s.setFlags g).calm = s.calm := by simp [State.setFlags]
@[simp] theorem State.setE_calm (s : State) (b : Bool) : (s.setE b).calm = s.calm := by simp [State.setE]
@[simp] theorem State.wrS_pc (s : State) (d : RegNum) (x : DWord) (t : Bool) : (s.wrS d x t).f.pc = s.f.pc := by simp [State.wrS]
@[simp] theorem State.wrV_pc (s : State) (d : RegNum) (x : Nat → Word) (t : Bool) : (s.wrV d x t).f.pc = s.f.pc := by simp [State.wrV]
@[simp] theorem State.wrLanes_pc (s : State) (d : RegNum) (W : Mask) (x : Nat → Word) (t : Bool) : (s.wrLanes d W x t).f.pc = s.f.pc := by
  simp [State.wrLanes]
@[simp] theorem State.wrM_pc (s : State) (k : BitVec 3) (x : Mask) : (s.wrM k x).f.pc = s.f.pc := by simp [State.wrM]
@[simp] theorem State.wrCond_pc (s : State) (k : BitVec 3) (x : Nat → Bool) : (s.wrCond k x).f.pc = s.f.pc := by simp [State.wrCond]
@[simp] theorem State.setFlags_pc (s : State) (g : BitVec 16 → BitVec 16) : (s.setFlags g).f.pc = s.f.pc := by simp [State.setFlags]
@[simp] theorem State.setE_pc (s : State) (b : Bool) : (s.setE b).f.pc = s.f.pc := by simp [State.setE]

/-! Memory writes -/

/-- A write to device memory, to a scratchpad, a vault or the operand memory keeps every memory in its canonical form. -/
theorem State.setMem_wf (s : State) (cells : List (Nat × Byte)) (h : Memory.wf s = true) : Memory.wf (s.setMem cells) = true := by
  simp only [Memory.wf, Bool.and_eq_true, State.setMem] at *
  exact ⟨⟨⟨⟨putCells_wf _ _ h.1.1.1.1, h.1.1.1.2⟩, h.1.1.2⟩, h.1.2⟩, foldl_put_wf _ _ _ _ _ h.2⟩
theorem State.writeMem_wf (s : State) (cells : List (Nat × Byte)) (h : Memory.wf s = true) : Memory.wf (s.writeMem cells) = true := by
  have := State.setMem_wf s (cells.filter fun c => !(s.badUnits cells).contains (c.1 % 2 ^ 40 / 32)) h
  simpa [State.writeMem, Memory.wf] using this
theorem State.writeScr_wf (s : State) (cells : List (Nat × Byte)) (h : Memory.wf s = true) : Memory.wf (s.writeScr cells) = true := by
  simp only [Memory.wf, Bool.and_eq_true, State.writeScr] at *
  exact ⟨⟨⟨⟨h.1.1.1.1, putCells_wf _ _ h.1.1.1.2⟩, h.1.1.2⟩, h.1.2⟩, h.2⟩
theorem State.writeVault_wf (s : State) (cells : List (Nat × Byte)) (h : Memory.wf s = true) : Memory.wf (s.writeVault cells) = true := by
  simp only [Memory.wf, Bool.and_eq_true, State.writeVault] at *
  exact ⟨⟨⟨⟨h.1.1.1.1, h.1.1.1.2⟩, putCells_wf _ _ h.1.1.2⟩, h.1.2⟩, h.2⟩
theorem State.writeOp_wf (s : State) (cells : List (Nat × Byte)) (h : Memory.wf s = true) : Memory.wf (s.writeOp cells) = true := by
  simp only [Memory.wf, Bool.and_eq_true, State.writeOp] at *
  exact ⟨⟨⟨⟨h.1.1.1.1, h.1.1.1.2⟩, h.1.1.2⟩, putCells_wf _ _ h.1.2⟩, h.2⟩
theorem State.writeIn_wf (s : State) (sp : Space) (cells : List (Nat × Byte)) (h : Memory.wf s = true) : Memory.wf (s.writeIn sp cells) = true := by
  cases sp
  · exact State.writeMem_wf s cells h
  · exact State.writeScr_wf s cells h
  · exact State.writeVault_wf s cells h
/-- A place that no leaf names reads as it was written. -/
@[simp] theorem State.dramByte_plain (s : State) (k : Nat) (h : k < 2 ^ 40) : s.dramByte k = s.byte k := if_pos h
/-- While no memory key is loaded, a page's place is its physical address. -/
@[simp] theorem State.cellOf_unkeyed (s : State) (x : Leaf) (va : DWord) (h : s.keySlots = []) : s.cellOf x va = dramKey x.home (x.pa va) := by
  simp [State.cellOf, h, KMap.get]
/-- A change to a fragment leaves the memories. -/
theorem State.setFrag_memWf (s : State) (n : Nat) (f : Frag) : Memory.wf (s.setFrag n f) = Memory.wf s := rfl
theorem State.setF_memWf (s : State) (f : Frag) : Memory.wf (s.setF f) = Memory.wf s := rfl
theorem State.modRegs_memWf (s : State) (g : Regs → Regs) : Memory.wf (s.modRegs g) = Memory.wf s := rfl

end Sys2Proof.Machine
end

