-- ==== Sys2Proof/Laws/Alu.lean ====
section
/-! SUPPORT. What the integer functions of R117 to R119 compute, in the arithmetic of the integers and of the naturals. -/

set_option Elab.async false

namespace Sys2Proof.Machine

theorem minI_eq {w} (a b : BitVec w) : minI a b = BitVec.ofInt w (min a.toInt b.toInt) := by
  unfold minI; rw [BitVec.sle_eq_decide]; by_cases h : a.toInt ≤ b.toInt <;> simp [h]
  · rw [min_eq_right (by omega)]; simp
theorem maxI_eq {w} (a b : BitVec w) : maxI a b = BitVec.ofInt w (max a.toInt b.toInt) := by
  unfold maxI; rw [BitVec.sle_eq_decide]; by_cases h : a.toInt ≤ b.toInt <;> simp [h]
  · rw [max_eq_left (by omega)]; simp
theorem minN_eq {w} (a b : BitVec w) : minN a b = BitVec.ofNat w (min a.toNat b.toNat) := by
  unfold minN; rw [BitVec.ule_eq_decide]; by_cases h : a.toNat ≤ b.toNat <;> simp [h]
  · rw [min_eq_right (by omega)]; simp
theorem maxN_eq {w} (a b : BitVec w) : maxN a b = BitVec.ofNat w (max a.toNat b.toNat) := by
  unfold maxN; rw [BitVec.ule_eq_decide]; by_cases h : a.toNat ≤ b.toNat <;> simp [h]
  · rw [max_eq_left (by omega)]; simp
theorem minI_sx {w v} (a b : BitVec w) : (minI a b).signExtend v = BitVec.ofInt v (min a.toInt b.toInt) := by
  rw [BitVec.signExtend]; congr 1
  unfold minI; rw [BitVec.sle_eq_decide]; by_cases h : a.toInt ≤ b.toInt <;> simp [h]
  omega
theorem maxI_sx {w v} (a b : BitVec w) : (maxI a b).signExtend v = BitVec.ofInt v (max a.toInt b.toInt) := by
  rw [BitVec.signExtend]; congr 1
  unfold maxI; rw [BitVec.sle_eq_decide]; by_cases h : a.toInt ≤ b.toInt <;> simp [h]
  omega
theorem minN_zx {w v} (a b : BitVec w) : (minN a b).setWidth v = BitVec.ofNat v (min a.toNat b.toNat) := by
  rw [← BitVec.ofNat_toNat]; congr 1
  unfold minN; rw [BitVec.ule_eq_decide]; by_cases h : a.toNat ≤ b.toNat <;> simp [h]
  omega
theorem maxN_zx {w v} (a b : BitVec w) : (maxN a b).setWidth v = BitVec.ofNat v (max a.toNat b.toNat) := by
  rw [← BitVec.ofNat_toNat]; congr 1
  unfold maxN; rw [BitVec.ule_eq_decide]; by_cases h : a.toNat ≤ b.toNat <;> simp [h]
  omega
theorem absI_eq {w} (a : BitVec w) : absI a = BitVec.ofNat w a.toInt.natAbs := by
  unfold absI
  by_cases h : a.msb = true
  · rw [if_pos h]
    apply BitVec.eq_of_toNat_eq
    have := BitVec.toInt_eq_msb_cond a
    rw [h] at this
    simp at this
    have hlt := a.isLt
    have hpos: 0 < a.toNat := by
      rcases Nat.eq_zero_or_pos a.toNat with h0 | h0
      · have : a = 0#w := BitVec.eq_of_toNat_eq (by simpa using h0)
        subst this; simp at h
      · exact h0
    have h2 : a.toInt.natAbs = 2 ^ w - a.toNat := by
      have h3 : (2 ^ w : Nat) = (2 ^ w : Int) := by norm_cast
      have h4 : ((a.toNat : Nat) : Int) < 2 ^ w := by exact_mod_cast hlt
      rw [this]; omega
    rw [h2]; simp
  · rw [if_neg h]
    have := BitVec.toInt_eq_msb_cond a
    simp [h] at this
    rw [this]; simp
theorem shlN_eq {w} (a : BitVec w) (n) : shlN a n = BitVec.ofNat w (a.toNat * 2 ^ n) := by
  unfold shlN; split_ifs with h
  · apply BitVec.eq_of_toNat_eq
    simp
    exact (Nat.mod_eq_zero_of_dvd (Dvd.dvd.mul_left (pow_dvd_pow 2 h) _)).symm
  · apply BitVec.eq_of_toNat_eq
    simp [Nat.shiftLeft_eq]
theorem shrN_eq {w} (a : BitVec w) (n) : shrN a n = BitVec.ofNat w (a.toNat / 2 ^ n) := by
  have hlt := a.isLt
  unfold shrN; split_ifs with h
  · apply BitVec.eq_of_toNat_eq
    have : a.toNat / 2^n = 0 := Nat.div_eq_of_lt (lt_of_lt_of_le hlt (Nat.pow_le_pow_right (by norm_num) h))
    simp [this]
  · apply BitVec.eq_of_toNat_eq
    simp [Nat.shiftRight_eq_div_pow]
    rw [Nat.mod_eq_of_lt]
    exact lt_of_le_of_lt (Nat.div_le_self _ _) hlt
theorem sarN_eq {w} (a : BitVec w) (n) : sarN a n = BitVec.ofInt w (a.toInt / 2 ^ n) := by
  unfold sarN; split_ifs with h h1
  · have h2 := BitVec.toInt_neg_iff (x := a)
    have hm : a.toInt < 0 := by
      rw [BitVec.msb_eq_toInt] at h1; simpa using h1
    have hl := BitVec.le_toInt a
    have hh : a.toInt / 2^n = -1 := by
      have hb : (2:Int)^(w-1) ≤ 2^n := by exact_mod_cast Nat.pow_le_pow_right (by norm_num) (by omega)
      have : (-1 : Int) ≤ a.toInt / 2^n := by
        rw [Int.le_ediv_iff_mul_le (by positivity)]; omega
      have : a.toInt / 2^n < 0 := Int.ediv_neg_of_neg_of_pos hm (by positivity)
      omega
    have hall : (BitVec.ofInt w (-1)) = BitVec.allOnes w := by
      have := BitVec.ofInt_neg (w := w) (n := 1)
      rw [← BitVec.neg_one_eq_allOnes, this]; rfl
    rw [hh, hall]
  · have hm : 0 ≤ a.toInt := by
      rw [BitVec.msb_eq_toInt] at h1; simpa using h1
    have hl := BitVec.toInt_lt (x := a)
    have hh : a.toInt / 2^n = 0 := by
      apply Int.ediv_eq_zero_of_lt hm
      have hb : (2:Int)^(w-1) ≤ 2^n := by exact_mod_cast Nat.pow_le_pow_right (by norm_num) (by omega)
      omega
    rw [hh]; rfl
  · rw [← BitVec.ofInt_toInt (x := a.sshiftRight n), BitVec.toInt_sshiftRight]
    congr 1
    rw [Int.shiftRight_eq_div_pow]
    try norm_cast
theorem rotN_eq {w} (a : BitVec w) (n) : rotN a n = a.rotateLeft n := by
  rcases Nat.eq_zero_or_pos w with h | h
  · subst h; apply BitVec.eq_of_toNat_eq; simp [BitVec.of_length_zero]
  · unfold rotN; rw [BitVec.rotateLeft_def]
theorem brev_eq {w} (a : BitVec w) : brev a = a.reverse := by
  have key : ∀ (f : Nat → Bool) (n : Nat), (List.range n).foldl (fun x i => 2 * x + (f i).toNat) 0 =
      (List.range n).foldl (fun x i => 2 * x + (f i).toNat) 0 ∧
      ∀ i, ((List.range n).foldl (fun x i => 2 * x + (f i).toNat) 0).testBit i = (decide (i < n) && f (n - 1 - i)) := by
    intro f n
    refine ⟨rfl, ?_⟩
    induction n with
    | zero => intro i; simp
    | succ n ih =>
      intro i
      rw [List.range_succ, List.foldl_append, List.foldl_cons, List.foldl_nil]
      cases i with
      | zero =>
        rw [Nat.testBit_zero]
        cases hf : f n <;> simp [hf]
      | succ i =>
        rw [Nat.testBit_succ]
        have : (2 * List.foldl (fun x i => 2 * x + (f i).toNat) 0 (List.range n) + (f n).toNat) / 2 =
            List.foldl (fun x i => 2 * x + (f i).toNat) 0 (List.range n) := by
          cases f n
          · simp
          · simp; omega
        rw [this, ih i]
        have h2 : n + 1 - 1 - (i + 1) = n - 1 - i := by omega
        rw [h2]
        simp
  apply BitVec.eq_of_getLsbD_eq
  intro i hi
  unfold brev
  rw [BitVec.getLsbD_ofNat, (key a.getLsbD w).2 i, BitVec.getLsbD_reverse, BitVec.getMsbD_eq_getLsbD]
  simp [hi]
theorem lea_eq {w} (a b : BitVec w) (n) : lea a b n = a + b * BitVec.ofNat w (2^n) := rfl



end Sys2Proof.Machine
end

