-- ==== Sys2Proof/Laws/PerInstr.lean ====
section
/-! SUPPORT. Encoding and decoding, instruction by instruction (R56 to R84): the fields of a well-formed word instruction decode to it. -/

set_option Elab.async false

namespace Sys2Proof.Laws.RoundTrip

/-- The fields of the instruction, when it is well formed and has a word, decode to it. -/
def Statement (i : Instr) : Prop := i.wf = true → ∀ x, i.fields = some x → decodeFields x = .ok i

theorem low {n m : Nat} (x : BitVec n) (y : BitVec m) : (x ++ y).extractLsb' 0 m = y := by
  apply BitVec.eq_of_getLsbD_eq
  intro i hi
  simp [BitVec.getLsbD_append, hi]
theorem high {n m : Nat} (x : BitVec n) (y : BitVec m) : (x ++ y).extractLsb' m n = x := by
  apply BitVec.eq_of_getLsbD_eq
  intro i hi
  simp [BitVec.getLsbD_append, hi]
theorem append_eq {n m : Nat} (x : BitVec n) (y : BitVec m) (z : BitVec (n + m)) :
    (x ++ y = z) ↔ (x = z.extractLsb' m n ∧ y = z.extractLsb' 0 m) := by
  constructor
  · rintro rfl
    simp [low, high]
  · rintro ⟨rfl, rfl⟩
    apply BitVec.eq_of_getLsbD_eq
    intro i hi
    simp
theorem inLow {n m : Nat} (x : BitVec n) (y : BitVec m) (lo k : Nat) (h : lo + k ≤ m) : (x ++ y).extractLsb' lo k = y.extractLsb' lo k := by
  apply BitVec.eq_of_getLsbD_eq
  intro i hi
  simp [BitVec.getLsbD_append, hi, show lo + i < m by omega]
theorem inHigh {n m : Nat} (x : BitVec n) (y : BitVec m) (lo k d : Nat) (h : m ≤ lo ∧ d = lo - m) : (x ++ y).extractLsb' lo k = x.extractLsb' d k := by
  obtain ⟨h, rfl⟩ := h
  apply BitVec.eq_of_getLsbD_eq
  intro i hi
  simp [BitVec.getLsbD_append, hi, show ¬lo + i < m by omega, show lo + i - m = lo - m + i by omega]
theorem join3 (i : BitVec 18) : (i.extractLsb' 12 6 ++ i.extractLsb' 6 6 ++ i.extractLsb' 0 6 : BitVec 18) = i := by
  refine (append_eq (n := 12) (m := 6) _ _ i).2 ⟨(append_eq (n := 6) (m := 6) _ _ _).2 ⟨?_, ?_⟩, rfl⟩ <;>
    (apply BitVec.eq_of_getLsbD_eq; intro j hj; simp [hj, show j < 12 by omega, show 6 + j < 12 by omega, ← Nat.add_assoc])
theorem join4 (i : BitVec 24) :
    (i.extractLsb' 18 6 ++ i.extractLsb' 12 6 ++ i.extractLsb' 6 6 ++ i.extractLsb' 0 6 : BitVec 24) = i := by
  refine (append_eq (n := 18) (m := 6) _ _ i).2 ⟨(append_eq (n := 12) (m := 6) _ _ _).2 ⟨(append_eq (n := 6) (m := 6) _ _ _).2 ⟨?_, ?_⟩, ?_⟩, rfl⟩ <;>
    (apply BitVec.eq_of_getLsbD_eq; intro j hj
     simp [hj, show j < 12 by omega, show 6 + j < 12 by omega, show j < 18 by omega, show 6 + j < 18 by omega,
       show 12 + j < 18 by omega, ← Nat.add_assoc])
theorem low15 (x : BitVec 1) (y : BitVec 5) : (x ++ y : BitVec 6).extractLsb' 0 5 = y := low x y
theorem high15 (x : BitVec 1) (y : BitVec 5) : (x ++ y : BitVec 6).extractLsb' 5 1 = x := high x y
theorem low24 (x : BitVec 2) (y : BitVec 4) : (x ++ y : BitVec 6).extractLsb' 0 4 = y := low x y
theorem high24 (x : BitVec 2) (y : BitVec 4) : (x ++ y : BitVec 6).extractLsb' 4 2 = x := high x y
theorem low33 (x : BitVec 3) (y : BitVec 3) : (x ++ y : BitVec 6).extractLsb' 0 3 = y := low x y
theorem high33 (x : BitVec 3) (y : BitVec 3) : (x ++ y : BitVec 6).extractLsb' 3 3 = x := high x y
theorem is33 (x : BitVec 3) (y : BitVec 3) (z : BitVec 6) : ((x ++ y : BitVec 6) = z) ↔ (x = z.extractLsb' 3 3 ∧ y = z.extractLsb' 0 3) := append_eq x y z
theorem low42 (x : BitVec 4) (y : BitVec 2) : (x ++ y : BitVec 6).extractLsb' 0 2 = y := low x y
theorem high42 (x : BitVec 4) (y : BitVec 2) : (x ++ y : BitVec 6).extractLsb' 2 4 = x := high x y
theorem is42 (x : BitVec 4) (y : BitVec 2) (z : BitVec 6) : ((x ++ y : BitVec 6) = z) ↔ (x = z.extractLsb' 2 4 ∧ y = z.extractLsb' 0 2) := append_eq x y z
theorem low51 (x : BitVec 5) (y : BitVec 1) : (x ++ y : BitVec 6).extractLsb' 0 1 = y := low x y
theorem high51 (x : BitVec 5) (y : BitVec 1) : (x ++ y : BitVec 6).extractLsb' 1 5 = x := high x y
theorem is51 (x : BitVec 5) (y : BitVec 1) (z : BitVec 6) : ((x ++ y : BitVec 6) = z) ↔ (x = z.extractLsb' 1 5 ∧ y = z.extractLsb' 0 1) := append_eq x y z
theorem in33_3_2 (x : BitVec 3) (y : BitVec 3) : (x ++ y : BitVec 6).extractLsb' 3 2 = x.extractLsb' 0 2 := inHigh x y 3 2 0 (by decide)
theorem in33_5_1 (x : BitVec 3) (y : BitVec 3) : (x ++ y : BitVec 6).extractLsb' 5 1 = x.extractLsb' 2 1 := inHigh x y 5 1 2 (by decide)
theorem in42_0_1 (x : BitVec 4) (y : BitVec 2) : (x ++ y : BitVec 6).extractLsb' 0 1 = y.extractLsb' 0 1 := inLow x y 0 1 (by decide)
theorem in42_2_1 (x : BitVec 4) (y : BitVec 2) : (x ++ y : BitVec 6).extractLsb' 2 1 = x.extractLsb' 0 1 := inHigh x y 2 1 0 (by decide)
theorem in42_2_2 (x : BitVec 4) (y : BitVec 2) : (x ++ y : BitVec 6).extractLsb' 2 2 = x.extractLsb' 0 2 := inHigh x y 2 2 0 (by decide)
theorem in42_2_3 (x : BitVec 4) (y : BitVec 2) : (x ++ y : BitVec 6).extractLsb' 2 3 = x.extractLsb' 0 3 := inHigh x y 2 3 0 (by decide)
theorem in42_3_3 (x : BitVec 4) (y : BitVec 2) : (x ++ y : BitVec 6).extractLsb' 3 3 = x.extractLsb' 1 3 := inHigh x y 3 3 1 (by decide)
theorem in42_4_2 (x : BitVec 4) (y : BitVec 2) : (x ++ y : BitVec 6).extractLsb' 4 2 = x.extractLsb' 2 2 := inHigh x y 4 2 2 (by decide)
theorem in42_5_1 (x : BitVec 4) (y : BitVec 2) : (x ++ y : BitVec 6).extractLsb' 5 1 = x.extractLsb' 3 1 := inHigh x y 5 1 3 (by decide)
theorem in51_1_4 (x : BitVec 5) (y : BitVec 1) : (x ++ y : BitVec 6).extractLsb' 1 4 = x.extractLsb' 0 4 := inHigh x y 1 4 0 (by decide)
theorem in51_2_4 (x : BitVec 5) (y : BitVec 1) : (x ++ y : BitVec 6).extractLsb' 2 4 = x.extractLsb' 1 4 := inHigh x y 2 4 1 (by decide)
theorem in51_3_3 (x : BitVec 5) (y : BitVec 1) : (x ++ y : BitVec 6).extractLsb' 3 3 = x.extractLsb' 2 3 := inHigh x y 3 3 2 (by decide)
theorem in51_5_1 (x : BitVec 5) (y : BitVec 1) : (x ++ y : BitVec 6).extractLsb' 5 1 = x.extractLsb' 4 1 := inHigh x y 5 1 4 (by decide)
theorem low12 (x : BitVec 1) (y : BitVec 2) : (x ++ y : BitVec 3).extractLsb' 0 2 = y := low x y
theorem high12 (x : BitVec 1) (y : BitVec 2) : (x ++ y : BitVec 3).extractLsb' 2 1 = x := high x y
theorem low13 (x : BitVec 1) (y : BitVec 3) : (x ++ y : BitVec 4).extractLsb' 0 3 = y := low x y
theorem high13 (x : BitVec 1) (y : BitVec 3) : (x ++ y : BitVec 4).extractLsb' 3 1 = x := high x y
theorem low14 (x : BitVec 1) (y : BitVec 4) : (x ++ y : BitVec 5).extractLsb' 0 4 = y := low x y
theorem high14 (x : BitVec 1) (y : BitVec 4) : (x ++ y : BitVec 5).extractLsb' 4 1 = x := high x y
theorem low22 (x : BitVec 2) (y : BitVec 2) : (x ++ y : BitVec 4).extractLsb' 0 2 = y := low x y
theorem high22 (x : BitVec 2) (y : BitVec 2) : (x ++ y : BitVec 4).extractLsb' 2 2 = x := high x y
theorem low31 (x : BitVec 3) (y : BitVec 1) : (x ++ y : BitVec 4).extractLsb' 0 1 = y := low x y
theorem high31 (x : BitVec 3) (y : BitVec 1) : (x ++ y : BitVec 4).extractLsb' 1 3 = x := high x y
theorem join6_6 (i : BitVec 12) : (i.extractLsb' 6 6 ++ i.extractLsb' 0 6 : BitVec 12) = i := (append_eq (n := 6) (m := 6) _ _ i).2 ⟨rfl, rfl⟩
theorem join5_6 (i : BitVec 11) : (i.extractLsb' 6 5 ++ i.extractLsb' 0 6 : BitVec 11) = i := (append_eq (n := 5) (m := 6) _ _ i).2 ⟨rfl, rfl⟩
theorem join3_4 (i : BitVec 7) : (i.extractLsb' 4 3 ++ i.extractLsb' 0 4 : BitVec 7) = i := (append_eq (n := 3) (m := 4) _ _ i).2 ⟨rfl, rfl⟩
theorem join4_3 (i : BitVec 7) : (i.extractLsb' 3 4 ++ i.extractLsb' 0 3 : BitVec 7) = i := (append_eq (n := 4) (m := 3) _ _ i).2 ⟨rfl, rfl⟩
theorem join2_5 (i : BitVec 7) : (i.extractLsb' 5 2 ++ i.extractLsb' 0 5 : BitVec 7) = i := (append_eq (n := 2) (m := 5) _ _ i).2 ⟨rfl, rfl⟩
theorem join1_1 (i : BitVec 2) : (i.extractLsb' 1 1 ++ i.extractLsb' 0 1 : BitVec 2) = i := (append_eq (n := 1) (m := 1) _ _ i).2 ⟨rfl, rfl⟩
theorem join1_4 (i : BitVec 5) : (i.extractLsb' 4 1 ++ i.extractLsb' 0 4 : BitVec 5) = i := (append_eq (n := 1) (m := 4) _ _ i).2 ⟨rfl, rfl⟩
theorem join18 (i : BitVec 18) : (i.extractLsb' 12 6 ++ i.extractLsb' 6 6 ++ i.extractLsb' 0 6 : BitVec 18) = i := join3 i
theorem join24 (i : BitVec 24) : (i.extractLsb' 18 6 ++ i.extractLsb' 12 6 ++ i.extractLsb' 6 6 ++ i.extractLsb' 0 6 : BitVec 24) = i := join4 i
theorem all2 : ∀ x : BitVec 2, x = 0 ∨ x = 1 ∨ x = 2 ∨ x = 3 := by decide
theorem all3 : ∀ x : BitVec 3, x = 0 ∨ x = 1 ∨ x = 2 ∨ x = 3 ∨ x = 4 ∨ x = 5 ∨ x = 6 ∨ x = 7 := by decide
theorem all1 : ∀ x : BitVec 1, x = 0 ∨ x = 1 := by decide
theorem major00 (c p d a b f) : decodeFields ⟨c, p, 0x00#6, d, a, b, f⟩ = decode00 ⟨c, p, 0x00#6, d, a, b, f⟩ := by
  simp [decodeFields]
theorem major01 (c p d a b f) : decodeFields ⟨c, p, 0x01#6, d, a, b, f⟩ = decode01 ⟨c, p, 0x01#6, d, a, b, f⟩ := by
  simp [decodeFields]
theorem major02 (c p d a b f) : decodeFields ⟨c, p, 0x02#6, d, a, b, f⟩ = decode02 ⟨c, p, 0x02#6, d, a, b, f⟩ := by
  simp [decodeFields]
theorem major03 (c p d a b f) : decodeFields ⟨c, p, 0x03#6, d, a, b, f⟩ = decode03 ⟨c, p, 0x03#6, d, a, b, f⟩ := by
  simp [decodeFields]
theorem major04 (c p d a b f) : decodeFields ⟨c, p, 0x04#6, d, a, b, f⟩ = decode04 ⟨c, p, 0x04#6, d, a, b, f⟩ := by
  simp [decodeFields]
theorem major05 (c p d a b f) : decodeFields ⟨c, p, 0x05#6, d, a, b, f⟩ = decode05 ⟨c, p, 0x05#6, d, a, b, f⟩ := by
  simp [decodeFields]
theorem major06 (c p d a b f) : decodeFields ⟨c, p, 0x06#6, d, a, b, f⟩ = decode06 ⟨c, p, 0x06#6, d, a, b, f⟩ := by
  simp [decodeFields]
theorem major07 (c p d a b f) : decodeFields ⟨c, p, 0x07#6, d, a, b, f⟩ = decode07 ⟨c, p, 0x07#6, d, a, b, f⟩ := by
  simp [decodeFields]
theorem major0C (c p d a b f) : decodeFields ⟨c, p, 0x0C#6, d, a, b, f⟩ = decode0C ⟨c, p, 0x0C#6, d, a, b, f⟩ := by
  simp [decodeFields]
theorem major0D (c p d a b f) : decodeFields ⟨c, p, 0x0D#6, d, a, b, f⟩ = decode0D ⟨c, p, 0x0D#6, d, a, b, f⟩ := by
  simp [decodeFields]
theorem major0E (c p d a b f) : decodeFields ⟨c, p, 0x0E#6, d, a, b, f⟩ = decode0E ⟨c, p, 0x0E#6, d, a, b, f⟩ := by
  simp [decodeFields]
theorem major0F (c p d a b f) : decodeFields ⟨c, p, 0x0F#6, d, a, b, f⟩ = decode0F ⟨c, p, 0x0F#6, d, a, b, f⟩ := by
  simp [decodeFields]
theorem major12 (c p d a b f) : decodeFields ⟨c, p, 0x12#6, d, a, b, f⟩ = decode12 ⟨c, p, 0x12#6, d, a, b, f⟩ := by
  simp [decodeFields]
theorem major13 (c p d a b f) : decodeFields ⟨c, p, 0x13#6, d, a, b, f⟩ = decode13 ⟨c, p, 0x13#6, d, a, b, f⟩ := by
  simp [decodeFields]
theorem major14 (c p d a b f) : decodeFields ⟨c, p, 0x14#6, d, a, b, f⟩ = decode14 ⟨c, p, 0x14#6, d, a, b, f⟩ := by
  simp [decodeFields]
theorem major16 (c p d a b f) : decodeFields ⟨c, p, 0x16#6, d, a, b, f⟩ = decode16 ⟨c, p, 0x16#6, d, a, b, f⟩ := by
  simp [decodeFields]
theorem major17 (c p d a b f) : decodeFields ⟨c, p, 0x17#6, d, a, b, f⟩ = decode17 ⟨c, p, 0x17#6, d, a, b, f⟩ := by
  simp [decodeFields]
theorem major18 (c p d a b f) : decodeFields ⟨c, p, 0x18#6, d, a, b, f⟩ = decode18 ⟨c, p, 0x18#6, d, a, b, f⟩ := by
  simp [decodeFields]
theorem major19 (c p d a b f) : decodeFields ⟨c, p, 0x19#6, d, a, b, f⟩ = decode19 ⟨c, p, 0x19#6, d, a, b, f⟩ := by
  simp [decodeFields]
theorem major1A (c p d a b f) : decodeFields ⟨c, p, 0x1A#6, d, a, b, f⟩ = decode1A ⟨c, p, 0x1A#6, d, a, b, f⟩ := by
  simp [decodeFields]
theorem major1B (c p d a b f) : decodeFields ⟨c, p, 0x1B#6, d, a, b, f⟩ = decode1B ⟨c, p, 0x1B#6, d, a, b, f⟩ := by
  simp [decodeFields]
theorem major1C (c p d a b f) : decodeFields ⟨c, p, 0x1C#6, d, a, b, f⟩ = decode1C ⟨c, p, 0x1C#6, d, a, b, f⟩ := by
  simp [decodeFields]
theorem major1D (c p d a b f) : decodeFields ⟨c, p, 0x1D#6, d, a, b, f⟩ = decode1D ⟨c, p, 0x1D#6, d, a, b, f⟩ := by
  simp [decodeFields]
theorem major1E (c p d a b f) : decodeFields ⟨c, p, 0x1E#6, d, a, b, f⟩ = decode1E ⟨c, p, 0x1E#6, d, a, b, f⟩ := by
  simp [decodeFields]
theorem major20 (c p d a b f) : decodeFields ⟨c, p, 0x20#6, d, a, b, f⟩ = decode20 ⟨c, p, 0x20#6, d, a, b, f⟩ := by
  simp [decodeFields]
theorem major21 (c p d a b f) : decodeFields ⟨c, p, 0x21#6, d, a, b, f⟩ = decode21 ⟨c, p, 0x21#6, d, a, b, f⟩ := by
  simp [decodeFields]
theorem major22 (c p d a b f) : decodeFields ⟨c, p, 0x22#6, d, a, b, f⟩ = decode22 ⟨c, p, 0x22#6, d, a, b, f⟩ := by
  simp [decodeFields]
theorem major23 (c p d a b f) : decodeFields ⟨c, p, 0x23#6, d, a, b, f⟩ = decode23 ⟨c, p, 0x23#6, d, a, b, f⟩ := by
  simp [decodeFields]
theorem major24 (c p d a b f) : decodeFields ⟨c, p, 0x24#6, d, a, b, f⟩ = decode24 ⟨c, p, 0x24#6, d, a, b, f⟩ := by
  simp [decodeFields]
theorem major25 (c p d a b f) : decodeFields ⟨c, p, 0x25#6, d, a, b, f⟩ = decode25 ⟨c, p, 0x25#6, d, a, b, f⟩ := by
  simp [decodeFields]
theorem major26 (c p d a b f) : decodeFields ⟨c, p, 0x26#6, d, a, b, f⟩ = decode26 ⟨c, p, 0x26#6, d, a, b, f⟩ := by
  simp [decodeFields]
theorem major27 (c p d a b f) : decodeFields ⟨c, p, 0x27#6, d, a, b, f⟩ = decode27 ⟨c, p, 0x27#6, d, a, b, f⟩ := by
  simp [decodeFields]
theorem major28 (c p d a b f) : decodeFields ⟨c, p, 0x28#6, d, a, b, f⟩ = decode28 ⟨c, p, 0x28#6, d, a, b, f⟩ := by
  simp [decodeFields]
theorem major29 (c p d a b f) : decodeFields ⟨c, p, 0x29#6, d, a, b, f⟩ = decode29 ⟨c, p, 0x29#6, d, a, b, f⟩ := by
  simp [decodeFields]
theorem major2A (c p d a b f) : decodeFields ⟨c, p, 0x2A#6, d, a, b, f⟩ = decode2A ⟨c, p, 0x2A#6, d, a, b, f⟩ := by
  simp [decodeFields]
theorem major2B (c p d a b f) : decodeFields ⟨c, p, 0x2B#6, d, a, b, f⟩ = decode2B ⟨c, p, 0x2B#6, d, a, b, f⟩ := by
  simp [decodeFields]
theorem major2C (c p d a b f) : decodeFields ⟨c, p, 0x2C#6, d, a, b, f⟩ = decode2C ⟨c, p, 0x2C#6, d, a, b, f⟩ := by
  simp [decodeFields]
theorem major2D (c p d a b f) : decodeFields ⟨c, p, 0x2D#6, d, a, b, f⟩ = decode2D ⟨c, p, 0x2D#6, d, a, b, f⟩ := by
  simp [decodeFields]
theorem major2E (c p d a b f) : decodeFields ⟨c, p, 0x2E#6, d, a, b, f⟩ = decode2E ⟨c, p, 0x2E#6, d, a, b, f⟩ := by
  simp [decodeFields]
theorem major30 (c p d a b f) : decodeFields ⟨c, p, 0x30#6, d, a, b, f⟩ = decode30 ⟨c, p, 0x30#6, d, a, b, f⟩ := by
  simp [decodeFields]
theorem major31 (c p d a b f) : decodeFields ⟨c, p, 0x31#6, d, a, b, f⟩ = decode31 ⟨c, p, 0x31#6, d, a, b, f⟩ := by
  simp [decodeFields]
theorem major32 (c p d a b f) : decodeFields ⟨c, p, 0x32#6, d, a, b, f⟩ = decode32 ⟨c, p, 0x32#6, d, a, b, f⟩ := by
  simp [decodeFields]
theorem major34 (c p d a b f) : decodeFields ⟨c, p, 0x34#6, d, a, b, f⟩ = decode34 ⟨c, p, 0x34#6, d, a, b, f⟩ := by
  simp [decodeFields]
theorem major35 (c p d a b f) : decodeFields ⟨c, p, 0x35#6, d, a, b, f⟩ = decode35 ⟨c, p, 0x35#6, d, a, b, f⟩ := by
  simp [decodeFields]
theorem major36 (c p d a b f) : decodeFields ⟨c, p, 0x36#6, d, a, b, f⟩ = decode36 ⟨c, p, 0x36#6, d, a, b, f⟩ := by
  simp [decodeFields]
theorem major37 (c p d a b f) : decodeFields ⟨c, p, 0x37#6, d, a, b, f⟩ = decode37 ⟨c, p, 0x37#6, d, a, b, f⟩ := by
  simp [decodeFields]
theorem major38 (c p d a b f) : decodeFields ⟨c, p, 0x38#6, d, a, b, f⟩ = decode38 ⟨c, p, 0x38#6, d, a, b, f⟩ := by
  simp [decodeFields]
theorem major39 (c p d a b f) : decodeFields ⟨c, p, 0x39#6, d, a, b, f⟩ = decode39 ⟨c, p, 0x39#6, d, a, b, f⟩ := by
  simp [decodeFields]
theorem major3A (c p d a b f) : decodeFields ⟨c, p, 0x3A#6, d, a, b, f⟩ = decode3A ⟨c, p, 0x3A#6, d, a, b, f⟩ := by
  simp [decodeFields]
theorem major3B (c p d a b f) : decodeFields ⟨c, p, 0x3B#6, d, a, b, f⟩ = decode3B ⟨c, p, 0x3B#6, d, a, b, f⟩ := by
  simp [decodeFields]
theorem major3C (c p d a b f) : decodeFields ⟨c, p, 0x3C#6, d, a, b, f⟩ = decode3C ⟨c, p, 0x3C#6, d, a, b, f⟩ := by
  simp [decodeFields]
theorem major3F (c p d a b f) : decodeFields ⟨c, p, 0x3F#6, d, a, b, f⟩ = decode3F ⟨c, p, 0x3F#6, d, a, b, f⟩ := by
  simp [decodeFields]
theorem majorVectorFloat (v : BitVec 1) (c p d a b f) :
    decodeFields ⟨c, p, 0x08#5 ++ v, d, a, b, f⟩ = decodeVectorFloat ⟨c, p, 0x08#5 ++ v, d, a, b, f⟩ := by
  simp [decodeFields, is51, high51, in51_2_4]
theorem majorVectorInt (w : BitVec 2) (c p d a b f) : decodeFields ⟨c, p, 0x2#4 ++ w, d, a, b, f⟩ = decodeVectorInt ⟨c, p, 0x2#4 ++ w, d, a, b, f⟩ := by
  simp [decodeFields, is42, high42]
theorem nop : Statement (.nop) := by
  rintro w - ⟨⟩
  simp [major00, decode00]
theorem pfx (m : BitVec 3) (r : BitVec 3) (s : BitVec 6) (z : BitVec 1) (t : BitVec 2) : Statement (.pfx m r s z t) := by
  rintro w - ⟨⟩
  simp [Instr.wf] at w
  simp [major3F, decode3F, low33, high33, in33_3_2, in33_5_1, low12, high12, w]
theorem iaddS64 (d : BitVec 6) (a : BitVec 6) (b : BitVec 6) : Statement (.iaddS64 d a b) := by
  rintro w - ⟨⟩
  simp [major01, decode01]
theorem iaddS32 (d : BitVec 6) (a : BitVec 6) (b : BitVec 6) : Statement (.iaddS32 d a b) := by
  rintro w - ⟨⟩
  simp [major02, decode02]
theorem iaddV (w0 : BitVec 2) (d : BitVec 6) (a : BitVec 6) (b : BitVec 6) : Statement (.iaddV w0 d a b) := by
  rintro w - ⟨⟩
  simp [majorVectorInt, decodeVectorInt, low42]
theorem isubS64 (d : BitVec 6) (a : BitVec 6) (b : BitVec 6) : Statement (.isubS64 d a b) := by
  rintro w - ⟨⟩
  simp [major01, decode01]
theorem isubS32 (d : BitVec 6) (a : BitVec 6) (b : BitVec 6) : Statement (.isubS32 d a b) := by
  rintro w - ⟨⟩
  simp [major02, decode02]
theorem isubV (w0 : BitVec 2) (d : BitVec 6) (a : BitVec 6) (b : BitVec 6) : Statement (.isubV w0 d a b) := by
  rintro w - ⟨⟩
  simp [majorVectorInt, decodeVectorInt, low42]
theorem imulS64 (d : BitVec 6) (a : BitVec 6) (b : BitVec 6) : Statement (.imulS64 d a b) := by
  rintro w - ⟨⟩
  simp [major01, decode01]
theorem imulS32 (d : BitVec 6) (a : BitVec 6) (b : BitVec 6) : Statement (.imulS32 d a b) := by
  rintro w - ⟨⟩
  simp [major02, decode02]
theorem imulV (w0 : BitVec 2) (d : BitVec 6) (a : BitVec 6) (b : BitVec 6) : Statement (.imulV w0 d a b) := by
  rintro w - ⟨⟩
  simp [majorVectorInt, decodeVectorInt, low42]
theorem imulhIS64 (d : BitVec 6) (a : BitVec 6) (b : BitVec 6) : Statement (.imulhIS64 d a b) := by
  rintro w - ⟨⟩
  simp [major01, decode01]
theorem imulhIS32 (d : BitVec 6) (a : BitVec 6) (b : BitVec 6) : Statement (.imulhIS32 d a b) := by
  rintro w - ⟨⟩
  simp [major02, decode02]
theorem imulhIV (w0 : BitVec 2) (d : BitVec 6) (a : BitVec 6) (b : BitVec 6) : Statement (.imulhIV w0 d a b) := by
  rintro w - ⟨⟩
  simp [majorVectorInt, decodeVectorInt, low42]
theorem imulhNS64 (d : BitVec 6) (a : BitVec 6) (b : BitVec 6) : Statement (.imulhNS64 d a b) := by
  rintro w - ⟨⟩
  simp [major01, decode01]
theorem imulhNS32 (d : BitVec 6) (a : BitVec 6) (b : BitVec 6) : Statement (.imulhNS32 d a b) := by
  rintro w - ⟨⟩
  simp [major02, decode02]
theorem imulhNV (w0 : BitVec 2) (d : BitVec 6) (a : BitVec 6) (b : BitVec 6) : Statement (.imulhNV w0 d a b) := by
  rintro w - ⟨⟩
  simp [majorVectorInt, decodeVectorInt, low42]
theorem imadS64 (d : BitVec 6) (a : BitVec 6) (b : BitVec 6) : Statement (.imadS64 d a b) := by
  rintro w - ⟨⟩
  simp [major01, decode01]
theorem imadS32 (d : BitVec 6) (a : BitVec 6) (b : BitVec 6) : Statement (.imadS32 d a b) := by
  rintro w - ⟨⟩
  simp [major02, decode02]
theorem imadV (w0 : BitVec 2) (d : BitVec 6) (a : BitVec 6) (b : BitVec 6) : Statement (.imadV w0 d a b) := by
  rintro w - ⟨⟩
  simp [majorVectorInt, decodeVectorInt, low42]
theorem idivIS64 (d : BitVec 6) (a : BitVec 6) (b : BitVec 6) : Statement (.idivIS64 d a b) := by
  rintro w - ⟨⟩
  simp [major01, decode01]
theorem idivIS32 (d : BitVec 6) (a : BitVec 6) (b : BitVec 6) : Statement (.idivIS32 d a b) := by
  rintro w - ⟨⟩
  simp [major02, decode02]
theorem idivIV (w0 : BitVec 2) (d : BitVec 6) (a : BitVec 6) (b : BitVec 6) : Statement (.idivIV w0 d a b) := by
  rintro w - ⟨⟩
  simp [majorVectorInt, decodeVectorInt, low42]
theorem idivNS64 (d : BitVec 6) (a : BitVec 6) (b : BitVec 6) : Statement (.idivNS64 d a b) := by
  rintro w - ⟨⟩
  simp [major01, decode01]
theorem idivNS32 (d : BitVec 6) (a : BitVec 6) (b : BitVec 6) : Statement (.idivNS32 d a b) := by
  rintro w - ⟨⟩
  simp [major02, decode02]
theorem idivNV (w0 : BitVec 2) (d : BitVec 6) (a : BitVec 6) (b : BitVec 6) : Statement (.idivNV w0 d a b) := by
  rintro w - ⟨⟩
  simp [majorVectorInt, decodeVectorInt, low42]
theorem iremIS64 (d : BitVec 6) (a : BitVec 6) (b : BitVec 6) : Statement (.iremIS64 d a b) := by
  rintro w - ⟨⟩
  simp [major01, decode01]
theorem iremIS32 (d : BitVec 6) (a : BitVec 6) (b : BitVec 6) : Statement (.iremIS32 d a b) := by
  rintro w - ⟨⟩
  simp [major02, decode02]
theorem iremIV (w0 : BitVec 2) (d : BitVec 6) (a : BitVec 6) (b : BitVec 6) : Statement (.iremIV w0 d a b) := by
  rintro w - ⟨⟩
  simp [majorVectorInt, decodeVectorInt, low42]
theorem iremNS64 (d : BitVec 6) (a : BitVec 6) (b : BitVec 6) : Statement (.iremNS64 d a b) := by
  rintro w - ⟨⟩
  simp [major01, decode01]
theorem iremNS32 (d : BitVec 6) (a : BitVec 6) (b : BitVec 6) : Statement (.iremNS32 d a b) := by
  rintro w - ⟨⟩
  simp [major02, decode02]
theorem iremNV (w0 : BitVec 2) (d : BitVec 6) (a : BitVec 6) (b : BitVec 6) : Statement (.iremNV w0 d a b) := by
  rintro w - ⟨⟩
  simp [majorVectorInt, decodeVectorInt, low42]
theorem iminIS64 (d : BitVec 6) (a : BitVec 6) (b : BitVec 6) : Statement (.iminIS64 d a b) := by
  rintro w - ⟨⟩
  simp [major01, decode01]
theorem iminIS32 (d : BitVec 6) (a : BitVec 6) (b : BitVec 6) : Statement (.iminIS32 d a b) := by
  rintro w - ⟨⟩
  simp [major02, decode02]
theorem iminIV (w0 : BitVec 2) (d : BitVec 6) (a : BitVec 6) (b : BitVec 6) : Statement (.iminIV w0 d a b) := by
  rintro w - ⟨⟩
  simp [majorVectorInt, decodeVectorInt, low42]
theorem iminNS64 (d : BitVec 6) (a : BitVec 6) (b : BitVec 6) : Statement (.iminNS64 d a b) := by
  rintro w - ⟨⟩
  simp [major01, decode01]
theorem iminNS32 (d : BitVec 6) (a : BitVec 6) (b : BitVec 6) : Statement (.iminNS32 d a b) := by
  rintro w - ⟨⟩
  simp [major02, decode02]
theorem iminNV (w0 : BitVec 2) (d : BitVec 6) (a : BitVec 6) (b : BitVec 6) : Statement (.iminNV w0 d a b) := by
  rintro w - ⟨⟩
  simp [majorVectorInt, decodeVectorInt, low42]
theorem imaxIS64 (d : BitVec 6) (a : BitVec 6) (b : BitVec 6) : Statement (.imaxIS64 d a b) := by
  rintro w - ⟨⟩
  simp [major01, decode01]
theorem imaxIS32 (d : BitVec 6) (a : BitVec 6) (b : BitVec 6) : Statement (.imaxIS32 d a b) := by
  rintro w - ⟨⟩
  simp [major02, decode02]
theorem imaxIV (w0 : BitVec 2) (d : BitVec 6) (a : BitVec 6) (b : BitVec 6) : Statement (.imaxIV w0 d a b) := by
  rintro w - ⟨⟩
  simp [majorVectorInt, decodeVectorInt, low42]
theorem imaxNS64 (d : BitVec 6) (a : BitVec 6) (b : BitVec 6) : Statement (.imaxNS64 d a b) := by
  rintro w - ⟨⟩
  simp [major01, decode01]
theorem imaxNS32 (d : BitVec 6) (a : BitVec 6) (b : BitVec 6) : Statement (.imaxNS32 d a b) := by
  rintro w - ⟨⟩
  simp [major02, decode02]
theorem imaxNV (w0 : BitVec 2) (d : BitVec 6) (a : BitVec 6) (b : BitVec 6) : Statement (.imaxNV w0 d a b) := by
  rintro w - ⟨⟩
  simp [majorVectorInt, decodeVectorInt, low42]
theorem iabsS64 (d : BitVec 6) (a : BitVec 6) : Statement (.iabsS64 d a) := by
  rintro w - ⟨⟩
  simp [major01, decode01]
theorem iabsS32 (d : BitVec 6) (a : BitVec 6) : Statement (.iabsS32 d a) := by
  rintro w - ⟨⟩
  simp [major02, decode02]
theorem iabsV (w0 : BitVec 2) (d : BitVec 6) (a : BitVec 6) : Statement (.iabsV w0 d a) := by
  rintro w - ⟨⟩
  simp [majorVectorInt, decodeVectorInt, low42]
theorem inegS64 (d : BitVec 6) (a : BitVec 6) : Statement (.inegS64 d a) := by
  rintro w - ⟨⟩
  simp [major01, decode01]
theorem inegS32 (d : BitVec 6) (a : BitVec 6) : Statement (.inegS32 d a) := by
  rintro w - ⟨⟩
  simp [major02, decode02]
theorem inegV (w0 : BitVec 2) (d : BitVec 6) (a : BitVec 6) : Statement (.inegV w0 d a) := by
  rintro w - ⟨⟩
  simp [majorVectorInt, decodeVectorInt, low42]
theorem andS64 (d : BitVec 6) (a : BitVec 6) (b : BitVec 6) : Statement (.andS64 d a b) := by
  rintro w - ⟨⟩
  simp [major01, decode01]
theorem andS32 (d : BitVec 6) (a : BitVec 6) (b : BitVec 6) : Statement (.andS32 d a b) := by
  rintro w - ⟨⟩
  simp [major02, decode02]
theorem andV (w0 : BitVec 2) (d : BitVec 6) (a : BitVec 6) (b : BitVec 6) : Statement (.andV w0 d a b) := by
  rintro w - ⟨⟩
  simp [majorVectorInt, decodeVectorInt, low42]
theorem orS64 (d : BitVec 6) (a : BitVec 6) (b : BitVec 6) : Statement (.orS64 d a b) := by
  rintro w - ⟨⟩
  simp [major01, decode01]
theorem orS32 (d : BitVec 6) (a : BitVec 6) (b : BitVec 6) : Statement (.orS32 d a b) := by
  rintro w - ⟨⟩
  simp [major02, decode02]
theorem orV (w0 : BitVec 2) (d : BitVec 6) (a : BitVec 6) (b : BitVec 6) : Statement (.orV w0 d a b) := by
  rintro w - ⟨⟩
  simp [majorVectorInt, decodeVectorInt, low42]
theorem xorS64 (d : BitVec 6) (a : BitVec 6) (b : BitVec 6) : Statement (.xorS64 d a b) := by
  rintro w - ⟨⟩
  simp [major01, decode01]
theorem xorS32 (d : BitVec 6) (a : BitVec 6) (b : BitVec 6) : Statement (.xorS32 d a b) := by
  rintro w - ⟨⟩
  simp [major02, decode02]
theorem xorV (w0 : BitVec 2) (d : BitVec 6) (a : BitVec 6) (b : BitVec 6) : Statement (.xorV w0 d a b) := by
  rintro w - ⟨⟩
  simp [majorVectorInt, decodeVectorInt, low42]
theorem andnS64 (d : BitVec 6) (a : BitVec 6) (b : BitVec 6) : Statement (.andnS64 d a b) := by
  rintro w - ⟨⟩
  simp [major01, decode01]
theorem andnS32 (d : BitVec 6) (a : BitVec 6) (b : BitVec 6) : Statement (.andnS32 d a b) := by
  rintro w - ⟨⟩
  simp [major02, decode02]
theorem andnV (w0 : BitVec 2) (d : BitVec 6) (a : BitVec 6) (b : BitVec 6) : Statement (.andnV w0 d a b) := by
  rintro w - ⟨⟩
  simp [majorVectorInt, decodeVectorInt, low42]
theorem notS64 (d : BitVec 6) (a : BitVec 6) : Statement (.notS64 d a) := by
  rintro w - ⟨⟩
  simp [major01, decode01]
theorem notS32 (d : BitVec 6) (a : BitVec 6) : Statement (.notS32 d a) := by
  rintro w - ⟨⟩
  simp [major02, decode02]
theorem notV (w0 : BitVec 2) (d : BitVec 6) (a : BitVec 6) : Statement (.notV w0 d a) := by
  rintro w - ⟨⟩
  simp [majorVectorInt, decodeVectorInt, low42]
theorem shlS64 (d : BitVec 6) (a : BitVec 6) (b : BitVec 6) : Statement (.shlS64 d a b) := by
  rintro w - ⟨⟩
  simp [major01, decode01]
theorem shlS32 (d : BitVec 6) (a : BitVec 6) (b : BitVec 6) : Statement (.shlS32 d a b) := by
  rintro w - ⟨⟩
  simp [major02, decode02]
theorem shlV (w0 : BitVec 2) (d : BitVec 6) (a : BitVec 6) (b : BitVec 6) : Statement (.shlV w0 d a b) := by
  rintro w - ⟨⟩
  simp [majorVectorInt, decodeVectorInt, low42]
theorem shrS64 (d : BitVec 6) (a : BitVec 6) (b : BitVec 6) : Statement (.shrS64 d a b) := by
  rintro w - ⟨⟩
  simp [major01, decode01]
theorem shrS32 (d : BitVec 6) (a : BitVec 6) (b : BitVec 6) : Statement (.shrS32 d a b) := by
  rintro w - ⟨⟩
  simp [major02, decode02]
theorem shrV (w0 : BitVec 2) (d : BitVec 6) (a : BitVec 6) (b : BitVec 6) : Statement (.shrV w0 d a b) := by
  rintro w - ⟨⟩
  simp [majorVectorInt, decodeVectorInt, low42]
theorem sarS64 (d : BitVec 6) (a : BitVec 6) (b : BitVec 6) : Statement (.sarS64 d a b) := by
  rintro w - ⟨⟩
  simp [major01, decode01]
theorem sarS32 (d : BitVec 6) (a : BitVec 6) (b : BitVec 6) : Statement (.sarS32 d a b) := by
  rintro w - ⟨⟩
  simp [major02, decode02]
theorem sarV (w0 : BitVec 2) (d : BitVec 6) (a : BitVec 6) (b : BitVec 6) : Statement (.sarV w0 d a b) := by
  rintro w - ⟨⟩
  simp [majorVectorInt, decodeVectorInt, low42]
theorem rotS64 (d : BitVec 6) (a : BitVec 6) (b : BitVec 6) : Statement (.rotS64 d a b) := by
  rintro w - ⟨⟩
  simp [major01, decode01]
theorem rotS32 (d : BitVec 6) (a : BitVec 6) (b : BitVec 6) : Statement (.rotS32 d a b) := by
  rintro w - ⟨⟩
  simp [major02, decode02]
theorem rotV (w0 : BitVec 2) (d : BitVec 6) (a : BitVec 6) (b : BitVec 6) : Statement (.rotV w0 d a b) := by
  rintro w - ⟨⟩
  simp [majorVectorInt, decodeVectorInt, low42]
theorem bfxIS64 (d : BitVec 6) (a : BitVec 6) (b : BitVec 6) : Statement (.bfxIS64 d a b) := by
  rintro w - ⟨⟩
  simp [major01, decode01]
theorem bfxIS32 (d : BitVec 6) (a : BitVec 6) (b : BitVec 6) : Statement (.bfxIS32 d a b) := by
  rintro w - ⟨⟩
  simp [major02, decode02]
theorem bfxIV (w0 : BitVec 2) (d : BitVec 6) (a : BitVec 6) (b : BitVec 6) : Statement (.bfxIV w0 d a b) := by
  rintro w - ⟨⟩
  simp [majorVectorInt, decodeVectorInt, low42]
theorem bfxNS64 (d : BitVec 6) (a : BitVec 6) (b : BitVec 6) : Statement (.bfxNS64 d a b) := by
  rintro w - ⟨⟩
  simp [major01, decode01]
theorem bfxNS32 (d : BitVec 6) (a : BitVec 6) (b : BitVec 6) : Statement (.bfxNS32 d a b) := by
  rintro w - ⟨⟩
  simp [major02, decode02]
theorem bfxNV (w0 : BitVec 2) (d : BitVec 6) (a : BitVec 6) (b : BitVec 6) : Statement (.bfxNV w0 d a b) := by
  rintro w - ⟨⟩
  simp [majorVectorInt, decodeVectorInt, low42]
theorem bfiS64 (d : BitVec 6) (a : BitVec 6) (b : BitVec 6) : Statement (.bfiS64 d a b) := by
  rintro w - ⟨⟩
  simp [major01, decode01]
theorem bfiS32 (d : BitVec 6) (a : BitVec 6) (b : BitVec 6) : Statement (.bfiS32 d a b) := by
  rintro w - ⟨⟩
  simp [major02, decode02]
theorem bfiV (w0 : BitVec 2) (d : BitVec 6) (a : BitVec 6) (b : BitVec 6) : Statement (.bfiV w0 d a b) := by
  rintro w - ⟨⟩
  simp [majorVectorInt, decodeVectorInt, low42]
theorem popcS64 (d : BitVec 6) (a : BitVec 6) : Statement (.popcS64 d a) := by
  rintro w - ⟨⟩
  simp [major01, decode01]
theorem popcS32 (d : BitVec 6) (a : BitVec 6) : Statement (.popcS32 d a) := by
  rintro w - ⟨⟩
  simp [major02, decode02]
theorem popcV (w0 : BitVec 2) (d : BitVec 6) (a : BitVec 6) : Statement (.popcV w0 d a) := by
  rintro w - ⟨⟩
  simp [majorVectorInt, decodeVectorInt, low42]
theorem clzS64 (d : BitVec 6) (a : BitVec 6) : Statement (.clzS64 d a) := by
  rintro w - ⟨⟩
  simp [major01, decode01]
theorem clzS32 (d : BitVec 6) (a : BitVec 6) : Statement (.clzS32 d a) := by
  rintro w - ⟨⟩
  simp [major02, decode02]
theorem clzV (w0 : BitVec 2) (d : BitVec 6) (a : BitVec 6) : Statement (.clzV w0 d a) := by
  rintro w - ⟨⟩
  simp [majorVectorInt, decodeVectorInt, low42]
theorem brevS64 (d : BitVec 6) (a : BitVec 6) : Statement (.brevS64 d a) := by
  rintro w - ⟨⟩
  simp [major01, decode01]
theorem brevS32 (d : BitVec 6) (a : BitVec 6) : Statement (.brevS32 d a) := by
  rintro w - ⟨⟩
  simp [major02, decode02]
theorem brevV (w0 : BitVec 2) (d : BitVec 6) (a : BitVec 6) : Statement (.brevV w0 d a) := by
  rintro w - ⟨⟩
  simp [majorVectorInt, decodeVectorInt, low42]
theorem movS64 (d : BitVec 6) (a : BitVec 6) : Statement (.movS64 d a) := by
  rintro w - ⟨⟩
  simp [major01, decode01]
theorem movS32 (d : BitVec 6) (a : BitVec 6) : Statement (.movS32 d a) := by
  rintro w - ⟨⟩
  simp [major02, decode02]
theorem movV (w0 : BitVec 2) (d : BitVec 6) (a : BitVec 6) (b : BitVec 6) : Statement (.movV w0 d a b) := by
  rintro w - ⟨⟩
  simp [Instr.wf] at w
  simp [majorVectorInt, decodeVectorInt, low42, w]
theorem icmpS64 (d : BitVec 6) (a : BitVec 6) (b : BitVec 6) (k : BitVec 3) : Statement (.icmpS64 d a b k) := by
  rintro w - ⟨⟩
  simp [Instr.wf] at w
  simp [major01, decode01, low33, high33, is33, w]
theorem icmpS32 (d : BitVec 6) (a : BitVec 6) (b : BitVec 6) (k : BitVec 3) : Statement (.icmpS32 d a b k) := by
  rintro w - ⟨⟩
  simp [Instr.wf] at w
  simp [major02, decode02, low33, high33, is33, w]
theorem icmpV (w0 : BitVec 2) (d : BitVec 3) (a : BitVec 6) (b : BitVec 6) (k : BitVec 3) : Statement (.icmpV w0 d a b k) := by
  rintro w - ⟨⟩
  simp [Instr.wf] at w
  simp [majorVectorInt, decodeVectorInt, low33, high33, is33, low42, w]
theorem selS64 (d : BitVec 6) (a : BitVec 6) (b : BitVec 6) : Statement (.selS64 d a b) := by
  rintro w - ⟨⟩
  simp [major01, decode01]
theorem selS32 (d : BitVec 6) (a : BitVec 6) (b : BitVec 6) : Statement (.selS32 d a b) := by
  rintro w - ⟨⟩
  simp [major02, decode02]
theorem selV (w0 : BitVec 2) (d : BitVec 6) (a : BitVec 6) (b : BitVec 6) (k : BitVec 3) : Statement (.selV w0 d a b k) := by
  rintro w - ⟨⟩
  simp [majorVectorInt, decodeVectorInt, low33, high33, is33, low42]
theorem leaS64 (d : BitVec 6) (a : BitVec 6) (b : BitVec 6) (k : BitVec 2) : Statement (.leaS64 d a b k) := by
  rintro w - ⟨⟩
  simp [major01, decode01, low42, high42, is42, in42_3_3]
theorem leaS32 (d : BitVec 6) (a : BitVec 6) (b : BitVec 6) (k : BitVec 2) : Statement (.leaS32 d a b k) := by
  rintro w - ⟨⟩
  simp [major02, decode02, low42, high42, is42, in42_3_3]
theorem leaV (w0 : BitVec 2) (d : BitVec 6) (a : BitVec 6) (b : BitVec 6) (k : BitVec 2) : Statement (.leaV w0 d a b k) := by
  rintro w - ⟨⟩
  simp [majorVectorInt, decodeVectorInt, low42, high42, is42, in42_3_3]
theorem iaddImmS (d : BitVec 6) (a : BitVec 6) (j : BitVec 12) : Statement (.iaddImmS d a j) := by
  rintro w - ⟨⟩
  simp [major03, decode03, join6_6]
theorem iaddImmV (d : BitVec 6) (a : BitVec 6) (j : BitVec 12) : Statement (.iaddImmV d a j) := by
  rintro w - ⟨⟩
  simp [major0C, decode0C, join6_6]
theorem moviS (d : BitVec 6) (j : BitVec 18) : Statement (.moviS d j) := by
  rintro w - ⟨⟩
  simp [major04, decode04, join18]
theorem moviV (d : BitVec 6) (j : BitVec 18) : Statement (.moviV d j) := by
  rintro w - ⟨⟩
  simp [major0D, decode0D, join18]
theorem movhiS (d : BitVec 6) (j : BitVec 18) : Statement (.movhiS d j) := by
  rintro w - ⟨⟩
  simp [major05, decode05, join18]
theorem movhiV (d : BitVec 6) (j : BitVec 18) : Statement (.movhiV d j) := by
  rintro w - ⟨⟩
  simp [major0E, decode0E, join18]
theorem sread (d : BitVec 6) (n : BitVec 11) : Statement (.sread d n) := by
  rintro w - ⟨⟩
  simp [Instr.wf] at w
  simp [major06, decode06, low15, high15, join5_6, w]
theorem swrite (a : BitVec 6) (n : BitVec 11) : Statement (.swrite a n) := by
  rintro w - ⟨⟩
  simp [Instr.wf] at w
  simp [major06, decode06, low15, high15, join5_6, w]
theorem shlImmS (d : BitVec 6) (a : BitVec 6) (n : BitVec 6) : Statement (.shlImmS d a n) := by
  rintro w - ⟨⟩
  simp [major07, decode07]
theorem shrImmS (d : BitVec 6) (a : BitVec 6) (n : BitVec 6) : Statement (.shrImmS d a n) := by
  rintro w - ⟨⟩
  simp [major07, decode07]
theorem sarImmS (d : BitVec 6) (a : BitVec 6) (n : BitVec 6) : Statement (.sarImmS d a n) := by
  rintro w - ⟨⟩
  simp [major07, decode07]
theorem rotImmS (d : BitVec 6) (a : BitVec 6) (n : BitVec 6) : Statement (.rotImmS d a n) := by
  rintro w - ⟨⟩
  simp [major07, decode07]
theorem shlImmV (d : BitVec 6) (a : BitVec 6) (n : BitVec 5) : Statement (.shlImmV d a n) := by
  rintro w - ⟨⟩
  simp [major0F, decode0F, low15, high15]
theorem shrImmV (d : BitVec 6) (a : BitVec 6) (n : BitVec 5) : Statement (.shrImmV d a n) := by
  rintro w - ⟨⟩
  simp [major0F, decode0F, low15, high15]
theorem sarImmV (d : BitVec 6) (a : BitVec 6) (n : BitVec 5) : Statement (.sarImmV d a n) := by
  rintro w - ⟨⟩
  simp [major0F, decode0F, low15, high15]
theorem rotImmV (d : BitVec 6) (a : BitVec 6) (n : BitVec 5) : Statement (.rotImmV d a n) := by
  rintro w - ⟨⟩
  simp [major0F, decode0F, low15, high15]
theorem faddV (v : BitVec 1) (d : BitVec 6) (a : BitVec 6) (b : BitVec 6) : Statement (.faddV v d a b) := by
  rintro w - ⟨⟩
  simp [majorVectorFloat, decodeVectorFloat, low51]
theorem faddS (d : BitVec 6) (a : BitVec 6) (b : BitVec 6) : Statement (.faddS d a b) := by
  rintro w - ⟨⟩
  simp [major12, decode12]
theorem fsubV (v : BitVec 1) (d : BitVec 6) (a : BitVec 6) (b : BitVec 6) : Statement (.fsubV v d a b) := by
  rintro w - ⟨⟩
  simp [majorVectorFloat, decodeVectorFloat, low51]
theorem fsubS (d : BitVec 6) (a : BitVec 6) (b : BitVec 6) : Statement (.fsubS d a b) := by
  rintro w - ⟨⟩
  simp [major12, decode12]
theorem fmulV (v : BitVec 1) (d : BitVec 6) (a : BitVec 6) (b : BitVec 6) : Statement (.fmulV v d a b) := by
  rintro w - ⟨⟩
  simp [majorVectorFloat, decodeVectorFloat, low51]
theorem fmulS (d : BitVec 6) (a : BitVec 6) (b : BitVec 6) : Statement (.fmulS d a b) := by
  rintro w - ⟨⟩
  simp [major12, decode12]
theorem ffmaV (v : BitVec 1) (d : BitVec 6) (a : BitVec 6) (b : BitVec 6) : Statement (.ffmaV v d a b) := by
  rintro w - ⟨⟩
  simp [majorVectorFloat, decodeVectorFloat, low51]
theorem ffmaS (d : BitVec 6) (a : BitVec 6) (b : BitVec 6) : Statement (.ffmaS d a b) := by
  rintro w - ⟨⟩
  simp [major12, decode12]
theorem fminV (v : BitVec 1) (d : BitVec 6) (a : BitVec 6) (b : BitVec 6) : Statement (.fminV v d a b) := by
  rintro w - ⟨⟩
  simp [majorVectorFloat, decodeVectorFloat, low51]
theorem fminS (d : BitVec 6) (a : BitVec 6) (b : BitVec 6) : Statement (.fminS d a b) := by
  rintro w - ⟨⟩
  simp [major12, decode12]
theorem fmaxV (v : BitVec 1) (d : BitVec 6) (a : BitVec 6) (b : BitVec 6) : Statement (.fmaxV v d a b) := by
  rintro w - ⟨⟩
  simp [majorVectorFloat, decodeVectorFloat, low51]
theorem fmaxS (d : BitVec 6) (a : BitVec 6) (b : BitVec 6) : Statement (.fmaxS d a b) := by
  rintro w - ⟨⟩
  simp [major12, decode12]
theorem fsgnCpyV (v : BitVec 1) (d : BitVec 6) (a : BitVec 6) (b : BitVec 6) : Statement (.fsgnCpyV v d a b) := by
  rintro w - ⟨⟩
  simp [majorVectorFloat, decodeVectorFloat, low51]
theorem fsgnCpyS (d : BitVec 6) (a : BitVec 6) (b : BitVec 6) : Statement (.fsgnCpyS d a b) := by
  rintro w - ⟨⟩
  simp [major12, decode12]
theorem fsgnNegV (v : BitVec 1) (d : BitVec 6) (a : BitVec 6) (b : BitVec 6) : Statement (.fsgnNegV v d a b) := by
  rintro w - ⟨⟩
  simp [majorVectorFloat, decodeVectorFloat, low51]
theorem fsgnNegS (d : BitVec 6) (a : BitVec 6) (b : BitVec 6) : Statement (.fsgnNegS d a b) := by
  rintro w - ⟨⟩
  simp [major12, decode12]
theorem fsgnXorV (v : BitVec 1) (d : BitVec 6) (a : BitVec 6) (b : BitVec 6) : Statement (.fsgnXorV v d a b) := by
  rintro w - ⟨⟩
  simp [majorVectorFloat, decodeVectorFloat, low51]
theorem fsgnXorS (d : BitVec 6) (a : BitVec 6) (b : BitVec 6) : Statement (.fsgnXorS d a b) := by
  rintro w - ⟨⟩
  simp [major12, decode12]
theorem fcmpV (v : BitVec 1) (d : BitVec 3) (a : BitVec 6) (b : BitVec 6) (k : BitVec 3) : Statement (.fcmpV v d a b k) := by
  rintro w - ⟨⟩
  simp [Instr.wf] at w
  simp [majorVectorFloat, decodeVectorFloat, low33, high33, is33, low51, w]
theorem fcmpS (d : BitVec 6) (a : BitVec 6) (b : BitVec 6) (k : BitVec 3) : Statement (.fcmpS d a b k) := by
  rintro w - ⟨⟩
  simp [Instr.wf] at w
  simp [major12, decode12, low33, high33, is33, w]
theorem fclassV (v : BitVec 1) (d : BitVec 6) (a : BitVec 6) : Statement (.fclassV v d a) := by
  rintro w - ⟨⟩
  simp [majorVectorFloat, decodeVectorFloat, low51]
theorem fclassS (d : BitVec 6) (a : BitVec 6) : Statement (.fclassS d a) := by
  rintro w - ⟨⟩
  simp [major12, decode12]
theorem frndV (v : BitVec 1) (d : BitVec 6) (a : BitVec 6) (k : BitVec 3) : Statement (.frndV v d a k) := by
  rintro w - ⟨⟩
  simp [Instr.wf] at w
  simp [majorVectorFloat, decodeVectorFloat, low33, high33, is33, low51, w]
theorem frndS (d : BitVec 6) (a : BitVec 6) (k : BitVec 3) : Statement (.frndS d a k) := by
  rintro w - ⟨⟩
  simp [Instr.wf] at w
  simp [major12, decode12, low33, high33, is33, w]
theorem redf (d : BitVec 6) (a : BitVec 6) (o : BitVec 2) : Statement (.redf d a o) := by
  rintro w - ⟨⟩
  simp [Instr.wf] at w
  simp [major13, decode13, low42, high42, w]
theorem scanfAddInc (d : BitVec 6) (a : BitVec 6) : Statement (.scanfAddInc d a) := by
  rintro w - ⟨⟩
  simp [major13, decode13]
theorem scanfAddExc (d : BitVec 6) (a : BitVec 6) : Statement (.scanfAddExc d a) := by
  rintro w - ⟨⟩
  simp [major13, decode13]
theorem scanfMinInc (d : BitVec 6) (a : BitVec 6) : Statement (.scanfMinInc d a) := by
  rintro w - ⟨⟩
  simp [major13, decode13]
theorem scanfMaxInc (d : BitVec 6) (a : BitVec 6) : Statement (.scanfMaxInc d a) := by
  rintro w - ⟨⟩
  simp [major13, decode13]
theorem scanfMinExc (d : BitVec 6) (a : BitVec 6) : Statement (.scanfMinExc d a) := by
  rintro w - ⟨⟩
  simp [major13, decode13]
theorem scanfMaxExc (d : BitVec 6) (a : BitVec 6) : Statement (.scanfMaxExc d a) := by
  rintro w - ⟨⟩
  simp [major13, decode13]
theorem setfmt (a : BitVec 6) : Statement (.setfmt a) := by
  rintro w - ⟨⟩
  simp [major14, decode14]
theorem getfmt (d : BitVec 6) : Statement (.getfmt d) := by
  rintro w - ⟨⟩
  simp [major14, decode14]
theorem setnm (a : BitVec 6) (b : BitVec 6) : Statement (.setnm a b) := by
  rintro w - ⟨⟩
  simp [major14, decode14]
theorem getnm (d : BitVec 6) : Statement (.getnm d) := by
  rintro w - ⟨⟩
  simp [major14, decode14]
theorem cvtfNarrow (d : BitVec 6) (a : BitVec 6) (f : BitVec 2) : Statement (.cvtfNarrow d a f) := by
  rintro w - ⟨⟩
  simp [major16, decode16, low42, high42]
theorem cvtfWiden (d : BitVec 6) (a : BitVec 6) (f : BitVec 2) : Statement (.cvtfWiden d a f) := by
  rintro w - ⟨⟩
  simp [major16, decode16, low42, high42]
theorem cvfi (d : BitVec 6) (a : BitVec 6) (f : BitVec 3) : Statement (.cvfi d a f) := by
  rintro w - ⟨⟩
  revert w
  rcases all3 f with rfl | rfl | rfl | rfl | rfl | rfl | rfl | rfl <;>
  simp [Instr.wf, major16, decode16]
theorem cvti (d : BitVec 6) (a : BitVec 6) (f : BitVec 1) : Statement (.cvti d a f) := by
  rintro w - ⟨⟩
  simp [major16, decode16, low51, high51, in51_2_4, in51_3_3]
theorem pack4 (d : BitVec 6) (a : BitVec 6) (b : BitVec 6) : Statement (.pack4 d a b) := by
  rintro w - ⟨⟩
  simp [major16, decode16]
theorem unpk4 (d : BitVec 6) (a : BitVec 6) (b : BitVec 6) : Statement (.unpk4 d a b) := by
  rintro w - ⟨⟩
  simp [major16, decode16]
theorem frcp (d : BitVec 6) (a : BitVec 6) : Statement (.frcp d a) := by
  rintro w - ⟨⟩
  simp [major17, decode17]
theorem frsq (d : BitVec 6) (a : BitVec 6) : Statement (.frsq d a) := by
  rintro w - ⟨⟩
  simp [major17, decode17]
theorem fsqrt (d : BitVec 6) (a : BitVec 6) : Statement (.fsqrt d a) := by
  rintro w - ⟨⟩
  simp [major17, decode17]
theorem fexp2 (d : BitVec 6) (a : BitVec 6) : Statement (.fexp2 d a) := by
  rintro w - ⟨⟩
  simp [major17, decode17]
theorem flog2 (d : BitVec 6) (a : BitVec 6) : Statement (.flog2 d a) := by
  rintro w - ⟨⟩
  simp [major17, decode17]
theorem fsin (d : BitVec 6) (a : BitVec 6) : Statement (.fsin d a) := by
  rintro w - ⟨⟩
  simp [major17, decode17]
theorem fcos (d : BitVec 6) (a : BitVec 6) : Statement (.fcos d a) := by
  rintro w - ⟨⟩
  simp [major17, decode17]
theorem ftanh (d : BitVec 6) (a : BitVec 6) : Statement (.ftanh d a) := by
  rintro w - ⟨⟩
  simp [major17, decode17]
theorem br (j : BitVec 24) : Statement (.br j) := by
  rintro w - ⟨⟩
  simp [major18, decode18, join24]
theorem brc (k : BitVec 5) (j : BitVec 18) : Statement (.brc k j) := by
  rintro w - ⟨⟩
  simp [Instr.wf] at w
  simp [major19, decode19, low15, high15, join18, w]
theorem brm (m : BitVec 3) (j : BitVec 18) : Statement (.brm m j) := by
  rintro w - ⟨⟩
  simp [major19, decode19, low42, in42_2_3, in42_5_1, low13, high13, join18]
theorem call (v : BitVec 3) (s : BitVec 3) (j : BitVec 18) : Statement (.call v s j) := by
  rintro w - ⟨⟩
  simp [major1A, decode1A, low33, high33, join18]
theorem ret : Statement (.ret) := by
  rintro w - ⟨⟩
  simp [major1B, decode1B]
theorem jtab (d : BitVec 6) (a : BitVec 6) (b : BitVec 6) : Statement (.jtab d a b) := by
  rintro w - ⟨⟩
  simp [major1B, decode1B]
theorem bset (k : BitVec 4) : Statement (.bset k) := by
  rintro w - ⟨⟩
  simp [major1B, decode1B, low24, high24]
theorem join (k : BitVec 4) : Statement (.join k) := by
  rintro w - ⟨⟩
  simp [major1B, decode1B, low24, high24]
theorem barrt : Statement (.barrt) := by
  rintro w - ⟨⟩
  simp [major1B, decode1B]
theorem barrtPub : Statement (.barrtPub) := by
  rintro w - ⟨⟩
  simp [major1B, decode1B]
theorem spawn (a : BitVec 6) (b : BitVec 6) : Statement (.spawn a b) := by
  rintro w - ⟨⟩
  simp [Instr.wf] at w
  simp [major1B, decode1B, w]
theorem exit : Statement (.exit) := by
  rintro w - ⟨⟩
  simp [major1B, decode1B]
theorem park : Statement (.park) := by
  rintro w - ⟨⟩
  simp [major1B, decode1B]
theorem yield : Statement (.yield) := by
  rintro w - ⟨⟩
  simp [major1B, decode1B]
theorem waitw (a : BitVec 6) (b : BitVec 6) : Statement (.waitw a b) := by
  rintro w - ⟨⟩
  simp [major1B, decode1B]
theorem preh (n : BitVec 12) (b : BitVec 6) : Statement (.preh n b) := by
  rintro w - ⟨⟩
  simp [major1B, decode1B, join6_6]
theorem ballot (d : BitVec 3) (a : BitVec 6) : Statement (.ballot d a) := by
  rintro w - ⟨⟩
  simp [major1C, decode1C, low33, high33]
theorem voteAny (d : BitVec 6) (a : BitVec 6) : Statement (.voteAny d a) := by
  rintro w - ⟨⟩
  simp [major1C, decode1C]
theorem voteAll (d : BitVec 6) (a : BitVec 6) : Statement (.voteAll d a) := by
  rintro w - ⟨⟩
  simp [major1C, decode1C]
theorem voteUni (d : BitVec 6) (a : BitVec 6) : Statement (.voteUni d a) := by
  rintro w - ⟨⟩
  simp [major1C, decode1C]
theorem mpopc (d : BitVec 6) (a : BitVec 3) : Statement (.mpopc d a) := by
  rintro w - ⟨⟩
  simp [major1C, decode1C, low33, high33]
theorem mfirst (d : BitVec 6) (a : BitVec 3) : Statement (.mfirst d a) := by
  rintro w - ⟨⟩
  simp [major1C, decode1C, low33, high33]
theorem mand (d : BitVec 3) (a : BitVec 3) (b : BitVec 3) : Statement (.mand d a b) := by
  rintro w - ⟨⟩
  simp [major1C, decode1C, low33, high33]
theorem mor (d : BitVec 3) (a : BitVec 3) (b : BitVec 3) : Statement (.mor d a b) := by
  rintro w - ⟨⟩
  simp [major1C, decode1C, low33, high33]
theorem mxor (d : BitVec 3) (a : BitVec 3) (b : BitVec 3) : Statement (.mxor d a b) := by
  rintro w - ⟨⟩
  simp [major1C, decode1C, low33, high33]
theorem mnot (d : BitVec 3) (a : BitVec 3) : Statement (.mnot d a) := by
  rintro w - ⟨⟩
  simp [major1C, decode1C, low33, high33]
theorem movMask (d : BitVec 3) (a : BitVec 3) : Statement (.movMask d a) := by
  rintro w - ⟨⟩
  simp [major1C, decode1C, low33, high33]
theorem laneid (d : BitVec 6) : Statement (.laneid d) := by
  rintro w - ⟨⟩
  simp [major1D, decode1D]
theorem shflIdx (d : BitVec 6) (a : BitVec 6) (b : BitVec 6) : Statement (.shflIdx d a b) := by
  rintro w - ⟨⟩
  simp [major1D, decode1D]
theorem shflUp (d : BitVec 6) (a : BitVec 6) (b : BitVec 6) : Statement (.shflUp d a b) := by
  rintro w - ⟨⟩
  simp [major1D, decode1D]
theorem shflDown (d : BitVec 6) (a : BitVec 6) (b : BitVec 6) : Statement (.shflDown d a b) := by
  rintro w - ⟨⟩
  simp [major1D, decode1D]
theorem shflXor (d : BitVec 6) (a : BitVec 6) (b : BitVec 6) : Statement (.shflXor d a b) := by
  rintro w - ⟨⟩
  simp [major1D, decode1D]
theorem bcast (d : BitVec 6) (a : BitVec 6) (b : BitVec 6) : Statement (.bcast d a b) := by
  rintro w - ⟨⟩
  simp [major1D, decode1D]
theorem redi (d : BitVec 6) (a : BitVec 6) (o : BitVec 3) : Statement (.redi d a o) := by
  rintro w - ⟨⟩
  simp [major1E, decode1E, low33, high33]
theorem scaniInc (d : BitVec 6) (a : BitVec 6) (o : BitVec 3) : Statement (.scaniInc d a o) := by
  rintro w - ⟨⟩
  simp [major1E, decode1E, low33, high33]
theorem scaniExc (d : BitVec 6) (a : BitVec 6) (o : BitVec 3) : Statement (.scaniExc d a o) := by
  rintro w - ⟨⟩
  simp [major1E, decode1E, low33, high33]
theorem ldV (d : BitVec 6) (b : BitVec 6) (j : BitVec 6) (w0 : BitVec 3) (o : BitVec 3) : Statement (.ldV d b j w0 o) := by
  rintro w - ⟨⟩
  simp [Instr.wf] at w
  simp [major20, decode20, low33, high33, w]
theorem stV (d : BitVec 6) (b : BitVec 6) (j : BitVec 6) (w0 : BitVec 3) (o : BitVec 3) : Statement (.stV d b j w0 o) := by
  rintro w - ⟨⟩
  simp [Instr.wf] at w
  simp [major21, decode21, low33, high33, w]
theorem stVNarrow (d : BitVec 6) (b : BitVec 6) (j : BitVec 6) (w0 : BitVec 3) (o : BitVec 3) : Statement (.stVNarrow d b j w0 o) := by
  rintro w - ⟨⟩
  simp [Instr.wf] at w
  simp [major22, decode22, low33, high33, w]
theorem stp (d : BitVec 6) (b : BitVec 6) (j : BitVec 6) (w0 : BitVec 3) (o : BitVec 3) : Statement (.stp d b j w0 o) := by
  rintro w - ⟨⟩
  simp [Instr.wf] at w
  simp [major23, decode23, low33, high33, w]
theorem ldS (d : BitVec 6) (b : BitVec 6) (w0 : BitVec 3) (o : BitVec 3) : Statement (.ldS d b w0 o) := by
  rintro w - ⟨⟩
  simp [Instr.wf] at w
  simp [major24, decode24, low33, high33, w]
theorem stS (d : BitVec 6) (b : BitVec 6) (w0 : BitVec 3) (o : BitVec 3) : Statement (.stS d b w0 o) := by
  rintro w - ⟨⟩
  simp [Instr.wf] at w
  simp [major24, decode24, low33, high33, w]
theorem lds (d : BitVec 6) (b : BitVec 6) (j : BitVec 6) (w0 : BitVec 3) (o : BitVec 2) : Statement (.lds d b j w0 o) := by
  rintro w - ⟨⟩
  simp [Instr.wf] at w
  simp [major25, decode25, low42, in42_2_1, in42_3_3, low31, high31, w]
theorem ldv (d : BitVec 6) (b : BitVec 6) (j : BitVec 6) (w0 : BitVec 3) (o : BitVec 2) : Statement (.ldv d b j w0 o) := by
  rintro w - ⟨⟩
  simp [Instr.wf] at w
  simp [major25, decode25, low42, in42_2_1, in42_3_3, low31, high31, w]
theorem sts (d : BitVec 6) (b : BitVec 6) (j : BitVec 6) (w0 : BitVec 3) (o : BitVec 2) : Statement (.sts d b j w0 o) := by
  rintro w - ⟨⟩
  simp [Instr.wf] at w
  simp [major26, decode26, low42, in42_0_1, in42_2_1, in42_3_3, low31, high31, w]
theorem stv (d : BitVec 6) (b : BitVec 6) (j : BitVec 6) (w0 : BitVec 3) (o : BitVec 2) : Statement (.stv d b j w0 o) := by
  rintro w - ⟨⟩
  simp [Instr.wf] at w
  simp [major26, decode26, low42, in42_0_1, in42_2_1, in42_3_3, low31, high31, w]
theorem fence (k : BitVec 3) (s : BitVec 3) : Statement (.fence k s) := by
  rintro w - ⟨⟩
  simp [Instr.wf] at w
  simp [major27, decode27, low33, high33, w]
theorem migr (a : BitVec 6) : Statement (.migr a) := by
  rintro w - ⟨⟩
  simp [major27, decode27]
theorem homeOf (d : BitVec 6) (a : BitVec 6) : Statement (.homeOf d a) := by
  rintro w - ⟨⟩
  simp [major27, decode27]
theorem spmap (a : BitVec 6) (b : BitVec 6) : Statement (.spmap a b) := by
  rintro w - ⟨⟩
  simp [major27, decode27]
theorem spflush (a : BitVec 6) (b : BitVec 6) : Statement (.spflush a b) := by
  rintro w - ⟨⟩
  simp [major27, decode27]
theorem leaseq (d : BitVec 6) (a : BitVec 6) : Statement (.leaseq d a) := by
  rintro w - ⟨⟩
  simp [major27, decode27]
theorem atom (d : BitVec 6) (b : BitVec 6) (j : BitVec 6) (o : BitVec 3) (r : BitVec 3) : Statement (.atom d b j o r) := by
  rintro w - ⟨⟩
  simp [Instr.wf] at w
  simp [major28, decode28, low33, high33, w]
theorem atomF (d : BitVec 6) (b : BitVec 6) (j : BitVec 6) (o : BitVec 3) (r : BitVec 3) : Statement (.atomF d b j o r) := by
  rintro w - ⟨⟩
  simp [Instr.wf] at w
  simp [major29, decode29, low33, high33, w]
theorem atp (d : BitVec 6) (b : BitVec 6) (j : BitVec 6) (o : BitVec 3) (r : BitVec 3) : Statement (.atp d b j o r) := by
  rintro w - ⟨⟩
  simp [Instr.wf] at w
  simp [major2A, decode2A, low33, high33, w]
theorem xatom (d : BitVec 6) (b : BitVec 6) (j : BitVec 6) (h0 : BitVec 4) (n : BitVec 2) : Statement (.xatom d b j h0 n) := by
  rintro w - ⟨⟩
  simp [Instr.wf] at w
  simp [major2B, decode2B, low42, high42, w]
theorem launch (d : BitVec 6) (a : BitVec 6) : Statement (.launch d a) := by
  rintro w - ⟨⟩
  simp [major2C, decode2C]
theorem lstat (d : BitVec 6) : Statement (.lstat d) := by
  rintro w - ⟨⟩
  simp [major2C, decode2C]
theorem echain (a : BitVec 6) (e : BitVec 6) : Statement (.echain a e) := by
  rintro w - ⟨⟩
  simp [Instr.wf] at w
  simp [major2C, decode2C, w]
theorem estat (d : BitVec 6) (e : BitVec 6) : Statement (.estat d e) := by
  rintro w - ⟨⟩
  simp [Instr.wf] at w
  simp [major2C, decode2C, w]
theorem cbcfg (a : BitVec 6) (n : BitVec 6) : Statement (.cbcfg a n) := by
  rintro w - ⟨⟩
  simp [Instr.wf] at w
  simp [major2D, decode2D, w]
theorem cbput (a : BitVec 6) (n : BitVec 6) : Statement (.cbput a n) := by
  rintro w - ⟨⟩
  simp [Instr.wf] at w
  simp [major2D, decode2D, w]
theorem cbget (d : BitVec 6) (n : BitVec 6) : Statement (.cbget d n) := by
  rintro w - ⟨⟩
  simp [Instr.wf] at w
  simp [major2D, decode2D, w]
theorem cbwait (a : BitVec 6) (n : BitVec 6) : Statement (.cbwait a n) := by
  rintro w - ⟨⟩
  simp [Instr.wf] at w
  simp [major2D, decode2D, w]
theorem cpy (a : BitVec 6) : Statement (.cpy a) := by
  rintro w - ⟨⟩
  simp [major2E, decode2E]
theorem bseal (d : BitVec 6) : Statement (.bseal d) := by
  rintro w - ⟨⟩
  simp [major2E, decode2E]
theorem bwait (a : BitVec 6) : Statement (.bwait a) := by
  rintro w - ⟨⟩
  simp [major2E, decode2E]
theorem syncw (d : BitVec 6) (a : BitVec 6) : Statement (.syncw d a) := by
  rintro w - ⟨⟩
  simp [major2E, decode2E]
theorem swait (d : BitVec 6) (a : BitVec 6) : Statement (.swait d a) := by
  rintro w - ⟨⟩
  simp [major2E, decode2E]
theorem wcfl : Statement (.wcfl) := by
  rintro w - ⟨⟩
  simp [major2E, decode2E]
theorem mma (t : BitVec 3) (a : BitVec 7) (b : BitVec 7) (s : BitVec 2) : Statement (.mma t a b s) := by
  rintro w - ⟨⟩
  simp [major30, decode30, low15, high15, low33, high33, low42, high42, low51, high51, join3_4, join2_5, join1_1]
theorem oclaim (f : BitVec 7) (n : BitVec 7) : Statement (.oclaim f n) := by
  rintro w - ⟨⟩
  simp [Instr.wf] at w
  simp [major31, decode31, low24, high24, low33, high33, low42, high42, join3_4, join4_3, w]
theorem orel (f : BitVec 7) (n : BitVec 7) : Statement (.orel f n) := by
  rintro w - ⟨⟩
  simp [Instr.wf] at w
  simp [major31, decode31, low24, high24, low33, high33, low42, high42, join3_4, join4_3, w]
theorem msync (s : BitVec 4) : Statement (.msync s) := by
  rintro w - ⟨⟩
  simp [major31, decode31, low24, high24]
theorem czero (t : BitVec 3) : Statement (.czero t) := by
  rintro w - ⟨⟩
  simp [major32, decode32, low33, high33]
theorem crd (d : BitVec 6) (t : BitVec 3) (b : BitVec 6) : Statement (.crd d t b) := by
  rintro w - ⟨⟩
  simp [major32, decode32, low33, high33]
theorem cwr (t : BitVec 3) (a : BitVec 6) (b : BitVec 6) : Statement (.cwr t a b) := by
  rintro w - ⟨⟩
  simp [major32, decode32, low33, high33]
theorem cst (t : BitVec 3) (a : BitVec 6) (f : BitVec 4) : Statement (.cst t a f) := by
  rintro w - ⟨⟩
  simp [Instr.wf] at w
  simp [major32, decode32, low33, high33, low42, high42, w]
theorem cstz (t : BitVec 3) (a : BitVec 6) (f : BitVec 4) : Statement (.cstz t a f) := by
  rintro w - ⟨⟩
  simp [Instr.wf] at w
  simp [major32, decode32, low33, high33, low42, high42, w]
theorem cscl (t : BitVec 3) (a : BitVec 6) : Statement (.cscl t a) := by
  rintro w - ⟨⟩
  simp [major32, decode32, low33, high33]
theorem bskip (m : BitVec 3) (a : BitVec 6) (b : BitVec 6) : Statement (.bskip m a b) := by
  rintro w - ⟨⟩
  simp [Instr.wf] at w
  simp [major32, decode32, low33, high33, w]
theorem openReg (a : BitVec 6) (x : BitVec 6) : Statement (.openReg a x) := by
  rintro w - ⟨⟩
  simp [Instr.wf] at w
  simp [major34, decode34, w]
theorem adv (a : BitVec 6) (x : BitVec 6) : Statement (.adv a x) := by
  rintro w - ⟨⟩
  simp [Instr.wf] at w
  simp [major34, decode34, w]
theorem tend (d : BitVec 3) (x : BitVec 6) : Statement (.tend d x) := by
  rintro w - ⟨⟩
  simp [Instr.wf] at w
  simp [major34, decode34, low33, high33, w]
theorem closeReg (x : BitVec 6) : Statement (.closeReg x) := by
  rintro w - ⟨⟩
  simp [Instr.wf] at w
  simp [major34, decode34, w]
theorem fldc (d : BitVec 6) (x : BitVec 6) : Statement (.fldc d x) := by
  rintro w - ⟨⟩
  simp [Instr.wf] at w
  simp [major34, decode34, w]
theorem cxsect (d : BitVec 6) (a : BitVec 6) (u : BitVec 3) (w0 : BitVec 3) : Statement (.cxsect d a u w0) := by
  rintro w - ⟨⟩
  simp [major35, decode35, low33, high33]
theorem cmerge (d : BitVec 6) (a : BitVec 6) (u : BitVec 3) (w0 : BitVec 3) : Statement (.cmerge d a u w0) := by
  rintro w - ⟨⟩
  simp [major35, decode35, low33, high33]
theorem cwait (d : BitVec 6) (a : BitVec 6) : Statement (.cwait d a) := by
  rintro w - ⟨⟩
  simp [major35, decode35]
theorem cursv (a : BitVec 6) : Statement (.cursv a) := by
  rintro w - ⟨⟩
  simp [major35, decode35]
theorem curld (a : BitVec 6) : Statement (.curld a) := by
  rintro w - ⟨⟩
  simp [major35, decode35]
theorem xbld (d : BitVec 6) (a : BitVec 6) (x : BitVec 4) (y : BitVec 5) : Statement (.xbld d a x y) := by
  rintro w - ⟨⟩
  simp [major36, decode36, low42, high42, low51, in51_1_4, in51_5_1, low14, high14, join1_4]
theorem xbmv (d : BitVec 6) (a : BitVec 6) (x : BitVec 4) (y : BitVec 5) : Statement (.xbmv d a x y) := by
  rintro w - ⟨⟩
  simp [Instr.wf] at w
  simp [w, major36, decode36, low42, high42, low51, in51_1_4, in51_5_1, low14, high14, join1_4]
theorem xbcal (d : BitVec 6) (x : BitVec 4) (y : BitVec 5) : Statement (.xbcal d x y) := by
  rintro w - ⟨⟩
  simp [major36, decode36, low42, high42, low51, in51_1_4, in51_5_1, low14, high14, join1_4]
theorem xbst (d : BitVec 6) (x : BitVec 4) (y : BitVec 5) : Statement (.xbst d x y) := by
  rintro w - ⟨⟩
  simp [major36, decode36, low42, high42, low51, in51_1_4, in51_5_1, low14, high14, join1_4]
theorem accept (d : BitVec 6) (a : BitVec 6) (x : BitVec 4) (y : BitVec 5) : Statement (.accept d a x y) := by
  rintro w - ⟨⟩
  simp [major37, decode37, low42, high42, low51, in51_1_4, in51_5_1, low14, high14, join1_4]
theorem tldc (d : BitVec 6) (a : BitVec 6) (t : BitVec 2) : Statement (.tldc d a t) := by
  rintro w - ⟨⟩
  simp [major38, decode38, low42, in42_2_2, in42_4_2, low22, high22]
theorem tldb (d : BitVec 6) (a : BitVec 6) (t : BitVec 2) : Statement (.tldb d a t) := by
  rintro w - ⟨⟩
  simp [major38, decode38, low42, in42_2_2, in42_4_2, low22, high22]
theorem tsetl (a : BitVec 6) (t : BitVec 2) : Statement (.tsetl a t) := by
  rintro w - ⟨⟩
  simp [major38, decode38, low42, in42_2_2, in42_4_2, low22, high22]
theorem tsamp (a : BitVec 6) (t : BitVec 2) : Statement (.tsamp a t) := by
  rintro w - ⟨⟩
  simp [major38, decode38, low42, in42_2_2, in42_4_2, low22, high22]
theorem trd (d : BitVec 6) (a : BitVec 6) (t : BitVec 2) : Statement (.trd d a t) := by
  rintro w - ⟨⟩
  simp [major39, decode39, low42, in42_2_2, in42_4_2, low22, high22]
theorem trdc (d : BitVec 6) (a : BitVec 6) (t : BitVec 2) : Statement (.trdc d a t) := by
  rintro w - ⟨⟩
  simp [major39, decode39, low42, in42_2_2, in42_4_2, low22, high22]
theorem tstat (d : BitVec 6) (t : BitVec 2) : Statement (.tstat d t) := by
  rintro w - ⟨⟩
  simp [major39, decode39, low42, in42_2_2, in42_4_2, low22, high22]
theorem cyc (d : BitVec 6) : Statement (.cyc d) := by
  rintro w - ⟨⟩
  simp [major3A, decode3A]
theorem gtim (d : BitVec 6) : Statement (.gtim d) := by
  rintro w - ⟨⟩
  simp [major3A, decode3A]
theorem gtset (a : BitVec 6) : Statement (.gtset a) := by
  rintro w - ⟨⟩
  simp [major3A, decode3A]
theorem perf (d : BitVec 6) (a : BitVec 6) : Statement (.perf d a) := by
  rintro w - ⟨⟩
  simp [major3A, decode3A]
theorem ovtld (a : BitVec 6) : Statement (.ovtld a) := by
  rintro w - ⟨⟩
  simp [major3B, decode3B]
theorem htld (a : BitVec 6) (b : BitVec 6) : Statement (.htld a b) := by
  rintro w - ⟨⟩
  simp [major3B, decode3B]
theorem keyld (a : BitVec 6) (b : BitVec 6) : Statement (.keyld a b) := by
  rintro w - ⟨⟩
  simp [major3B, decode3B]
theorem tlbsd (a : BitVec 6) (b : BitVec 6) : Statement (.tlbsd a b) := by
  rintro w - ⟨⟩
  simp [major3B, decode3B]
theorem ptgen (a : BitVec 6) : Statement (.ptgen a) := by
  rintro w - ⟨⟩
  simp [major3B, decode3B]
theorem trap (n : BitVec 12) : Statement (.trap n) := by
  rintro w - ⟨⟩
  simp [major3C, decode3C, join6_6]
theorem tret : Statement (.tret) := by
  rintro w - ⟨⟩
  simp [major3C, decode3C]
theorem tretAt (a : BitVec 6) : Statement (.tretAt a) := by
  rintro w - ⟨⟩
  simp [major3C, decode3C]
theorem saveq (a : BitVec 6) : Statement (.saveq a) := by
  rintro w - ⟨⟩
  simp [major3C, decode3C]
theorem timerTrap : Statement (.timerTrap) := fun _ _ e => nomatch e
theorem parcelDepart (frag : Nat) : Statement (.parcelDepart frag) := fun _ _ e => nomatch e
theorem parcelOffer (core : Nat) (dest : Nat) : Statement (.parcelOffer core dest) := fun _ _ e => nomatch e
theorem parcelArrival (n : Nat) : Statement (.parcelArrival n) := fun _ _ e => nomatch e
theorem parcelReoffer (home : Nat) : Statement (.parcelReoffer home) := fun _ _ e => nomatch e
theorem parcelPlacement (home : Nat) : Statement (.parcelPlacement home) := fun _ _ e => nomatch e
theorem parcelPortIngress (n : Nat) : Statement (.parcelPortIngress n) := fun _ _ e => nomatch e
theorem parcelReturn (n : Nat) : Statement (.parcelReturn n) := fun _ _ e => nomatch e
theorem remoteRequestIngress (n : Nat) : Statement (.remoteRequestIngress n) := fun _ _ e => nomatch e
theorem storeRequestPerform (n : Nat) : Statement (.storeRequestPerform n) := fun _ _ e => nomatch e
theorem postedOpPerform (n : Nat) : Statement (.postedOpPerform n) := fun _ _ e => nomatch e
theorem ackReturn (n : Nat) : Statement (.ackReturn n) := fun _ _ e => nomatch e
theorem loadSectorReturn (frag : Nat) (n : Nat) : Statement (.loadSectorReturn frag n) := fun _ _ e => nomatch e
theorem remoteReadReturn (n : Nat) : Statement (.remoteReadReturn n) := fun _ _ e => nomatch e
theorem splitUpdateApply (n : Nat) : Statement (.splitUpdateApply n) := fun _ _ e => nomatch e
theorem registerLineFill (core : Nat) (frag : Nat) (line : Nat) : Statement (.registerLineFill core frag line) := fun _ _ e => nomatch e
theorem residencyGrant (core : Nat) : Statement (.residencyGrant core) := fun _ _ e => nomatch e
theorem turnEnd (core : Nat) : Statement (.turnEnd core) := fun _ _ e => nomatch e
theorem servicePassBound (frag : Nat) : Statement (.servicePassBound frag) := fun _ _ e => nomatch e
theorem sfuEntryComplete (core : Nat) : Statement (.sfuEntryComplete core) := fun _ _ e => nomatch e
theorem mmaPassComplete (core : Nat) (n : Nat) : Statement (.mmaPassComplete core n) := fun _ _ e => nomatch e
theorem msyncRelease (frag : Nat) : Statement (.msyncRelease frag) := fun _ _ e => nomatch e
theorem slotClearDone (core : Nat) (slot : Nat) : Statement (.slotClearDone core slot) := fun _ _ e => nomatch e
theorem mapFill (team : Nat) (entry : Nat) (line : Nat) : Statement (.mapFill team entry line) := fun _ _ e => nomatch e
theorem joinFusion (group : Nat) (bar : Nat) : Statement (.joinFusion group bar) := fun _ _ e => nomatch e
theorem barrtRelease (team : Nat) : Statement (.barrtRelease team) := fun _ _ e => nomatch e
theorem waitwWake (frag : Nat) : Statement (.waitwWake frag) := fun _ _ e => nomatch e
theorem bwaitWake (frag : Nat) : Statement (.bwaitWake frag) := fun _ _ e => nomatch e
theorem swaitWake (frag : Nat) : Statement (.swaitWake frag) := fun _ _ e => nomatch e
theorem cbwaitWake (frag : Nat) : Statement (.cbwaitWake frag) := fun _ _ e => nomatch e
theorem cwaitWake (frag : Nat) : Statement (.cwaitWake frag) := fun _ _ e => nomatch e
theorem launchAppendResume (frag : Nat) : Statement (.launchAppendResume frag) := fun _ _ e => nomatch e
theorem lqTailDoorbell (fn : Nat) (queue : Nat) (value : BitVec 32) : Statement (.lqTailDoorbell fn queue value) := fun _ _ e => nomatch e
theorem lqEnWrite (queue : Nat) (value : Bool) : Statement (.lqEnWrite queue value) := fun _ _ e => nomatch e
theorem launchRecordRead (queue : Nat) : Statement (.launchRecordRead queue) := fun _ _ e => nomatch e
theorem gridDispatch (grid : Nat) (core : Nat) : Statement (.gridDispatch grid core) := fun _ _ e => nomatch e
theorem teamPlace (grid : Nat) (core : Nat) : Statement (.teamPlace grid core) := fun _ _ e => nomatch e
theorem groupRetire (group : Nat) : Statement (.groupRetire group) := fun _ _ e => nomatch e
theorem gridRetire (grid : Nat) : Statement (.gridRetire grid) := fun _ _ e => nomatch e
theorem copyEntry (cmd : Nat) : Statement (.copyEntry cmd) := fun _ _ e => nomatch e
theorem gatherEntry (cmd : Nat) : Statement (.gatherEntry cmd) := fun _ _ e => nomatch e
theorem scatterEntry (cmd : Nat) : Statement (.scatterEntry cmd) := fun _ _ e => nomatch e
theorem bobbinEntry (cmd : Nat) : Statement (.bobbinEntry cmd) := fun _ _ e => nomatch e
theorem loopEntry (cmd : Nat) : Statement (.loopEntry cmd) := fun _ _ e => nomatch e
theorem brifEntry (cmd : Nat) : Statement (.brifEntry cmd) := fun _ _ e => nomatch e
theorem linkEntry (cmd : Nat) : Statement (.linkEntry cmd) := fun _ _ e => nomatch e
theorem endEntry (cmd : Nat) : Statement (.endEntry cmd) := fun _ _ e => nomatch e
theorem cbStepFire (cmd : Nat) : Statement (.cbStepFire cmd) := fun _ _ e => nomatch e
theorem batchComplete (group : Nat) (batch : Nat) : Statement (.batchComplete group batch) := fun _ _ e => nomatch e
theorem bobbinWalkStep (group : Nat) : Statement (.bobbinWalkStep group) := fun _ _ e => nomatch e
theorem bobbinFinish (group : Nat) : Statement (.bobbinFinish group) := fun _ _ e => nomatch e
theorem xbLoadProgram (home : Nat) (array : Nat) : Statement (.xbLoadProgram home array) := fun _ _ e => nomatch e
theorem xbCalibrate (home : Nat) (array : Nat) : Statement (.xbCalibrate home array) := fun _ _ e => nomatch e
theorem xbProduct (home : Nat) (array : Nat) : Statement (.xbProduct home array) := fun _ _ e => nomatch e
theorem xbDriftReading (home : Nat) (array : Nat) : Statement (.xbDriftReading home array) := fun _ _ e => nomatch e
theorem tambLoadPerform (home : Nat) (part : Nat) : Statement (.tambLoadPerform home part) := fun _ _ e => nomatch e
theorem tambSettleStart (home : Nat) (part : Nat) : Statement (.tambSettleStart home part) := fun _ _ e => nomatch e
theorem tambSampleStart (home : Nat) (part : Nat) : Statement (.tambSampleStart home part) := fun _ _ e => nomatch e
theorem tambSettleExpiry (home : Nat) (part : Nat) : Statement (.tambSettleExpiry home part) := fun _ _ e => nomatch e
theorem tambRailReached (home : Nat) (part : Nat) (j : Nat) : Statement (.tambRailReached home part j) := fun _ _ e => nomatch e
theorem tambSampleExpiry (home : Nat) (part : Nat) : Statement (.tambSampleExpiry home part) := fun _ _ e => nomatch e
theorem xatomElementArrival (n : Nat) : Statement (.xatomElementArrival n) := fun _ _ e => nomatch e
theorem channelToCompute (home : Nat) (chan : Nat) : Statement (.channelToCompute home chan) := fun _ _ e => nomatch e
theorem channelToNormal (home : Nat) (chan : Nat) : Statement (.channelToNormal home chan) := fun _ _ e => nomatch e
theorem handlerRun (home : Nat) (unit : Nat) : Statement (.handlerRun home unit) := fun _ _ e => nomatch e
theorem htldInstall (home : Nat) (unit : Nat) : Statement (.htldInstall home unit) := fun _ _ e => nomatch e
theorem wcAgeExpiry (core : Nat) (n : Nat) : Statement (.wcAgeExpiry core n) := fun _ _ e => nomatch e
theorem drainArrival (n : Nat) : Statement (.drainArrival n) := fun _ _ e => nomatch e
theorem orderedFlagArrival (n : Nat) : Statement (.orderedFlagArrival n) := fun _ _ e => nomatch e
theorem orderedFlagPerform (n : Nat) : Statement (.orderedFlagPerform n) := fun _ _ e => nomatch e
theorem closeMarker (core : Nat) (dev : Nat) : Statement (.closeMarker core dev) := fun _ _ e => nomatch e
theorem preemptRequest (part : Nat) (grid : Nat) : Statement (.preemptRequest part grid) := fun _ _ e => nomatch e
theorem preemptEscalation (part : Nat) : Statement (.preemptEscalation part) := fun _ _ e => nomatch e
theorem restore (team : Nat) (core : Nat) : Statement (.restore team core) := fun _ _ e => nomatch e
theorem freezeComplete (part : Nat) : Statement (.freezeComplete part) := fun _ _ e => nomatch e
theorem pcFreezeSet (part : Nat) (value : BitVec 64) : Statement (.pcFreezeSet part value) := fun _ _ e => nomatch e
theorem pcFreezeRelease (part : Nat) (value : BitVec 64) : Statement (.pcFreezeRelease part value) := fun _ _ e => nomatch e
theorem shadowSwap (part : Nat) (value : BitVec 64) : Statement (.shadowSwap part value) := fun _ _ e => nomatch e
theorem pcHomesWrite (part : Nat) (value : BitVec 64) : Statement (.pcHomesWrite part value) := fun _ _ e => nomatch e
theorem pcEnSet (part : Nat) (value : BitVec 64) : Statement (.pcEnSet part value) := fun _ _ e => nomatch e
theorem pcEnClear (part : Nat) (value : BitVec 64) : Statement (.pcEnClear part value) := fun _ _ e => nomatch e
theorem pcVfWrite (part : Nat) (value : BitVec 64) : Statement (.pcVfWrite part value) := fun _ _ e => nomatch e
theorem pcTdataCommit (part : Nat) (value : BitVec 64) : Statement (.pcTdataCommit part value) := fun _ _ e => nomatch e
theorem registerWrite (fn : Nat) (offset : Nat) (value : BitVec 64) : Statement (.registerWrite fn offset value) := fun _ _ e => nomatch e
theorem resync : Statement (.resync) := fun _ _ e => nomatch e
theorem mailboxUnknown (code : BitVec 8) : Statement (.mailboxUnknown code) := fun _ _ e => nomatch e
theorem hostWrite (home : Nat) (addr : Nat) (bytes : List (BitVec 8)) : Statement (.hostWrite home addr bytes) := fun _ _ e => nomatch e
theorem hostRead (home : Nat) (addr : Nat) (count : Nat) : Statement (.hostRead home addr count) := fun _ _ e => nomatch e
theorem portTrain (port : Nat) (extended : Bool) : Statement (.portTrain port extended) := fun _ _ e => nomatch e
theorem deviceReset : Statement (.deviceReset) := fun _ _ e => nomatch e
theorem powerCreditWindow (home : Nat) : Statement (.powerCreditWindow home) := fun _ _ e => nomatch e
theorem thermalThrottle : Statement (.thermalThrottle) := fun _ _ e => nomatch e
theorem thermalRestore : Statement (.thermalRestore) := fun _ _ e => nomatch e
theorem thermalTrip : Statement (.thermalTrip) := fun _ _ e => nomatch e
theorem rootBoot (image : Nat) : Statement (.rootBoot image) := fun _ _ e => nomatch e
theorem getVersion : Statement (.getVersion) := fun _ _ e => nomatch e
theorem getCapabilities : Statement (.getCapabilities) := fun _ _ e => nomatch e
theorem negotiateAlgorithms : Statement (.negotiateAlgorithms) := fun _ _ e => nomatch e
theorem getDigests : Statement (.getDigests) := fun _ _ e => nomatch e
theorem getCertificate : Statement (.getCertificate) := fun _ _ e => nomatch e
theorem challenge (nonce : Nat) : Statement (.challenge nonce) := fun _ _ e => nomatch e
theorem getMeasurements (index : Nat) : Statement (.getMeasurements index) := fun _ _ e => nomatch e
theorem tileStorageError (group : Nat) (tile : Nat) (part : Nat) : Statement (.tileStorageError group tile part) := fun _ _ e => nomatch e
theorem remoteReadPerform (n : Nat) : Statement (.remoteReadPerform n) := fun _ _ e => nomatch e

end Sys2Proof.Laws.RoundTrip
end

