-- ==== Sys2Proof/Tests/Slice0.lean ====
section
/-! SUPPORT. Tests of the model: ill-formed terms refused, words of the spec decoded, single steps, and for every statement with
hypotheses a state and operands that meet them. Expected results come from the spec's tables, examples and rules. -/

set_option Elab.async false

namespace Sys2Proof.Test

open Sys2Proof Sys2Proof.Machine Sys2Proof.Claim

/-! States -/

/-- One privileged fragment of one group, team and grid of partition 0, on core 0 of home 0: page 0 is mapped, vault 0 allotted, 8 KiB of
scratchpad reserved, one tile declared, the trap entry at 256. -/
def one : State :=
  let s := State.reset.withFetchWord 32 0
  { s with
    teams := [(0, { Team.none with alive := true, size := 8192 })]
    grids := [(0, { Grid.none with alive := true, dispatched := true })]
    groups := [(0, { s.group0 with ntiles := 1 })]
    parts := [(0, { Part.fresh with en := true, homes := 1, trapent := 0x100 })]
    asTab := [(0, BitVec.twoPow 256 191 ||| BitVec.twoPow 256 192)] }
/-- The fragment changed. -/
def frag (g : Frag → Frag) : State := one.setF (g one.f)
/-- Its group changed. -/
def group (g : Group → Group) : State := one.setG (g one.g)
/-- A scalar register set. -/
def reg (s : State) (n : RegNum) (x : DWord) : State := s.wrS n x false
/-- Bytes of the scratchpad of core 0 set. -/
def scr (s : State) (off : Nat) (bs : List Byte) : State := s.writeScr (cellsAt (scrKey 0 off) bs)
/-- The little-endian bytes of 64-bit words. -/
def words (xs : List Nat) : List Byte := xs.flatMap (leBytes 8)

theorem ok_of {ε α : Type} {x : Except ε α} {v : α} (h : x.toOption = some v) : x = .ok v := by cases x <;> simp_all [Except.toOption]
theorem still_of {s : State} (h : s.f.outs = []) (h' : s.f.grp = none) : Still s := ⟨h, fun g hg => by rw [h'] at hg; cases hg⟩
theorem before_of {s : State} (h : s.net = []) (h' : s.banks = []) : NothingBefore s := by
  refine ⟨?_, ?_⟩ <;> simp [h, h']

/-! Well-formedness (R64, R73 to R83): an ill-formed term for each check -/

theorem test_illformed_words : ([.pfx 0 6 0 0 0, .movV 3 1 2 3, .movV 0 1 2 3, .icmpS64 0 0 0 6, .icmpS32 0 0 0 6, .icmpV 0 0 0 0 6, .sread 0 0x00C,
    .swrite 0 0x015, .fcmpV 0 0 0 0 6, .fcmpS 0 0 0 6, .frndV 0 0 0 6, .frndS 0 0 6, .redf 0 0 3, .cvfi 0 0 6, .brc 14 0, .spawn 0 57,
    .ldV 0 0 0 5 0, .ldV 0 0 0 0 2, .stV 0 0 0 5 0, .stV 0 0 0 0 1, .stVNarrow 0 0 0 4 0, .stVNarrow 0 0 0 0 4, .stp 0 0 0 5 0, .stp 0 0 0 0 1,
    .ldS 0 0 6 0, .ldS 0 0 0 4, .stS 0 0 6 0, .stS 0 0 0 4, .lds 0 0 0 5 0, .lds 0 0 0 0 2, .ldv 0 0 0 5 0, .ldv 0 0 0 0 2, .sts 0 0 0 5 0,
    .sts 0 0 0 0 1, .stv 0 0 0 5 0, .stv 0 0 0 0 1, .fence 0 0, .fence 4 0, .fence 1 6] : List Instr).all (fun i => !i.wf) = true := by rfl
theorem test_illformed_units : ([.atom 0 0 0 0 4, .atomF 0 0 0 5 0, .atomF 0 0 0 0 4, .atp 0 0 0 7 0, .atp 0 0 0 0 1, .xatom 63 0 0 0 1, .xatom 0 63 0 0 0, .bskip 0 63 0, .xbmv 63 0 0 0, .echain 0 3,
    .estat 0 3, .cbcfg 0 16, .cbput 0 16, .cbget 0 16, .cbwait 0 16, .oclaim 127 1, .orel 127 1, .cst 0 0 5, .cst 0 63 0, .cstz 0 0 15, .openReg 0 12, .adv 0 12,
    .tend 0 12, .closeReg 12, .fldc 0 12] : List Instr).all (fun i => !i.wf) = true := by rfl
theorem test_illformed_steps : ([.parcelOffer 3072 0, .parcelOffer 0 65536, .parcelOffer 0 12, .parcelReoffer 12, .parcelPlacement 12,
    .registerLineFill 3072 0 0, .residencyGrant 3072, .turnEnd 3072, .sfuEntryComplete 3072, .mmaPassComplete 3072 0, .slotClearDone 3072 0,
    .slotClearDone 0 128, .mapFill 0 8 0, .joinFusion 0 16, .lqTailDoorbell 13 0 0, .lqTailDoorbell 0 64 0, .lqEnWrite 64 true, .launchRecordRead 64,
    .gridDispatch 0 3072, .teamPlace 0 3072, .batchComplete 0 256, .xbLoadProgram 12 0, .xbLoadProgram 0 512, .xbCalibrate 12 0, .xbProduct 12 0,
    .xbDriftReading 12 0, .tambLoadPerform 12 0, .tambLoadPerform 0 4, .tambSettleStart 12 0, .tambSampleStart 12 0, .tambSettleExpiry 12 0,
    .tambRailReached 0 0 1024, .tambSampleExpiry 12 0, .channelToCompute 0 32, .channelToNormal 12 0, .handlerRun 0 128, .htldInstall 12 0,
    .wcAgeExpiry 3072 0, .closeMarker 0 4096, .preemptRequest 12 0, .preemptEscalation 12, .restore 0 3072, .freezeComplete 12, .pcFreezeSet 12 0,
    .pcFreezeRelease 12 0, .shadowSwap 12 0, .pcHomesWrite 12 0, .pcEnSet 12 0, .pcEnClear 12 0, .pcVfWrite 12 0, .pcTdataCommit 12 0,
    .registerWrite 13 0 0, .mailboxUnknown 1, .hostWrite 12 0 [], .hostRead 0 68719476736 1, .portTrain 144 true, .powerCreditWindow 12,
    .getMeasurements 0, .getMeasurements 5, .tileStorageError 0 8 0, .tileStorageError 0 0 12] : List Instr).all (fun i => !i.wf) = true := by rfl

/-! Decoding -/

/-- Words the spec writes out (R125, R153 to R163, R171, R175 to R180, R215, R221 to R231, R278). -/
theorem test_spec_words_a : ([(0x06140013, .sread 5 0x013), (0x1A440010, .call 2 1 16), (0x1B080002, .bset 2), (0x1B002206, .spawn 2 8),
    (0x1B0061CA, .waitw 6 7), (0x1B00524B, .preh 5 9), (0x31040100, .oclaim 8 1), (0x31440100, .orel 8 1), (0x30220640, .mma 1 8 12 2),
    (0x318C0000, .msync 3), (0x32040000, .czero 1), (0x32044103, .cst 1 4 1), (0x27004143, .spmap 4 5), (0x27004144, .spflush 4 5),
    (0x202030A1, .ldV 8 3 2 4 1), (0x24102028, .ldS 4 2 5 0), (0x250C2124, .ldv 3 2 4 4 0), (0x22142050, .stVNarrow 5 2 1 2 0),
    (0x23144018, .stp 5 4 0 3 0), (0x27540000, .fence 2 5), (0x29182040, .atomF 6 2 1 0 0), (0x27007001, .migr 7), (0x27247002, .homeOf 9 7),
    (0x27283005, .leaseq 10 3), (0x2B10204D, .xatom 4 2 1 3 1), (0x20102060, .ldV 4 2 1 4 0)] : List (Word × Instr)).all
    (fun x => (decodeWord x.1).toOption == some ⟨false, false, x.2⟩) = true := by rfl
/-- Words the spec writes out (R197 to R204, R263 to R270, R317, R321, R334, R344 to R346). -/
theorem test_spec_words_b : ([(0x3A140000, .cyc 5), (0x3A180001, .gtim 6), (0x3A004002, .gtset 4), (0x3A1C8003, .perf 7 8), (0x3B004000, .ovtld 4), (0x3B004141, .htld 4 5),
    (0x3B0020C2, .keyld 2 3), (0x3B0061C3, .tlbsd 6 7), (0x3B008004, .ptgen 8), (0x3C005000, .trap 5), (0x3C000001, .tret), (0x3C045001, .tretAt 5),
    (0x3C004002, .saveq 4), (0x35183280, .cxsect 6 3 1 2), (0x35183281, .cmerge 6 3 1 2), (0x351C6002, .cwait 7 6), (0x35008003, .cursv 8),
    (0x35008004, .curld 8), (0x38244000, .tldc 9 4 0), (0x38245001, .tldb 9 5 0), (0x38006002, .tsetl 6 0), (0x38007003, .tsamp 7 0),
    (0x39048000, .trd 1 8 0), (0x39088005, .trdc 2 8 1), (0x39240002, .tstat 9 0)] : List (Word × Instr)).all
    (fun x => (decodeWord x.1).toOption == some ⟨false, false, x.2⟩) = true := by rfl
/-- A word of every major, its fields laid out by the tables of R67 to R83. -/
theorem test_family_words : ([(0x01149491, .orS64 5 9 18), (0x02149491, .orS32 5 9 18), (0x03149012, .iaddImmS 5 9 18),
    (0x04140009, .moviS 5 9), (0x05140009, .movhiS 5 9), (0x07149812, .sarImmS 5 9 18),
    (0x092520D1, .orV 1 9 18 3), (0x0C149012, .iaddImmV 5 9 18), (0x0D140009, .moviV 5 9),
    (0x0E140009, .movhiV 5 9), (0x0F149812, .sarImmV 5 9 18), (0x112520C6, .fsgnCpyV 1 9 18 3),
    (0x12149486, .fsgnCpyS 5 9 18), (0x1314900A, .scanfMinInc 5 9), (0x14005242, .setnm 5 9),
    (0x16149010, .cvti 5 9 0), (0x17149004, .flog2 5 9), (0x18000005, .br 5),
    (0x19D00009, .brm 5 9), (0x1AA40012, .call 5 1 18), (0x1B005246, .spawn 5 9),
    (0x1C141005, .mfirst 5 1), (0x1D149483, .shflDown 5 9 18), (0x1E14900A, .scaniInc 5 9 2),
    (0x20149491, .ldV 5 9 18 2 1), (0x21149492, .stV 5 9 18 2 2), (0x22149492, .stVNarrow 5 9 18 2 2),
    (0x23149492, .stp 5 9 18 2 2), (0x24149052, .stS 5 9 2 2), (0x25149495, .ldv 5 9 18 2 1),
    (0x26149496, .stv 5 9 18 2 2), (0x27005243, .spmap 5 9), (0x28149499, .atom 5 9 18 3 1),
    (0x29149499, .atomF 5 9 18 3 1), (0x2A14949A, .atp 5 9 18 3 2), (0x2B14948F, .xatom 5 9 18 3 3),
    (0x2C005082, .echain 5 2), (0x2D140242, .cbget 5 9), (0x2E149003, .syncw 5 9),
    (0x30A24960, .mma 5 9 18 3), (0x31428900, .orel 5 9), (0x32149203, .cst 5 9 2),
    (0x34140242, .tend 5 9), (0x35149002, .cwait 5 9), (0x361404CA, .xbcal 5 9 18),
    (0x3714910C, .accept 5 9 2 3), (0x38005006, .tsetl 5 1), (0x39149009, .trdc 5 9 2),
    (0x3A005002, .gtset 5), (0x3B005242, .keyld 5 9), (0x3C045001, .tretAt 5)] : List (Word × Instr)).all
    (fun x => (decodeWord x.1).toOption == some ⟨false, false, x.2⟩) = true := by rfl
/-- R56: bit 31 is the chain bit, bit 30 the park marker; R84: the zero word; R64: a prefix word; R8, R67: what is unassigned or reserved. -/
theorem test_word_layout : decodeWord 0x00000000 = .ok ⟨false, false, .nop⟩ ∧ decodeWord 0xBA140000 = .ok ⟨true, false, .cyc 5⟩ ∧
    decodeWord 0x7A140000 = .ok ⟨false, true, .cyc 5⟩ ∧ decodeWord 0x3FA52E00 = .ok ⟨false, false, .pfx 5 1 18 1 3⟩ ∧
    decodeWord 0x3E000000 = .error .illegalOp ∧ decodeWord 0x1B00003F = .error .illegalOp ∧ decodeWord 0x00001000 = .error .reservedBits ∧
    decodeWord 0x3A140001 = .ok ⟨false, false, .gtim 5⟩ := by refine ⟨?_, ?_, ?_, ?_, ?_, ?_, ?_, ?_⟩ <;> rfl
/-! Single steps -/

/-- R58: the word placed at the pc is fetched, decoded and run: NOP goes on at 4. -/
theorem test_step_nop : (match step (State.reset.withFetchWord 32 0) with | .next t => t.f.pc == 4 && t.cur == 0 | _ => false) = true := by decide +kernel
/-- R122: MOVI s5, −1 writes all ones. -/
theorem test_step_movi : (match step (State.reset.withFetchWord 32 0x0417FFFF) with | .next t => t.sv 5 == BitVec.allOnes 64 | _ => false) = true := by
  decide +kernel
/-- R118: −7 / 2 is −3, remainder −1; a division by zero gives all ones and the dividend. -/
theorem test_division : divI (-7 : DWord) 2 = -3 ∧ remI (-7 : DWord) 2 = -1 ∧ divN (7 : Word) 0 = 0xFFFFFFFF ∧ remN (7 : Word) 0 = 7 ∧
    divI (0x80000000 : Word) (-1) = 0x80000000 ∧ remI (0x80000000 : Word) (-1) = 0 := by decide +kernel
/-- R365: the worked write of PC.CTL takes homes 4 to 7 for VF 3 and enables the partition; a later write of homes 4, 5, 6, 8 is refused. -/
theorem test_partition_write : (match exec (.pcHomesWrite 0 0x00000000830F0001) State.reset with
    | .next t => (t.part 0).homes == 0x0F0 && (t.part 0).vf == 3 && (t.part 0).wcAge == 8 && (t.part 0).en && !(t.part 0).badshape &&
      (match exec (.pcHomesWrite 0 0x0000000083170001) t with
       | .next u => (u.part 0).badshape && (u.part 0).homes == 0x0F0 && (u.part 0).vf == 3 && (u.part 0).en
       | _ => false)
    | _ => false) = true := by decide +kernel
/-- R71, R340: a word of an unassigned major goes to the trap entry, with the window moved and the code in s60. -/
theorem test_illegal_word : (match step { one with mem := [(3, 0x3E)], agenda := [.issue 0] } with
    | .next t => t.f.pc == 0x100 && t.f.trap.isSome && t.f.regs.wbV == 8 && (t.f.regs.sreg 60).val == 1
    | _ => false) = true := by decide +kernel
/-- R223, R221: ST then LD of a scalar at the fragment's own home. -/
theorem test_store_load : (match exec (.stS 5 6 5 0) (reg (reg one 5 0x1122334455667788) 6 0x1000) with
    | .next t => t.byte 0x1000 == 0x88 && t.byte 0x1007 == 0x11 && t.byte 0x1008 == 0 &&
      (match exec (.ldS 7 6 4 0) t with | .next u => u.f.outs.map (·.sval) == [0x55667788] | _ => false)
    | _ => false) = true := by decide +kernel

/-! States and operands that meet the statements' hypotheses -/

/-- Two outstanding results. -/
def outA : Out := ⟨.sector false, .v 3, allLanes, allLanes, splat 7, 0, false, 0⟩
def outB : Out := { outA with kind := .sfu, dest := .s 4 }
theorem meets_RegisterWrites : (60 : RegNum).toNat < 61 ∧ 61 ≤ (61 : RegNum).toNat ∧ one.f.pfx = none ∧ one.eff.getLsbD 95 = true ∧
    (frag fun f => { f with pfx := some ⟨1, 0, 0, 1, 0, 0⟩ }).f.pfx = some ⟨1, 0, 0, 1, 0, 0⟩ ∧
    takeAt (frag fun f => { f with outs := [outA, outB] }).f.outs 0 = some (outA, [outB]) ∧
    takeAt (frag fun f => { f with outs := [outA, outB] }).f.outs 1 = some (outB, [outA]) ∧
    takeAt (frag fun f => { f with outs := [outA, { outB with dest := .m 0 }] }).f.outs 1 = some ({ outB with dest := .m 0 }, [outA]) := by
  decide +kernel
theorem meets_PoisonedSourceFaults :
    (one.modRegs fun r => r.writeS 5 ⟨0, false, true⟩ |>.writeV allLanes 3 allLanes (splat 0) false allLanes).poisoned [.s 5] ≠ none ∧
    ((one.modRegs fun r => r.writeV allLanes 3 allLanes (splat 0) false 1).vreg 3).poison &&& one.eff ≠ 0 ∧
    (one.sreg 5).poison = false ∧ ((one.modRegs fun r => r.writeS 5 ⟨0, false, true⟩).sreg 5).poison = true ∧
    (one.vreg 3).poison &&& one.eff = 0 := by decide +kernel
theorem meets_ScalarIntegerWords : one.poisoned ([63, 0].map Src.s) = none ∧ 0 < 1 ∧ 0 < 64 ∧ 63 < 64 ∧ (1 : BitVec 64) ≠ 0 := by decide +kernel
theorem meets_DivisionTruncatesAndNeverFaults : one.poisoned ([63, 0].map Src.s) = none ∧ one.poisoned [.v 0 one.eff, bSrc one 3 63] = none ∧
    one.poisoned [.v 0 one.eff, bSrc one 0 63] = none := by decide +kernel
theorem meets_ScalarCompare : (0 : BitVec 3).toNat < 6 ∧ (5 : BitVec 3).toNat < 6 ∧ one.poisoned [.s 0, .s 63] = none ∧
    one.poisoned [.v 0 one.eff, bSrc one 3 63] = none ∧ one.poisoned ([5, 0, 1].map Src.s) = none := by decide +kernel
theorem meets_VectorIntegerWords : one.poisoned [.v 63 one.eff, bSrc one 1 0, .v (one.third 9) one.eff] = none ∧
    one.poisoned [.v 63 one.eff, bSrc one 3 0] = none ∧ one.poisoned [.v 9 one.eff] = none := by decide +kernel
/-- No lane active. -/
def idle : State := frag fun f => { f with regs := { f.regs with m := Vector.replicate 8 0 } }
theorem meets_MaskAndLaneWords : one.mreg 1 = 0 ∧ one.mreg 0 ≠ 0 ∧ one.poisoned [.v 0 (one.mreg 0)] = none ∧
    one.poisoned [.v 0 allLanes, .v 1 (one.mreg 0)] = none ∧ one.poisoned [.v 0 allLanes, .s 1] = none ∧
    (reg one 1 95).sv 1 = 95 ∧ (one.mreg 0).getLsbD 95 = true ∧ (one.mreg 0).getLsbD 96 = false ∧
    one.poisoned [.v 0 (BitVec.twoPow 96 95), .s 1] = none ∧ (one.sreg 1).poison = false := by decide +kernel
theorem meets_VotesOverTheActiveLanes : one.poisoned [.v 3 (one.mreg 0)] = none ∧ idle.poisoned [.v 3 (idle.mreg 0)] = none ∧ idle.mreg 0 = 0 ∧
    (one.mreg 0).getLsbD 0 = true ∧ one.vl 3 0 = 0 := by decide +kernel
/-- s5 holds a bounded value. -/
def bounded : State := one.wrS 5 1 true
theorem meets_SpecialRegisterWords : one.poisoned [.s 5] = none ∧ (one.sreg 5).bnd = false ∧ bounded.poisoned [.s 5] = none ∧
    (bounded.sreg 5).bnd = true ∧ (0x018 : BitVec 11) ∈ ([0x002, 0x003, 0x005, 0x018] : List (BitVec 11)) ∧
    (0x004 : BitVec 11) ∉ ([0x002, 0x003, 0x005, 0x018] : List (BitVec 11)) ∧ one.poisoned [.s 5, .s 6] = none ∧ (one.sreg 6).bnd = false := by
  decide +kernel
theorem meets_FloatArithmeticWords : one.f.pfx = none ∧ one.poisoned [.v 1 one.eff, .s 2, .v (one.third 9) one.eff] = none ∧
    one.poisoned ([1, 2, one.third 9].map Src.s) = none := by decide +kernel
theorem meets_FloatExactWords : one.poisoned [.v 1 one.eff, .v 2 one.eff] = none ∧ one.poisoned [.s 1, .s 2] = none := by decide +kernel
theorem meets_FloatValueRules : 0x7F800000 < (0x7FC00000 : Word).toNat % 2 ^ 31 ∧ ¬0x7F800000 < (0x7F800000 : Word).toNat % 2 ^ 31 ∧
    fp32.decode 1 = .fin false 1 (-149) ∧ e4m3.decode 0x7E = .fin false 14 5 ∧ 0x7E < 2 ^ e4m3.width := by decide +kernel
theorem meets_FloatReductionsAndScans : one.rndCode ≠ 5 ∧ one.poisoned [.v 1 one.eff] = none ∧
    (frag fun f => { f with pfx := some ⟨0, 5, 0, 0, 3, 0⟩ }).rndCode = 5 := by decide +kernel
theorem meets_ConversionWords : one.poisoned [.v 1 one.eff] = none ∧ one.poisoned [.v 1 allLanes, .v 2 (one.eff &&& 1)] = none ∧ one.f.pfx = none := by
  decide +kernel
/-- A special-function unit with 30 entries, the last of them the fragment's own. -/
def sfu30 : State := one.setCore 0 { one.core 0 with sfuQ := List.replicate 30 0 }
theorem meets_SpecialFunctionWords : one.poisoned [.v 1 one.eff] = none ∧ 32 < (sfu30.core 0).sfuQ.length + 3 ∧ (one.core 0).sfuQ.length + 3 ≤ 32 ∧
    (frag fun f => { f with outs := [outA, { outB with kind := .sfu }] }).f.outs.findIdx? (fun o => o.kind == .sfu) = some 1 ∧
    (sfu30.core 0).sfuQ = 0 :: List.replicate 29 0 := by decide +kernel
theorem meets_ControlWords : one.calm = true ∧ brcCond 0 one.src.cflags ≠ brcCond 1 one.src.cflags ∧ one.mreg 0 &&& one.mreg 1 = 0 ∧
    one.mreg 0 &&& one.mreg 0 ≠ 0 ∧ one.f.regs.wbV.toNat + 8 * (7 : BitVec 3).toNat ≤ 192 ∧ one.f.regs.wbS.toNat + 8 * (7 : BitVec 3).toNat ≤ 64 ∧
    192 < (frag fun f => { f with regs := { f.regs with wbV := 192 } }).f.regs.wbV.toNat + 8 * (1 : BitVec 3).toNat ∧
    (one.sreg 60).poison = false ∧ (one.sv 60).getLsbD 63 = false ∧ (one.sv 60).extractLsb' 0 2 = 0 ∧ (reg one 60 2).sv 60 = 2 ∧
    (reg one 60 0x0200000000000000).f.regs.wbV.toNat < 8 * ((reg one 60 0x0200000000000000).sv 60 |>.extractLsb' 57 3).toNat ∧
    idle.mreg 0 = 0 ∧ one.poisoned [.v 1 (one.mreg 0), .s 2, .s 3] = none ∧ (reg one 2 0x1001).sv 2 = 0x1001 := by decide +kernel
theorem meets_ControlWords_table : one.poisoned [.v 1 (one.mreg 0), .s 2, .s 3] = none ∧ (reg one 3 1).sv 3 = 1 ∧ (one.vl 1 95).toNat = 0 ∧
    (reg one 3 1).fetch 0 ((reg one 3 1).sv 2 + 4 * ((reg one 3 1).vl 1 0).setWidth 64) = .ok 0 :=
  ⟨by decide +kernel, by decide +kernel, by decide +kernel, ok_of (by decide +kernel)⟩
/-- m1 takes lanes 0 to 31. -/
def split : State := frag fun f => { f with regs := { f.regs with m := f.regs.m.setIfInBounds 1 0xFFFFFFFF } }
theorem meets_BranchDivision : split.mreg 0 &&& split.mreg 1 ≠ 0 ∧ split.mreg 0 &&& ~~~(split.mreg 0 &&& split.mreg 1) ≠ 0 ∧ split.f.written.contains (.m 0) = false ∧ Still split ∧
    split.divideBar 1 = none ∧ (split.freeEntries split.f.group).head? = some 1 ∧ fragNo split.f.group 1 ≠ split.cur ∧
    split.mreg 0 &&& ~~~split.f.own = 0 ∧ split.g.dev = split.fabric.toNat :=
  ⟨by decide +kernel, by decide +kernel, by decide +kernel, still_of (by decide +kernel) (by decide +kernel), by decide +kernel, by decide +kernel, by decide +kernel,
    by decide +kernel, by decide +kernel⟩
/-- The same fragment in a group of device 3. -/
def splitAway : State := split.setG { split.g with dev := 3 }
theorem meets_BranchDivision_away : splitAway.mreg 0 &&& splitAway.mreg 1 ≠ 0 ∧ splitAway.mreg 0 &&& ~~~(splitAway.mreg 0 &&& splitAway.mreg 1) ≠ 0 ∧
    splitAway.f.written.contains (.m 0) = false ∧ Still splitAway ∧ splitAway.g.dev ≠ splitAway.fabric.toNat ∧ splitAway.f.grant = .none :=
  ⟨by decide +kernel, by decide +kernel, by decide +kernel, still_of (by decide +kernel) (by decide +kernel), by decide +kernel, by decide +kernel⟩
/-- Barrier 2 armed with the given expected lanes, the fragment arrived at none. -/
def armed (e : Mask) : State := group fun g => { g with bars := [(2, ⟨true, 0, e, 0⟩)] }
/-- A trap record. -/
def rcd : TrapRec := ⟨0x40, 0, 0, allLanes, 0, 0x52, 0, false⟩
def trapped : State := frag fun f => { f with trap := some rcd }
theorem still_one : Still one := still_of (by decide +kernel) (by decide +kernel)
theorem meets_BarrierWords : (one.barView one.cur 2).armed = false ∧ ((armed allLanes).barView 0 2).armed = true ∧ trapped.f.trap ≠ none ∧
    one.f.trap = none ∧ Still one ∧ one.released one.cur false = true ∧ Still (armed 1) ∧ (armed 1).released 0 false = true ∧
    (armed 1).f.own &&& ~~~((armed 1).barView 0 2).expect ≠ 0 ∧ Still (armed allLanes) ∧
    (armed allLanes).f.own &&& ~~~((armed allLanes).barView 0 2).expect = 0 ∧ one.g.dev = one.fabric.toNat ∧
    (armed 1).g.dev = (armed 1).fabric.toNat ∧ (armed allLanes).g.dev = (armed allLanes).fabric.toNat ∧ (armed allLanes).f.trap = none ∧
    (armed allLanes).released 0 false = true ∧ ((armed 1).g.bar 2).armed = true ∧ ((armed 1).g.bar 3).armed = false ∧
    (let t := ((armed allLanes).splitUpdate 0 (.arrive 2 (armed allLanes).f.own)).beginWait (.join 2)
     ∀ w ∈ t.waiters 0 2, w.2.own.getLsbD (t.barView 0 2).alane = true → w.1 = 0) := by
  refine ⟨?_, ?_, ?_, ?_, still_one, ?_, still_of ?_ ?_, ?_, ?_, still_of ?_ ?_, ?_, ?_, ?_, ?_, ?_, ?_, ?_, ?_, ?_⟩ <;> decide +kernel
/-- A fragment of a group of device 3. -/
def foreign (a : Grant) : State := let s := group fun g => { g with dev := 3 }; s.setF { s.f with grant := a }
theorem meets_BarrierWords_away : ([Grant.none, .asked, .refused].all fun a => (foreign a).g.dev != (foreign a).fabric.toNat && (foreign a).f.trap == none &&
    (foreign a).f.grant == a && (foreign a).f.outs == [] && (foreign a).f.grp == none) = true := by decide +kernel
/-- A watched word at 0x1000, whose value is 0; 4,096 watches held at home 0. -/
def watch : State := reg one 6 0x1000
def watches : State := { watch with frags := watch.frags ++ (List.range 4096).map fun i => (i + 1, { Frag.free with alive := true, state := .waitw 0 0 0 0 false }) }
/-- What WAITW of s6 and s7 asks of a state. -/
def Watching (s : State) : Prop := s.f.trap = none ∧ s.poisoned [.s 6, .s 7] = none ∧ Still s ∧
  s.checkGlobal s.f.coreKey s.g.rights .read 4 false [⟨0, s.sv 6, 4⟩] = none ∧ Free (translated s [s.sv 6]) (s.sv 6)
/-- The value that WAITW of s6 compares, and where. -/
def watched (s : State) : Nat × Leaf :=
  let u := translated s [s.sv 6]
  (u.valIn .dram (u.cellOf (leafAt u (s.sv 6)) (s.sv 6)) 4, leafAt u (s.sv 6))
theorem meets_WaitForAWord : Watching watch ∧ (watched watch).2.dev = watch.fabric.toNat ∧ (watched watch).1 = ((watch.sv 7).setWidth 32 : Word).toNat ∧
    (translated watch [watch.sv 6]).watches (watched watch).2.home < 4096 ∧ Watching (reg watch 7 5) ∧
    (watched (reg watch 7 5)).2.dev = watch.fabric.toNat ∧ (watched (reg watch 7 5)).1 ≠ (((reg watch 7 5).sv 7).setWidth 32 : Word).toNat := by
  refine ⟨⟨?_, ?_, still_of ?_ ?_, ?_, ?_, ?_⟩, ?_, ?_, ?_, ⟨?_, ?_, still_of ?_ ?_, ?_, ?_, ?_⟩, ?_, ?_⟩ <;> decide +kernel
theorem meets_WaitForAWord_full : Watching watches ∧ (watched watches).2.dev = watches.fabric.toNat ∧
    (watched watches).1 = ((watches.sv 7).setWidth 32 : Word).toNat ∧ 4096 ≤ (translated watches [watches.sv 6]).watches (watched watches).2.home := by
  refine ⟨⟨?_, ?_, still_of ?_ ?_, ?_, ?_, ?_⟩, ?_, ?_, ?_⟩ <;> decide +kernel
/-- Page 0 of address space 0 lies on device 5. -/
def watchFar : State := reg (one.setCore 0 { one.core 0 with tlb := [⟨0, 0, false, one.leaf0 + 5 * 2 ^ 64⟩] }) 6 0x1000
theorem meets_WaitForAWord_away : Watching watchFar ∧ (watched watchFar).2.dev = 5 ∧ watchFar.fabric.toNat ≠ 5 := by
  refine ⟨⟨?_, ?_, still_of ?_ ?_, ?_, ?_, ?_⟩, ?_, ?_⟩ <;> decide +kernel
/-- A team of 16 groups. -/
def groups16 : State := { one with groups := (List.range 16).map fun i => (i, { one.g with gidx := i }) }
/-- The core's one context record is taken. -/
def noRecord : State := { one with records := 1 }
/-- Lanes 0 to 31 active. -/
def some32 : State := frag fun f => { f with regs := { f.regs with m := f.regs.m.setIfInBounds 0 0xFFFFFFFF } }
/-- SPAWN of s1 and s2 to s9 may be decided here. -/
def spawning (s : State) : Bool := s.f.trap.isNone && (s.poisoned ((.s 1 : Src) :: ((List.range 8).map fun i => (2 : RegNum) + BitVec.ofNat 6 i).map Src.s)).isNone
theorem meets_GroupCreationAndEnd : ([one, groups16, noRecord].all fun s => spawning s && s.g.dev == s.fabric.toNat) = true ∧
    16 ≤ (groups16.groupsOf groups16.g.team).length ∧ noRecord.records ≤ noRecord.recordsUsed noRecord.t.coreKey ∧
    fragNo one.nextId 0 ≠ one.cur ∧ (one.groupsOf one.g.team).length < 16 ∧ one.recordsUsed one.t.coreKey < one.records ∧
    ([.asked, .refused, .spawned true, .spawned false].all fun a => spawning (foreign a) && (foreign a).f.grant == a &&
      (foreign a).g.dev != (foreign a).fabric.toNat) = true ∧
    Still one ∧ Still some32 ∧ Still idle ∧ some32.f.own &&& ~~~(some32.mreg 0) ≠ 0 ∧ one.f.own &&& ~~~(one.mreg 0) = 0 ∧ idle.mreg 0 = 0 ∧
    some32.g.dev = some32.fabric.toNat ∧ idle.g.dev = idle.fabric.toNat := by
  refine ⟨?_, ?_, ?_, ?_, ?_, ?_, ?_, still_one, still_of ?_ ?_, still_of ?_ ?_, ?_, ?_, ?_, ?_, ?_⟩ <;> decide +kernel
/-- Lane l of v1 holds 4·l, s6 the base 0x1000. -/
def strided : State := (reg one 6 0x1000).wrV 1 (fun l => BitVec.ofNat 32 (4 * l)) false
theorem meets_GlobalStoresAtHome : strided.f.sent = 0 ∧ strided.poisoned (addrSrcs 6 1 strided.eff ++ [.v 2 strided.eff]) = none ∧
    LocalAccess strided .write 4 (strided.vreg 2).bnd ((lanesIn strided.eff).map fun l => ⟨l, strided.src.addr 6 1 4 l, 4⟩) ∧
    ReleaseMet strided 2 ∧ (∀ l ∈ lanesIn strided.eff, strided.readErr (placeOf strided (strided.src.addr 6 1 4 l)) 4 = false) ∧
    strided.poisoned [.s 6, .s 2] = none ∧ LocalAccess strided .write 8 (strided.sreg 2).bnd [⟨0, strided.sv 6, 8⟩] := by
  refine ⟨?_, ?_, ?_, ?_, ?_, ?_, ?_⟩ <;> (try unfold LocalAccess NothingBefore Served) <;> (try unfold ReleaseMet) <;> decide +kernel
theorem meets_GlobalLoadsAtHome : strided.poisoned (addrSrcs 6 1 strided.eff) = none ∧ ReleaseMet strided 1 ∧
    LocalAccess strided .read 1 false ((lanesIn strided.eff).map fun l => ⟨l, strided.src.addr 6 1 1 l, 1⟩) ∧
    (strided.sreg 6).poison = false ∧ LocalAccess strided .read 8 false [⟨0, strided.sv 6, 8⟩] ∧ (60 : RegNum).toNat < 61 := by
  refine ⟨?_, ?_, ?_, ?_, ?_, ?_⟩ <;> (try unfold LocalAccess NothingBefore Served) <;> (try unfold ReleaseMet) <;> decide +kernel
theorem meets_AtomicsAtHome : ReleaseMet strided 3 ∧ strided.poisoned (addrSrcs 6 1 strided.eff ++ [.v 2 strided.eff] ++ [.v (strided.third 2) strided.eff]) = none ∧
    LocalAccess strided .atom 4 ((strided.vreg 2).bnd || (decide ((7 : BitVec 3) = 7) && (strided.vreg (strided.third 2)).bnd))
      ((lanesIn strided.eff).map fun l => (⟨l, strided.src.addr 6 1 4 l, 4⟩ : Addr)) ∧
    LocalAccess strided .atom 4 (strided.vreg 2).bnd ((lanesIn strided.eff).map fun l => (⟨l, strided.src.addr 6 1 4 l, 4⟩ : Addr)) ∧
    (∀ l ∈ lanesIn strided.eff, strided.readErr (placeOf strided (strided.src.addr 6 1 4 l)) 4 = false ∧ Plain strided (strided.src.addr 6 1 4 l) 4) ∧
    (∀ j, j < 4 → Outside (((lanesIn strided.eff).filter (· != 95)).map fun l => placeOf strided (strided.src.addr 6 1 4 l)) 4
      (placeOf strided (strided.src.addr 6 1 4 95) + j)) := by
  refine ⟨?_, ?_, ?_, ?_, ?_, ?_⟩ <;> (try unfold Plain) <;> (try unfold Outside) <;> (try unfold LocalAccess NothingBefore Served) <;> (try unfold ReleaseMet) <;> decide +kernel
/-- The rights of an unprivileged context. -/
def user : Rights := ⟨0, 0, false, 0, 0, 0, 0⟩
/-- Page 0 of address space 0 with other bits in its leaf. -/
def leafy (add : Nat) : State := one.setCore 0 { one.core 0 with tlb := [⟨0, 0, false, one.leaf0 + BitVec.ofNat 128 add⟩, ⟨0, 1, false, one.leaf0 + 2 ^ 61⟩] }
theorem meets_AccessFaultOrder : (one.farAway 0 user 8 = false ∧ one.leased user .read 8 4 = false) ∧
    (one.leased one.g.rights .read 0x10000 4 = true ∧ one.protOf 0 one.g.rights .read 0x10000 ≠ 0) ∧ one.protOf 0 one.g.rights .read 2 = 0 ∧
    (2 : DWord).toNat % 4 ≠ 0 ∧ one.g.rights.asgen < ((leafy (2 ^ 96)).leafOf 0 0 8).gen ∧ one.protOf 0 one.g.rights .write 8 = 0 ∧
    ((leafy 0).leafOf 0 0 8).ord ≠ ((leafy 0).leafOf 0 0 0x10000).ord ∧ (one.leafOf 0 0 8).bnd = false ∧ ((leafy (2 ^ 60)).leafOf 0 0 8).bnd = true ∧
    one.g.rights.priv = true := by decide +kernel
theorem meets_ScratchpadAndVaultWords : strided.poisoned (addrSrcs 0 1 strided.eff ++ [.v 2 strided.eff]) = none ∧ strided.teamOrder 1 true = true ∧
    strided.teamOrder 2 false = true ∧ (strided.vreg 2).bnd = false ∧ strided.g.dev = strided.fabric.toNat ∧ NothingBefore strided ∧
    (∀ l ∈ lanesIn strided.eff, (strided.src.addr 0 1 4 l).toNat % 4 = 0 ∧
      (strided.scrAt strided.g.team strided.g.rights.asid (strided.src.addr 0 1 4 l) 4 true).toOption = some ⟨strided.f.coreKey, 4 * l, none, false⟩ ∧
      (strided.scrAt strided.g.team strided.g.rights.asid (strided.src.addr 0 1 4 l) 4 false).toOption = some ⟨strided.f.coreKey, 4 * l, none, false⟩ ∧
      (strided.vaultAt strided.f.home strided.g.rights.asid (strided.src.addr 0 1 4 l)).toOption = some (4 * l)) ∧
    Apart (((lanesIn strided.eff).filter (· != 0)).map fun l => scrKey strided.f.coreKey (4 * l)) 4 (scrKey strided.f.coreKey 0) ∧
    Apart (syncPlaces strided) 12 (scrKey strided.f.coreKey 0) ∧ Apart ((lanesIn strided.eff).map fun l => scrKey strided.f.coreKey (4 * l)) 4 384 ∧
    idle.poisoned (addrSrcs 0 1 idle.eff ++ [.v 2 idle.eff]) = none ∧ idle.eff = 0 := by
  unfold NothingBefore Apart; decide +kernel
/-- A lease of kind ro on 64 KiB for the grid of the group. -/
def leased : State := { one with leases := [(0, BitVec.ofNat 256 (2 ^ 226 + 2 ^ 224 + 65536 * 2 ^ 64))] }
/-- s6 and s7 of SPMAP: 512 bytes of memory at 0x1000 at offset 256. -/
def spm : State := reg (reg one 6 0x1000) 7 0x0000020000000100
/-- All eight map entries taken, far from offset 256; and a dirty line. -/
def spmFull : State := { spm with teams := [(0, { spm.t with maps := (List.range 8).map fun i => (i, ⟨4096 + 256 * i, 256, 0, false, true, [0], [], spm.g.rights⟩) })] }
def fenced : State := frag fun f => { f with outs := [outA] }
theorem meets_FencesQueriesAndMaps : one.fenceMet one.cur (isAcq 3) (isRel 3) (decide ((5 : BitVec 3) = 5)) = true ∧
    fenced.fenceMet fenced.cur (isAcq 1) (isRel 1) (decide ((4 : BitVec 3) = 5)) = false ∧ (one.sreg 6).poison = false ∧
    one.checkGlobal one.f.coreKey one.g.rights .move 1 false [⟨0, one.sv 6, 1⟩] = none ∧ (leafAt one (one.sv 6)).dev = one.fabric.toNat ∧
    (leafAt one (one.sv 6)).home = one.f.home ∧ (one.trCore 0 0 0).toOption.isSome = true ∧ (one.trCore 0 0 0x10000).toOption.isSome = false ∧
    (leased.bestLease leased.g.rights 65535).isSome = true ∧ leased.bestLease leased.g.rights 65536 = none ∧
    spm.poisoned [.s 6, .s 7] = none ∧ (reg spm 6 0x1001).sv 6 = 0x1001 ∧ (spm.sv 6).toNat % 256 = 0 ∧ 256 + 512 ≤ spm.t.size ∧
    spm.t.size < 256 + 0x1F01 ∧ spm.checkRange spm.f.coreKey spm.g.rights (rangeParts (spm.sv 6) 512) = none ∧
    ((List.range 8).find? fun e => (spm.t.maps.find e).isNone) = some 0 ∧ (spm.t.maps.any fun e => decide (e.2.off < 768 ∧ 256 < e.2.off + e.2.len)) = false ∧
    ((List.range 8).find? fun e => (spmFull.t.maps.find e).isNone) = none ∧ (∀ e ∈ spmFull.t.maps, e.2.dirty = []) ∧ spm.storesAcked spm.cur = true ∧
    one.g.dev = one.fabric.toNat ∧ spm.g.dev = spm.fabric.toNat ∧ spmFull.g.dev = spmFull.fabric.toNat := by
  decide +kernel
/-- A fragment of another device's group that names a range. -/
def spmAway : State := spm.setG { spm.g with dev := 3 }
theorem meets_FencesQueriesAndMaps_away : spmAway.poisoned [.s 6, .s 7] = none ∧ spmAway.g.dev ≠ spmAway.fabric.toNat ∧
    spmAway.answered (.frag spmAway.cur) = [] ∧ (∀ y ∈ spmAway.remote, y.asker ≠ some (.frag spmAway.cur)) := by decide +kernel
/-- Tile 0 with an element, and with octet part 0 poisoned. -/
def tiled : State := group fun g => { g with ntiles := 1, tiles := [(0, ⟨false, false, 0, [(0, 0x3F800000)]⟩)] }
theorem meets_AccumulatorAndBlockSkipWords : tiled.tileCheck false 0 = none ∧ tiled.tileCheck true 0 = none ∧ (reg tiled 6 31).sv 6 = 31 ∧
    (tiled.sreg 6).poison = false ∧ (tiled.g.tile 0).poisonFault 0 (tiled.mreg 0) = none ∧ idle.mreg 0 = 0 ∧ tiled.mreg 0 ≠ 0 ∧
    tiled.poisoned [.v 1 (tiled.mreg 0), .s 6] = none ∧ (tiled.g.tile 0).empty = false ∧ (one.g.tile 0).empty = true ∧ one.tileCheck false 0 = none ∧
    (62 : RegNum) ≠ 63 ∧ tiled.poisoned [.v 62 (tiled.mreg 0), .v 63 (tiled.mreg 0), .s 6] = none := by decide +kernel
/-- One active lane; s4 the address 0x1000, s5 four columns and a pitch of 4 KiB. -/
def row0 : State := reg (reg (tiled.setF { tiled.f with regs := { tiled.f.regs with m := tiled.f.regs.m.setIfInBounds 0 1 } }) 4 0x1000) 5 0x0000000400001000
/-- The object of CSTZ for one element kept. -/
def obj : List Addr := ⟨0, 0x1000, 4⟩ :: ((List.range 96).map fun r => ⟨r, 0x1000 + BitVec.ofNat 64 (64 + 4 * r), 4⟩) ++
  [⟨0, 0x1000 + BitVec.ofNat 64 448, 4⟩]
theorem meets_TileStores : row0.tileCheck false 0 = none ∧ (row0.g.tile 0).poisonFault 0 (row0.mreg 0) = none ∧ 0 < fmtBits 0 / 8 ∧
    row0.poisoned [.s 4, .s 5] = none ∧ ((row0.sv 5).extractLsb' 32 6).toNat = 4 ∧ (row0.sv 4).toNat % 64 = 0 ∧
    LocalAccess row0 .write 4 false ((List.range 4).map fun i => ⟨i, 0x1000 + BitVec.ofNat 64 (4 * i), 4⟩) ∧
    LocalAccess row0 .write 1 false obj ∧ (∀ y ∈ obj, row0.readErr (placeOf row0 y.va) y.size = false) ∧
    (∀ y ∈ obj, placeOf row0 y.va = placeOf row0 0x1000 + (y.va - 0x1000).toNat) ∧ (row0.sreg 4).poison = false := by
  refine ⟨?_, ?_, ?_, ?_, ?_, ?_, ?_, ?_, ?_, ?_, ?_⟩ <;> (try unfold LocalAccess NothingBefore Served) <;> decide +kernel
/-- Slots 0 to 3 claimed by the group; one pass of MMA queued. -/
def claimed : State := tiled.setCore 0 { tiled.core 0 with slots := (List.range 4).map fun i => (i, SlotSt.claimed 0) }
def pass0 : MmaEntry := ⟨0, 0, 0, 0, 1, 0, 3, 3, 3⟩
def passing : State := claimed.setCore 0 { claimed.core 0 with mmaQ := [pass0] }
theorem meets_MatrixOperations : idle.mreg 0 = 0 ∧ claimed.mreg 0 ≠ 0 ∧ mmaK (claimed.src.fmt.extractLsb' 0 4) (claimed.src.fmt.extractLsb' 8 4) ≠ none ∧
    claimed.tileCheck true 0 = none ∧ claimed.mmaSlots 0 3 = none ∧ (claimed.core 0).mmaQ.length + (passes (claimed.mreg 0)).length ≤ 16 ∧
    takeAt (passing.core 0).mmaQ 0 = some (pass0, []) ∧ pass0.credits ≤ (passing.home 0).credPass ∧ (mmaK (pass0.fmtA.extractLsb' 0 4) (pass0.fmtB.extractLsb' 0 4)).isSome = true ∧
    passing.placement false = none ∧ ((passing.core passing.f.coreKey).mmaQ.any fun e => e.group == passing.f.group && (1 : BitVec 4).getLsbD e.stream) = true ∧
    ((claimed.core 0).mmaQ.any fun e => e.group == 0) = false ∧ (frag fun f => { f with msync := some (1, 1) }).f.msync = some (1, 1) ∧
    (frag fun f => { f with msync := some (1, 1) }).f.grp = none := by decide +kernel
theorem placed_one (x : Bool) : claimed.placement x = none := by cases x <;> decide +kernel
/-- Slot 5 claimed by another group. -/
def taken : State := claimed.setCore 0 { claimed.core 0 with slots := [(5, SlotSt.claimed 7), (6, .clearing)] }
theorem meets_OperandSlots : (126 : BitVec 7).toNat + (1 : BitVec 7).toNat < 128 ∧ (∀ x, taken.placement x = none) ∧
    (∃ i g, (5 ≤ i ∧ i ≤ 5 + 0) ∧ taken.slot 0 i = .claimed g ∧ g ≠ taken.f.group) ∧ (∀ x, claimed.placement x = none) ∧
    (∀ i, i < 4 → claimed.slot 0 i ≠ .clearing ∧ ∀ g, claimed.slot 0 i = .claimed g → g = claimed.f.group) ∧
    claimed.placement false = none ∧ (claimed.core 0).mmaQ = [] ∧ (∀ i, i < 4 → claimed.fillOutstanding 0 i = false) ∧ taken.slot 0 6 = .clearing ∧
    tiled.g.alive = true ∧ 0 < tiled.g.ntiles ∧ 11 < 12 := by
  refine ⟨by decide, fun x => by cases x <;> decide +kernel, ⟨5, 7, by decide, by decide +kernel, by decide +kernel⟩, placed_one, ?_, placed_one false,
    by decide +kernel, by decide +kernel, by decide +kernel, by decide +kernel, by decide +kernel, by decide⟩
  intro i hi
  have h : ∀ i, i < 4 → claimed.slot 0 i = .claimed 0 := by decide +kernel
  rw [h i hi]
  exact ⟨by decide, fun g hg => by cases hg; decide +kernel⟩
/-- Values that may be read at once, as a check that computes. -/
def readable (s : State) (n : Nat) (vas : List DWord) : Bool :=
  decide (s.checkGlobal s.f.coreKey s.g.rights .read n false (vas.map fun va => ⟨0, va, n⟩) = none) && decide (s.answered (.frag s.cur) = []) && s.chanWaits.isEmpty &&
    vas.all fun va => decide ((leafAt s va).dev = s.fabric.toNat) && s.served [⟨0, .dram, placeOf s va, n, 0, va, none, 0⟩] && !s.readErr (placeOf s va) n
theorem reads_of {s : State} {n : Nat} {vas : List DWord} (h : readable s n vas = true) : ReadsHere s n vas := by
  simp only [readable, Bool.and_eq_true, List.all_eq_true, decide_eq_true_eq, Bool.not_eq_true'] at h
  have hc : s.chanWaits = [] := List.isEmpty_iff.mp h.1.2
  exact ⟨h.1.1.1, h.1.1.2, by simp [hc], fun va hv => ⟨(h.2 va hv).1.1, (h.2 va hv).1.2, (h.2 va hv).2⟩⟩
/-- Fibre registers of the group. -/
def fibres (xs : KMap Fib) : State := group fun g => { g with fibs := xs }
/-- A list of four coordinates at 0x1000, of formats 32 and 16 bits. -/
def list4 : Fib := ⟨3, 0xE, 0, 0x1000, 0, 1, 4, 0, 0, 0, 0, 0⟩
/-- Two rows with pointers at 0x2000 and coordinates at 0x1000. -/
def csr2 : Fib := ⟨1, 0xE, 0x2000, 0x1000, 0, 2, 0, 0, 0, 0, 2, 0⟩
/-- A bit vector of 12 bits at 0x1000. -/
def bits12 : Fib := ⟨4, 0xE, 0, 0x1000, 0, 1, 12, 0, 0, 0, 0, 0⟩
/-- Two runs at 0x1000: 3 and 4, then 9 and 10. -/
def runs2 : Fib := ⟨5, 0xE, 0, 0x1000, 0, 1, 2, 0, 0, 0, 0, 0⟩
def runMem : List Host.Cell := [(0x1000, 3), (0x1004, 2), (0x1008, 9), (0x100C, 2)]
/-- A descriptor at offset 64 of the scratchpad, s6 pointing to it; pointers 0, 2 and 4 at 0x2000. -/
def desc (f : Fib) : State := { scr (reg one 6 64) 64 (leBytes 64 f.bits.toNat) with mem := (if f.kind = 5 then runMem else []) ++ [(0x2004, 2), (0x2008, 4)] }
def bitsAt (s : State) (k : Nat) : BitVec 512 := BitVec.ofNat 512 (s.valIn .scratch k 64)
def opens (s : State) (f : Fib) (x : BitVec 6) : Bool :=
  decide (s.placement true = none) && !s.fibBusy x.toNat && !(s.sreg 6).poison && decide ((s.sv 6).toNat % 64 = 0) &&
    decide ((s.scrBytes s.g.team s.g.rights.asid (s.sv 6) 64 false).toOption = some 64) &&
    decide ((Fib.ofBits (bitsAt s 64)).refusal (isStream x) (decide ((bitsAt s 64).extractLsb' 8 120 ≠ 0)) = none) && decide (Fib.ofBits (bitsAt s 64) = f)
/-- A stream of four FP32 values. -/
def stream4 : Fib := { list4 with kind := 8, fmt := 3 }
theorem meets_FibreWords_open : opens (desc list4) list4 0 = true ∧ ReadsHere (desc list4) 4 list4.whole.2 ∧ fibHeld (desc list4) list4.whole.2 = false ∧
    opens (desc bits12) bits12 7 = true ∧ ReadsHere (desc bits12) 1 bits12.whole.2 ∧ fibHeld (desc bits12) bits12.whole.2 = false ∧ opens (desc stream4) stream4 8 = true ∧
    ReadsHere (desc stream4) stream4.whole.1 stream4.whole.2 ∧ opens (desc runs2) runs2 3 = true ∧ ReadsHere (desc runs2) 8 runs2.whole.2 ∧
    fibHeld (desc runs2) runs2.whole.2 = false ∧
    ((List.range 2).map fun j => valueAt (desc runs2) (runs2.arr + BitVec.ofNat 64 (8 * j)) 8 / 2 ^ 32).sum = 4 := by
  refine ⟨?_, ?_, ?_, ?_, ?_, ?_, ?_, ?_, ?_, ?_, ?_, ?_⟩ <;> (try apply reads_of) <;> decide +kernel
theorem meets_FibreWords_rows : opens (desc csr2) csr2 0 = true ∧ csr2.rows = true ∧
    (desc csr2).checkGlobal (desc csr2).f.coreKey (desc csr2).g.rights .read 4 false ((List.range 3).map fun i => ⟨0, csr2.ptrAt i, 4⟩) = none ∧
    ReadsHere (desc csr2) 4 [csr2.ptrAt 0, csr2.ptrAt 2, csr2.ptrAt 1] ∧ fibHeld (desc csr2) [csr2.ptrAt 0, csr2.ptrAt 2, csr2.ptrAt 1] = false ∧
    [valueAt (desc csr2) (csr2.ptrAt 0) 4, valueAt (desc csr2) (csr2.ptrAt 1) 4, valueAt (desc csr2) (csr2.ptrAt 2) 4] = [0, 2, 4] ∧
    (translated (desc csr2) [csr2.ptrAt 0, csr2.ptrAt 2, csr2.ptrAt 1]).checkGlobal 0 (desc csr2).g.rights .read 4 false
      ((csr2.span 0 4).map fun va => (⟨0, va, 4⟩ : Addr)) = none := by
  refine ⟨?_, ?_, ?_, ?_, ?_, ?_, ?_⟩ <;> (try apply reads_of) <;> decide +kernel
/-- f0 the list of four with all left, f1 the rows; s6 = 1, s7 a step of one row. -/
def fib2 : State := { reg (reg (fibres [(0, { list4 with fin := 4 }), (1, csr2), (4, list4)]) 6 1) 7 0x8000000000000001 with mem := [(0x2004, 2), (0x2008, 4)] }
theorem meets_FibreWords_closed : fib2.placement false = none ∧ (fib2.g.fib 5).kind = 0 ∧ (List.range 12).all (fun x => !fib2.fibBusy x) = true ∧
    (fib2.sreg 6).poison = false ∧ (reg fib2 8 0x8000000000000000).sv 8 = 0x8000000000000000 ∧ (fib2.g.fib 0).rows = false ∧
    (fib2.g.fib 0).crow.toNat + 0 < (fib2.g.fib 0).row0.toNat + (fib2.g.fib 0).nrow.toNat := by decide +kernel
theorem meets_FibreWords_steps : fib2.placement false = none ∧ (fib2.g.fib 0).kind ≠ 0 ∧ (fib2.g.fib 1).kind ≠ 0 ∧ (fib2.sreg 6).poison = false ∧
    (fib2.sv 6).getLsbD 63 = false ∧ (fib2.sreg 7).poison = false ∧ (fib2.sv 7).getLsbD 63 = true ∧ ((fib2.sv 7).extractLsb' 0 32).toNat = 1 ∧
    (fib2.g.fib 0).row0.toNat + (fib2.g.fib 0).nrow.toNat ≤ (fib2.g.fib 0).crow.toNat + 1 ∧
    (fib2.g.fib 1).crow.toNat + 1 < (fib2.g.fib 1).row0.toNat + (fib2.g.fib 1).nrow.toNat ∧ (fib2.g.fib 1).rows = true ∧
    ReadsHere fib2 4 [csr2.ptrAt 0, csr2.ptrAt 2, csr2.ptrAt 1, csr2.ptrAt 2] ∧ fibHeld fib2 [csr2.ptrAt 0, csr2.ptrAt 2, csr2.ptrAt 1, csr2.ptrAt 2] = false ∧
    valueAt fib2 (csr2.ptrAt 0) 4 ≤ valueAt fib2 (csr2.ptrAt 1) 4 ∧ valueAt fib2 (csr2.ptrAt 1) 4 ≤ valueAt fib2 (csr2.ptrAt 2) 4 := by
  refine ⟨?_, ?_, ?_, ?_, ?_, ?_, ?_, ?_, ?_, ?_, ?_, ?_, ?_, ?_, ?_⟩ <;> (try apply reads_of) <;> decide +kernel
/-- FLDC finds coordinates for lanes 0 to 3, at home 0. -/
theorem meets_FibreElementLoad : fib2.placement false = none ∧ (fib2.g.fib 0).kind = 3 ∧
    ((List.range 96).filter fun l => (fib2.mreg 0).getLsbD l && decide ((fib2.g.fib 0).pos.toNat + ((List.range l).filter fun j => (fib2.mreg 0).getLsbD j).length <
      (fib2.g.fib 0).fin.toNat)) = [0, 1, 2, 3] ∧ ReadsHere fib2 4 ([0, 1, 2, 3].map fun l => 0x1000 + BitVec.ofNat 64 (4 * l)) ∧
    fibHeld fib2 ([0, 1, 2, 3].map fun l => 0x1000 + BitVec.ofNat 64 (4 * l)) = false ∧
    (∀ l ∈ [0, 1, 2, 3], (leafAt fib2 (0x1000 + BitVec.ofNat 64 (4 * l))).home = fib2.f.home ∧
      (leafAt fib2 (0x1000 + BitVec.ofNat 64 (4 * l))).ord ≠ 0) ∧ (fib2.g.fib 5).kind = 0 ∧ (fib2.g.fib 4).kind ≠ 0 ∧ fib2.fibBusy 4 = false ∧
    ((List.range 96).filter fun l => (fib2.mreg 0).getLsbD l && decide ((fib2.g.fib 4).pos.toNat + ((List.range l).filter fun j => (fib2.mreg 0).getLsbD j).length <
      (fib2.g.fib 4).fin.toNat)) = [] := by
  refine ⟨?_, ?_, ?_, ?_, ?_, ?_, ?_, ?_, ?_, ?_⟩ <;> (try apply reads_of) <;> decide +kernel
/-- f2 a bit vector with bits 0, 1 and 3 set, f3 two runs of two. -/
def fib3 : State := { fibres [(2, { bits12 with fin := 3 }), (3, { runs2 with fin := 4, arr := 0x1008 })] with
  mem := [(0x1000, 11), (0x1008, 3), (0x100C, 2), (0x1010, 9), (0x1014, 2)] }
/-- The lanes that FLDC finds an element for. -/
def found (s : State) (x : Nat) : List Nat := (List.range 96).filter fun l => (s.mreg 0).getLsbD l &&
  decide ((s.g.fib x).pos.toNat + ((List.range l).filter fun j => (s.mreg 0).getLsbD j).length < (s.g.fib x).fin.toNat)
theorem meets_FibreElementLoad_runs : fib3.placement false = none ∧ fib3.fibBusy 2 = false ∧ fib3.fibBusy 3 = false ∧ (fib3.g.fib 2).kind = 4 ∧ (fib3.g.fib 3).kind = 5 ∧
    found fib3 2 = [0, 1, 2] ∧ found fib3 3 = [0, 1, 2, 3] ∧ ReadsHere fib3 1 (fib3.g.fib 2).whole.2 ∧ fibHeld fib3 (fib3.g.fib 2).whole.2 = false ∧
    ReadsHere fib3 8 (fib3.g.fib 3).whole.2 ∧ fibHeld fib3 (fib3.g.fib 3).whole.2 = false ∧
    (valueAt fib3 0x1000 1).testBit 3 = true ∧ ((List.range 3).filter fun j => (valueAt fib3 0x1000 1).testBit j).length = 2 ∧
    1 < valueAt fib3 0x1010 8 / 2 ^ 32 ∧ valueAt fib3 0x1008 8 / 2 ^ 32 + 1 = 3 := by
  refine ⟨?_, ?_, ?_, ?_, ?_, ?_, ?_, ?_, ?_, ?_, ?_, ?_, ?_, ?_, ?_⟩ <;> (try apply reads_of) <;> decide +kernel
/-- s6 a PERF number, GTCMP met. -/
def counters : State := reg (frag fun f => { f with gtimer := 5, gtcmp := 5 }) 6 0x2FF
theorem meets_CounterWords : (counters.sreg 6).poison = false ∧ (counters.sreg 6).bnd = false ∧ (bounded.sreg 5).bnd = true ∧ (bounded.sreg 5).poison = false ∧
    ((counters.sv 6).extractLsb' 0 16).toNat = 0x2FF ∧ ¬(0x300 ≤ 8 ∨ (0x10 ≤ 0x300 ∧ 0x300 ≤ 0x13) ∨ (0x100 ≤ 0x300 ∧ 0x300 ≤ 0x2FF)) ∧
    counters.mayIssue counters.cur = true ∧ counters.f.grp = none ∧ counters.f.pfx = none ∧ counters.asking counters.cur = false ∧ counters.f.trap = none ∧
    counters.f.gtcmp ≤ counters.f.gtimer ∧ one.mayIssue one.cur = true ∧ one.f.grp = none ∧ one.f.pfx = none ∧ one.asking one.cur = false ∧ one.f.trap = none ∧
    one.f.gtimer < one.f.gtcmp ∧ (counters.fetch counters.cur counters.f.pc).toOption = some 0 ∧ (0 : Word).extractLsb' 24 6 ≠ 0x3F ∧
    (reg counters 6 8).sv 6 = 8 ∧ (counters.fuseOf counters.f.home).arrays.getLsbD (0x2FF - 0x100) = true ∧ (reg one 6 7).f.gtimer.toNat + 7 < 2 ^ 64 := by
  decide +kernel
/-- The same fragment at a prefix word and a word that takes it; in a chain group that began at other times. -/
def countersPfx : State := { counters with mem := [(3, 0x3F), (7, 0x09)] }
theorem meets_CounterWords_pfx : countersPfx.mayIssue countersPfx.cur = true ∧ countersPfx.f.grp = none ∧ countersPfx.f.pfx = none ∧
    countersPfx.asking countersPfx.cur = false ∧ countersPfx.f.trap = none ∧ countersPfx.f.gtcmp ≤ countersPfx.f.gtimer ∧
    (countersPfx.fetch countersPfx.cur countersPfx.f.pc).toOption = some 0x3F000000 ∧ (0x3F000000 : Word).extractLsb' 24 6 = 0x3F ∧
    countersPfx.slotOf countersPfx.cur countersPfx.f.pc < 2 ∧ (countersPfx.fetch countersPfx.cur (countersPfx.f.pc + 4)).toOption = some 0x09000000 ∧
    takesPfx ((0x09000000 : Word).extractLsb' 24 6).toNat = true := by decide +kernel
/-- An address space 0 in use, a bounded s7, s6 = 0. -/
def priv0 : State := { one with asTab := [(0, BitVec.twoPow 256 191 ||| BitVec.twoPow 256 192), (1, BitVec.twoPow 256 191 ||| BitVec.ofNat 256 (0xFFFFFFFF * 2 ^ 224))] }
theorem meets_PrivilegedWords : (priv0.sreg 6).poison = false ∧ (priv0.sreg 6).bnd = false ∧ (bounded.sreg 5).bnd = true ∧
    (priv0.asEnt 2).getLsbD 191 = false ∧ (priv0.asEnt 1).extractLsb' 224 32 = BitVec.allOnes 32 ∧ (priv0.asEnt 0).getLsbD 191 = true ∧
    (priv0.asEnt 0).extractLsb' 224 32 ≠ BitVec.allOnes 32 ∧ priv0.dropBusy (.space 0) = false ∧ priv0.poisoned [.s 6, .s 7] = none ∧
    ((reg one 7 12).sv 7).extractLsb' 0 4 = 12 ∧ (((reg one 7 11).sv 7).extractLsb' 0 4).toNat < 12 ∧
    one.checkGlobal one.f.coreKey one.g.rights .read 64 false [⟨0, one.sv 6, 8⟩] = none ∧ ReadsHere one 8 ((List.range 16).map fun i => one.sv 6 + BitVec.ofNat 64 (8 * i)) ∧
    (one.sv 7).extractLsb' 18 46 = 0 ∧ one.dropBusy (dropOf (one.sv 6) (one.sv 7)) = false ∧ (reg one 7 0x40000).sv 7 ≠ 0 := by
  refine ⟨?_, ?_, ?_, ?_, ?_, ?_, ?_, ?_, ?_, ?_, ?_, ?_, ?_, ?_, ?_, ?_⟩ <;> (try apply reads_of) <;> decide +kernel
/-- HTLD's 544 doublewords lie on the mapped page; a table without a routine is taken, a routine of no word refused (R280, R281). -/
theorem meets_PrivilegedWords_table : ReadsHere one 8 ((List.range 544).map fun i => one.sv 6 + BitVec.ofNat 64 (8 * i)) ∧ tableRefusal [] = none ∧
    tableRefusal [(0, 0x80)] = some (0, 0) ∧ one.installing 0 = false ∧ (0 : BitVec 64).extractLsb' 0 4 = 0 := by
  refine ⟨reads_of ?_, ?_, ?_, ?_, ?_⟩ <;> decide +kernel
theorem meets_PrivilegedWords_ovtld : ([.none, .asked, .given [], .refused].all fun a => (foreign a).f.grant == a && !((foreign a).sreg 6).poison &&
    !((foreign a).sreg 6).bnd && (foreign a).g.dev != (foreign a).fabric.toNat) = true ∧ one.g.dev = one.fabric.toNat := by decide +kernel
/-- Selectors that name what they select, and one that does not; KEYLD of a slot that no request uses. What a record unwraps to is the device's secret. -/
theorem meets_PrivilegedWords_keys : (0x8000000000000005 : DWord).getLsbD 63 = true ∧ (0x8000000000000005 : DWord).extractLsb' 9 54 = 0 ∧ (5 : DWord).extractLsb' 12 51 = 0 ∧
    (5 : DWord).getLsbD 63 = false ∧ (0x1000 : DWord).extractLsb' 12 51 ≠ 0 ∧ one.slotBusy 5 = false := by decide +kernel
theorem meets_TrapWords : one.f.trap = none ∧ trapped.f.trap = some rcd ∧ Still trapped ∧ (trapped.sreg 6).poison = false ∧
    ((reg trapped 6 0x1020).sv 6).toNat % 64 ≠ 0 ∧ (trapped.sv 6).toNat % 64 = 0 ∧ trapped.g.dev = trapped.fabric.toNat ∧ trapped.teamOrder 0 false = true ∧
    NothingBefore trapped ∧ (trapped.sv 6).toNat < 2 ^ 19 ∧ 2 ^ 19 ≤ ((reg trapped 6 0x80000).sv 6).toNat ∧ ((reg trapped 6 0x80000).sv 6).toNat % 64 = 0 ∧
    ((reg trapped 6 0x80000).sreg 6).poison = false ∧ ((reg trapped 6 0x1020).sreg 6).poison = false ∧
    (∀ i, i < 64 → Apart (syncPlaces trapped) 12 (scrKey trapped.f.coreKey 0 + i)) ∧
    (∀ i, i < 8 → (trapped.scrAt trapped.g.team trapped.g.rights.asid (trapped.sv 6 + BitVec.ofNat 64 (8 * i)) 8 true).toOption = some ⟨trapped.f.coreKey, 8 * i, none, false⟩) := by
  refine ⟨?_, ?_, still_of ?_ ?_, ?_, ?_, ?_, ?_, ?_, ⟨?_, ?_⟩, ?_, ?_, ?_, ?_, ?_, ?_, ?_⟩ <;> (try unfold Apart) <;> decide +kernel
/-- The windows one past the last that a trap can move. -/
def atEdge (v : BitVec 8) : State := frag fun f => { f with regs := { f.regs with wbV := v } }
theorem meets_TrapEntry : one.f.alive = true ∧ Still one ∧ one.f.leave = none ∧ one.f.due = none ∧ (faultOf 0x01#8).code ≠ 0x10#8 ∧ one.f.trap = none ∧
    (one.part one.g.rights.part).trapent ≠ 0 ∧ (atEdge 184).f.regs.wbV.toNat ≤ 184 ∧ one.f.regs.wbS.toNat ≤ 56 ∧ Still (atEdge 184) ∧
    184 < (atEdge 192).f.regs.wbV.toNat ∧ Still (atEdge 192) ∧ trapped.f.trap ≠ none ∧ Still trapped ∧ (faultOf 0x10#8).code = 0x10#8 ∧
    (one.grid (one.team one.g.team).grid).alive = true ∧ one.g.dev = one.fabric.toNat := by
  refine ⟨?_, still_one, ?_, ?_, ?_, ?_, ?_, ?_, ?_, still_of ?_ ?_, ?_, still_of ?_ ?_, ?_, still_of ?_ ?_, ?_, ?_, ?_⟩ <;> decide +kernel
theorem meets_TrapEntry_away : (foreign .none).f.alive = true ∧ Still (foreign .none) ∧ (foreign .none).f.leave = none ∧ (foreign .none).f.due = none ∧
    (foreign .none).g.dev ≠ (foreign .none).fabric.toNat ∧ (foreign .none).f.grant = .none ∧ (foreign .none).f.trap = none ∧
    ((foreign .none).part (foreign .none).g.rights.part).trapent ≠ 0 := by
  refine ⟨?_, still_of ?_ ?_, ?_, ?_, ?_, ?_, ?_, ?_⟩ <;> decide +kernel
/-- A record of `n` data bytes at an address of s6, as a check that computes. -/
def recordOk (s : State) (key n : Nat) : Bool :=
  decide (s.g.dev = s.fabric.toNat) && !(s.sreg 6).poison && decide ((s.sv 6).toNat % 64 = 0) && decide ((s.scrBytes s.g.team s.g.rights.asid (s.sv 6) 64 false).toOption = some key) &&
    (s.scrBytes s.g.team s.g.rights.asid (s.sv 6) (64 + n) false).toOption.isSome && decide (s.sramErr = []) && s.net.isEmpty && s.banks.isEmpty
theorem record_of {s : State} {key n : Nat} (h : recordOk s key n = true) : RecordAt s 6 key n := by
  simp only [recordOk, Bool.and_eq_true, decide_eq_true_eq, Bool.not_eq_true'] at h
  obtain ⟨⟨⟨⟨⟨⟨⟨h0, h1⟩, h2⟩, h3⟩, h4⟩, h5⟩, h6⟩, h7⟩ := h
  refine ⟨h0, before_of (List.isEmpty_iff.mp h6) (List.isEmpty_iff.mp h7), h1, h2, ok_of h3, ?_, fun i _ => ?_⟩
  · cases e : s.scrBytes s.g.team s.g.rights.asid (s.sv 6) (64 + n) false with
    | ok k => exact ⟨k, rfl⟩
    | error x => rw [e] at h4; cases h4
  · simp [State.errIn, State.sramBad, h5]
/-- A record at offset 64, s6 pointing to it: its header and data. -/
def record (s : State) (h : Nat) (data : List Byte) : State := scr (reg s 6 64) 64 (leBytes 64 h ++ data)
/-- A fragment of another device's group that has asked for nothing. -/
theorem meets_RecordAway : RecordAway spmAway 6 := by unfold RecordAway; decide +kernel
/-- XBLD of one weight, exponent −8, format 0; and the same with no rows. -/
def xbl : State := record one (1 + 2 ^ 16 + 248 * 2 ^ 40) [5]
def xblZero : State := record one (2 ^ 16) []
/-- Array 511 of home 0 ready, or with a load queued, or with five products. -/
def arrayIs (X : Xar) : State := { one with xars := [(511, X)] }
def ready511 : Xar := { Xar.fresh with rows := 1, cols := 1, state := .ready }
def loading511 : Xar := { ready511 with queue := [.load 1 1 (-8) 0 [5]] }
def full511 : Xar := { ready511 with queue := List.replicate 5 (.product 0 9 (splat 0) 1 0) }
theorem meets_CrossbarWords : (({ one with fuse := [(0, { Fuse.full with arrays := 0 })] } : State).fuseOf 0).arrays.getLsbD 511 = false ∧
    (one.fuseOf one.f.home).arrays.getLsbD 511 = true ∧ RecordAt xblZero 6 64 0 ∧ xblBad (bitsAt xblZero 64) = some 0 ∧ RecordAt xbl 6 64 1 ∧
    xblBad (bitsAt xbl 64) = none ∧ (63 : RegNum) = 63 ∧ (62 : RegNum) ≠ 63 ∧ idle.mreg 0 = 0 ∧ one.mreg 0 ≠ 0 ∧
    (arrayIs ready511).poisoned [.v 1 ((arrayIs ready511).mreg 0 &&& 0xFFFFFFFFFFFFFFFF#96)] = none ∧ 5 ≤ full511.queue.length ∧
    ((arrayIs ready511).xar 511).state = .ready ∧ Xar.fresh.state = .empty ∧ (one.xar 511).state ≠ .ready ∧ ready511.queue.length < 5 ∧
    (loading511.queue.any fun c => match c with | .product .. => false | _ => true) = true ∧ one.poisoned [.v 1 (one.mreg 0)] = none := by
  refine ⟨?_, ?_, record_of ?_, ?_, record_of ?_, ?_, ?_, ?_, ?_, ?_, ?_, ?_, ?_, ?_, ?_, ?_, ?_, ?_⟩ <;> decide +kernel
theorem meets_CrossbarSteps : ((arrayIs loading511).xar (512 * 0 + 511)).queue = .load 1 1 (-8) 0 [5] :: [] ∧ 1 ≤ 256 ∧ ([5] : List Byte).length = 1 * 1 ∧ 0 < 1 ∧
    ((arrayIs { ready511 with queue := [.calibrate] }).xar 511).queue = .calibrate :: [] ∧ ready511.state ≠ .calibrating ∧
    ((arrayIs full511).xar 511).queue = .product 0 9 (splat 0) 1 0 :: full511.queue.tail ∧ 0 < ((arrayIs full511).home 0).credProd ∧ ready511.state = .ready ∧
    ({ ready511 with queue := [.calibrate], state := .calibrating, unusable := true } : Xar).unusable = true ∧ 0 < (3 : Nat) ∧ (bexp 3 0).toNat < 254 := by
  decide +kernel
/-- Partition 3 of home 0: loaded with one variable, its queue full or not; failed; done. -/
def tambIs (T : Tamb) : State := { reg one 6 500 with tambs := [(3, T)] }
def tamb1 : Tamb := { Tamb.fresh with n := 1, state := .loaded, a := [(0, 1)] }
def tdone : Tamb := { tamb1 with state := .done }
/-- TLDC of one row of one variable; of no variable; TLDB; TSAMP of one pair for 1,000 ns; of an index beyond the system. -/
def tld1 : State := record one (1 + 2 ^ 32) [1]
def tld0 : State := record one 0 []
def smp (x : Byte) : State := { record one (1000 + 2 ^ 32) [0, 0, x, 0] with tambs := [(3, tdone)] }
def tambFull : State := tambIs { tamb1 with queue := List.replicate 8 (.settle 500), stamps := List.range 8 }
theorem meets_TambourWords : RecordAt tld1 6 64 (triBytes 0 1) ∧ tldcBad (bitsAt tld1 64) 3 0 = none ∧ RecordAt tld0 6 64 (triBytes 0 0) ∧
    tldcBad (bitsAt tld0 64) 3 0 = some 0 ∧ (tld1.tambPlan tld1.f.home).cover 3 = none ∧ tld1.projected 3 = .empty ∧
    ({ tld0 with tambs := [(3, tamb1)] } : State).projected 3 ≠ .empty ∧ (({ tld0 with tambs := [(3, tamb1)] } : State).tambPlan 0).cover 3 = none ∧
    RecordAt { tld0 with tambs := [(3, tamb1)] } 6 64 (2 * ({ tld0 with tambs := [(3, tamb1)] } : State).projN 3) ∧ tldbBad (bitsAt tld0 64) = none ∧
    ((tambIs { Tamb.fresh with cover := some 0 }).tambPlan 0).cover 3 ≠ none ∧
    ((tambIs tamb1).sreg 6).poison = false ∧ 500 ≤ (((tambIs tamb1).sv 6).extractLsb' 0 32).toNat ∧ (((reg (tambIs tamb1) 6 499).sv 6).extractLsb' 0 32).toNat < 500 ∧
    ((tambIs tamb1).tamb 3).queue.length < 8 ∧ 8 ≤ (tambFull.tamb 3).queue.length ∧ tambFull.projected 3 = .settled ∧
    RecordAt (smp 0) 6 64 4 ∧ tsampBad (bitsAt (smp 0) 64) = none ∧ (smp 0).projected 3 = .done ∧ (smp 1).projected 3 = .done ∧
    ((smp 0).tambPlan 0).cover 3 = none ∧ (tambFull.tambPlan 0).cover 3 = none ∧
    (∀ x ∈ pairsOf (halves ((smp 0).bytesIn .scratch 128 4)), x.1 < (smp 0).projN 3 ∧ x.2 < (smp 0).projN 3) ∧
    (∃ x ∈ pairsOf (halves ((smp 1).bytesIn .scratch 128 4)), (smp 1).projN 3 ≤ x.1 ∨ (smp 1).projN 3 ≤ x.2) ∧ RecordAt (smp 1) 6 64 4 ∧
    ((tambIs tdone).tamb 3).queue = [] ∧ ((tambIs tdone).tamb 3).state = .done ∧ ((tambIs { tamb1 with state := .failed }).tamb 3).state = .failed ∧
    (((tambIs tdone).sv 6).extractLsb' 16 4).toNat ≤ 2 ∧ 2 < (((reg (tambIs tdone) 6 0x30000).sv 6).extractLsb' 16 4).toNat := by
  refine ⟨record_of ?_, ?_, record_of ?_, ?_, ?_, ?_, ?_, ?_, record_of ?_, ?_, ?_, ?_, ?_, ?_, ?_, ?_, ?_, record_of ?_, ?_, ?_, ?_, ?_, ?_, ?_, ?_, record_of ?_,
    ?_, ?_, ?_, ?_, ?_⟩ <;> decide +kernel
theorem meets_TambourSteps : (tambIs { tamb1 with queue := [.loadC 1 0 1 0 [1]] }).tamb 3 = { tamb1 with queue := .loadC 1 0 1 0 [1] :: [] } ∧
    ([1] : List Byte).length = triBytes 0 1 ∧ tamb1.state ≠ .settling ∧ tamb1.state ≠ .sampling ∧ tamb1.state ≠ .empty ∧
    0 < ((tambIs tamb1).home 0).credSettle ∧ ({ tamb1 with state := .settling } : Tamb).timer ≤ one.clock ∧
    one.clock < ({ tamb1 with state := .sampling, timer := 1 } : Tamb).timer ∧ 0 < tamb1.n ∧ tamb1.solution ≠ none ∧
    ({ tamb1 with a := [] } : Tamb).solution = none ∧ tamb1.cover = none ∧ tdone.state = .done ∧ (0 : Int) < (([], 1) : List Int × Int).2 := by decide +kernel
/-- A complete command 9 of the group with a fault still to be delivered, in batch 0 with sync word 16. -/
def owing : State := { reg one 6 16 with cmds := [(9, { Cmd.none with alive := true, done := true, fault := 1, batch := some 0, syncs := [16] })] }
def sealed (n : Nat) : State := group fun g => { g with batches := List.replicate n ⟨0, [9]⟩ }
def waits (x : FState) : State := { frag (fun f => { f with state := x }) with cur := 0 }
theorem meets_BatchSyncAndBufferWords : 16 ≤ (sealed 16).g.batches.length ∧ (sealed 15).g.batches.length < 16 ∧ (one.sreg 6).poison = false ∧ one.f.trap = none ∧
    Still one ∧ (sealed 1).g.incomplete 0 = true ∧ Still (sealed 1) ∧ one.g.incomplete 0 = false ∧
    (owing.owedOf owing.f.group ((owing.cmds.filter fun c => c.2.group == owing.f.group && c.2.batch == some 0).map (·.1))).isSome = true ∧ Still owing ∧
    (owing.syncOwed owing.f.group 16).isSome = true ∧ owing.poisoned [.s 6, .s 7] = none ∧ ((owing.sv 6).extractLsb' 0 18).toNat % 16 = 0 ∧
    ((owing.sv 6).extractLsb' 0 18).toNat + 16 ≤ owing.t.size ∧ one.syncOwed one.f.group 0 = none ∧ (one.genAt one.g.team 0 - 0).toNat < 2 ^ 31 ∧
    2 ^ 31 ≤ (one.genAt one.g.team 0 - 0x80000000).toNat ∧ (waits (.bwait 0)).asleep 0 = false ∧ ((waits (.bwait 0)).frag 0).state = .bwait 0 ∧
    ((waits (.swait 16 0 5)).frag 0).state = .swait 16 0 5 ∧ (waits (.swait 16 0 5)).syncOwed 0 16 = none ∧ (one.frag 0).alive = true := by
  refine ⟨?_, ?_, ?_, ?_, still_one, ?_, still_of ?_ ?_, ?_, ?_, still_of ?_ ?_, ?_, ?_, ?_, ?_, ?_, ?_, ?_, ?_, ?_, ?_, ?_, ?_⟩ <;> decide +kernel
/-- Buffer 15 of two elements of four bytes, one present, of a team. -/
def buf (team : Nat) : Cb := ⟨team, 2, 1, 4, 0, 1, 0, []⟩
def buffered (team : Nat) (x : DWord) : State := (reg one 6 x).setCore 0 { one.core 0 with cbs := [(15, buf team)] }
theorem meets_BatchSyncAndBufferWords_buffers : ((buffered 7 0).core (buffered 7 0).t.coreKey).cbs.find 15 = some (buf 7) ∧ (buf 7).team ≠ (buffered 7 0).g.team ∧
    (one.core one.t.coreKey).cbs.find 15 = none ∧ (buf 0).team = one.g.team ∧ ((reg one 6 0x400000).sv 6).getLsbD 22 = true ∧ one.cbNamed one.g.team 15 = false ∧
    (one.sv 6).getLsbD 22 = false ∧ 0 + 1 * 4 ≤ one.t.size ∧ one.t.size < 8192 + 1 * 4 ∧ ((reg one 6 8192).sv 6).extractLsb' 0 18 = 8192 ∧
    (reg one 6 0x100000000).sv 6 ≠ 0 ∧ (one.sv 6).extractLsb' 18 4 = 0 ∧ (buffered 0 1).fenceMet 0 false true false = true ∧
    ((buffered 0 1).sreg 6).poison = false ∧ (2 - 1 < 2) ∧ 1 ≤ (buf 0).n - 1 ∧ (buf 0).n < 3 ∧ Still (buffered 0 1) ∧ (buffered 0 1).cbOwed 0 (buf 0) = none ∧
    ({ owing with cur := 0 } : State).cbOwed 0 { buf 0 with mark := [9] } ≠ none := by
  refine ⟨?_, ?_, ?_, ?_, ?_, ?_, ?_, ?_, ?_, ?_, ?_, ?_, ?_, ?_, ?_, ?_, ?_, still_of ?_ ?_, ?_, ?_⟩ <;> decide +kernel
/-- A copy engine's queue of 32 commands. -/
def copies32 : State := one.setCore 0 { one.core 0 with copyQ := List.replicate 32 0 }
theorem meets_EngineWords : 3 ≤ (3 : BitVec 6).toNat ∧ (2 : BitVec 6).toNat < 3 ∧ (xbl.sreg 6).poison = false ∧ (xbl.sv 6).toNat % 64 = 0 ∧
    (xbl.scrBytes xbl.g.team xbl.g.rights.asid (xbl.sv 6) 64 false).toOption = some 64 ∧ (reg one 6 32).sv 6 = 32 ∧ copies32.engineFull 0 0 0 = true ∧
    xbl.engineFull xbl.g.team xbl.f.home 0 = false ∧ xbl.engineFull xbl.g.team xbl.f.home 1 = false ∧ xbl.released xbl.cur false = true ∧
    (group fun g => { g with lastCmd := [(0, 9)] }).g.lastCmd.find 0 = some 9 ∧ one.g.lastCmd.find 1 = none := by decide +kernel
/-- A chain entry: values of its fields by byte offset. -/
def ent (fs : List (Nat × Nat)) : List Byte := leBytes 64 (fs.foldl (fun n f => n + f.2 * 256 ^ f.1) 0)
/-- Command 9 of the group's team at an entry at offset 64. -/
def chain (engine : Nat) (fs : List (Nat × Nat)) : State :=
  { scr one 64 (ent fs) with cmds := [(9, { Cmd.none with alive := true, engine := engine, rights := one.g.rights, at' := 64 })], nextId := 10 }
/-- The conditions on a command at an entry, as a check that computes. -/
def atEntry (s : State) (fs : List (Nat × Nat)) (k : EntKind) : Bool :=
  !s.cmdBlocked 9 && decide (s.reached (s.cmd 9) = some (ent fs)) && !s.entryBad (s.cmd 9) && decide (kindOf (ent fs) = some k) &&
    !entRefused k (s.cmd 9).engine false (ent fs) && decide ((s.cmd 9).single = none) && decide (entSync (ent fs) = none) && decide (s.answered (.cmd 9) = []) &&
    (s.group (s.cmd 9).group).alive && decide ((s.cmd 9).fault = 0)
theorem movable_one {s : State} {c : Cmd} {rsp rsize wsp wsize : Nat} {rd wr : Nat → DWord} {rs : Space} {ws : Option Space} {rk wk : Nat → Nat}
    (hx : (s.dataPlace c rsp false rsize (rd 0)).toOption = some (.mem rs (rk 0) false)) (hy : (s.dataPlace c wsp true wsize (wr 0)).toOption = some (engTo ws (wk 0) false))
    (he : s.errIn rs (rk 0) rsize = false) (hw : engErr s ws (wk 0) wsize = false) (hr : s.served [⟨0, .dram, rk 0, rsize, 0, 0, none, 0⟩] = true)
    (ht : s.served [⟨0, .dram, wk 0, wsize, 0, 0, none, 0⟩] = true)
    (hk : ∀ j, j < rsize → s.memKeys.get 0 ((rk 0 + j) % 2 ^ 40) = 0 ∨ s.memKeys.get 0 ((rk 0 + j) % 2 ^ 40) = s.keyAt (rk 0))
    (hd : ws = some rs → NoCommon rs (rk 0) rsize (wk 0) wsize) : Movable s c 1 rsp rsize rd rs rk wsp wsize wr ws wk := by
  refine ⟨fun i hi => ?_, fun i j hi hj h => ?_, fun i j hi hj h => ?_⟩
  · obtain rfl : i = 0 := by omega
    exact ⟨false, false, ok_of hx, ok_of hy, fun h => absurd h (by decide), he, hw, fun _ => hr, fun _ => ht, fun _ => hk⟩
  · obtain rfl : i = 0 := by omega
    obtain rfl : j = 0 := by omega
    exact hd h
  · omega
/-- COPY of one FP32 value from 0x2000 to offset 512; GATHER from a table at 0x2000, SCATTER to it, their index at offset 256; COPY from buffer 0 to buffer 1. -/
def copy1 : List (Nat × Nat) := [(0, 1), (8, 0x2000), (16, 512), (24, 1), (28, 1), (40, 1), (44, 1), (48, 0x33), (49, 1)]
def gather1 (k : Nat) : List (Nat × Nat) := [(0, k), (8, 0x2000), (16, 512), (24, 256), (28, 1), (32, 1), (34, 1), (36, 0x33)]
def fire1 : List (Nat × Nat) := copy1 ++ [(1, 3), (3, 1)]
def cb0 : Cb := ⟨0, 2, 1, 4, 1024, 1, 0, []⟩
def cb1 : Cb := ⟨0, 2, 1, 4, 2048, 0, 0, []⟩
def firing : State := (chain 0 fire1).setCore 0 { one.core 0 with cbs := [(0, cb0), (1, cb1)] }
theorem meets_DataEntries : atEntry (chain 0 copy1) copy1 .copy = true ∧ entIn (ent copy1) = none ∧ entOut (ent copy1) = none ∧ 0 < entU (ent copy1) 24 4 ∧
    Movable (chain 0 copy1) ((chain 0 copy1).cmd 9) 1 0 4 (fun _ => 0x2000) .dram (fun _ => 0x2000) 1 4 (fun _ => 512) (some .scratch) (fun _ => 512) := by
  refine ⟨?_, ?_, ?_, ?_, movable_one ?_ ?_ ?_ ?_ ?_ ?_ ?_ (by unfold NoCommon; decide)⟩ <;> decide +kernel
theorem meets_DataEntries_index (x : Bool) : let k := if x then 3 else 2
    atEntry (chain 1 (gather1 k)) (gather1 k) (if x then .scatter else .gather) = true ∧
    ((chain 1 (gather1 k)).engPlace ((chain 1 (gather1 k)).cmd 9) 1 false 4 (BitVec.ofNat 64 (entU (ent (gather1 k)) 24 4))).toOption = some (.mem .scratch 256 false) ∧
    (chain 1 (gather1 k)).errIn .scratch 256 4 = false ∧ (chain 1 (gather1 k)).valIn .scratch 256 4 = 0 ∧
    Movable (chain 1 (gather1 k)) ((chain 1 (gather1 k)).cmd 9) 1 0 4 (fun _ => 0x2000) .dram (fun _ => 0x2000) 1 4 (fun _ => 512) (some .scratch) (fun _ => 512) ∧
    Movable (chain 1 (gather1 k)) ((chain 1 (gather1 k)).cmd 9) 1 1 4 (fun _ => 512) .scratch (fun _ => 512) 0 4 (fun _ => 0x2000) (some .dram) (fun _ => 0x2000) := by
  cases x <;> refine ⟨?_, ?_, ?_, ?_, movable_one ?_ ?_ ?_ ?_ ?_ ?_ ?_ (by unfold NoCommon; decide), movable_one ?_ ?_ ?_ ?_ ?_ ?_ ?_ (by unfold NoCommon; decide)⟩ <;> decide +kernel
theorem meets_DataEntries_buffers : atEntry firing fire1 .copy = true ∧ entIn (ent fire1) = some 0 ∧ entOut (ent fire1) = some 1 ∧
    firing.cbOf (firing.cmd 9) 0 = some cb0 ∧ firing.cbOf (firing.cmd 9) 1 = some cb1 ∧ cb0.esize = 1 * 4 ∧ cb1.esize = 1 * 4 ∧
    cb0.fire ≤ (cb0.p - cb0.c).toNat ∧ (cb1.p - cb1.c).toNat + cb1.fire ≤ cb1.n ∧ ({ cb0 with p := 0 } : Cb).p - cb0.c < 1 ∧
    Movable firing (firing.cmd 9) 1 1 4 (fun _ => 1024) .scratch (fun _ => 1024) 1 4 (fun _ => 2048) (some .scratch) (fun _ => 2048) ∧ cb0.elem cb0.c = 1024 ∧ cb1.elem cb1.p = 2048 := by
  refine ⟨?_, ?_, ?_, ?_, ?_, ?_, ?_, ?_, ?_, ?_, movable_one ?_ ?_ ?_ ?_ ?_ ?_ ?_ (by unfold NoCommon; decide), ?_, ?_⟩ <;> decide +kernel
/-- END; LOOP of one and of two iterations over one entry; BRIF to the next entry but one on the word at offset 0; LINK to offset 0. -/
def loop1 (n : Nat) : List (Nat × Nat) := [(0, 8), (8, n), (12, 1)]
def brif2 : List (Nat × Nat) := [(0, 9), (12, 2)]
def link0 : List (Nat × Nat) := [(0, 0x0A)]
theorem meets_ControlEntries : atEntry (chain 0 []) [] .fin = true ∧
    (fun s : State => s.cmdBlocked 9 = false ∧ s.reached (s.cmd 9) = none) ({ chain 0 [] with cmds := [(9, { (chain 0 []).cmd 9 with at' := 8192 })] } : State) ∧
    atEntry (chain 0 (loop1 1)) (loop1 1) .loop = true ∧ atEntry (chain 0 (loop1 2)) (loop1 2) .loop = true ∧ 64 * 1 ≤ 64 ∧ one.t.size ≥ 64 ∧
    ((chain 0 (loop1 1)).cmd 9).loops.length ≠ 4 ∧ atEntry (chain 0 brif2) brif2 .brif = true ∧ (chain 0 brif2).putsOut 9 = false ∧
    64 + 64 * entI (ent brif2) 12 2 = 192 ∧ 192 + 64 ≤ one.t.size ∧ (chain 0 brif2).sramBad 1 0 4 = false ∧
    (chain 0 brif2).valIn .scratch 0 4 = 0 ∧ (scr (chain 0 brif2) 0 [1]).valIn .scratch 0 4 ≠ 0 ∧ atEntry (chain 0 link0) link0 .link = true := by decide +kernel
/-- BOBBIN of two lists of four at offsets 1024 and 1088 with a command block of zeros at 0. -/
def bobEnt : List (Nat × Nat) := [(0, 4), (8, 1024), (12, 1088)]
def bobbing : State := scr (chain 2 bobEnt) 1024 (leBytes 64 list4.bits.toNat ++ leBytes 64 list4.bits.toNat)
def list4o : Fib := { list4 with fin := 4 }
theorem meets_ControlEntries_bobbin : atEntry bobbing bobEnt .bobbin = true ∧ bobbing.g.bob.state ≠ .running ∧ bobbing.g.bob.owed = false ∧
    bobbing.descriptor (bobbing.cmd 9) 1024 = .ok list4 ∧ bobbing.descriptor (bobbing.cmd 9) 1088 = .ok list4 ∧
    (∃ v, bobbing.readSides (.cmd 9) 0 one.g.rights [list4.openReads, list4.openReads] = .val [] v ∧
      v.openFib (bobbing.cmd 9) 1024 list4 [] = .ok list4o) ∧ badRead (list4.openReads.2 ++ list4.openReads.2) [] = none ∧
    bobbing.g.depth ≠ 10 ∧ pairRefusal list4o list4o = none ∧ bobbing.t.alive = true ∧ 0 + 128 ≤ bobbing.t.size ∧ bobbing.sramBad 1 0 128 = false ∧
    blockRefusal (bobbing.bytesIn .scratch 0 128) = none ∧ (bobbing.home 0).bobbinQ.length < 32 := by
  refine ⟨?_, ?_, ?_, ok_of ?_, ok_of ?_, ⟨_, rfl, ok_of ?_⟩, ?_, ?_, ?_, ?_, ?_, ?_, ?_, ?_⟩ <;> decide +kernel
/-- f0 and f1 the list; the slot of the group in a state with a walk; s6 = 64, the block there zeros. -/
def bob9 : BobCmd := newBob false list4o list4o (BobBlock.ofBytes (List.replicate 128 0)) one.g.rights 0 0 0 0 0 0 none
def bobIs (st : BobState) (owed : Bool) : State :=
  reg (group fun g => { g with fibs := [(0, list4o), (1, list4o)], bob := ⟨st, 0, true, some { bob9 with inRow := true }, owed⟩ }) 6 64
def bobIdle : State := reg (group fun g => { g with fibs := [(0, list4o), (1, list4o)] }) 6 64
theorem meets_BobbinWords : bobIdle.placement false = none ∧ (bobIdle.sreg 6).poison = false ∧ bobIdle.g.depth ≠ 10 ∧ (group fun g => { g with depth := 10 }).g.depth = 10 ∧
    pairRefusal (bobIdle.g.fib 0) (bobIdle.g.fib 1) = none ∧ (bobIdle.sv 6).toNat % 64 = 0 ∧
    (bobIdle.scrBytes bobIdle.g.team bobIdle.g.rights.asid (bobIdle.sv 6) 128 false).toOption = some 64 ∧ blockRefusal (bobIdle.bytesIn .scratch 64 128) = none ∧
    (bobIs .running false).g.bob.state = .running ∧ bobIdle.g.bob.state = .idle ∧ bobIdle.g.bob.owed = false ∧
    ¬(32 ≤ bobIdle.bobHeld bobIdle.f.home ∨ bobIdle.released bobIdle.cur false = false) ∧ 32 ≤ ((bobIs .finished false).setHome 0 { one.home 0 with bobbinQ := List.replicate 32 0 }).bobHeld 0 ∧
    (List.range 8).all (fun x => !bobIdle.fibBusy x) = true ∧ (∀ i, i < 320 → Apart (syncPlaces bobIdle) 12 (64 + i)) ∧
    bobIdle.f.trap = none ∧ Still bobIdle ∧ (bobIs .stopped true).formedDone bob9.grid = true ∧ Still (bobIs .stopped true) ∧ bob9.chain = none ∧
    (bobIs .finished false).g.bob.ticket = 0 ∧ (one.sv 6).setWidth 8 = (0 : BitVec 8) ∧ (waits (.cwait 0 5)).asleep 0 = false ∧
    (bobIdle.scrBytes bobIdle.g.team bobIdle.g.rights.asid (bobIdle.sv 6) 320 true).toOption = some 64 ∧ bob9.block.raw.length = 128 ∧
    bob9.inRow = false ∧ bob9.walked = false ∧ bob9.pend = [] := by
  refine ⟨?_, ?_, ?_, ?_, ?_, ?_, ?_, ?_, ?_, ?_, ?_, ?_, ?_, ?_, ?_, ?_, still_of ?_ ?_, ?_, still_of ?_ ?_, ?_, ?_, ?_, ?_, ?_, ?_, ?_, ?_, ?_⟩ <;>
    (try unfold Apart) <;> decide +kernel
/-- A stopped walk's record at offset 64. -/
def saved : State := scr bobIdle 64 (bob9.record 0 1)
theorem meets_BobbinWords_record : (saved.scrBytes saved.g.team saved.g.rights.asid (saved.sv 6) 320 false).toOption = some 64 ∧
    blockRefusal (saved.bytesIn .scratch 128 128) = none ∧ Fib.ofBits (bitsAt saved 256) = list4o ∧ Fib.ofBits (bitsAt saved 320) = list4o ∧
    list4o.refusal false (decide ((bitsAt saved 256).extractLsb' 8 120 ≠ 0)) = none ∧ (bitsAt saved 64).extractLsb' 0 332 = 0 ∧
    (bitsAt saved 64).extractLsb' 332 2 = 1 ∧ list4o.row0.toNat ≤ ((bitsAt saved 64).extractLsb' 480 32).toNat ∧
    ((bitsAt saved 64).extractLsb' 480 32).toNat < list4o.row0.toNat + list4o.nrow.toNat ∧ saved.g.bob.state ≠ .running ∧
    (match saved.readSides (.frag saved.cur) saved.f.coreKey saved.g.rights [(4, list4o.ptrs 0), (4, list4o.ptrs 0)] with | .val [] _ => true | _ => false) = true ∧
    badRead (list4o.ptrs 0 ++ list4o.ptrs 0) [] = none ∧ list4o.holds [] 0 = true ∧
    (bitsAt (scr bobIdle 64 (bob9.record 0 2)) 64).extractLsb' 332 2 = 2 := by
  decide +kernel
/-- A walk of both lists before its row, in it at position 0 with coordinates 1 and 2, after it, and out of order. -/
def walk (f : BobCmd → BobCmd) : State :=
  { (group fun g => { g with bob := ⟨.running, 0, true, some (f bob9), false⟩ }).setHome 0 { one.home 0 with bobbinQ := [0] } with mem := [(0x1000, 1), (0x1100, 2)] }
def fibB : Fib := { list4o with arr := 0x1100 }
def mid (b : BobCmd) : BobCmd := { b with inRow := true, fb := fibB, finA := 4, finB := 4 }
/-- What a walk reads next, as a check that computes. -/
def readsAs (f : BobCmd → BobCmd) (rs : List (Nat × List DWord)) (xs : List (DWord × Bool)) : Bool :=
  match (walk f).readSides (.bobbin 0) ((walk f).bobCore 0) bob9.rights rs with
  | .val ys _ => ys == xs
  | _ => false
theorem reads_as {f : BobCmd → BobCmd} {rs : List (Nat × List DWord)} {xs : List (DWord × Bool)} (h : readsAs f rs xs = true) :
    ∃ v, (walk f).readSides (.bobbin 0) ((walk f).bobCore 0) bob9.rights rs = .val xs v := by
  unfold readsAs at h
  split at h
  · next ys v e => exact ⟨v, by rw [e, eq_of_beq h]⟩
  · cases h
/-- The same walk resumed at position 1 of the first side, whose predecessor it has not read. -/
def midway (b : BobCmd) : BobCmd := { mid b with pa := 1 }
theorem meets_BobbinWalk : ((walk id).group 0).bob.cmd = some bob9 ∧ ((walk id).group 0).bob.state = .running ∧ bob9.walked = false ∧
    ((walk id).grid bob9.byGrid).stopped = false ∧ (walk id).bobTurn bob9.home = some 0 ∧ bob9.inRow = false ∧ bob9.row ≤ bob9.lastRow ∧
    (∃ v, (walk id).readSides (.bobbin 0) ((walk id).bobCore 0) bob9.rights [(4, list4o.ptrs 0), (4, list4o.ptrs 0)] = .val [] v) ∧
    (list4o.bounds []).2.2 = true ∧ (walk mid).bobTurn bob9.home = some 0 ∧ (mid bob9).pa < 4 ∧ (mid bob9).pb < 4 ∧
    readsPrev (mid bob9).lastA (mid bob9).startA (mid bob9).pa = false ∧
    (∃ v, (walk mid).readSides (.bobbin 0) ((walk mid).bobCore 0) bob9.rights [list4o.readsTwo 0 false, fibB.readsTwo 0 false] = .val [(1, false), (2, false)] v) ∧
    list4o.coordTwo 0 false none [(1, false)] = ((1, false), none) ∧ fibB.coordTwo 0 false none [(2, false)] = ((2, false), none) ∧
    (1 : Word) < 2 ∧ bob9.pend.length + 1 < bob9.block.gsize := by
  refine ⟨?_, ?_, ?_, ?_, ?_, ?_, ?_, reads_as ?_, ?_, ?_, ?_, ?_, ?_, reads_as ?_, ?_, ?_, ?_, ?_⟩ <;> decide +kernel
theorem meets_BobbinWalk_order : readsPrev (midway bob9).lastA (midway bob9).startA (midway bob9).pa = true ∧ (walk midway).bobTurn bob9.home = some 0 ∧
    (∃ v, (walk midway).readSides (.bobbin 0) ((walk midway).bobCore 0) bob9.rights [list4o.readsTwo 1 true, fibB.readsTwo 0 false] =
      .val [(1, false), (0, false), (2, false)] v) ∧ list4o.coordTwo 1 true none [(1, false), (0, false)] = ((0, false), some 1) ∧ (0 : Word) ≤ 1 ∧
    ((walk midway).group 0).alive = true ∧ bob9.grid = 0 ∧ bob9.pend = [] ∧ bob9.lastRow < ({ bob9 with row := 1 } : BobCmd).row ∧
    (walk fun b => { b with row := 1 }).bobTurn bob9.home = some 0 ∧ (walk fun b => { b with walked := true }).formedDone bob9.grid = true := by
  refine ⟨?_, ?_, reads_as ?_, ?_, ?_, ?_, ?_, ?_, ?_, ?_, ?_⟩ <;> decide +kernel
/-- Page 0 mapped by a page table too, at 0x10000 and on: what the device reads past its caches; and a liveness entry of zeros at 0x5000 for the word at 0. -/
def paged : State := { one with
  mem := [(0x10002, 2), (0x10007, 0x80), (0x20002, 3), (0x20007, 0x80), (0x30002, 4), (0x30007, 0x80), (0x40007, 0xAE)]
  asTab := [(0, BitVec.twoPow 256 191 ||| BitVec.twoPow 256 192 ||| 0x10000#256)]
  segs := [(0, State.seg0 ||| BitVec.ofNat 256 (2 ^ 128 + 0x5000 * 2 ^ 64))] }
/-- Four launches wait in the team's queue. -/
def pending4 : State := { bobIdle with teams := [(0, { one.t with pend := [1, 2, 3, 4] })] }
theorem meets_LaunchWords : one.f.trap = none ∧ (group fun g => { g with gidx := 1 }).g.gidx ≠ 0 ∧ one.g.gidx = 0 ∧ (group fun g => { g with depth := 10 }).g.depth = 10 ∧
    one.g.depth ≠ 10 ∧ (bobIdle.sreg 6).poison = false ∧ (bobIdle.sv 6).toNat % 64 = 0 ∧
    (bobIdle.scrBytes bobIdle.g.team bobIdle.g.rights.asid (bobIdle.sv 6) 64 false).toOption = some 64 ∧ bobIdle.accessHeld bobIdle.cur = false ∧
    ReadsHere bobIdle 8 [] ∧ (LaunchRec.ofBits (bitsAt bobIdle 64)).nlease = 0 ∧ refusal (bitsAt bobIdle 64) [] (some []) 1 = none ∧
    refusal (bitsAt (scr bobIdle 64 [1]) 64) [] (some []) 1 = some (2, 0) ∧ bobIdle.released bobIdle.cur false = true ∧ bobIdle.t.pend.length < 4 ∧
    4 ≤ pending4.t.pend.length ∧ Still pending4 ∧ pending4.f.leave = none ∧ pending4.f.due = none ∧
    ((waits (.launch 5 4)).frag 0).state = .launch 5 4 ∧ (waits (.launch 5 4)).asleep 0 = false ∧ ((waits (.launch 5 4)).frag 0).outs = [] ∧
    ((waits (.launch 5 4)).frag 0).leave = none ∧ ((waits (.launch 5 4)).team 0).pend.length < 4 := by
  refine ⟨?_, ?_, ?_, ?_, ?_, ?_, ?_, ?_, ?_, reads_of ?_, ?_, ?_, ?_, ?_, ?_, ?_, still_of ?_ ?_, ?_, ?_, ?_, ?_, ?_, ?_, ?_⟩ <;> decide +kernel
/-- The same record where the LAUNCH queue is full; and with results outstanding. -/
theorem meets_LaunchWords_full : ([pending4, pending4.setF { pending4.f with outs := [outA] }].all fun s => s.f.trap.isNone && s.g.gidx == 0 && s.g.depth != 10 &&
    !(s.sreg 6).poison && decide ((s.sv 6).toNat % 64 = 0) && decide ((s.scrBytes s.g.team s.g.rights.asid (s.sv 6) 64 false).toOption = some 64) &&
    !s.accessHeld s.cur && readable s 8 [] && decide (refusal (bitsAt s 64) [] (some []) 1 = none) && decide (4 ≤ s.t.pend.length)) = true ∧
    pending4.released pending4.cur false = true := by decide +kernel
/-- Queue 63 of 2^1 records at 0x6000, one of them exposed; grid 5 of one team waits; grid 6 has ended. -/
def lq63 : Lq := { Lq.fresh with en := true, tail := 1, base := 0x6000, log2 := 1 }
def queued : State := { paged with
  lqs := [(63, lq63)]
  grids := one.grids ++ [(5, { Grid.none with alive := true, gridid := 5 }), (6, { Grid.none with alive := true, stopped := true })]
  groups := one.groups ++ [(7, { one.g with gidx := 1 })] }
theorem meets_LaunchSteps : 63 < 64 ∧ (3 : Word) ≠ (queued.lq 63).tail ∧ (3 - (queued.lq 63).tail).toNat < 2 ^ 31 ∧ 2 ^ (queued.lq 63).log2.toNat < (3 - (queued.lq 63).head).toNat ∧
    (2 : Word) ≠ (queued.lq 63).tail ∧ (2 - (queued.lq 63).head).toNat ≤ 2 ^ (queued.lq 63).log2.toNat ∧ 2 ^ 31 ≤ (0 - (queued.lq 63).tail).toNat ∧
    queued.lqReady (queued.lq 63) = some 0 ∧ queued.hostBytes 0 0x6000 64 = some 0 ∧ (LaunchRec.ofBits 0).nlease = 0 ∧ refusal 0 [] none 1 = none ∧
    queued.mayDispatch 5 1 = true ∧ (∀ e ∈ queued.grids, e.2.part = 0 → e.2.before (queued.grid 5) = true → ∀ c, c < 3072 → queued.mayDispatch e.1 c = false) ∧
    (queued.grid 0).alive = true ∧ (queued.grid 0).stopped = false ∧ (queued.grid 0).preempted = none ∧ queued.mayPlace 0 = true ∧ queued.coreOf 0 255 = true ∧
    (queued.grid 0).formation = false ∧ (queued.grid 0).dispatched = true ∧ (queued.grid 0).placed < (queued.grid 0).rcd.teams ∧
    queued.depMet (queued.grid 0) 0 = true ∧ queued.roomFor 255 (queued.grid 0).rcd = true ∧ (queued.group 7).alive = true ∧ queued.fragsOf 7 = [] ∧
    (∀ c ∈ queued.cores, ∀ e ∈ c.2.mmaQ, e.group ≠ 7) ∧ queued.gridDone 6 = true ∧ (0 : Nat) = (queued.lq 63).fn.toNat ∧
    (queued.group 7).dev = queued.fabric.toNat ∧ (queued.team 0).alive = true ∧ (queued.team 0).forming = false ∧ (queued.team 0).maps = [] := by decide +kernel
/-- The fragment of a grid to be pre-empted since clock 0, resident or not, with a result outstanding or not; a saved team. -/
def late (g : Frag → Frag) : State := { (frag g) with clock := 60000, grids := [(0, { one.grid 0 with preempted := some 0 })] }
def stowed : State := { one with teams := [(0, { one.t with saved := true })] }
theorem meets_PreemptionSteps : one.liveEntry one.cur 0 = none ∧ paged.liveEntry paged.cur 0 = some ⟨0, 0, 0, 0⟩ ∧ (paged.sreg 6).poison = false ∧
    (paged.grid paged.t.grid).preempted = none ∧ ((late id).grid 0).preempted ≠ none ∧ (late id).t.alive = true ∧ (late id).f.trap = none ∧ Still (late id) ∧
    (late id).released 0 true = true ∧ one.preemptSet 1 0 = [] ∧ one.preemptSet 0 0 ≠ [] ∧ one.teamsIn (one.preemptSet 0 0) = [0] ∧ one.holdsCore one.t = true ∧
    (frag fun f => { f with resident := false }).saveReady 0 false = true ∧ (late id).overdue 0 (0, (late id).grid 0) = true ∧ (late id).teamsIn [0] = [0] ∧
    (late id).saveReady 0 true = true ∧ (∃ e ∈ (late id).teamFrags 0, (late id).stands e.1 = false) ∧
    (∃ e ∈ (late fun f => { f with outs := [outA] }).teamFrags 0, (late fun f => { f with outs := [outA] }).atRest e.1 = false) ∧
    one.restorable 0 1 = false ∧ stowed.restorable 0 1 = true ∧ (frag fun f => { f with outs := [outA] }).quiet 0 = false ∧ one.quiet 0 = true ∧
    (one.part 0).swapping = false := by
  refine ⟨?_, ?_, ?_, ?_, ?_, ?_, ?_, still_of ?_ ?_, ?_, ?_, ?_, ?_, ?_, ?_, ?_, ?_, ?_, ?_, ?_, ?_, ?_, ?_, ?_, ?_⟩ <;> decide +kernel
/-- Handler 0 of no word, or of one word that branches to itself. -/
def endless : KMap Byte := cellsAt 0 (leBytes 16 0x81 ++ leBytes 4 0x50000000)
def told : State := { (strided.wrV 0 (fun _ => 0) false) with parts := [(0, { one.part 0 with handlers := [(0, 0x81)] })] }
/-- An element for address 4 of home 0, in flight or in the queue of unit 0, whose channel computes or not. -/
def elem4 : XElem := ⟨0, 0, 0, one.g.rights, 0, 4, 4, 0, [], some 8, 0, 0, 1, [], none⟩
def flying : State := { one.setHome 0 { one.home 0 with tlb := [⟨0, 0, false, one.leaf0⟩] } with net := [.xatom elem4] }
def toldAway : State := (reg told 7 0x8000000000000000).setG { told.g with dev := 3 }
theorem meets_BankSteps_away : toldAway.sv 7 = 0x8000000000000000 ∧ toldAway.g.dev ≠ toldAway.fabric.toNat ∧ toldAway.f.sent = 0 ∧
    toldAway.answered (.frag toldAway.cur) = [] ∧ (∀ x ∈ toldAway.remote, x.asker ≠ some (.frag toldAway.cur)) ∧ toldAway.eff ≠ 0 ∧
    hndValid (toldAway.part toldAway.g.rights.part).handlers 0 = true ∧ toldAway.poisoned ([.s 6, .s 7] ++ [.v 1 toldAway.eff] ++ [.v 2 toldAway.eff]) = none ∧
    toldAway.checkGlobal toldAway.f.coreKey toldAway.g.rights .atom 4 false ((lanesIn toldAway.eff).map fun l => ⟨l, toldAway.src.addr 6 1 4 l, 4⟩) = none ∧
    toldAway.replyFault (toldAway.sv 7) (lanesIn toldAway.eff) false = none ∧ toldAway.accessHeld toldAway.cur = false ∧
    (∀ l ∈ lanesIn toldAway.eff, (leafAt toldAway (toldAway.src.addr 6 1 4 l)).dev = toldAway.fabric.toNat ∧ (leafAt toldAway (toldAway.src.addr 6 1 4 l)).ord ≠ 0) ∧
    told.g.dev = told.fabric.toNat ∧ (idle.setF { idle.f with pfx := none }).eff = 0 := by decide +kernel
def unitHas (t : KMap Byte) (compute : Bool) (clock : Nat) : State :=
  { one with banks := [(0, ⟨[elem4], t, some []⟩)], chans := [(0, ⟨compute, 0⟩)], clock := clock }
theorem meets_BankSteps : 63 < (63 : RegNum).toNat + 2 ^ (1 : BitVec 2).toNat - 1 ∧ (62 : RegNum).toNat + 2 ^ (1 : BitVec 2).toNat - 1 ≤ 63 ∧
    hndValid (one.part one.g.rights.part).handlers 0 = false ∧ hndValid (told.part told.g.rights.part).handlers 0 = true ∧
    told.poisoned ([.s 6, .s 7] ++ [.v 1 told.eff] ++ [.v 2 told.eff]) = none ∧ idle.eff = 0 ∧ told.eff ≠ 0 ∧
    told.checkGlobal told.f.coreKey told.g.rights .atom 4 false ((lanesIn told.eff).map fun l => ⟨l, told.src.addr 6 1 4 l, 4⟩) = none ∧
    told.replyFault (told.sv 7) (lanesIn told.eff) false = none ∧ told.accessHeld told.cur = false ∧
    (∀ l ∈ lanesIn told.eff, (leafAt told (told.src.addr 6 1 4 l)).dev = told.fabric.toNat ∧ (leafAt told (told.src.addr 6 1 4 l)).ord ≠ 0) ∧
    ((reg told 7 0x8000000000000004).sv 7).getLsbD 63 = true ∧ fld ((reg told 7 0x8000000000000004).sv 7) 0 19 % 8 ≠ 0 ∧
    flying.net[0]? = some (.xatom elem4) ∧ flying.mayArrive 0 (.xatom elem4) (some 0) = true ∧ (flying.bank 0).queue.length < 64 ∧
    64 ≤ (({ flying with banks := [(0, ⟨List.replicate 64 elem4, [], none⟩)] } : State).bank 0).queue.length ∧
    flying.staleAt 0 elem4.rights ⟨0, .dram, dramKey 0 4, 4, 0, 4, none, 0⟩ = false := by decide +kernel
theorem meets_BankSteps_phases : (unitHas [] false 0).oldestAt 0 0 = some 0 ∧ ((unitHas [] false 0).chan 0).compute = false ∧
    (unitHas [] false 0).computing 0 < (unitHas [] false 0).budget ((unitHas [] false 0).home 0).maxCompute ∧ (unitHas [] false 0).ordinaryAt 0 0 = false ∧
    ({ unitHas [] false 0 with net := [.store ⟨0, 0, 0, one.g.rights, 0, [⟨0, .dram, 0, 4, 0, 0, none, 0⟩], 1, [0]⟩] } : State).ordinaryAt 0 0 = true ∧ ¬21 * 1000 ≤ 20 * (0 - 0) ∧
    ((unitHas [] true 2100).chan 0).compute = true ∧ 21 * 2000 ≤ 20 * (2100 - 0) ∧ one.oldestAt 0 0 = none := by decide +kernel
def run4 : Run := ⟨KMap.ins [] 0 4, [], none, 0⟩
theorem meets_BankSteps_runs : ((unitHas [] true 0).chan 0).compute = true ∧ ¬21 * 2000 ≤ 20 * ((unitHas [] true 0).clock - 0) ∧ (unitHas [] true 0).ordinaryAt 0 0 = false ∧
    ((unitHas [] true 0).team elem4.team).alive = true ∧ (unitHas [] true 0).keeps ((unitHas [] true 0).group elem4.group) = true ∧
    (∀ j, j < 8 → Apart (syncPlaces (unitHas [] true 0)) 12 (8 + j)) ∧ ((unitHas [] true 0).bank (128 * 0 + 0)).queue = elem4 :: [] ∧ elem4.home = 0 ∧ (unitHas [] true 0).readErr (dramKey 0 (rowOf 4)) 1024 = false ∧
    (match runFrom (fun _ => 0) (hndWord [] 0) (hndLen [] 0) 256 run4 with | .fin r => r == run4 | _ => false) = true ∧ elem4.reply ≠ none ∧
    (match runFrom (fun _ => 0) (hndWord endless 0) (hndLen endless 0) 256 run4 with | .stop c => c == 0x48#8 | _ => false) = true ∧ run4.next < hndLen endless 0 ∧
    ((unitHas [] true 0).bank 0).pending = some [] ∧ ({ unitHas [] true 0 with memErr := [0] } : State).readErr (dramKey 0 (rowOf 4)) 1024 = true := by
  unfold Apart; decide +kernel
/-- A division due for MIGR to home 1; the fragment on its way there, not yet left or in the egress buffer, in flight, or queued at home 0. -/
def due1 (a : MigAcc) : LeaveDue := ⟨a, [⟨0, 1, allLanes⟩], allLanes, 0, 0, 0, 0, one.f.regs, 0, 0, true, [], []⟩
def leaving (departed : Bool) : Frag := { one.f with state := .transit 0 1 departed, leave := some (due1 (.migr 6)), resident := !departed }
def egress : Parcel := ⟨0, 0, 1, 0, false, false, false⟩
def away (p : Parcel) : State := { (frag fun _ => leaving true).setCore 0 { one.core 0 with egress := [p] } with ports := [(0, ⟨true, true⟩)] }
def inbound (l : Option LeaveDue) : State :=
  (frag fun f => { f with state := .transit 0 0 true, leave := l, resident := false }).setHome 0 { one.home 0 with inbound := [(0, none)] }
def staying : State := frag fun _ => leaving false
theorem meets_ParcelSteps : (60 : RegNum).toNat < 61 ∧ staying.f.state = .transit 0 1 false ∧ staying.f.leave = some (due1 (.migr 6)) ∧
    staying.storesAcked 0 = true ∧ staying.siblingFirst 0 (due1 (.migr 6)) 0 1 = false ∧ (staying.core staying.f.coreKey).egress.length < 8 ∧
    8 ≤ ((staying.setCore 0 { staying.core 0 with egress := List.replicate 8 egress }).core 0).egress.length ∧
    ((away egress).core 0).egress.find? (fun q => 16 * q.dev + q.home == 16 * 0 + 1) = some egress ∧ (away egress).fabric.toNat = 0 ∧
    ((away { egress with dev := 3 }).core 0).egress.find? (fun q => 16 * q.dev + q.home == 16 * 3 + 1) = some { egress with dev := 3 } ∧
    (away { egress with dev := 3 }).extended 0 = true ∧ (∀ x, (3, x) ∉ (away { egress with dev := 3 }).credNo) := by
  refine ⟨?_, ?_, ?_, ?_, ?_, ?_, ?_, ?_, ?_, ?_, ?_, fun x h => nomatch h⟩ <;> decide +kernel
theorem meets_ParcelSteps_credits (p : Parcel) : (p.dev, p.port) ∈ ({ away p with credNo := [(p.dev, p.port)] } : State).credNo := List.mem_singleton.mpr rfl
def travels (p : Parcel) : State := { away p with net := [.parcel 0 1 none] }
/-- An older parcel for the same home, of fragment 5, was refused. -/
def behindOlder : State := let s := travels { egress with age := 1 }; s.setCore 0 { s.core 0 with egress := [{ egress with frag := 5, refused := true }, { egress with age := 1 }] }
/-- A parcel of another device that port 12 holds since the age of 7. -/
def ported (n : Nat) : State := { one with net := [.parcel n 1 (some (12, 7))] }
theorem meets_ParcelSteps_arrival : (travels egress).net[0]? = some (.parcel 0 1 none) ∧ (travels egress).mayArrive 0 (.parcel 0 1 none) none = true ∧
    ((travels egress).fuseOf 1).home = true ∧ (((travels egress).home 1).inbound.filter fun e => e.2 == none).length < 512 ∧
    (∀ w ∈ (travels egress).parcelsFor 1, w.2.credit = false ∧ w.2.refused = false) ∧ (travels egress).heldFor 1 = [] ∧
    (ported 0).net[0]? = some (.parcel 0 1 (some (12, 7))) ∧ (ported 0).mayArrive 0 (.parcel 0 1 (some (12, 7))) none = true ∧ (ported 0).parcelsFor 1 = [] ∧
    ((travels { egress with credit := true }).parcelsFor 1).find? (fun w => w.2.frag == 0) = some (0, { egress with credit := true }) ∧
    (travels { egress with credit := true }).mayArrive 0 (.parcel 0 1 none) none = true ∧
    (travels egress).parcelFrom 0 = some 0 ∧ behindOlder.parcelFrom 0 = some 0 ∧ behindOlder.mayArrive 0 (.parcel 0 1 none) none = true ∧
    (0, { egress with frag := 5, refused := true }) ∈ behindOlder.parcelsFor 1 ∧
    (behindOlder.parcelsFor 1).find? (fun w => w.2.frag == 0) = some (0, { egress with age := 1 }) := by decide +kernel
theorem meets_ParcelSteps_placement : one.freest 0 = some 1 ∧ (inbound none).freest 0 = some 0 ∧ ((inbound none).home 0).inbound = (0, none) :: [] ∧
    ([none, some (due1 (.migr 6)), some (due1 (.join 2)), some (due1 (.loadS 4 6 2 1))].all fun l => (inbound l).freest 0 == some 0 &&
      (inbound l).served ((inbound l).leaveElems 0) && ((inbound l).home 0).inbound == [(0, none)] && ((inbound l).frag 0).leave == l && ((inbound l).frag 0).grp.isNone && (inbound l).sramErr.isEmpty &&
      (match l, ((inbound l).received ((inbound l).frag 0) 0).leave with
        | some a, some b => a.acc == b.acc && a.park == b.park && ((inbound l).parcelPoison 0 b).isNone | none, none => true | _, _ => false)) = true ∧
    (inbound (some (due1 (.migr 6)))).checkGlobal 0 one.g.rights .move 1 false [⟨0, 0, 1⟩] = none ∧
    (∀ a ∈ (MigAcc.loadS 4 6 2 1).addrs one.f.regs allLanes, (inbound none).destOf 0 one.g.rights a.va = (one.fabric.toNat, 0)) ∧
    (inbound none).checkGlobal 0 one.g.rights .read 4 false ((MigAcc.loadS 4 6 2 1).addrs one.f.regs allLanes) = none ∧
    ((inbound none).checkGlobal 0 one.g.rights .move 1 false [⟨0, 0x10000, 1⟩]).map (·.code) = some 0x12#8 := by decide +kernel
/-- Key-table entry 7 of device 3, with every right, for address space 0. -/
def keyed (m : FabMsg) : State := { paged with keyTab := [(7, BitVec.twoPow 128 127 ||| BitVec.ofNat 128 (0x1F * 2 ^ 64 + 0xFFF * 2 ^ 72))], fabIn := [m] }
def guestFrag : Frag := { leaving true with idx := 2 }
def guestHdr (res0 : BitVec 1536) : BitVec 1536 := guestFrag.header { one.g with dev := 3 } 0 0 ||| res0
def guest (res0 : BitVec 1536) : FabMsg := .parcel 3 0 7 (guestHdr res0) guestFrag { one.g with dev := 3 } 12
/-- 32 parcels of other devices held at the port of home 1. -/
def portFull : State := { keyed (guest 0) with net := (List.range 32).map fun i => .parcel (i + 100) 1 (some (12, i)) }
theorem meets_ParcelSteps_fabric : (keyed (guest 0)).fabIn[0]? = some (.parcel 3 0 7 (guestHdr 0) guestFrag { one.g with dev := 3 } 12) ∧
    guestFrag.state = .transit 0 1 true ∧ (keyed (guest 0)).parcelRefusal 3 7 (guestHdr 0) guestFrag 0 = none ∧ (keyed (guest 0)).portHeld 12 < 32 ∧
    portFull.parcelRefusal 3 7 (guestHdr 0) guestFrag 0 = none ∧ 32 ≤ portFull.portHeld 12 ∧
    (keyed (guest 0)).parcelRefusal 3 7 (guestHdr (BitVec.twoPow 1536 1137)) guestFrag 0 = some 0x20#8 ∧ one.keyOk 7 3 0 0x01#5 = false ∧
    (0x16#8 : BitVec 8) ≠ 0x10#8 ∧ (leaving true).state = .transit 0 1 true ∧ (leaving true).leave = some (due1 (.migr 6)) ∧
    (keyed (.returned 0 (leaving true) one.g 0x16#8)).fabIn[0]? = some (.returned 0 (leaving true) one.g 0x16#8) ∧
    (keyed (.credit 3 0 12 true)).fabIn[0]? = some (.credit 3 0 12 true) ∧ (keyed (.credit 3 0 12 false)).fabIn[0]? = some (.credit 3 0 12 false) := by
  decide +kernel
def crowded : State := (travels { egress with refused := true }).setHome 1 { one.home 1 with inbound := List.replicate 512 (9, none) ++ [(9, some 0)] }
def refused1 : State := away { egress with refused := true }
theorem meets_ParcelSteps_full : crowded.parcelFrom 0 = some 0 ∧ crowded.mayArrive 0 (.parcel 0 1 none) none = true ∧ crowded.net[0]? = some (.parcel 0 1 none) ∧
    512 ≤ ((crowded.home 1).inbound.filter fun e => e.2 == none).length ∧ (9, some 0) ∈ (crowded.home 1).inbound ∧
    ((refused1.home 1).inbound.filter fun e => e.2 == none).length + ((refused1.parcelsFor 1).filter fun w => w.2.credit).length < 512 ∧
    (0, refused1.core 0) ∈ refused1.cores ∧ { egress with refused := true } ∈ (refused1.core 0).egress ∧
    (∀ e ∈ refused1.cores, ∀ q ∈ e.2.egress, e.1 = 0 ∧ q = { egress with refused := true }) := by decide +kernel
/-- A store, an add and a read of the word at 0x1000, on their way to home 0 and in order there. -/
def elemAt (va : DWord) (o : Option AtomOp) : Elem := ⟨0, .dram, va.toNat, 4, 5, va, o, 0⟩
def reqOf (o : Option AtomOp) : Req := ⟨0, 0, 0, one.g.rights, 0, [elemAt 0x1000 o], 1, [0]⟩
def sends (m : List Msg) : State := { flying with net := m }
def plain (s : State) (q : Req) : Bool :=
  (q.elems.all fun e => decide (e.space = .dram) && decide (e.key % 2 ^ 40 + e.size ≤ 2 ^ 40) && !s.staleAt q.home q.rights e && !s.readErr e.key e.size) &&
    s.served q.elems
def awaits : Out := ⟨.remote 5 false 2, .s 4, 1, 1, splat 0, 0, false, 0⟩
/-- An update of fragment 0 to barrier 2, which is armed, where the fragment has gone on its way elsewhere. -/
def update : Msg := .split 0 0 (.bset 2 1) ⟨0, 0, 0⟩
def clashing : State := { armed 1 with net := [update], frags := [(0, leaving false)] }
theorem meets_MessageSteps : (sends [.store (reqOf none)]).net[0]? = some (.store (reqOf none)) ∧ (sends [.store (reqOf none)]).mayArrive 0 (.store (reqOf none)) none = true ∧
    plain (sends [.store (reqOf none)]) (reqOf none) = true ∧ (∀ e ∈ (reqOf none).elems, e.op = none) ∧
    (sends [.posted (reqOf (some .add))]).mayArrive 0 (.posted (reqOf (some .add))) none = true ∧ plain (sends [.posted (reqOf (some .add))]) (reqOf (some .add)) = true ∧
    (sends [.posted (reqOf none)]).mayArrive 0 (.posted (reqOf none)) none = true ∧ plain (sends [.posted (reqOf none)]) (reqOf none) = true ∧
    (reqOf (some .add)).elems = [elemAt 0x1000 (some .add)] ∧ (sends [.read (reqOf none) 5]).mayArrive 0 (.read (reqOf none) 5) none = true ∧
    (sends [.store (reqOf none), .read (reqOf none) 5]).mayArrive 1 (.read (reqOf none) 5) none = false ∧
    ({ sends [] with chans := [(4, ⟨true, 0⟩)] } : State).served (reqOf none).elems = false ∧
    (sends [.ack [0] false true]).net[0]? = some (.ack [0] false true) ∧ (frag fun f => { f with outs := [awaits] }).f.outs = awaits :: [] ∧
    (sends [.data 0 5 [(0, 7)] 0]).net[0]? = some (.data 0 5 [(0, 7)] 0) ∧ (frag fun f => { f with outs := [outA] }).f.outs[0]? = some outA := by decide +kernel
theorem meets_MessageSteps_updates : (sends [update]).net[0]? = some update ∧ ((sends []).group 0).dev = (sends []).fabric.toNat ∧
    ((sends [update]).group 0).clashes (.bset 2 1) = false ∧ ((sends [update]).group 0).clashes (.arrive 2 1) = false ∧
    (sends [update, update]).net[1]? = some update ∧ clashing.net[0]? = some update ∧ (clashing.group 0).dev = clashing.fabric.toNat ∧
    (clashing.group 0).clashes (.bset 2 1) = true ∧ clashing.lateBusy 0 = true ∧
    ((group fun g => { g with dev := 3 }).group 0).dev ≠ (group fun g => { g with dev := 3 }).fabric.toNat := by decide +kernel
/-- A fragment whose group's team is on device 3, with what it has asked or been answered, ready or in a wait. -/
def abroad (x : FState) (a : Grant) : State := (foreign a).setF { (foreign a).f with state := x }
theorem meets_TeamWords : ([.none, .asked, .refused, .word (.done 5), .word .wait, .word (.later 4), .word (.record 0), .word (.fault (faultOf 1))].all fun a =>
    let s := foreign a
    s.f.grant == a && s.g.dev != s.fabric.toNat && !(s.sreg 6).poison && !(s.sreg 7).poison && s.f.trap.isNone && s.f.outs.isEmpty && s.f.grp.isNone && s.g.gidx == 0 &&
      s.g.depth != 10 && decide ((s.sv 6).toNat % 64 = 0) && s.released s.cur false && s.fenceMet s.cur false true false && !s.accessHeld s.cur &&
      readable s 8 []) = true ∧
    (LaunchRec.ofBits 0).nlease = 0 := by decide +kernel
theorem meets_TeamWords_waits : ([.bwait 0, .swait 16 0 5, .cbwait 15 1 false, .launch 4 5].all fun x =>
    [.none, .asked, .word .wait, .word (.done 5)].all fun a =>
      let s := abroad x a
      let f := s.frag 0
      f.state == x && f.grant == a && !s.asleep 0 && f.outs.isEmpty && f.leave.isNone && (s.group f.group).dev != s.fabric.toNat) = true := by decide +kernel
/-- LSTAT of fragment 1, on device 3, of the team here. -/
def teamMsg : FabMsg := .split 3 0 7 one.g.gridid one.g.teamid 0 1 (.word .lstat) ⟨0, 0, 0⟩
def teamAsked : State := { keyed teamMsg with frags := one.frags ++ [(1, { one.f with idx := 1, dev := 3 })], net := [] }
theorem meets_MessageSteps_words : teamAsked.fabIn[0]? = some teamMsg ∧ teamAsked.splitBehind 0 teamMsg = false ∧
    teamAsked.groupNamed 0 one.g.gridid one.g.teamid 0 = some 0 ∧ teamAsked.fabric.toNat = 0 ∧ teamAsked.keyOk 7 3 (teamAsked.group 0).rights.asid 0x01#5 = true ∧
    ({ teamAsked with keyTab := [] } : State).keyOk 7 3 0 0x01#5 = false ∧ teamAsked.holdsCore (teamAsked.team (teamAsked.group 0).team) = true ∧
    (teamAsked.frag (fragNo 0 1)).alive = true ∧ (teamAsked.frag (fragNo 0 1)).dev ≠ teamAsked.fabric.toNat ∧ one.g.batches.length < 16 ∧
    ((buffered 0 1).cbOn 0 15).toOption = some (buf 0) ∧ one.syncOwed (one.frag 0).group 16 = none ∧ 16 + 16 ≤ (one.team one.g.team).size := by decide +kernel
/-- R298: the answer to an LSTAT of a fragment away; R309: one sent by BSEAL. -/
theorem test_team_word : (match exec (.splitUpdateApply 0) teamAsked with
      | .next s => decide (s.fabOut = [.split 0 3 one.g.rights.keyidx one.g.gridid one.g.teamid 0 1 (.worded (.done 0)) ⟨0, 0, 0⟩])
      | _ => false) = true ∧
    (match exec (.bseal 5) (foreign .none) with
      | .next s => s.f.grant == .asked && decide (s.net = [.split 0 0 (.word .bseal) ⟨s.f.pc, s.f.rpc, s.f.ti0⟩])
      | _ => false) = true := by decide +kernel
/-- Requests of core 9 of device 3: a store to 0x1000, or a drain of it; an element of XATOM; a flag and a close marker. -/
def asks (va : DWord) (drain : Bool) : FabMsg := .req 3 0 9 0x04#5 7 0 0 true [elemAt va none] drain false false 0 1
def tells : FabMsg := .xatom 3 0 9 7 0 0 true elem4 false false 0 1
def flag (es : List Elem) (n : Nat) : HeldFlag := ⟨3, 9, 7, 0, 0, true, es, false, false, [n], 1⟩
def holding (h : HeldFlag) : State := { keyed (asks 0x1000 false) with fabIn := [], heldFlags := [h], doneRecs := [⟨3, 9, false, [1]⟩] }
def okIs (x : Except (BitVec 8 × Nat) Elem) (e : Elem) : Bool := match x with | .ok y => y == e | .error _ => false
/-- What the port makes of an element of a request of device 3. -/
def lands (s : State) (need : Need) (e : Elem) : Except (BitVec 8 × Nat) Elem := s.ingress (s.rightsIn 3 7 0 0 true) need false e
/-- A state with the two messages of a flag and a close marker. -/
def flagMsg (es : List Elem) : FabMsg := .flag 3 0 9 7 0 0 true es false false [1] 1
theorem meets_FabricSteps : ([false, true].all fun d => (keyed (asks 0x1000 d)).fabIn[0]? == some (asks 0x1000 d) && !(keyed (asks 0x1000 d)).fabBehind 0 (asks 0x1000 d) &&
      okIs (lands (keyed (asks 0x1000 d)) (needOf 0x04#5) (elemAt 0x1000 none)) (elemAt 0x1000 none) && !(keyed (asks 0x1000 d)).readErr 0x1000 4 &&
      (keyed (asks 0x1000 d)).served [elemAt 0x1000 none] &&
      (match lands (keyed (asks 0x10000 d)) (needOf 0x04#5) (elemAt 0x10000 none) with | .error _ => true | _ => false)) = true ∧
    ({ keyed (asks 0x1000 false) with heldFlags := [{ flag [elemAt 0x1000 none] 0 with epoch := true }] } : State).fabBehind 0 (asks 0x1000 false) = true ∧
    one.keyOk 7 3 0 0x04#5 = false ∧ (keyed (asks 0x1000 false)).keyOk 7 3 0 0x04#5 = true ∧ (elemAt 0x1000 none).key % 2 ^ 40 + 4 ≤ 2 ^ 40 ∧
    (keyed tells).fabIn[0]? = some tells ∧ (keyed tells).fabBehind 0 tells = false ∧ (keyed tells).keyOk 7 3 0 0x08#5 = true ∧ one.keyOk 7 3 0 0x08#5 = false ∧
    okIs (lands (keyed tells) .atom ⟨0, .dram, 0, 4, 0, elem4.va, none, 0⟩) ⟨0, .dram, 4, 4, 0, 4, none, 0⟩ = true ∧
    (match lands (keyed tells) .atom ⟨0, .dram, 0, 4, 0, 0x10000, none, 0⟩ with | .error _ => true | _ => false) = true ∧
    hndValid (told.part 0).handlers elem4.handler = true := by decide +kernel
theorem meets_FabricSteps_flags : ([[], [elemAt 0x1000 none]].all fun es => (keyed (flagMsg es)).fabIn[0]? == some (flagMsg es) &&
      !(keyed (flagMsg es)).fabBehind 0 (flagMsg es) && (holding (flag es 1)).flagReady (flag es 1) && !(holding (flag es 2)).flagReady (flag es 2) &&
      (holding (flag es 1)).heldFlags[0]? == some (flag es 1)) = true ∧ (keyed (flagMsg [])).keyOk 7 3 0 0x10#5 = true ∧
    okIs (lands (holding (flag [elemAt 0x1000 none] 1)) .write (elemAt 0x1000 none)) (elemAt 0x1000 none) = true ∧
    (holding (flag [] 1)).portEntries.length < 1024 := by decide +kernel
/-- A port whose table is full of the requests of other devices. -/
def filled : State := { keyed (flagMsg []) with doneRecs := (List.range 1024).map fun i => ⟨4, i, false, noCounts⟩ }
theorem meets_FabricSteps_full : (filled.doneRecs.all fun d => (d.src, d.core, d.epoch) != (3, 9, false)) = true ∧ filled.heldFlags = [] ∧
    1024 ≤ filled.portEntries.length ∧ filled.fabIn[0]? = some (flagMsg []) := by decide +kernel
/-- A line of the write-combining buffer, and the answer that a drain of its key awaits; paths to device 3; a request that fragment 0 awaits, or none. -/
def line0 : WcLine := ⟨3, 0, 1, [(0, 1)], [0], 0, one.g.rights, false, false⟩
def remote1 (k : Option Asker) : Remote := ⟨1, 3, [0], false, false, 0, 0, k, 0, 0, [], none⟩
def lined (l : WcLine) : State := { (one.setCore 0 { one.core 0 with wc := [l] }) with clock := 2100 }
def pathed (n : Nat) (c : Nat) : State := one.setCore 0 { one.core 0 with paths := (List.range n).map fun i => ⟨i + 3, false, [c], none⟩ }
def answering (k : Option Asker) (rep : Reply) : State := { one with remote := [remote1 k], fabIn := [.reply 0 1 rep] }
theorem meets_FabricSteps_ends : ([none, some (.frag 0)].all fun k => ((answering k (Reply.ok [])).remote.find? fun r => r.tag == 1) == some (remote1 k) &&
      (answering k (Reply.ok [])).fabIn[0]? == some (.reply 0 1 (Reply.ok []))) = true ∧ (remote1 none).wc = false ∧ (Reply.refuse [0] 0x16#8).code ≠ 0 ∧
    (answering none (Reply.refuse [0] 0x16#8)).cores.all (fun c => c.2.wc.all fun l => !l.due) = true ∧
    ((pathed 1 65535).core 0).paths.any (fun q => q.dev == 3) = true ∧ (∃ c ∈ ((pathed 1 65535).pathOf 0 3).sent, 65535 ≤ c) ∧
    16 ≤ ((pathed 16 0).core 0).paths.length ∧ ((one.core 0).paths.any fun q => q.dev == 3) = false ∧
    ((lined line0).core 0).wc[0]? = some line0 ∧ 21 * (250 * ((lined line0).part 0).wcAge.toNat) ≤ 20 * ((lined line0).clock - line0.start) ∧
    (lined line0).drainBusy line0 = false ∧ ({ lined line0 with remote := [{ remote1 none with wc := true, line := 1 }] } : State).drainBusy line0 = true ∧
    ¬(21 * (250 * (one.part 0).wcAge.toNat) ≤ 20 * (one.clock - line0.start) ∨ line0.bytes.length = 256) ∧
    ({ line0 with bytes := (List.range 256).map fun i => (i, 0) } : WcLine).bytes.length = 256 := by decide +kernel
/-- Two fragments that wait at barrier 2 of their group for each other; a fragment of a team at BARRT; one woken in WAITW. -/
def half (lo : Mask) (n : Nat) : Nat × Frag := (n, { one.f with idx := n, own := lo, state := .join 2 })
def joining (arrived : Mask) : State := { (group fun g => { g with bars := [(2, ⟨true, 0, allLanes, arrived⟩)] }) with
  frags := [half 0xFFFF 0, half (without allLanes 0xFFFF) 1] }
theorem meets_WakeSteps : ((joining allLanes).group 0).dev = (joining allLanes).fabric.toNat ∧
    ((group fun g => { g with dev := 3 }).group 0).dev ≠ (group fun g => { g with dev := 3 }).fabric.toNat ∧ ((joining allLanes).waiters 0 2).find? (fun w => w.2.own.getLsbD 0) = some (half 0xFFFF 0) ∧ (half 0xFFFF 0).2 = (joining allLanes).frag 0 ∧
    (half 0xFFFF 0).2.dev = (joining allLanes).fabric.toNat ∧ (joining allLanes).asleep 0 = false ∧
    (∀ w ∈ (joining allLanes).waiters 0 2, w.2.home = 0 ∧ w.2.dev = (half 0xFFFF 0).2.dev ∧ w.2 = (joining allLanes).frag w.1) ∧
    ((joining allLanes).group 0).bar 2 = ⟨true, 0, allLanes, allLanes⟩ ∧ (((joining allLanes).waiters 0 2).foldl (fun m w => m ||| w.2.own) 0) = allLanes ∧
    (((joining 1).group 0).bar 2).arrived ≠ (((joining 1).group 0).bar 2).expect ∧
    one.waiters 0 2 = [] ∧ (waits (.barrt false)).fragsOfTeam 0 = [(0, (waits (.barrt false)).f)] ∧ (waits (.barrt false)).f.state = .barrt false ∧
    one.f.state ≠ .barrt true ∧ (waits (.barrt false)).net = [] ∧ ((waits (.waitw 0 0 0 0 true)).frag 0).state = .waitw 0 0 0 0 true ∧
    (waits (.waitw 0 0 0 0 true)).asleep 0 = false ∧ ((waits (.waitAway 1 0 none)).frag 0).state = .waitAway 1 0 none ∧
    ([some (0, 0, true), some (0x15, 0, false)].all fun got => ((waits (.waitAway 1 0 got)).frag 0).state == .waitAway 1 0 got &&
      !(waits (.waitAway 1 0 got)).asleep 0) = true ∧ one.f.alive = true ∧ one.f.chain = false ∧ one.f.outs = [] ∧ one.f.due = none ∧ one.f.leave = none ∧ one.f.grp = none := by decide +kernel
/-- A core's wait list, rotation and service list; a fragment whose register line is in error; a map entry whose line 0 is to be filled. -/
def lists : State := one.setCore 0 { one.core 0 with waits := [9], rot := [0, 9], svc := [[0, 9]] }
def filling : State := { one with teams := [(0, { one.t with maps := [(0, ⟨256, 256, 0x1000, false, false, [], [], one.g.rights⟩)], fills := [(0, 0)] })] }
/-- A core whose 64 entries are held; fragment 0 has issued since it took its own, or none has. -/
def held (t : Nat) : State :=
  let s := lists.setFrag 0 { lists.f with issued := t }
  { s with frags := s.frags ++ (List.range 63).map fun i => (i + 100, { lists.f with issued := 0 }) }
theorem meets_WakeSteps_entries : 64 ≤ (held 5).entries 0 ∧ (held 5).evictee 0 = some 0 ∧ 64 ≤ (held 0).entries 0 ∧ (held 0).evictee 0 = none ∧
    ((held 0).core 0).rot.filter (fun x => ((held 0).frag x).alive && !((held 0).frag x).resident && ((held 0).frag x).state == .ready &&
      !((held 0).core 0).waits.contains x) = [] := by decide +kernel
/-- Fragment 0 waits in LAUNCH while another waits for the core's entries. -/
def heldLaunch : State := let s := held 0; s.setFrag 0 { s.frag 0 with state := .launch 5 4 }
/-- All 1,024 lines of a core hold registers whose results are pending. -/
def linesTaken : State := (frag fun f => { f with outs := (List.range 192).map fun e => { outA with dest := .v e } }).setCore 0 { one.core 0 with lines := List.replicate 1024 ⟨0, 3, false⟩ }
theorem meets_WakeSteps_lines : heldLaunch.evictee 0 = some 0 ∧ ((heldLaunch.frag 0).state).inLaunch = true ∧ 64 ≤ heldLaunch.entries 0 ∧ linesTaken.linesBlocked 0 7 = true ∧
    one.linesBlocked 0 257 = false ∧ one.linesBlocked 0 3 = false ∧ (one.core 0).holdsLine 0 257 = false ∧ (4, 1024 * 0 + 3) ∉ one.sramErr ∧ (4, 1024 * 0 + 258) ∉ one.sramErr ∧
    (4, 1024 * 0 + 3) ∈ ({ one with sramErr := [(4, 3)] } : State).sramErr ∧ (4, 1024 * 0 + 258) ∈ ({ one with sramErr := [(4, 258)] } : State).sramErr ∧
    (lists.core 0).rot.find? (fun m => (lists.frag m).turn != 0) = none ∧
    ((lists.setFrag 0 { lists.f with turn := 1 }).core 0).rot.find? (fun m => ((lists.setFrag 0 { lists.f with turn := 1 }).frag m).turn != 0) = some 0 ∧
    (lists.setFrag 0 { lists.f with turn := 1 }).unheld 0 = true ∧ (lists.setFrag 0 { lists.f with turn := 1, held := true }).unheld 0 = false := by decide +kernel
theorem meets_WakeSteps_lists : (lists.core 0).waits = 9 :: [] ∧ lists.entries 0 < 64 ∧ (lists.core 0).rot = 0 :: [9] ∧ 0 ∉ [9] ∧
    (0 < (frag fun f => { f with turn := 1 }).f.turn ∧ max 1 one.g.weight ≤ (frag fun f => { f with turn := 1 }).f.turn) ∧ ¬0 < one.f.turn ∧
    (lists.core lists.f.coreKey).svc = [0 :: [9]] ∧ 16384 ≤ (frag fun f => { f with served := 16384 }).f.served ∧ one.f.served < 16384 ∧
    one.f.resident = true ∧ one.f.coreKey = 0 ∧ 257 < 258 ∧ (one.core 0).holdsLine 0 257 = false ∧ (4, 1024 * 0 + 258) ∉ one.sramErr ∧
    (filling.team 0).maps.find 0 = some ⟨256, 256, 0x1000, false, false, [], [], one.g.rights⟩ ∧ filling.holdsCore (filling.team 0) = true ∧
    (0, 0) ∈ (filling.team 0).fills ∧ filling.answered (.fill 0 0 0) = [] ∧ filling.backPending 0 0x1000 256 = false ∧ (filling.fuseOf 0).home = true ∧
    (∀ o, o < 256 → Apart (syncPlaces filling) 12 (256 + o)) ∧
    (∀ i < 32, filling.protOf 0 one.g.rights .read (0x1000 + BitVec.ofNat 64 (8 * i)) = 0 ∧ (filling.leafOf 0 0 (0x1000 + BitVec.ofNat 64 (8 * i))).dev = filling.fabric.toNat ∧
      (filling.leafOf 0 0 (0x1000 + BitVec.ofNat 64 (8 * i))).home = 0) := by
  unfold Apart; decide +kernel
/-- The worked write of R365, and one that takes the homes of another partition. -/
theorem meets_PartitionControl : ctlHomes 0x00000000830F0001 ≠ (State.reset.part 0).homes ∧ (State.reset.part 0).en = false ∧
    State.reset.permits (ctlHomes 0x00000000830F0001) = true ∧ ¬(∃ q < 12, q ≠ 1 ∧ (State.reset.part q).en = true ∧ (State.reset.part q).homes &&& ctlHomes 0x00000000830F0001 ≠ 0) ∧
    (∃ q < 12, q ≠ 1 ∧ (one.part q).en = true ∧ (one.part q).homes &&& 1 ≠ 0) ∧ ctlVf 0x00000000830F0001 ≠ 0 ∧ ctlVf 0x00000000830F0001 ≤ 12 ∧
    (0x00000000830F0001 : DWord).getLsbD 0 = true ∧ 11 < 12 ∧ 12 < 13 ∧
    ctlHomes 1 = 0 ∧ (State.reset.part 0).homes = 0 ∧ ({ State.reset with code := 2 } : State).code = 2 ∧ 10 < (11 : BitVec 8).toNat ∧
    (State.reset.asEnt 0).getLsbD 191 = false ∧ (State.reset.part 0).tidx.getLsbD 63 = false ∧
    ({ State.reset with parts := [(0, { Part.fresh with tidx := 0x8000000000000000 })] } : State).part 0 = { Part.fresh with tidx := 0x8000000000000000 } := by decide +kernel
theorem meets_HostAndPowerSteps : ((0 = State.reset.window ∧ 0 < 12 ∧ (2 ^ 36 - 1) + 1 ≤ 2 ^ 36 ∧ (State.reset.fuseOf 0).home = true) ∧ State.reset.readErr (dramKey 0 (2 ^ 36 - 1)) 1 = false) ∧
    ¬(1 = State.reset.window) ∧ (2 : BitVec 8) ≠ 0x01#8 ∧ State.reset.mbStat ≠ 1 ∧ ({ State.reset with mbStat := 1 } : State).mbStat = 1 ∧
    ({ State.reset with mbStat := 1 } : State).mbAddrOk = true ∧ ({ State.reset with mbStat := 1, mbAddr := 1 } : State).mbAddrOk = false ∧ State.reset.memErr = [] ∧
    143 < 144 ∧ (State.reset.fuseOf (143 / 12)).home = true ∧ (State.reset.fuseOf (143 / 12)).ports.getLsbD (143 % 12) = true ∧
    ({ State.reset with thermal := .tripped } : State).thermal = .tripped ∧ 4 < 5 := by
  refine ⟨by decide +kernel, by decide +kernel, by decide +kernel, by decide +kernel, by decide +kernel, by decide +kernel, by decide +kernel, by decide +kernel,
    by decide, by decide +kernel, by decide +kernel, by decide +kernel, by decide⟩

/-! Steps, the decoder and the memories -/

theorem atIssue_one : AtIssue one 0 { ({ one with agenda := [] } : State).paced with cur := 0 } :=
  .inr ⟨by decide +kernel, [], by decide +kernel, by decide +kernel, rfl⟩
theorem meets_StepRunsTheDecodedWord : (∃ u, AtIssue one 0 u) ∧ (one.fetch one.cur one.f.pc).toOption = some 0 ∧ one.f.grp = none ∧ one.f.pfx = none ∧
    one.f.timerDue = false ∧ (frag fun f => { f with gtcmp := 0 }).f.timerDue = true ∧ majorOf 0 ≠ 0x3F ∧ one.f.held = false ∧ one.check71 0 0 (decodeWord 0) = none ∧
    one.check71 0 0x3E000000 (decodeWord 0x3E000000) ≠ none ∧ majorOf 0x3B000000 = 0x3B ∧ (0x3B000000 : Word).getLsbD 31 = false ∧ one.slotOf 0 0 ≠ 2 ∧
    majorOf 0x3F000000 = 0x3F ∧ takesPfx (majorOf 0) = false ∧ takesPfx (majorOf 0x112520C6) = true := by
  refine ⟨⟨_, atIssue_one⟩, ?_, ?_, ?_, ?_, ?_, ?_, ?_, ?_, ?_, ?_, ?_, ?_, ?_, ?_, ?_⟩ <;> decide +kernel
/-- Fragment 0 at a vector word whose register lines its core lacks, at a prefix word before a word that takes none, and at one whose word is kept. -/
def fetches (w v : Nat) : State := { one with mem := cellsAt 0 (leBytes 4 w ++ leBytes 4 v) |>.filter fun c => c.2 != 0 }
def lacking : State := (fetches 0x092520D1 0).wrV 9 (fun _ => 1) false
def kept : State := one.setCore 0 { one.core 0 with icache := [(placeOf one 0, 0x3A140000)] }
theorem meets_StepRunsTheDecodedWord_clauses : (∃ u, AtIssue lacking 0 u) ∧ lacking.f.timerDue = false ∧
    (lacking.fetch 0 0).toOption = some 0x092520D1 ∧ lacking.check71 0 0x092520D1 (decodeWord 0x092520D1) = none ∧ lacking.lacks 0 0x092520D1 (.orV 1 9 18 3) ≠ [] ∧ one.lacks 0 0 .nop = [] ∧ ((fetches 0x3F000000 0).fetch 0 0).toOption = some 0x3F000000 ∧
    ((fetches 0x3F000000 0).fetch 0 4).toOption = some 0 ∧ ((fetches 0x3F000000 0x09000000).fetch 0 4).toOption = some 0x09000000 ∧
    takesPfx (majorOf 0x09000000) = true ∧ (frag fun f => { f with pfx := some ⟨1, 0, 0, 1, 0, 0⟩ }).f.pfx ≠ none ∧ one.asking one.cur = false ∧
    (kept.fetch 0 0).toOption = some 0x3A140000 ∧ (kept.core 0).icache.find? (fun e => e.1 == placeOf one 0) = some (placeOf one 0, 0x3A140000) ∧
    (∀ e ∈ (one.core 0).icache, e.1 ≠ placeOf one 0) ∧ one.g.rights.priv = true ∧ (one.setG { one.g with rights := user }).g.rights.priv = false := by
  refine ⟨⟨_, .inr ⟨by decide +kernel, [], by decide +kernel, by decide +kernel, rfl⟩⟩, ?_, ?_, ?_, ?_, ?_, ?_, ?_, ?_, ?_, ?_, ?_, ?_, ?_, ?_, ?_, ?_⟩ <;> decide +kernel
theorem meets_DecodeAndEncodeAgree : (Instr.iaddS64 63 0 63).wf = true ∧ (Instr.iaddS64 63 0 63).fields ≠ none ∧ (Instr.joinFusion 0 0).wf = true ∧
    encodeWord ⟨true, true, .iaddS64 63 0 63⟩ ≠ none := by decide +kernel
theorem meets_EveryStepKeepsTheMemoriesCanonical : Canonical State.reset ∧ Canonical one := by
  refine ⟨⟨?_, ?_, ?_, ?_⟩, ⟨?_, ?_, ?_, ?_⟩⟩ <;> decide +kernel
theorem meets_RegisterWordsChangeOnlyTheirRegisters : (usesOf (.iaddS64 5 6 7) 0).pipe = .sc ∧ (usesOf (.iaddV 0 5 6 7) 0).pipe = .vi ∧
    (usesOf (.faddV 0 5 6 7) 0).pipe = .vf ∧ RegId.s 5 ∉ ((usesOf (.iaddS64 4 6 7) 0).writes one.f.regs).map (·.1) := by decide +kernel
/-! Clauses over divisions, other devices, records with leases and held steps -/

/-- Lane l of v1 holds l modulo 2; the table at s2 = 0x1000 holds 0 and 4, and s3 is 2. -/
def tabled : State := { (reg (reg one 2 0x1000) 3 2).wrV 1 (fun l => BitVec.ofNat 32 (l % 2)) false with mem := [(0x1004, 4)] }
theorem meets_ControlWords_division : tabled.mreg 0 = allLanes ∧ tabled.poisoned [.v 1 (tabled.mreg 0), .s 2, .s 3] = none ∧
    ((List.range 96).all fun l => decide ((tabled.vl 1 l).toNat < (tabled.sv 3).toNat) &&
      decide ((tabled.fetch 0 (tabled.sv 2 + 4 * (tabled.vl 1 l).setWidth 64)).toOption = some (BitVec.ofNat 32 (4 * (l % 2))))) = true ∧
    (tabled.sv 2).extractLsb' 0 2 = 0 ∧ ((lanesIn allLanes).map fun l => l % 2).eraseDups.length - 1 = 1 ∧ tabled.f.written.contains (.m 0) = false ∧
    tabled.f.trap = none ∧ tabled.f.alive = true ∧ Still tabled ∧ tabled.g.dev = tabled.fabric.toNat ∧ tabled.divideBar 1 = none ∧
    1 ≤ (tabled.freeEntries tabled.f.group).length ∧ (∀ i ∈ tabled.freeEntries tabled.f.group, fragNo tabled.f.group i ≠ tabled.cur) := by
  refine ⟨?_, ?_, ?_, ?_, ?_, ?_, ?_, ?_, still_of ?_ ?_, ?_, ?_, ?_, ?_⟩ <;> decide +kernel
/-- The answer of device 5 to WAITW: refused, or a value. -/
def toldFar (r : Reply) : State := { watchFar with answers := [⟨.frag 0, r⟩] }
theorem meets_WaitForAWord_answers : (translated watchFar [watchFar.sv 6]).answered (.frag watchFar.cur) = [] ∧
    (∀ r ∈ (translated watchFar [watchFar.sv 6]).remote, r.asker ≠ some (.frag watchFar.cur)) ∧
    ([Reply.refuse [0] 0x16#8, .ok [(0, 0)], .ok [(0, 1)], .ok [(0, 2), (1, 9)]].all fun r =>
      (toldFar r).f.trap.isNone && ((toldFar r).poisoned [.s 6, .s 7]).isNone && (toldFar r).f.outs.isEmpty && (toldFar r).f.grp.isNone &&
      ((toldFar r).checkGlobal 0 (toldFar r).g.rights .read 4 false [⟨0, (toldFar r).sv 6, 4⟩]).isNone && !(translated (toldFar r) [0x1000]).accessHeld 0 &&
      decide ((watched (toldFar r)).2.dev = 5) && decide ((watched (toldFar r)).2.ord ≠ 0) &&
      (((translated (toldFar r) [0x1000]).answered (.frag 0)).map (·.reply)) == [r]) = true := by decide +kernel
/-- Page 1 lies at home 1: lanes 48 and on of v1 and s6 name it; the liveness entry of `paged` is that of the word at 0. -/
def nextDoor : State :=
  let s := { paged with cores := one.cores }
  (reg (s.setCore 0 { s.core 0 with tlb := ⟨0, 1, false, one.leaf0 + 2 ^ 43⟩ :: (s.core 0).tlb }) 6 0xFF40).wrV 1 (fun l => BitVec.ofNat 32 (4 * l)) false
/-- What the words of MigratingWords ask of a state. -/
def migrates (s : State) (a : MigAcc) (srcs : List Src) : Bool :=
  let as := a.addrs s.src s.eff
  decide (s.poisoned srcs = none) && decide (s.mreg 0 ≠ 0) && decide (s.checkGlobal 0 s.g.rights a.need a.size (a.writesBnd s.src) as = none) &&
    !s.accessHeld s.cur && as.all (fun x => (leafAt s x.va).ord != 0) && s.mayAccess s.cur (s.accPages s.cur a s.src s.eff) &&
    (!isRel a.order || s.released s.cur (isSys a.order)) && as.any (fun x => s.destOf 0 s.g.rights x.va != (s.fabric.toNat, s.f.home)) && s.f.trap.isNone &&
    decide (s.g.dev = s.fabric.toNat)
def nextOne : State := reg nextDoor 6 0x10000
theorem meets_AccessChecksAndMigration_words : migrates nextDoor (.loadV 3 6 1 4 1 nextDoor.zeroed) (addrSrcs 6 1 nextDoor.eff) = true ∧
    migrates nextOne (.loadS 3 6 5 0) [.s 6] = true ∧ migrates nextOne (.migr 6) [.s 6] = true ∧
    migrates nextDoor (.atom 2 6 1 false 7 3 (nextDoor.third 2) nextDoor.zeroed) (addrSrcs 6 1 nextDoor.eff ++ [.v 2 nextDoor.eff] ++ [.v (nextDoor.third 2) nextDoor.eff]) = true ∧
    migrates nextDoor (.atom 2 6 1 true 0 0 (nextDoor.third 2) nextDoor.zeroed) (addrSrcs 6 1 nextDoor.eff ++ [.v 2 nextDoor.eff]) = true := by
  refine ⟨?_, ?_, ?_, ?_, ?_⟩ <;> decide +kernel
theorem meets_AccessChecksAndMigration_due : nextDoor.anchorBits nextDoor.f.group = 0 ∧ (nextDoor.setG { nextDoor.g with ntiles := 1, tiles := tiled.g.tiles }).anchorBits 0 ≠ 0 ∧
    (nextDoor.freeEntries nextDoor.f.group).head? = some 1 ∧ (translated nextOne [0x10000]).liveOf 0 0 nextOne.f.pc = some ⟨0, 0, 0, 0⟩ ∧
    ({ nextOne with segs := [(0, State.seg0)] } : State).liveOf 0 0 0 = none := by
  refine ⟨?_, ?_, ?_, ?_, ?_⟩ <;> decide +kernel
/-- A MIGR of fragment 0 is due to divide: the given lanes leave for home 1, in entry 1, and all the register lines are at the core. -/
def dividing (m : Mask) : State :=
  let s := one.setF { one.f with leave := some { due1 (.migr 6) with sets := [⟨0, 1, m⟩], ents := [1] } }
  s.setCore 0 { s.core 0 with lines := (List.range 258).map fun k => ⟨0, k, false⟩ }
theorem meets_AccessChecksAndMigration_parts : ([allLanes, 0xFFFF].all fun m =>
    let s := dividing m
    match s.f.leave with
    | some L => L.sets == [⟨0, 1, m⟩] && s.f.outs.isEmpty && s.f.alive && s.f.due.isNone && s.f.state == .ready && decide ((s.group 0).dev = s.fabric.toNat) &&
        (s.missingLines 0 (L.carried.1.map s.f.regs.vId ++ L.carried.2.map s.f.regs.sId)).isEmpty && (L.poisoned s.f.regs).isNone && L.acc.need == .move &&
        L.ents == [1] && !(s.frag (fragNo 0 1)).alive && fragNo 0 1 != 0 && (decide (s.f.regs.mask 0 &&& ~~~m = 0) == decide (m = allLanes))
    | none => false) = true := by decide +kernel
/-- A range with one dirty byte, at offset 256 + 3. -/
def soiled : State := reg { spm with teams := [(0, { spm.t with maps := [(0, ⟨256, 256, 0x1000, false, true, [0], [3], spm.g.rights⟩)] })] } 6 256
theorem meets_FencesQueriesAndMaps_dirty : (reg soiled 7 256).flushDue 0 256 256 = true ∧ (reg soiled 7 256).soLine 0 256 256 = none ∧
    (reg soiled 7 256).poisoned [.s 6, .s 7] = none ∧ (reg soiled 7 256).g.dev = (reg soiled 7 256).fabric.toNat ∧
    (∀ y ∈ soiled.t.maps, soiled.t.maps.find y.1 = some y.2) ∧ ((⟨256, 256, 0x1000, false, true, [0], [3], spm.g.rights⟩ : MapEnt).meets 256 256 (3 / 256)) = true ∧
    ((reg soiled 7 256).trCore 0 0 0x1000).toOption.isSome = true ∧ (leafAt (reg soiled 7 256) 0x1000).dev = soiled.fabric.toNat ∧
    soiled.leased spm.g.rights .write 0x1003 1 = true ∧ spm.flushDue 0 0x1000 0x0000020000000100 = false := by decide +kernel
/-- A fragment away from its team's device told the OVT 7. -/
theorem meets_TakesOvt : TakesOvt (foreign (.word (.done 7))) 7 ∧ TakesOvt one one.g.ovt ∧ (foreign .none).g.dev ≠ (foreign .none).fabric.toNat ∧ (foreign .none).f.grant = .none := by
  refine ⟨.inr ⟨by decide +kernel, 7, by decide +kernel, by decide⟩, .inl ⟨by decide +kernel, rfl⟩, ?_, ?_⟩ <;> decide +kernel
/-- COPY of one FP32 value from 0x2000 to slot 0 of operand memory, which the group holds. -/
def copySlot : List (Nat × Nat) := [(0, 1), (8, 0x2000), (16, 0), (24, 1), (28, 1), (40, 1), (44, 1), (48, 0x33), (49, 3)]
def slotted : State := (chain 0 copySlot).setCore 0 { one.core 0 with slots := [(0, SlotSt.claimed 0)] }
theorem meets_DataEntries_slot : atEntry slotted copySlot .copy = true ∧
    Movable slotted (slotted.cmd 9) 1 0 4 (fun _ => 0x2000) .dram (fun _ => 0x2000) 3 4 (fun _ => 0) none (fun _ => 0) := by
  refine ⟨?_, movable_one ?_ ?_ ?_ ?_ ?_ ?_ ?_ (fun h => nomatch h)⟩ <;> decide +kernel
/-- A record of queue 63 with one lease, rw, of 4 KiB at 0x2000; its list is at 0x7000. -/
def rcdLease : Nat := 2 ^ 152 + 0x7000 * 2 ^ 320
def leaseWord : Nat := 0x2000 * 2 ^ 64 + 2 * 2 ^ 62 + 4096
def written (xs : List (Nat × List Byte)) : List Host.Cell := (xs.flatMap fun x => cellsAt x.1 x.2).filter fun c => c.2 != 0
def leasing : State := { queued with mem := written [(0x6000, leBytes 64 rcdLease), (0x7000, leBytes 16 leaseWord)] ++ queued.mem }
theorem meets_LaunchSteps_leases : leasing.lqReady (leasing.lq 63) = some 0 ∧ leasing.hostBytes 0 0x6000 64 = some rcdLease ∧
    (LaunchRec.ofBits (BitVec.ofNat 512 rcdLease)).nlease = 1 ∧
    (leasing.hostBytes 0 ((LaunchRec.ofBits (BitVec.ofNat 512 rcdLease)).lease + 0) 16).map (fun z => leaseEnt (BitVec.ofNat 128 z)) = some (⟨0x2000, 4096, true⟩, false) ∧
    refusal (BitVec.ofNat 512 rcdLease) [(⟨0x2000, 4096, true⟩, false)] none 1 = none ∧ refusal (BitVec.ofNat 512 rcdLease) [(⟨0x2000, 0, true⟩, true)] none 1 ≠ none := by
  decide +kernel
/-- Grid 5 has a lease; grid 6, all its teams placed and retired, adds 5 to the counter at 0x7000. -/
def leaseGrid : State := { queued with grids := one.grids ++
  [(5, { Grid.none with alive := true, gridid := 5, leases := [⟨0x2000, 4096, true⟩] }),
   (6, { Grid.none with alive := true, placed := 1, dispatched := true, rcd := { Grid.none.rcd with done := 0x7000, inc := 5 } })] }
theorem meets_LaunchSteps_ends : leaseGrid.mayDispatch 5 1 = true ∧ (leaseGrid.grid 5).leases = [⟨0x2000, 4096, true⟩] ∧
    (∀ e ∈ leaseGrid.grids, e.2.part = 0 → e.2.before (leaseGrid.grid 5) = true → (e.2.dispatched || e.2.stopped) = true) ∧
    leaseGrid.issuerHeld (leaseGrid.grid 0) = false ∧ leaseGrid.gridDone 6 = true ∧ (leaseGrid.grid 6).stopped = false ∧ (leaseGrid.grid 6).formation = false ∧
    (leaseGrid.grid 6).rcd.done = 0x7000 ∧ ((leaseGrid.walk 0 0x7000).toOption.map fun x => (x.r, x.w, x.dev, leaseGrid.cellOf x 0x7000)) = some (true, true, 0, 0x7000) ∧
    leaseGrid.fabric = 0 ∧ leaseGrid.delivered [⟨0, .dram, 0x7000, 4, 5, 0x7000, some .add, 0⟩] = true ∧ leaseGrid.readErr 0x7000 4 = false := by decide +kernel
/-- Two fragments of a team at BARRT, one of them on device 3; and a scratchpad store of the first still in flight. -/
def gathered : State := { one with frags := [(0, { one.f with state := .barrt false }), (1, { one.f with idx := 1, dev := 3, state := .barrt true })] }
def gatheredNot : State := { gathered with net := [.store ⟨0, 0, 0, one.g.rights, 0, [⟨0, .scratch, 0, 4, 0, 0, none, 0⟩], 1, [0]⟩] }
theorem meets_WakeSteps_barrt : gathered.fragsOfTeam 0 ≠ [] ∧ (∀ e ∈ gathered.fragsOfTeam 0, e.2 = gathered.frag e.1 ∧ gathered.asleep e.1 = false) ∧
    ((gathered.fragsOfTeam 0).all fun e => match e.2.state with | .barrt _ => true | _ => false) = true ∧ gathered.net = [] ∧
    (1, gathered.frag 1) ∈ gathered.fragsOfTeam 0 ∧ (gathered.frag 1).dev ≠ gathered.fabric.toNat ∧ gathered.portShut (gathered.group 0).home 3 = false ∧
    (gatheredNot.fragsOfTeam 0).map (·.1) = [0, 1] ∧ gatheredNot.net.length = 1 ∧ one.fragsOfTeam 7 = [] ∧ one.f.state = .ready := by decide +kernel
theorem meets_WakeSteps_room : ({ linesTaken with cores := [(0, { linesTaken.core 0 with waits := [9] })] } : State).linesFit 0 2 = false ∧ linesTaken.entries 0 < 64 ∧
    lists.linesFit 0 2 = true ∧ (lists.frag 9).coreKey = 0 ∧ (frag fun f => { f with served := 16384 }).f.begun = false ∧ (frag fun f => { f with sent := 1 }).f.begun = true ∧
    ((List.range 32).all fun i => let va : DWord := 0x1000 + BitVec.ofNat 64 (8 * i)
      filling.served [⟨0, .dram, filling.cellOf (filling.leafOf 0 0 va) va, 8, 0, va, none, 0⟩]) = true := by decide +kernel
/-- A flag behind another of its core, at the port or held there; and one that no key admits. -/
theorem meets_FabricSteps_order : ({ keyed (flagMsg []) with fabIn := [flagMsg [], flagMsg []] } : State).flagBefore 1 3 9 = true ∧ (keyed (flagMsg [])).flagBefore 0 3 9 = false ∧
    ({ holding (flag [] 1) with heldFlags := [flag [] 1, flag [] 1] } : State).heldFlags.take 1 = [flag [] 1] ∧ (holding (flag [] 1)).heldFlags.take 0 = [] ∧
    ({ keyed (flagMsg [elemAt 0x1000 none]) with keyTab := [] } : State).keyOk 7 3 0 0x10#5 = false ∧
    ({ keyed (flagMsg [elemAt 0x1000 none]) with keyTab := [] } : State).fabBehind 0 (flagMsg [elemAt 0x1000 none]) = false := by decide +kernel
theorem meets_MessageSteps_ports : one.portShut 0 3 = false ∧ (one.net, one.fabIn) = ([], []) ∧ one.portShut 0 1024 = true := by decide +kernel
/-- ORV of v9 at a core with no room for the line of the register that it writes. -/
theorem meets_StepRunsTheDecodedWord_lines : linesTaken.newLines 0 0x092520D1 (.orV 1 9 18 3) = false ∧ one.newLines 0 0x092520D1 (.orV 1 9 18 3) = true := by
  decide +kernel
theorem meets_RegisterWordsChangeOnlyTheirRegisters_rounding : Rounds (.faddV 0 5 6 7) ∧ ¬Rounds (.fclassV 1 5 6) := by
  refine ⟨.inl ⟨0, 5, 6, 7, .inl rfl⟩, ?_⟩
  simp [Rounds]
/-- No request of the fragment is in flight in the states that the witnesses above use, and no walk awaits a read. -/
theorem meets_NothingBefore : NothingBefore bobIdle ∧ NothingBefore saved ∧ NothingBefore (bobIs .running false) ∧ NothingBefore (bobIs .stopped true) ∧ NothingBefore owing ∧
    NothingBefore pending4 ∧ NothingBefore xbl ∧ NothingBefore one ∧ (bobIs .running false).walkReads 0 = false ∧ (one.fuseOf elem4.home).home = true ∧ row0.f.sent = 0 ∧
    ({ bobIs .running false with remote := [remote1 (some (.bobbin 0))] } : State).walkReads 0 = true := by
  refine ⟨before_of ?_ ?_, before_of ?_ ?_, before_of ?_ ?_, before_of ?_ ?_, before_of ?_ ?_, before_of ?_ ?_, before_of ?_ ?_, before_of ?_ ?_, ?_, ?_, ?_, ?_⟩ <;>
    decide +kernel

end Sys2Proof.Test
end

/-! ### The encoding (R56 to R84): decoding and encoding are inverse to each other -/

namespace Sys2Proof.Proofs.Encoding

open Sys2Proof Sys2Proof.Laws.RoundTrip

/-! #### From fields to a word and back (R56, R6) -/

/-- R56: the place of each field of a word. -/
theorem toWord_getLsbD (x : Fields) (i : Nat) (hi : i < 32) : x.toWord.getLsbD i =
    if i < 6 then x.f.getLsbD i else if i < 12 then x.b.getLsbD (i - 6) else if i < 18 then x.a.getLsbD (i - 12) else if i < 24 then x.d.getLsbD (i - 18)
    else if i < 30 then x.maj.getLsbD (i - 24) else if i = 30 then x.p else x.c := by
  refine (BitVec.getLsbD_append ..).trans ?_
  grind

theorem ofWord_toWord (x : Fields) : Fields.ofWord x.toWord = x := by
  obtain ⟨c, p, maj, d, a, b, f⟩ := x
  simp only [Fields.ofWord, Fields.mk.injEq]
  refine ⟨toWord_getLsbD _ 31 (by decide), toWord_getLsbD _ 30 (by decide), ?_, ?_, ?_, ?_, ?_⟩ <;>
    (apply BitVec.eq_of_getLsbD_eq; intro i hi; rw [BitVec.getLsbD_extractLsb', toWord_getLsbD _ _ (by omega)]; grind)

theorem toWord_ofWord (w : Word) : (Fields.ofWord w).toWord = w := by
  apply BitVec.eq_of_getLsbD_eq
  intro i hi
  rw [toWord_getLsbD _ _ hi]
  simp only [Fields.ofWord, BitVec.getLsbD_extractLsb']
  grind

theorem bytesWord_wordBytes (w : Word) : bytesWord (wordBytes w) = w := by
  apply BitVec.eq_of_getLsbD_eq
  intro i hi
  simp only [bytesWord, wordBytes, List.foldr, BitVec.getLsbD_or, BitVec.getLsbD_shiftLeft, BitVec.getLsbD_setWidth, BitVec.getLsbD_extractLsb']
  grind

/-- A word decodes to what its fields do, with its own chain bit and park marker. -/
theorem decodeWord_eq_ok {w : Word} {t : Slot} :
    decodeWord w = .ok t ↔ decodeFields (Fields.ofWord w) = .ok t.instr ∧ t.chain = (Fields.ofWord w).c ∧ t.park = (Fields.ofWord w).p := by
  obtain ⟨c, p, i⟩ := t
  cases h : decodeFields (Fields.ofWord w) with
  | error => simp [decodeWord, h]
  | ok =>
    simp only [decodeWord, h, Except.ok.injEq, Slot.mk.injEq]
    tauto

/-! #### Instructions to words -/

/-- Every instruction that is well formed and has a word decodes from its fields: one law of `RoundTrip` for each, in the table's order. -/
theorem decodeFields_of_fields (i : Instr) : Statement i :=
  Instr.casesOn (motive := Statement) i
    nop pfx iaddS64 iaddS32 iaddV isubS64 isubS32 isubV imulS64 imulS32 imulV imulhIS64 imulhIS32 imulhIV imulhNS64 imulhNS32 imulhNV imadS64 imadS32
    imadV idivIS64 idivIS32 idivIV idivNS64 idivNS32 idivNV iremIS64 iremIS32 iremIV iremNS64 iremNS32 iremNV iminIS64 iminIS32 iminIV iminNS64
    iminNS32 iminNV imaxIS64 imaxIS32 imaxIV imaxNS64 imaxNS32 imaxNV iabsS64 iabsS32 iabsV inegS64 inegS32 inegV andS64 andS32 andV orS64 orS32 orV
    xorS64 xorS32 xorV andnS64 andnS32 andnV notS64 notS32 notV shlS64 shlS32 shlV shrS64 shrS32 shrV sarS64 sarS32 sarV rotS64 rotS32 rotV bfxIS64
    bfxIS32 bfxIV bfxNS64 bfxNS32 bfxNV bfiS64 bfiS32 bfiV popcS64 popcS32 popcV clzS64 clzS32 clzV brevS64 brevS32 brevV movS64 movS32 movV icmpS64
    icmpS32 icmpV selS64 selS32 selV leaS64 leaS32 leaV iaddImmS iaddImmV moviS moviV movhiS movhiV sread swrite shlImmS shrImmS sarImmS rotImmS
    shlImmV shrImmV sarImmV rotImmV faddV faddS fsubV fsubS fmulV fmulS ffmaV ffmaS fminV fminS fmaxV fmaxS fsgnCpyV fsgnCpyS fsgnNegV fsgnNegS
    fsgnXorV fsgnXorS fcmpV fcmpS fclassV fclassS frndV frndS redf scanfAddInc scanfAddExc scanfMinInc scanfMaxInc scanfMinExc scanfMaxExc setfmt
    getfmt setnm getnm cvtfNarrow cvtfWiden cvfi cvti pack4 unpk4 frcp frsq fsqrt fexp2 flog2 fsin fcos ftanh br brc brm call ret jtab bset join barrt
    barrtPub spawn exit park yield waitw preh ballot voteAny voteAll voteUni mpopc mfirst mand mor mxor mnot movMask laneid shflIdx shflUp shflDown
    shflXor bcast redi scaniInc scaniExc ldV stV stVNarrow stp ldS stS lds ldv sts stv fence migr homeOf spmap spflush leaseq atom atomF atp xatom
    launch lstat echain estat cbcfg cbput cbget cbwait cpy bseal bwait syncw swait wcfl mma oclaim orel msync czero crd cwr cst cstz cscl bskip
    openReg adv tend closeReg fldc cxsect cmerge cwait cursv curld xbld xbmv xbcal xbst accept tldc tldb tsetl tsamp trd trdc tstat cyc gtim gtset
    perf ovtld htld keyld tlbsd ptgen trap tret tretAt saveq timerTrap parcelDepart parcelOffer parcelArrival parcelReoffer parcelPlacement
    parcelPortIngress parcelReturn remoteRequestIngress storeRequestPerform postedOpPerform ackReturn loadSectorReturn remoteReadReturn
    splitUpdateApply registerLineFill residencyGrant turnEnd servicePassBound sfuEntryComplete mmaPassComplete msyncRelease slotClearDone mapFill
    joinFusion barrtRelease waitwWake bwaitWake swaitWake cbwaitWake cwaitWake launchAppendResume lqTailDoorbell lqEnWrite launchRecordRead
    gridDispatch teamPlace groupRetire gridRetire copyEntry gatherEntry scatterEntry bobbinEntry loopEntry brifEntry linkEntry endEntry cbStepFire
    batchComplete bobbinWalkStep bobbinFinish xbLoadProgram xbCalibrate xbProduct xbDriftReading tambLoadPerform tambSettleStart tambSampleStart
    tambSettleExpiry tambRailReached tambSampleExpiry xatomElementArrival channelToCompute channelToNormal handlerRun htldInstall wcAgeExpiry
    drainArrival orderedFlagArrival orderedFlagPerform closeMarker preemptRequest preemptEscalation restore freezeComplete pcFreezeSet pcFreezeRelease
    shadowSwap pcHomesWrite pcEnSet pcEnClear pcVfWrite pcTdataCommit registerWrite resync mailboxUnknown hostWrite hostRead portTrain deviceReset
    powerCreditWindow thermalThrottle thermalRestore thermalTrip rootBoot getVersion getCapabilities negotiateAlgorithms getDigests getCertificate
    challenge getMeasurements tileStorageError remoteReadPerform

/-- R64: only the decoding of PFX looks at the chain bit and the park marker. -/
theorem decodeFields_marks (x : Fields) (c p : Bool) (h : x.maj ≠ 0x3F#6) : decodeFields { x with c := c, p := p } = decodeFields x := by
  simp only [decodeFields, h, if_false]
  rfl

theorem decodeFields_prefix (x : Fields) (h : x.maj = 0x3F#6) (i : Instr) (hi : decodeFields x = .ok i) :
    (∃ m r a z u, i = .pfx m r a z u) ∧ x.c = false ∧ x.p = false := by
  obtain ⟨c, p, maj, d, a, b, f⟩ := x
  subst h
  rw [major3F, decode3F] at hi
  split_ifs at hi with h1 h2
  injection hi with hi
  push Not at h2
  exact ⟨⟨_, _, _, _, _, hi.symm⟩, by simpa using h2.2.2⟩

/-- The word of a well-formed instruction decodes to it. -/
theorem decodeWord_encodeWord (t : Slot) (x : Fields) (hw : t.instr.wf = true) (hx : t.instr.fields = some x)
    (hp : ∀ m r a z u, t.instr = .pfx m r a z u → t.chain = false ∧ t.park = false) :
    decodeWord ({ x with c := t.chain, p := t.park } : Fields).toWord = .ok t := by
  have hi : decodeFields x = .ok t.instr := decodeFields_of_fields t.instr hw x hx
  rw [decodeWord_eq_ok, ofWord_toWord]
  refine ⟨?_, rfl, rfl⟩
  by_cases h : x.maj = 0x3F#6
  · obtain ⟨⟨m, r, a, z, u, he⟩, hc, hq⟩ := decodeFields_prefix x h _ hi
    obtain ⟨h1, h2⟩ := hp m r a z u he
    have hx : ({ x with c := t.chain, p := t.park } : Fields) = x := by cases x; simp_all
    rw [hx, hi]
  · rw [decodeFields_marks x _ _ h, hi]

/-! #### Words to instructions -/

/-- The fields of a word without its chain bit and park marker. -/
def bare (x : Fields) : Fields := { x with c := false, p := false }

/-- What the fields `x` decode to, if they do, is a well-formed instruction whose fields they are. -/
def WordOf (x : Fields) (r : Except Reject Instr) : Prop := ∀ i, r = .ok i → i.wf = true ∧ i.fields = some (bare x)

section
variable {x y : Fields} {c : Prop} {e : Reject} {r q : Except Reject Instr}

theorem WordOf.error : WordOf x (.error e) := fun _ h => nomatch h
theorem WordOf.ok {i : Instr} (hy : i.fields = some y) (h : i.wf = true ∧ y = bare x) : WordOf x (.ok i) := by
  rintro _ ⟨⟩
  exact ⟨h.1, hy.trans (congrArg some h.2)⟩
/-- A decoder that asks for the value of a field: what is known of the field below the `else` is not needed. -/
theorem WordOf.select {_ : Decidable c} (hr : c → WordOf x r) (hq : WordOf x q) : WordOf x (if c then r else q) := by
  split_ifs with h
  exacts [hr h, hq]
/-- A decoder that refuses an operand value or a set res0 bit. -/
theorem WordOf.refuse {_ : Decidable c} (hr : ¬c → WordOf x r) : WordOf x (if c then .error e else r) := by
  split_ifs with h
  exacts [.error, hr h]
end

/-! A field is the parts that it is cut into, and the parts of a field are those it was made of: one law for each width that occurs. -/

theorem is12 (x : BitVec 1) (y : BitVec 2) (z : BitVec 3) : (x ++ y : BitVec 3) = z ↔ x = z.extractLsb' 2 1 ∧ y = z.extractLsb' 0 2 := append_eq x y z
theorem is13 (x : BitVec 1) (y : BitVec 3) (z : BitVec 4) : (x ++ y : BitVec 4) = z ↔ x = z.extractLsb' 3 1 ∧ y = z.extractLsb' 0 3 := append_eq x y z
theorem is14 (x : BitVec 1) (y : BitVec 4) (z : BitVec 5) : (x ++ y : BitVec 5) = z ↔ x = z.extractLsb' 4 1 ∧ y = z.extractLsb' 0 4 := append_eq x y z
theorem is15 (x : BitVec 1) (y : BitVec 5) (z : BitVec 6) : (x ++ y : BitVec 6) = z ↔ x = z.extractLsb' 5 1 ∧ y = z.extractLsb' 0 5 := append_eq x y z
theorem is22 (x : BitVec 2) (y : BitVec 2) (z : BitVec 4) : (x ++ y : BitVec 4) = z ↔ x = z.extractLsb' 2 2 ∧ y = z.extractLsb' 0 2 := append_eq x y z
theorem is24 (x : BitVec 2) (y : BitVec 4) (z : BitVec 6) : (x ++ y : BitVec 6) = z ↔ x = z.extractLsb' 4 2 ∧ y = z.extractLsb' 0 4 := append_eq x y z
theorem is31 (x : BitVec 3) (y : BitVec 1) (z : BitVec 4) : (x ++ y : BitVec 4) = z ↔ x = z.extractLsb' 1 3 ∧ y = z.extractLsb' 0 1 := append_eq x y z
theorem parts11 (x : BitVec 1) (y : BitVec 1) : (x ++ y : BitVec 2).extractLsb' 1 1 = x ∧ (x ++ y : BitVec 2).extractLsb' 0 1 = y := ⟨high x y, low x y⟩
theorem parts25 (x : BitVec 2) (y : BitVec 5) : (x ++ y : BitVec 7).extractLsb' 5 2 = x ∧ (x ++ y : BitVec 7).extractLsb' 0 5 = y := ⟨high x y, low x y⟩
theorem parts34 (x : BitVec 3) (y : BitVec 4) : (x ++ y : BitVec 7).extractLsb' 4 3 = x ∧ (x ++ y : BitVec 7).extractLsb' 0 4 = y := ⟨high x y, low x y⟩
theorem parts43 (x : BitVec 4) (y : BitVec 3) : (x ++ y : BitVec 7).extractLsb' 3 4 = x ∧ (x ++ y : BitVec 7).extractLsb' 0 3 = y := ⟨high x y, low x y⟩
theorem parts56 (x : BitVec 5) (y : BitVec 6) : (x ++ y : BitVec 11).extractLsb' 6 5 = x ∧ (x ++ y : BitVec 11).extractLsb' 0 6 = y := ⟨high x y, low x y⟩
theorem parts66 (x y : BitVec 6) : (x ++ y : BitVec 12).extractLsb' 6 6 = x ∧ (x ++ y : BitVec 12).extractLsb' 0 6 = y := ⟨high x y, low x y⟩
theorem parts666 (x y z : BitVec 6) : (x ++ y ++ z : BitVec 18).extractLsb' 12 6 = x ∧ (x ++ y ++ z : BitVec 18).extractLsb' 6 6 = y ∧
    (x ++ y ++ z : BitVec 18).extractLsb' 0 6 = z :=
  ⟨(inHigh (x ++ y) z 12 6 6 (by decide)).trans (high x y), (inHigh (x ++ y) z 6 6 0 (by decide)).trans (low x y), low (x ++ y) z⟩
theorem parts6666 (x y z t : BitVec 6) : (x ++ y ++ z ++ t : BitVec 24).extractLsb' 18 6 = x ∧ (x ++ y ++ z ++ t : BitVec 24).extractLsb' 12 6 = y ∧
    (x ++ y ++ z ++ t : BitVec 24).extractLsb' 6 6 = z ∧ (x ++ y ++ z ++ t : BitVec 24).extractLsb' 0 6 = t := by
  obtain ⟨h1, h2, h3⟩ := parts666 x y z
  exact ⟨(inHigh _ t 18 6 12 (by decide)).trans h1, (inHigh _ t 12 6 6 (by decide)).trans h2, (inHigh _ t 6 6 0 (by decide)).trans h3, low _ t⟩
theorem extract_extract {w : Nat} (x : BitVec w) (a n b k : Nat) (h : b + k ≤ n) : (x.extractLsb' a n).extractLsb' b k = x.extractLsb' (a + b) k := by
  apply BitVec.eq_of_getLsbD_eq
  intro i hi
  simp [hi, show b + i < n by omega, Nat.add_assoc]

/-- Every word that decodes is the word of a well-formed instruction: along the branches of the decoders, each field asked for is the one that
the instruction's encoding sets, and each operand or res0 check is the instruction's well-formedness or a zero of its encoding. -/
theorem wordOf_decodeFields (x : Fields) : WordOf x (decodeFields x) := by
  unfold decodeFields decode00 decode3F decode01 decode02 decodeVectorInt decode03 decode0C decode04 decode0D decode05 decode0E decode06 decode07 decode0F
    decodeVectorFloat decode12 decode13 decode14 decode16 decode17 decode18 decode19 decode1A decode1B decode1C decode1D decode1E decode20 decode21 decode22
    decode23 decode24 decode25 decode26 decode27 decode28 decode29 decode2A decode2B decode2C decode2D decode2E decode30 decode31 decode32 decode34 decode35
    decode36 decode37 decode38 decode39 decode3A decode3B decode3C
  repeat' with_reducible first | refine .refuse fun h => ?_ | refine .select (fun h => ?_) ?_ | exact .error
  all_goals
    refine .ok rfl ?_
    dsimp only [Instr.wf]
    simp_all [-BitVec.reduceAppend, bare, is12, is13, is14, is15, is22, is24, is31, is33, is42, is51, low14, high14, parts11, parts25, parts34, parts43,
      parts56, parts66, parts666, parts6666, extract_extract]

/-- Settles O57: the laws of the instruction words one way, the branches of the decoders the other. -/
theorem decodeAndEncodeAgree : Obligations.DecodeAndEncodeAgree := by
  refine ⟨fun t hw hf hp => ?_, fun w t h => ?_, bytesWord_wordBytes⟩
  · obtain ⟨x, hx⟩ := Option.ne_none_iff_exists'.1 hf
    exact ⟨_, by rw [encodeWord, hx]; rfl, decodeWord_encodeWord t x hw hx hp⟩
  · obtain ⟨hi, hc, hq⟩ := decodeWord_eq_ok.1 h
    obtain ⟨hw, hx⟩ := wordOf_decodeFields _ _ hi
    refine ⟨hw, ?_⟩
    rw [encodeWord, hx, Option.map_some, hc, hq]
    exact congrArg some (toWord_ofWord w)

end Sys2Proof.Proofs.Encoding

/-! ### Every instruction, event and step answers a next state (R13, R61, R340, R348) -/

namespace Sys2Proof.Proofs.Totality

open Sys2Proof Sys2Proof.Machine

/-- The outcome is a next state. -/
def Next (o : Host.Outcome State Fault Refusal) : Prop := ∃ t, o = .next t

theorem Next.next (t : State) : Next (.next t) := ⟨t, rfl⟩
theorem Next.finish (s : State) (a : Act) : Next (finish s a) := finish_next s a
theorem Next.ite {c : Prop} {_ : Decidable c} {o q : Host.Outcome State Fault Refusal} (ho : Next o) (hq : Next q) : Next (if c then o else q) := by
  split_ifs <;> assumption

/-! The words and wakes whose meaning asks first whether there is anything to finish. -/

theorem execMovV_next (w : BitVec 2) (d a b : RegNum) (s : State) : Next (execMovV w d a b s) := .ite (.finish ..) (.finish ..)

theorem wakeWord_next (s : State) (n : Nat) (w : TeamWord) (k : DWord → State → Act) : Next (s.wakeWord n w k) := by
  unfold State.wakeWord
  extract_lets f s1 s2
  clear_value s2
  refine .ite (.next _) ?_
  cases f.grant with
  | word r =>
    cases r with
    | done v => exact .finish ..
    | fault x => exact .finish ..
    | _ => exact .next _
  | refused => exact .finish ..
  | _ => exact .next _

theorem execWaitwWake_next (n : Nat) (s : State) : Next (execWaitwWake n s) := by
  unfold execWaitwWake
  split
  exacts [.ite (.finish ..) (.next _), .ite (.next _) (.finish ..), .next _, .next _]

theorem execBwaitWake_next (n : Nat) (s : State) : Next (execBwaitWake n s) := by
  unfold execBwaitWake
  split
  exacts [.ite (wakeWord_next ..) (.ite (.next _) (.finish ..)), .next _]

theorem execSwaitWake_next (n : Nat) (s : State) : Next (execSwaitWake n s) := by
  unfold execSwaitWake
  extract_lets f
  split
  exacts [.ite (wakeWord_next ..) (.ite (.finish ..) (.next _)), .next _]

theorem execCbwaitWake_next (n : Nat) (s : State) : Next (execCbwaitWake n s) := by
  unfold execCbwaitWake
  extract_lets f
  split
  · refine .ite (wakeWord_next ..) ?_
    split
    exacts [.ite (.finish ..) (.next _), .next _]
  · exact .next _

theorem execCwaitWake_next (n : Nat) (s : State) : Next (execCwaitWake n s) := by
  unfold execCwaitWake
  extract_lets f b
  split
  exacts [.ite (.next _) (.ite (.ite (.finish ..) (.next _)) (.ite (.next _) (.finish ..))), .next _]

/-- Every other arm of `exec` is the end of a word's action or is a next state as it stands. -/
theorem exec_next (i : Instr) (s : State) : Next (exec i s) := by
  cases i
  case movV w d a b => exact execMovV_next w d a b s
  case waitwWake n => exact execWaitwWake_next n s
  case bwaitWake n => exact execBwaitWake_next n s
  case swaitWake n => exact execSwaitWake_next n s
  case cbwaitWake n => exact execCbwaitWake_next n s
  case cwaitWake n => exact execCwaitWake_next n s
  all_goals first | exact .finish s _ | exact .next _

/-! Moves and steps -/

theorem issueNow_next (s : State) (n : Nat) : Next (s.issueNow n) := by
  unfold State.issueNow
  split
  exacts [exec_next _ _, .next _]

theorem perform_next (s : State) (m : Move) : Next (s.perform m) := by
  cases m with
  | issue n => exact .ite (issueNow_next s n) (.next s)
  | event i => exact .ite (exec_next i s) (.next s)
  | result n k => exact .next _
  | idle d => exact .next _
  | clocks c d => exact .next _

theorem step_next (s : State) : Next (step s) := by
  unfold step
  split
  · exact issueNow_next s _
  · split
    exacts [perform_next _ _, perform_next _ _]

/-- Settles O58: arm by arm for the instructions, and for a step by the move that it performs. -/
theorem everyStepAnswersANextState : Obligations.EveryStepAnswersANextState := ⟨exec_next, step_next⟩

end Sys2Proof.Proofs.Totality

/-! ### The machine after reset (R7, R252, R270, R288, R318, R331, R335, R364, R365) -/

namespace Sys2Proof.Proofs.Reset

open Sys2Proof Sys2Proof.Machine Sys2Proof.Claim

/-- Every memory, shadow copy and saved image of the reset state is the empty map. -/
theorem reset_canonical : Canonical State.reset := ⟨rfl, rfl, rfl, fun _ h => nomatch h⟩

/-- R331, R335: no core has counted, no array has been written, and no clock has passed. -/
theorem reset_perfCounter (n : Nat) (x : DWord) (h : State.reset.perfCounter n = some x) : x = 0 := by
  have hc : State.reset.cycles = 0 := rfl
  have hp : ∀ n, (State.reset.core State.reset.f.coreKey).perf.get 0 n = 0 := fun _ => rfl
  have hh : ∀ n, (State.reset.home State.reset.f.home).perf.get 0 n = 0 := fun _ => rfl
  have hx : ∀ k, (State.reset.xar k).writes = 0 := fun _ => rfl
  simp only [State.perfCounter, hc, hp, hh, hx, sub_self] at h
  split_ifs at h <;> exact (Option.some.inj h).symm

/-- Settles O54: each table of the reset state is empty, so that every entry reads as the default of its kind. -/
theorem resetState : Obligations.ResetState := by
  rintro _ rfl
  refine ⟨reset_canonical, fun _ => ⟨rfl, rfl⟩, rfl, fun _ => ?_, fun _ => ?_, fun _ => ?_, fun _ => ?_, fun _ => rfl, fun _ => rfl, reset_perfCounter,
    fun k => ?_, rfl, fun _ => rfl⟩
  · exact ⟨rfl, rfl, rfl, rfl, rfl, rfl, rfl, rfl, rfl, rfl, rfl, rfl, rfl, rfl, rfl, rfl⟩
  · exact ⟨rfl, rfl, rfl, rfl, rfl, rfl, rfl, rfl, rfl⟩
  · exact ⟨rfl, rfl, rfl, rfl, rfl, rfl, rfl⟩
  · exact ⟨rfl, rfl, rfl, rfl, rfl, rfl, rfl⟩
  · exact ⟨rfl, rfl, rfl, rfl⟩

end Sys2Proof.Proofs.Reset

/-! ### Writes of consecutive bytes of device memory (R6, R206, R218) -/

namespace Sys2Proof.Proofs.Bytes

open Sys2Proof Sys2Proof.Machine

theorem mem_cellsAt {key : Nat} {bs : List Byte} {c : Nat × Byte} : c ∈ cellsAt key bs ↔ ∃ i, bs[i]? = some c.2 ∧ c.1 = key + i := by
  obtain ⟨k, b⟩ := c
  simp only [cellsAt, List.mem_mapIdx, List.getElem?_eq_some_iff, Prod.mk.injEq]
  constructor
  · rintro ⟨i, hi, rfl, rfl⟩
    exact ⟨i, ⟨hi, rfl⟩, rfl⟩
  · rintro ⟨i, ⟨hi, rfl⟩, rfl⟩
    exact ⟨i, hi, rfl, rfl⟩

theorem cellsAt_concat (key : Nat) (bs : List Byte) (b : Byte) : cellsAt key (bs ++ [b]) = cellsAt key bs ++ [(key + bs.length, b)] := by
  simp [cellsAt, List.mapIdx_append]

theorem putCells_cellsAt_outside (m : KMap Byte) (key : Nat) (bs : List Byte) (k : Nat) (h : k < key ∨ key + bs.length ≤ k) :
    (putCells m (cellsAt key bs)).get 0x00#8 k = m.get 0x00#8 k := by
  refine putCells_other _ _ _ fun c hc hk => ?_
  obtain ⟨i, hi, he⟩ := mem_cellsAt.1 hc
  obtain ⟨hlt, -⟩ := List.getElem?_eq_some_iff.1 hi
  omega

theorem putCells_cellsAt_inside (m : KMap Byte) (key : Nat) (bs : List Byte) (i : Nat) (x : Byte) (h : bs[i]? = some x) :
    (putCells m (cellsAt key bs)).get 0x00#8 (key + i) = x := by
  induction bs using List.reverseRecOn with
  | nil => simp at h
  | append_singleton bs b ih =>
    rw [cellsAt_concat]
    by_cases hi : i < bs.length
    · rw [List.getElem?_append_left hi] at h
      rw [putCells, List.foldl_append, List.foldl_cons, List.foldl_nil, KMap.get_put, if_neg (by omega)]
      exact ih h
    · obtain ⟨hlt, hx⟩ := List.getElem?_eq_some_iff.1 h
      obtain rfl : i = bs.length := by simp at hlt; omega
      simp at hx
      rw [hx, putCells_last]

/-- Places of device memory that no memory key is named by are their own addresses. -/
theorem cellsAt_mod (key : Nat) (bs : List Byte) (h : key + bs.length ≤ 2 ^ 40) :
    ((cellsAt key bs).map fun c : Nat × Byte => (c.1 % 2 ^ 40, c.2)) = cellsAt key bs := by
  refine (List.map_congr_left fun c hc => ?_).trans (List.map_id _)
  obtain ⟨i, hi, he⟩ := mem_cellsAt.1 hc
  obtain ⟨hlt, -⟩ := List.getElem?_eq_some_iff.1 hi
  exact Prod.ext (Nat.mod_eq_of_lt (by omega)) rfl

/-- R218: bytes of which none lies in a unit in error cover no such unit in part. -/
theorem badUnits_readable (s : State) (key : Nat) (bs : List Byte) (h : ∀ i, i < bs.length → s.readErr (key + i) 1 = false) :
    s.badUnits (cellsAt key bs) = [] := by
  refine List.filter_eq_nil_iff.2 fun u hu hb => ?_
  simp only [Bool.and_eq_true, Bool.not_eq_true', List.isEmpty_eq_false_iff_exists_mem, List.mem_filter, List.mem_map, beq_iff_eq] at hb
  obtain ⟨⟨_, ⟨c, hc, rfl⟩, hk⟩, -⟩ := hb
  obtain ⟨i, hi, he⟩ := mem_cellsAt.1 hc
  obtain ⟨hlt, -⟩ := List.getElem?_eq_some_iff.1 hi
  have := List.any_eq_false.1 (h i hlt) u hu
  rw [he] at hk
  simp only [decide_eq_true_eq] at this
  omega

/-- R218: while no unit in error is covered in part, every byte is written. -/
theorem writeMem_mem (s : State) (cells : List (Nat × Byte)) (h : s.badUnits cells = []) :
    (s.writeMem cells).mem = putCells s.mem (cells.map fun c : Nat × Byte => (c.1 % 2 ^ 40, c.2)) := by
  simp [State.writeMem, State.setMem, h]

section
variable (s : State) (key : Nat) (bs : List Byte) (hk : key + bs.length ≤ 2 ^ 40) (hb : s.badUnits (cellsAt key bs) = [])
include hk hb

theorem writeMem_byte_outside (k : Nat) (h : k < key ∨ key + bs.length ≤ k) : (s.writeMem (cellsAt key bs)).byte k = s.byte k := by
  rw [State.byte, writeMem_mem s _ hb, cellsAt_mod key bs hk]
  exact putCells_cellsAt_outside _ _ _ _ h

theorem writeMem_byte_inside (i : Nat) (x : Byte) (h : bs[i]? = some x) : (s.writeMem (cellsAt key bs)).byte (key + i) = x := by
  rw [State.byte, writeMem_mem s _ hb, cellsAt_mod key bs hk]
  exact putCells_cellsAt_inside _ _ _ _ _ h
end

@[simp] theorem length_leBytes (n x : Nat) : (leBytes n x).length = n := by simp [leBytes]

/-! Little-endian values (R6). -/

theorem leNat_lt (bs : List Byte) : leNat bs < 256 ^ bs.length := by
  induction bs with
  | nil => exact Nat.one_pos
  | cons b bs ih =>
    have := b.isLt
    simp only [leNat, List.foldr_cons, List.length_cons, pow_succ] at *
    omega

theorem leNat_append (bs cs : List Byte) : leNat (bs ++ cs) = leNat bs + 256 ^ bs.length * leNat cs := by
  induction bs with
  | nil => simp [leNat]
  | cons b bs ih =>
    simp only [leNat, List.cons_append, List.foldr_cons, List.length_cons, pow_succ] at *
    rw [ih]
    ring

theorem leBytes_succ (n x : Nat) : leBytes (n + 1) x = BitVec.ofNat 8 x :: leBytes n (x / 256) := by
  simp [leBytes, List.range_succ_eq_map, Function.comp_def, pow_succ, Nat.div_div_eq_div_mul, Nat.mul_comm]

theorem leNat_leBytes (n x : Nat) : leNat (leBytes n x) = x % 256 ^ n := by
  induction n generalizing x with
  | zero => simp [leBytes, leNat, Nat.mod_one]
  | succ n ih =>
    have hcons : leNat (leBytes (n + 1) x) = x % 256 + 256 * leNat (leBytes n (x / 256)) := by
      rw [leBytes_succ]
      exact congrArg (· + 256 * leNat (leBytes n (x / 256))) (BitVec.toNat_ofNat x 8)
    rw [hcons, ih, pow_succ', Nat.mod_mul]

end Sys2Proof.Proofs.Bytes

/-! ### The host link, power, boot and attestation (R361, R363, R366, R371 to R375) -/

namespace Sys2Proof.Proofs.HostSide

open Sys2Proof Sys2Proof.Machine Sys2Proof.Proofs.Bytes

/-! #### BAR2 (R218, R361) -/

/-- R361: bytes lie in the window of BAR2, in an enabled home. -/
theorem inWindow_iff (s : State) (home addr n : Nat) :
    s.inWindow home addr n = true ↔ home = s.window ∧ home < 12 ∧ addr + n ≤ 2 ^ 36 ∧ (s.fuseOf home).home = true := by
  simp [State.inWindow, and_assoc]

/-- Device memory ends below the places that name a memory key. -/
theorem dramKey_le {home addr n : Nat} (hh : home < 12) (ha : addr + n ≤ 2 ^ 36) : dramKey home addr + n ≤ 2 ^ 40 := by
  unfold dramKey
  omega

theorem hostWrite_inside (s : State) (home addr : Nat) (bs : List Byte) (hw : s.inWindow home addr bs.length = true)
    (he : ∀ i, i < bs.length → s.readErr (dramKey home addr + i) 1 = false) :
    ∃ u, exec (.hostWrite home addr bs) s = .next u ∧ u.scratch = s.scratch ∧
      (∀ k, k < dramKey home addr ∨ dramKey home addr + bs.length ≤ k → u.byte k = s.byte k) ∧
      ∀ i x, bs[i]? = some x → u.byte (dramKey home addr + i) = x := by
  have hb := badUnits_readable s (dramKey home addr) bs he
  obtain ⟨-, hh, ha, -⟩ := (inWindow_iff ..).1 hw
  refine ⟨s.writeMem (cellsAt (dramKey home addr) bs), congrArg Host.Outcome.next (if_pos ⟨hw, hb⟩), rfl, ?_, ?_⟩
  · exact writeMem_byte_outside s _ bs (dramKey_le hh ha) hb
  · exact writeMem_byte_inside s _ bs (dramKey_le hh ha) hb

theorem hostWrite_outside (s : State) (home addr : Nat) (bs : List Byte) (hw : ¬s.inWindow home addr bs.length = true) :
    exec (.hostWrite home addr bs) s = .next s :=
  congrArg Host.Outcome.next (if_neg fun h => hw h.1)

theorem hostRead_inside (s : State) (home addr count : Nat) (hw : s.inWindow home addr count = true) :
    ∃ bad, exec (.hostRead home addr count) s =
        .next { s with hostOut := s.hostOut ++ [.read ((List.range count).map fun i => s.byte (dramKey home addr + i)) bad] } ∧
      ∀ i, i ∈ bad ↔ i < count ∧ s.readErr (dramKey home addr + i) 1 = true := by
  obtain ⟨-, hh, ha, -⟩ := (inWindow_iff ..).1 hw
  have hle := dramKey_le hh ha
  have hbytes : s.bytesIn .dram (dramKey home addr) count = (List.range count).map fun i => s.byte (dramKey home addr + i) :=
    List.map_congr_left fun i hi => State.dramByte_plain s _ (by have := List.mem_range.1 hi; omega)
  refine ⟨(List.range count).filter fun i => s.readErr (dramKey home addr + i) 1, ?_, by simp⟩
  rw [← hbytes]
  exact congrArg Host.Outcome.next (if_pos hw)

theorem hostRead_outside (s : State) (home addr count : Nat) (hw : ¬s.inWindow home addr count = true) :
    exec (.hostRead home addr count) s = .next s :=
  congrArg Host.Outcome.next (if_neg hw)

/-! #### The mailbox and RESYNC (R363, R373, R374) -/

/-- R363: a code other than RESYNC's. -/
theorem mailboxUnknown_eq (s : State) (code : BitVec 8) (hc : code ≠ 0x01#8) :
    exec (.mailboxUnknown code) s = .next (if s.mbStat = 1 then { s with mbRefused := true }
      else { s with mbCmd := code.setWidth 64, mbStat := 3, hostOut := s.hostOut ++ [.msix 0 2] }) := by
  have hf : ¬fld (code.setWidth 64 : DWord) 0 8 = 1 := fun h => hc <| by
    apply BitVec.eq_of_toNat_eq
    have := code.isLt
    simp only [fld, BitVec.extractLsb'_toNat, BitVec.toNat_setWidth, Nat.shiftRight_zero] at h
    simp only [BitVec.toNat_ofNat]
    omega
  refine congrArg Host.Outcome.next ((if_neg hc).trans ?_)
  rw [State.mailbox, if_neg hf]
  rfl

/-- Records of one length in a row. -/
theorem length_records (n k : Nat) (f : Nat → List Byte) (h : ∀ i, (f i).length = k) : ((List.range n).flatMap f).length = n * k := by
  simp [List.length_flatMap, h]

theorem length_fuseRecord (u : Fuse) : u.record.length = 128 := by
  simp only [Fuse.record, List.length_append, List.length_cons, List.length_nil, length_leBytes, List.length_replicate]
theorem length_fuseMap (s : State) : s.fuseMap.length = 2048 := by
  simp only [State.fuseMap, List.length_append, length_records 12 128 _ fun h => length_fuseRecord (s.fuseOf h), List.length_replicate]
theorem length_partRecord (s : State) (k : Nat) : (s.partRecord k).length = 64 := by
  simp only [State.partRecord, List.length_append, List.flatMap_cons, List.flatMap_nil, List.length_nil, length_leBytes, List.length_replicate]
theorem length_homeRec (s : State) (h : Nat) : (s.homeRec h).length = 16 := by
  unfold State.homeRec
  split_ifs
  · exact List.length_replicate
  · exact length_leBytes ..
/-- R373: the length that the summary's header gives. -/
theorem length_summary (s : State) : s.summary.length = 0xB1000 := by
  unfold State.summary
  rw [List.length_append, List.length_append, List.length_append, List.length_append, List.length_append, List.length_append, List.length_append,
    length_records 65536 8, length_records 4096 32, length_records 4096 16, length_fuseMap, length_records 12 16 _ (length_homeRec s), length_records 64 16,
    length_records 12 64 _ (length_partRecord s), length_leBytes]
  all_goals intro i; simp only [List.length_append, length_leBytes]
/-- R373: the summary begins with its format, 1, whose byte no other field of the header reaches. -/
theorem summary_zero (s : State) : s.summary[0]? = some 0x01#8 := by
  unfold State.summary
  simp only [List.append_assoc]
  rw [List.getElem?_append_left (by rw [length_leBytes]; decide), leBytes, List.getElem?_map, List.getElem?_range (by decide)]
  refine congrArg some (BitVec.eq_of_toNat_eq ?_)
  dsimp only
  rw [pow_zero, Nat.div_one, BitVec.toNat_ofNat, BitVec.toNat_ofNat, Nat.mod_mod_of_dvd _ (pow_dvd_pow 2 (show 8 ≤ 512 by decide))]
  simp only [BitVec.toNat_ofNat]
  omega

/-- R363, R373: the command that runs ends, with what it found in its status. -/
theorem resync_eq (s : State) (h : s.mbStat = 1) :
    ∃ u, exec .resync s = .next u ∧ u.hostOut = s.hostOut ++ [.msix 0 2] ∧ u.mbStat = (if s.mbRefused = true then 4 else if s.mbAddrOk = true then 2 else 3) ∧
      u.resyncs = (if s.mbAddrOk = true then s.resyncs + 1 else s.resyncs) ∧
      u.mem = (if s.mbAddrOk = true then s.writeMem (cellsAt (dramKey (fld s.mbAddr 60 4) (fld s.mbAddr 0 36)) s.summary) else s).mem := by
  refine ⟨_, congrArg Host.Outcome.next (if_pos h), ?_, rfl, rfl, rfl⟩
  cases hok : s.mbAddrOk <;> simp [State.msixPf, State.writeMem, State.setMem]

/-- R373: where MB.ADDR names a buffer, the summary stands in it, and nowhere else. -/
theorem resync_buffer (s u : State) (hok : s.mbAddrOk = true) (he : s.memErr = [])
    (hu : u.mem = (s.writeMem (cellsAt (dramKey (fld s.mbAddr 60 4) (fld s.mbAddr 0 36)) s.summary)).mem) :
    let buf := dramKey (fld s.mbAddr 60 4) (fld s.mbAddr 0 36)
    u.byte buf = 1 ∧ ∀ k, k < buf ∨ buf + 0xB1000 ≤ k → u.byte k = s.byte k := by
  intro buf
  obtain ⟨hh, ha⟩ : fld s.mbAddr 60 4 < 12 ∧ fld s.mbAddr 0 36 + 0xB1000 ≤ 2 ^ 36 := by
    simp only [State.mbAddrOk, Bool.and_eq_true, decide_eq_true_eq] at hok
    exact hok.2
  have hk : buf + s.summary.length ≤ 2 ^ 40 := by
    rw [length_summary]
    exact dramKey_le hh ha
  have hb : s.badUnits (cellsAt buf s.summary) = [] := by simp [State.badUnits, he]
  have hbyte : ∀ k, u.byte k = (s.writeMem (cellsAt buf s.summary)).byte k := fun k => by rw [State.byte, hu]; rfl
  refine ⟨?_, fun k hout => ?_⟩
  · have h0 := writeMem_byte_inside s buf s.summary hk hb 0 _ (summary_zero s)
    rw [Nat.add_zero] at h0
    exact (hbyte buf).trans h0
  · rw [hbyte]
    exact writeMem_byte_outside s buf s.summary hk hb k (by rwa [length_summary])

/-! #### Reset, power and temperature (R331, R338, R375) -/

/-- A key keeps its value where the entries that go are others, and what stays is changed by `f`. -/
theorem get_map_filter {α : Type} (d : α) (m : KMap α) (p : α → Bool) (f : α → α) (k : Nat) (hd : p d = false) (h : p (m.get d k) = true) :
    KMap.get d ((m.filter fun e => p e.2).map fun e : Nat × α => (e.1, f e.2)) k = f (m.get d k) := by
  induction m with
  | nil => simp [KMap.get, hd] at h
  | cons e r ih =>
    obtain ⟨k', y⟩ := e
    by_cases hk : k = k'
    · subst hk
      simp only [KMap.get, if_true] at h ⊢
      simp [h, KMap.get]
    · simp only [KMap.get, hk, if_false] at h ⊢
      rw [List.filter_cons]
      split_ifs
      · simpa [KMap.get, hk] using ih h
      · exact ih h

theorem deviceReset_xar (s : State) (k : Nat) (h : (s.xar k).writes ≠ 0) :
    KMap.get Xar.fresh ((s.xars.filter fun x => x.2.writes != 0).map fun (x : Nat × Xar) => (x.1, { Xar.fresh with writes := x.2.writes })) k =
      { Xar.fresh with writes := (s.xar k).writes } :=
  get_map_filter Xar.fresh s.xars (fun x => x.writes != 0) (fun x => { Xar.fresh with writes := x.writes }) k rfl (by simpa [State.xar] using h)

theorem thermalThrottle_eq (s : State) :
    exec .thermalThrottle s = .next { s with thermal := if s.thermal = .normal then .throttled else s.thermal } := by
  refine congrArg Host.Outcome.next ?_
  split_ifs <;> rfl
theorem thermalRestore_eq (s : State) :
    exec .thermalRestore s = .next { s with thermal := if s.thermal = .throttled then .normal else s.thermal } := by
  refine congrArg Host.Outcome.next ?_
  split_ifs <;> rfl
/-- R375: after a trip no fragment issues. -/
theorem mayIssue_tripped (s : State) (h : s.thermal = .tripped) (n : Nat) : s.mayIssue n = false := by
  simp [State.mayIssue, State.canIssue, h]

/-- Settles O53, clause by clause with the lemmas above. -/
theorem hostAndPowerSteps : Obligations.HostAndPowerSteps := by
  intro s home addr count port idx bs code ext inside key h half tells U buf
  have hin : ∀ n, inside n ↔ s.inWindow home addr n = true := fun n => (inWindow_iff s home addr n).symm
  refine ⟨fun hw he => hostWrite_inside s home addr bs ((hin _).1 hw) he, fun hw => hostWrite_outside s home addr bs (mt (hin _).2 hw),
    fun hw => hostRead_inside s home addr count ((hin _).1 hw), fun hw => hostRead_outside s home addr count (mt (hin _).2 hw),
    fun hc hs => (mailboxUnknown_eq s code hc).trans (by rw [if_neg hs]), fun hc hs => (mailboxUnknown_eq s code hc).trans (by rw [if_pos hs]),
    fun hs => congrArg Host.Outcome.next (if_neg hs), fun hs => ?_, fun hp hh hq => congrArg Host.Outcome.next (if_pos ⟨hp, hh, hq⟩), fun hp => congrArg Host.Outcome.next (if_neg ?_),
    ⟨_, rfl, rfl, rfl, rfl, rfl, rfl, rfl, rfl, rfl, rfl, rfl, rfl, rfl, rfl, rfl, rfl, rfl, rfl, rfl, rfl, rfl, rfl, rfl, rfl, rfl, rfl, rfl, rfl, rfl, rfl,
      deviceReset_xar s⟩,
    fun hh => congrArg Host.Outcome.next (if_neg (by omega)), thermalThrottle_eq s, thermalRestore_eq s, rfl, mayIssue_tripped s, rfl, rfl, rfl, rfl, rfl, rfl, rfl,
    fun h1 h4 => congrArg Host.Outcome.next (if_pos ⟨h1, h4⟩), rfl, rfl, rfl, fun hi => congrArg Host.Outcome.next (if_neg (by omega))⟩
  · obtain ⟨u, hu, ho, hs', hr, hm⟩ := resync_eq s hs
    refine ⟨u, hu, ho, hs', fun hok => by simpa [hok] using hm, fun hok he => ?_⟩
    rw [if_pos hok] at hr hm
    obtain ⟨h1, h2⟩ := resync_buffer s u hok he hm
    exact ⟨h1, hr, h2⟩
  · rintro ⟨h1, h2, h3⟩
    rcases hp with hp | hp | hp
    · omega
    · exact absurd h2 (by simp [U] at hp; simp [hp])
    · exact absurd h3 (by simp [U] at hp; simp [hp])

end Sys2Proof.Proofs.HostSide

/-! ### Partition control (R272, R314, R318, R325, R356, R357, R361, R362, R364, R365) -/

namespace Sys2Proof.Proofs.PartControl

open Sys2Proof Sys2Proof.Machine

/-! #### What draining lines and taking homes leaves: device memory and the partition control registers -/

/-- A part of the state that every step of a run leaves is left by the run. -/
theorem foldl_frame {β γ : Type} (p : State → γ) (f : State → β → State) (h : ∀ s b, p (f s b) = p s) (l : List β) (s : State) : p (l.foldl f s) = p s := by
  induction l generalizing s with
  | nil => rfl
  | cons b l ih => exact (ih _).trans (h s b)

/-- Device memory and the partition control registers. -/
def memParts (s : State) : List Host.Cell × KMap Part := (s.mem, s.parts)

theorem memParts_pathFor (s : State) (core : Nat) (r : Rights) (dev : Nat) : memParts (s.pathFor core r dev) = memParts s := by
  unfold State.pathFor
  dsimp only
  split
  · rfl
  · split
    · split_ifs <;> rfl
    · rfl

theorem memParts_countPath (s : State) (core : Nat) (r : Rights) (dev path : Nat) : memParts (s.countPath core r dev path) = memParts s := by
  unfold State.countPath
  split
  · refine Eq.trans ?_ (memParts_pathFor s core r dev)
    dsimp only
    split_ifs <;> rfl
  · rfl

theorem memParts_toPort (s : State) (home dev : Nat) (m refused : FabMsg) : memParts (s.toPort home dev m refused) = memParts s := by
  unfold State.toPort
  split_ifs <;> rfl

theorem memParts_fabSend (s : State) (core : Nat) (r : Rights) (dev : Nat) (kind : BitVec 5) (es : List Elem) (owners : List Nat) (wc so : Bool) (line : Nat)
    (asker : Option Asker) (bnd : Bool) : memParts (s.fabSend core r dev kind es owners wc so line asker bnd) = memParts s :=
  (memParts_toPort ..).trans (memParts_countPath s.newId.2 core r dev _)

theorem memParts_drainLine (s : State) (core : Nat) (l : WcLine) : memParts (s.drainLine core l) = memParts s := by
  unfold State.drainLine
  split
  · rfl
  · exact memParts_fabSend ..

theorem memParts_drainPart (s : State) (part : Nat) : memParts (s.drainPart part) = memParts s := by
  unfold State.drainPart
  refine foldl_frame memParts _ (fun s c => ?_) _ s
  exact foldl_frame memParts _ (fun s l => memParts_drainLine s c.1 l) _ s

theorem memParts_erase (s : State) (homes : List Nat) : memParts (s.erase homes) = memParts s := by
  unfold State.erase
  dsimp only
  rw [foldl_frame memParts, foldl_frame memParts]
  all_goals exact fun _ _ => rfl

theorem memParts_takeHomes (s : State) (part : Nat) (m : BitVec 12) : memParts (s.takeHomes part m) = memParts s := by
  unfold State.takeHomes
  dsimp only
  rw [foldl_frame memParts, foldl_frame memParts, memParts_erase]
  all_goals exact fun _ _ => rfl

/-! #### Writes of PC.CTL (R362, R365) -/

/-- R362: the overlap that `State.overlaps` looks for. -/
theorem overlaps_iff (s : State) (k : Nat) (m : BitVec 12) :
    s.overlaps k m = true ↔ ∃ q, q < 12 ∧ q ≠ k ∧ (s.part q).en = true ∧ (s.part q).homes &&& m ≠ 0 := by
  simp [State.overlaps, and_assoc]

/-- R365: the homes that a write names are taken. -/
def MayTake (s : State) (k : Nat) (m : BitVec 12) : Prop :=
  m = (s.part k).homes ∨ ((s.part k).en = false ∧ s.permits m = true ∧ ¬∃ q, q < 12 ∧ q ≠ k ∧ (s.part q).en = true ∧ (s.part q).homes &&& m ≠ 0)

theorem mayTake_iff (s : State) (k : Nat) (m : BitVec 12) : MayTake s k m ↔ ¬(m ≠ (s.part k).homes ∧ s.homesOk k m = false) := by
  rw [MayTake, ← overlaps_iff]
  unfold State.homesOk
  cases (s.part k).en <;> cases s.permits m <;> cases s.overlaps k m <;> simp

theorem writeCtl_refused (s : State) (k : Nat) (v : DWord) (hk : k < 12) (h : ¬MayTake s k (ctlHomes v)) :
    s.writeCtl k v = s.setPart k { s.part k with badshape := true } := by
  rw [mayTake_iff, not_not] at h
  exact (if_neg (by omega)).trans (if_pos h)

theorem writeCtl_taken (s : State) (k : Nat) (v : DWord) (hk : k < 12) (h : MayTake s k (ctlHomes v)) : s.writeCtl k v = s.setCtl k v := by
  rw [mayTake_iff] at h
  exact (if_neg (by omega)).trans (if_neg h)

/-- R365: the register as a write that is taken leaves it. -/
def ctlPart (s : State) (k : Nat) (v : DWord) : Part :=
  let p := s.part k
  { p with
    ovt := v.extractLsb' 36 16, wcAge := ctlAge v, vf := s.vfAfter k v, homes := ctlHomes v
    badshape := if ctlHomes v = p.homes then p.badshape else false
    swapping := p.swapping || v.getLsbD 3, freeze := v.getLsbD 1, frozen := p.frozen && v.getLsbD 1, en := s.enAfter k v (ctlHomes v) }

/-- R272, R357, R365: beside the register a write that is taken changes units and lines, not device memory. -/
theorem memParts_setCtl (s : State) (k : Nat) (v : DWord) : memParts (s.setCtl k v) = (s.mem, s.parts.ins k (ctlPart s k v)) := by
  have key : ∀ t : State, memParts t = memParts s → memParts (t.setPart k { t.part k with
      ovt := v.extractLsb' 36 16, wcAge := ctlAge v, vf := s.vfAfter k v, homes := ctlHomes v
      badshape := if ctlHomes v = (s.part k).homes then (s.part k).badshape else false
      swapping := (s.part k).swapping || v.getLsbD 3, freeze := v.getLsbD 1, frozen := (s.part k).frozen && v.getLsbD 1, en := s.enAfter k v (ctlHomes v) }) =
      (s.mem, s.parts.ins k (ctlPart s k v)) := by
    intro t ht
    obtain ⟨hm, hp⟩ := Prod.mk.inj ht
    simp only [memParts, State.setPart, State.part, ctlPart, hm, hp]
  have taken : memParts (if ctlHomes v = (s.part k).homes ∧ ((s.part k).en = true ∨ s.enAfter k v (ctlHomes v) = false) then s else s.takeHomes k (ctlHomes v)) =
      memParts s := by
    split_ifs
    · rfl
    · exact memParts_takeHomes s k _
  unfold State.setCtl
  extract_lets p m en s1 p1 s2
  by_cases h : v.getLsbD 3 = true
  · rw [if_pos h, memParts_drainPart]
    exact key s1 taken
  · rw [if_neg h]
    exact key s1 taken

/-- R365: what a write of PC.CTL that is taken leaves in device memory and in its register. -/
theorem setCtl_mem_part (s : State) (k : Nat) (v : DWord) : (s.setCtl k v).mem = s.mem ∧ (s.setCtl k v).part k = ctlPart s k v := by
  obtain ⟨hm, hp⟩ := Prod.mk.inj (memParts_setCtl s k v)
  exact ⟨hm, by rw [State.part, hp, KMap.get_ins_same]⟩

/-- R1, R365: PC.VF after a write. -/
theorem vfAfter_cases (s : State) (k : Nat) (v : DWord) :
    (ctlVf v = 0 → s.vfAfter k v = 0) ∧ (s.functions < (ctlVf v).toNat → s.vfAfter k v = (s.part k).vf) ∧
      (ctlVf v ≠ 0 → (ctlVf v).toNat ≤ s.functions →
        s.vfAfter k v = if (List.range 12).any (fun q => q != k && (s.part q).vf == ctlVf v) = true then (s.part k).vf else ctlVf v) := by
  refine ⟨fun h => if_pos h, fun h => ?_, fun h hf => ?_⟩
  · have h0 : ctlVf v ≠ 0 := fun h0 => by simp [h0] at h
    exact (if_neg h0).trans (if_pos (.inl h))
  · refine (if_neg h).trans ?_
    simp only [Nat.not_lt.mpr hf, false_or]

/-- R362, R365: PC.EN after a write. -/
theorem enAfter_cases (s : State) (k : Nat) (v : DWord) (m : BitVec 12) :
    (v.getLsbD 0 = true → m = 0 → s.enAfter k v m = (s.part k).en) ∧ (v.getLsbD 0 = true → m ≠ 0 → s.overlaps k m = false → s.enAfter k v m = true) ∧
      (v.getLsbD 0 = false → s.enAfter k v m = ((s.part k).en && s.busyPart k)) := by
  refine ⟨fun h hm => (if_pos h).trans (by simp [hm]), fun h hm ho => (if_pos h).trans (by simpa [ho] using .inr hm), fun h => if_neg ?_⟩
  rw [h]
  exact Bool.false_ne_true

/-! #### Commits of table entries (R318, R325, R364) -/

/-- R364: what an entry of the address-space table comes to. -/
theorem commitEntry_space (s : State) (k : Nat) (tidx : DWord) (e : BitVec 256) (h : tidx.getLsbD 63 = false) :
    (s.commitEntry k tidx e).segs = s.segs ∧ (fld e 184 4 ≠ k → (s.commitEntry k tidx e).asTab = s.asTab) ∧
      (fld e 184 4 = k → (s.commitEntry k tidx e).asEnt (fld tidx 0 16) = e ∧
        ∀ j, j ≠ fld tidx 0 16 → (s.commitEntry k tidx e).asEnt j = s.asEnt j) := by
  have he : s.commitEntry k tidx e = if fld e 184 4 ≠ k then s else { s with asTab := s.asTab.put 0 (fld tidx 0 16) e } :=
    if_neg (by rw [h]; exact Bool.false_ne_true)
  rw [he]
  refine ⟨by split_ifs <;> rfl, fun hn => by rw [if_pos hn], fun hk => ?_⟩
  rw [if_neg (not_not.mpr hk)]
  exact ⟨(KMap.get_put ..).trans (if_pos rfl), fun j hj => (KMap.get_put ..).trans (if_neg hj)⟩

/-- R364: what an entry of the code-segment table changes, and when it is ignored. -/
theorem commitEntry_segment (s : State) (k : Nat) (tidx : DWord) (e : BitVec 256) (h : tidx.getLsbD 63 = true) :
    (s.commitEntry k tidx e).asTab = s.asTab ∧
      ((s.asEnt (fld e 48 16)).getLsbD 191 = false ∨ fld (s.asEnt (fld e 48 16)) 184 4 ≠ k ∨ 1024 ≤ fld tidx 0 16 → (s.commitEntry k tidx e).segs = s.segs) := by
  unfold State.commitEntry
  dsimp only
  rw [if_pos h]
  refine ⟨by split_ifs <;> rfl, fun hr => ?_⟩
  rw [if_pos (by tauto)]

theorem commitEntry_memParts (s : State) (k : Nat) (tidx : DWord) (e : BitVec 256) : memParts (s.commitEntry k tidx e) = memParts s := by
  unfold State.commitEntry
  dsimp only
  split_ifs <;> rfl

/-! #### Registers of a partition control set in BAR0 (R361, R364) -/

section
variable (s : State) (k : Nat) (hk : k < 12) (off : Nat) (ho : off < 4096)
include hk ho

/-- R361: where BAR0 has a partition's registers. -/
theorem registerWrite_part (v : DWord) : exec (.registerWrite 0 (0x200000 + 4096 * k + off) v) s = .next (s.writePart k off v) := by
  have hset : (0x200000 + 4096 * k + off - 0x200000) / 4096 = k := by omega
  have hoff : (0x200000 + 4096 * k + off - 0x200000) % 4096 = off := by omega
  refine congrArg Host.Outcome.next ((if_neg (Nat.not_lt_zero _)).trans ?_)
  rw [State.writeBar0, if_pos rfl, if_neg (by omega), if_neg (by omega), if_pos (by omega), hset, hoff]

theorem readBar0_part : s.readBar0 0 (0x200000 + 4096 * k + off) = s.readPart k off := by
  have hset : (0x200000 + 4096 * k + off - 0x200000) / 4096 = k := by omega
  have hoff : (0x200000 + 4096 * k + off - 0x200000) % 4096 = off := by omega
  rw [State.readBar0, if_pos rfl, if_neg (by omega), if_neg (by omega), if_pos (by omega), hset, hoff]
end

theorem eqLog_eq (v : DWord) : eqLog v = if fld v 0 5 = 0 then 0 else if fld v 0 5 < 5 then 5 else if 20 < fld v 0 5 then 20 else v.setWidth 5 := by
  have h : BitVec.ofNat 5 (fld v 0 5) = v.setWidth 5 := BitVec.eq_of_toNat_eq (by simp [fld])
  rw [← h]
  rfl

theorem ite_bne {n : Nat} {α : Type} (a b : BitVec n) (x y : α) : (if (a != b) = true then x else y) = if a = b then y else x := by
  by_cases h : a = b <;> simp [h]

theorem ite_not_bool {α : Type} (b : Bool) (x y : α) : (if (!b) = true then x else y) = if b = true then y else x := by
  cases b <;> rfl

/-- Settles O52: PC.CTL by whether its homes are taken, the commits by their table, and the registers by their place in BAR0. -/
theorem partitionControl : Obligations.PartitionControl := by
  intro s k fn v p m e i steps clash mayTake later now functions reads reg hk
  have hclash : clash ↔ s.overlaps k m = true := (overlaps_iff s k m).symm
  have run : ∀ x ∈ steps, exec x.1 s = .next (if x.2 = true then s.writeCtl k v else s) := by
    intro x hx
    simp only [steps, List.mem_cons, List.not_mem_nil, or_false] at hx
    rcases hx with rfl | rfl | rfl | rfl | rfl | rfl | rfl
    · exact congrArg Host.Outcome.next (ite_bne ..).symm
    · rfl
    · exact congrArg Host.Outcome.next (ite_not_bool ..).symm
    · exact congrArg Host.Outcome.next (ite_bne ..).symm
    · rfl
    · exact congrArg Host.Outcome.next (ite_not_bool ..).symm
    · rfl
  refine ⟨fun x hx h => by rw [run x hx, h]; rfl, fun x hx h ht => ?_, fun x hx h ht => ?_, ?_, ?_, ?_, ?_, ?_, ?_, ?_, ?_, ?_, ?_, ?_, ?_,
    fun hf off => congrArg Host.Outcome.next (if_pos hf)⟩
  · rw [run x hx, if_pos h, writeCtl_refused s k v hk ht]
  · obtain ⟨hm, hp⟩ := setCtl_mem_part s k v
    obtain ⟨v1, v2, v3⟩ := vfAfter_cases s k v
    obtain ⟨e1, e2, e3⟩ := enAfter_cases s k v m
    refine ⟨s.setCtl k v, by rw [run x hx, if_pos h, writeCtl_taken s k v hk ht], hm, ?_⟩
    rw [hp]
    exact ⟨rfl, rfl, v1, v2, v3, e1, fun h0 h1 hc => e2 h0 h1 (by simpa [hclash] using hc), e3⟩
  · obtain ⟨hm, hp⟩ := Prod.mk.inj (commitEntry_memParts (s.setPart k { p with tdata := e }) k p.tidx e)
    refine ⟨_, congrArg Host.Outcome.next (if_neg (by omega)), hm, ?_, fun h => commitEntry_space _ k p.tidx e h, fun h => commitEntry_segment _ k p.tidx e h⟩
    rw [State.part, hp]
    exact congrArg Part.tdata (KMap.get_ins_same ..)
  · exact registerWrite_part s k hk 0x008 (by decide) v
  · exact registerWrite_part s k hk 0x010 (by decide) v
  · exact registerWrite_part s k hk 0x100 (by decide) v
  · exact ⟨_, registerWrite_part s k hk 0x018 (by decide) v, eqLog_eq v⟩
  · exact readBar0_part s k hk 0x008 (by decide)
  · exact readBar0_part s k hk 0x010 (by decide)
  · exact readBar0_part s k hk 0x020 (by decide)
  · exact readBar0_part s k hk 0x028 (by decide)
  · exact readBar0_part s k hk 0x100 (by decide)
  · exact readBar0_part s k hk 0x120 (by decide)
  · exact readBar0_part s k hk 0x138 (by decide)

end Sys2Proof.Proofs.PartControl

/-! ### Privileged words (R8, R103, R217, R280, R281, R317, R321, R323, R324, R329) -/

namespace Sys2Proof.Proofs.Privileged

open Sys2Proof Sys2Proof.Machine Sys2Proof.Claim

/-! #### Reads that a word makes at once -/

/-- R320: translating addresses changes nothing but the cores' caches. -/
theorem cache_eq (s : State) (core asid : Nat) (vas : List DWord) : ∃ cs, s.cache core asid vas = { s with cores := cs } := by
  induction vas generalizing s with
  | nil => exact ⟨s.cores, rfl⟩
  | cons va vas ih =>
    cases h : s.trCore core asid va with
    | error x =>
      obtain ⟨cs, hcs⟩ := ih s
      exact ⟨cs, by rw [← hcs]; simp [State.cache, h]⟩
    | ok x =>
      obtain ⟨cs, hcs⟩ := ih (s.setCore core { s.core core with tlb := fillTlb 64 (s.core core).tlb asid va x })
      refine ⟨cs, ?_⟩
      rw [State.setCore] at hcs
      rw [← hcs]
      simp [State.cache, h, State.setCore]

/-- R320: what no core holds is as it was before the fragment translated addresses. -/
theorem translated_frame {γ : Type} (p : State → γ) (hp : ∀ (s : State) cs, p { s with cores := cs } = p s) (s : State) (vas : List DWord) :
    p (translated s vas) = p s := by
  obtain ⟨cs, hcs⟩ := cache_eq s s.f.coreKey s.g.rights.asid vas
  rw [translated, hcs, hp]

theorem served_map {α : Type} (s : State) (e : α → Elem) (l : List α) (h : ∀ a ∈ l, s.served [e a] = true) : s.served (l.map e) = true := by
  simp only [State.served, State.delivered, List.all_cons, List.all_nil, List.any_cons, List.any_nil, Bool.and_true, Bool.or_false, Bool.and_eq_true,
    Bool.not_eq_true'] at h
  simp only [State.served, State.delivered, List.all_map, List.any_map, Bool.and_eq_true, Bool.not_eq_true', List.all_eq_true, List.any_eq_false, Function.comp]
  exact ⟨fun a ha => (h a ha).1, fun a ha => by simp [(h a ha).2]⟩

/-- The element of device memory that a read of an address at this device is. -/
def elemAt (s : State) (size : Nat) (va : DWord) : Elem := ⟨0, .dram, placeOf s va, size, 0, va, none, 0⟩

theorem nearElems_here (s : State) (size : Nat) (vas : List DWord) (h : ∀ va ∈ vas, (leafAt s va).dev = s.fabric.toNat) :
    s.nearElems s.f.coreKey s.g.rights (vas.map fun va => ⟨0, va, size⟩) = vas.map (elemAt s size) := by
  rw [State.nearElems, List.filterMap_map, ← List.filterMap_eq_map]
  exact List.filterMap_congr fun va hva => if_pos (h va hva)

theorem mapIdx_map_eq {α β γ : Type} (f : Nat → β → γ) (e : α → β) (g : α → γ) (l : List α) (h : ∀ i, ∀ a ∈ l, f i (e a) = g a) :
    (l.map e).mapIdx f = l.map g := by
  refine List.ext_getElem (by simp) fun i _ _ => ?_
  rw [List.getElem_mapIdx, List.getElem_map, List.getElem_map]
  exact h i _ (List.getElem_mem _)

/-- R189, R217: what a word reads that it may read at once. -/
theorem readVas_here (s : State) (size : Nat) (vas : List DWord) (h : ReadsHere s size vas) :
    s.readVas (.frag s.cur) s.f.coreKey s.g.rights size vas = .val (vas.map fun va => (BitVec.ofNat 64 (valueAt s va size), false)) (translated s vas) := by
  obtain ⟨hcheck, hans, hwaits, hvas⟩ := h
  have hnear : s.served (vas.map (elemAt s size)) = true := served_map s _ _ fun va hva => (hvas va hva).2.1
  have hanswers : (s.answers.filter fun a => a.asker != .frag s.cur) = s.answers :=
    List.filter_eq_self.2 fun a ha => by simpa [bne] using List.filter_eq_nil_iff.1 hans a ha
  have hchan : (s.chanWaits.filter fun w => w.1 != .frag s.cur) = s.chanWaits := List.filter_eq_self.2 fun w hw => by simpa using hwaits w hw
  have hfar : (((vas.map fun va => Addr.mk 0 va size).mapIdx fun i a => (i, a)).filter fun x =>
      (s.leafOf s.f.coreKey s.g.rights.asid x.2.va).dev != s.fabric.toNat) = [] := by
    refine List.filter_eq_nil_iff.2 fun x hx => ?_
    obtain ⟨i, hi, rfl⟩ := List.mem_mapIdx.1 hx
    rw [List.getElem_map]
    exact fun hb => bne_iff_ne.1 hb (hvas _ (List.getElem_mem _)).1
  have hvals : ((vas.map fun va => Addr.mk 0 va size).mapIdx fun i a =>
      if (s.leafOf s.f.coreKey s.g.rights.asid a.va).dev = s.fabric.toNat then s.readElem (elemAt s a.size a.va)
      else (([] : List Answer).findSome? fun x => (KMap.find x.reply.vals i).map fun v => (v, x.reply.badAt i)).getD (0, false)) =
      vas.map fun va => (BitVec.ofNat 64 (valueAt s va size), false) := 
    mapIdx_map_eq _ _ _ _ fun i va hva => (if_pos (hvas va hva).1).trans (Prod.ext rfl (hvas va hva).2.2)
  have hplaces : (vas.map fun va => Addr.mk 0 va size).map (·.va) = vas := by simp [Function.comp_def]
  obtain ⟨cs, hcs⟩ := cache_eq s s.f.coreKey s.g.rights.asid vas
  unfold State.readVas
  simp only [hcheck]
  unfold State.gather
  simp only [nearElems_here s size vas fun va hva => (hvas va hva).1, hnear, hans, hfar, hplaces, List.flatMap_nil, firstFailing, List.filter_nil,
    List.all_nil, Bool.not_true, Bool.false_eq_true, if_false, if_true]
  refine congrArg₂ Got.val hvals ?_
  rw [translated, hcs]
  simp only [State.leaveChans, hanswers, hchan]

/-- R329: the 8-byte words of a record, as addresses. -/
def wordsFrom (sa : DWord) (n : Nat) : List DWord := (List.range n).map fun i => sa + BitVec.ofNat 64 (8 * i)

theorem badRead_readable (vas : List DWord) (val : DWord → DWord) : badRead vas (vas.map fun va => (val va, false)) = none := by
  have h : ((vas.zip (vas.map fun va => (val va, false))).find? fun x => x.2.2) = none := by
    refine List.find?_eq_none.2 fun x hx => ?_
    obtain ⟨va, -, hva⟩ := List.mem_map.1 (List.of_mem_zip hx).2
    rw [← hva]
    exact Bool.false_ne_true
  rw [badRead, h]
  rfl

/-- R217, R329: a record that may be read at once is the words at its addresses. -/
theorem readRecord_here (s : State) (a : RegNum) (n : Nat) (k : List DWord → State → Act)
    (hcheck : s.checkGlobal s.f.coreKey s.g.rights .read 64 false [⟨0, s.sv a, 8⟩] = none) (hreads : ReadsHere s 8 (wordsFrom (s.sv a) n)) :
    readRecord s a n k = k ((wordsFrom (s.sv a) n).map fun va => BitVec.ofNat 64 (valueAt s va 8)) (translated s (wordsFrom (s.sv a) n)) := by
  unfold readRecord
  simp only [hcheck]
  rw [← wordsFrom, readVas_here s 8 _ hreads]
  simp only [Got.act]
  rw [badRead_readable _ fun va => BitVec.ofNat 64 (valueAt s va 8)]
  simp only [List.map_map, Function.comp_def]

/-! #### Little-endian values (R6) -/

theorem valueAt_lt (s : State) (va : DWord) : valueAt s va 8 < 2 ^ 64 := by
  have h := Bytes.leNat_lt (s.bytesIn .dram (placeOf s va) 8)
  rwa [State.bytesIn, List.length_map, List.length_range] at h

/-- The bytes of 8-byte words one after the other, as one number. -/
theorem leNat_words (val : DWord → Nat) (vas : List DWord) (h : ∀ va, val va < 2 ^ 64) :
    leNat (vas.flatMap fun va => leBytes 8 (val va)) = vas.foldr (fun va n => val va + 2 ^ 64 * n) 0 := by
  induction vas with
  | nil => rfl
  | cons va vas ih =>
    rw [List.flatMap_cons, Bytes.leNat_append, Bytes.leNat_leBytes, Bytes.length_leBytes, ih, List.foldr_cons, show (256 : Nat) ^ 8 = 2 ^ 64 by decide,
      Nat.mod_eq_of_lt (h va)]

/-- What a record's words are as bytes. -/
theorem wordBytes (s : State) (vas : List DWord) :
    ((vas.map fun va => BitVec.ofNat 64 (valueAt s va 8)).flatMap fun x => leBytes 8 x.toNat) = vas.flatMap fun va => leBytes 8 (valueAt s va 8) := by
  simp only [List.flatMap_map, BitVec.toNat_ofNat, Nat.mod_eq_of_lt (valueAt_lt s _)]

/-! #### What the end of a word's action comes to -/

section
variable {i : Instr} {s : State} {act : Act} (hexec : exec i s = finish s act)
include hexec

theorem goes_of {t : State} (h : act = .done t) (hpc : t.f.pc = s.f.pc) : Goes i s t := by
  rw [Goes, hexec, h, finish_done, hpc]

theorem faults_of {r : FaultRec} (h : act = .fault r) : Faults i s r := by
  rw [Faults, hexec, h, finish_fault]

theorem holds_of {t : State} (h : act = .hold t) : Holds i s t := by
  rw [Holds, hexec, h, finish_hold]
end

theorem poisoned_single (s : State) (a : RegNum) (h : (s.sreg a).poison = false) : s.poisoned [.s a] = none := by
  simp [State.poisoned, State.poisonOf, h]

/-! #### OVTLD (R8, R329) -/

section
variable (s : State) (a : RegNum) (hp : (s.sreg a).poison = false)
include hp

theorem exec_ovtld : exec (.ovtld a) s = finish s
    (if (s.sreg a).bnd then .fault (faultOf 0x18#8 (a.setWidth 64))
     else if s.keeps s.g then .done (s.setOvt s.f.group ((s.sv a).setWidth 16))
     else s.roundTrip (.ovt ((s.sv a).setWidth 16)) fun _ => .done ((s.setF { s.f with grant := .none }).setG { s.g with ovt := (s.sv a).setWidth 16 })) :=
  congrArg (finish s) (State.clean_none s _ _ (poisoned_single s a hp))

theorem ovtld_bounded (h : (s.sreg a).bnd = true) : Faults (.ovtld a) s (faultOf 0x18#8 (a.setWidth 64)) :=
  faults_of (exec_ovtld s a hp) (if_pos h)

theorem ovtld_here (h : (s.sreg a).bnd = false) (hdev : s.g.dev = s.fabric.toNat) : Goes (.ovtld a) s (s.setG { s.g with ovt := (s.sv a).setWidth 16 }) :=
  goes_of (exec_ovtld s a hp) ((if_neg (by simp [h])).trans (if_pos (by simp [State.keeps, hdev]))) rfl

theorem exec_ovtld_away (h : (s.sreg a).bnd = false) (hdev : s.g.dev ≠ s.fabric.toNat) : exec (.ovtld a) s = finish s
    (s.roundTrip (.ovt ((s.sv a).setWidth 16)) fun _ => .done ((s.setF { s.f with grant := .none }).setG { s.g with ovt := (s.sv a).setWidth 16 })) := by
  rw [exec_ovtld s a hp, if_neg (by simp [h]), if_neg (by simp [State.keeps, hdev])]
end

@[simp] theorem f_setG (s : State) (g : Group) : (s.setG g).f = s.f := rfl

section
variable (s : State) (w : SplitUpd) (k : Grant → Act)

theorem roundTrip_none (h : s.f.grant = .none) : s.roundTrip w k = .hold ((s.setF { s.f with grant := .asked }).splitUpdate s.cur w) := by
  rw [State.roundTrip, h]

theorem roundTrip_asked (h : s.f.grant = .asked) : s.roundTrip w k = .hold s := by
  rw [State.roundTrip, h]

theorem roundTrip_given (h : s.f.grant = .given []) : s.roundTrip w k = k (.given []) := by
  rw [State.roundTrip, h]

theorem roundTrip_refused (h : s.f.grant = .refused) : s.roundTrip w k = .fault (keyFault s.f.own s.g.dev s.g.home) := by
  rw [State.roundTrip, h]
end

/-! #### Leaves dropped from the cores (R320, R329) -/

/-- A map whose values are replaced, each by its key, reads replaced, if what an unlisted key reads as stays. -/
theorem get_map_values {α : Type} (d : α) (f : Nat → α → α) (hd : ∀ k, f k d = d) (m : KMap α) (k : Nat) :
    KMap.get d (m.map fun c => (c.1, f c.1 c.2)) k = f k (KMap.get d m k) := by
  induction m with
  | nil => exact (hd k).symm
  | cons c m ih =>
    simp only [List.map_cons, KMap.get]
    split_ifs with h
    · rw [h]
    · exact ih

theorem core_dropLeaves (s : State) (homes : List Nat) (d : Drop) (c : Nat) :
    (s.dropLeaves homes d).core c = if homes.contains (c / 256) then { s.core c with tlb := (s.core c).tlb.filter fun x => !d.leaf x } else s.core c :=
  get_map_values Core.fresh (fun k (x : Core) => if homes.contains (k / 256) then { x with tlb := x.tlb.filter fun y => !d.leaf y } else x)
    (fun k => by split_ifs <;> rfl) s.cores c

theorem mem_tlb_dropLeaves (s : State) (homes : List Nat) (d : Drop) (c : Nat) (h : homes.contains (c / 256) = true) (x : TlbEnt)
    (hx : x ∈ ((s.dropLeaves homes d).core c).tlb) : x ∈ (s.core c).tlb ∧ d.leaf x = false := by
  rw [core_dropLeaves, if_pos h] at hx
  simpa using List.mem_filter.1 hx

/-- Write-combining lines stay, and with them what a drop waits for. -/
theorem dropBusy_dropLeaves (s : State) (homes : List Nat) (d e : Drop) : (s.dropLeaves homes d).dropBusy e = s.dropBusy e := by
  have h : ((s.dropLeaves homes d).cores.any fun c => c.2.wc.any fun l => e.access l.rights.asid (BitVec.ofNat 64 (256 * l.line))) =
      s.cores.any fun c => c.2.wc.any fun l => e.access l.rights.asid (BitVec.ofNat 64 (256 * l.line)) := by
    simp only [State.dropLeaves, List.any_map, Function.comp_def]
    congr 1
    funext c
    split_ifs <;> rfl
  exact congrArg (_ || ·) h

/-! #### PTGEN (R209, R321, R329) -/

theorem fld_eq {n : Nat} (x : BitVec n) (lo w : Nat) (y : BitVec w) : fld x lo w = y.toNat ↔ x.extractLsb' lo w = y := BitVec.toNat_inj

/-- R209: the generation is the entry's bits 255:224. -/
theorem nextGen_bits (e : BitVec 256) : (e + BitVec.twoPow 256 224).extractLsb' 224 32 = e.extractLsb' 224 32 + 1 ∧
    (e + BitVec.twoPow 256 224).extractLsb' 0 224 = e.extractLsb' 0 224 := by
  have hsum : (e + BitVec.twoPow 256 224).toNat = (e.toNat + 2 ^ 224) % (2 ^ 224 * 2 ^ 32) := by
    rw [BitVec.toNat_add, BitVec.toNat_twoPow, Nat.mod_eq_of_lt (Nat.pow_lt_pow_right Nat.one_lt_two (by decide : 224 < 256)), ← pow_add]
  constructor <;> refine BitVec.eq_of_toNat_eq ?_
  · rw [BitVec.toNat_add, BitVec.extractLsb'_toNat, BitVec.extractLsb'_toNat, hsum, Nat.shiftRight_eq_div_pow, Nat.shiftRight_eq_div_pow,
      Nat.mod_mul_right_div_self, Nat.mod_mod, Nat.add_div_right _ (Nat.two_pow_pos 224), Nat.mod_add_mod]
    rfl
  · rw [BitVec.extractLsb'_toNat, BitVec.extractLsb'_toNat, hsum, Nat.shiftRight_zero, Nat.shiftRight_zero, Nat.mod_mul_right_mod, Nat.add_mod_right]

/-- R321: the entry of an address space is replaced, and the cached leaves of the space dropped. -/
def withEntry (s : State) (k : Nat) (e : BitVec 256) : State :=
  { s.dropLeaves (s.homesOf (fld (s.asEnt k) 184 4)) (.space k) with asTab := s.asTab.put 0 k e }

theorem asEnt_withEntry (s : State) (k : Nat) (e : BitVec 256) (j : Nat) : (withEntry s k e).asEnt j = if j = k then e else s.asEnt j := KMap.get_put ..

theorem sameBut_dropLeaves (s : State) (homes : List Nat) (d : Drop) : SameBut s (s.dropLeaves homes d) :=
  ⟨rfl, rfl, rfl, rfl, rfl, rfl, rfl, rfl, rfl⟩

theorem sameBut_withEntry (s : State) (k : Nat) (e : BitVec 256) : SameBut s (withEntry s k e) :=
  sameBut_dropLeaves s (s.homesOf (fld (s.asEnt k) 184 4)) (.space k)

theorem tlb_withEntry (s : State) (k : Nat) (e : BitVec 256) (c : Nat) (hc : (s.homesOf (fld (s.asEnt k) 184 4)).contains (c / 256) = true) (x : TlbEnt)
    (hx : x ∈ ((withEntry s k e).core c).tlb) : x.asid ≠ k :=
  beq_eq_false_iff_ne.1 (mem_tlb_dropLeaves s (s.homesOf (fld (s.asEnt k) 184 4)) (.space k) c hc x hx).2

theorem f_withEntry (s : State) (k : Nat) (e : BitVec 256) : (withEntry s k e).f = s.f := rfl

section
variable (s : State) (a : RegNum) (hp : (s.sreg a).poison = false) (k : Nat) (hk : fld (s.sv a) 0 16 = k)
include hp hk

theorem exec_ptgen : exec (.ptgen a) s = finish s
    (if (s.asEnt k).getLsbD 191 = false ∨ fld (s.asEnt k) 224 32 = 0xFFFFFFFF then .fault (faultOf 0x01#8)
     else if (s.dropLeaves (s.homesOf (fld (s.asEnt k) 184 4)) (.space k)).dropBusy (.space k) then
       .hold (s.dropLeaves (s.homesOf (fld (s.asEnt k) 184 4)) (.space k))
     else .done (withEntry s k (s.asEnt k + BitVec.twoPow 256 224))) := by
  subst hk
  exact congrArg (finish s) (State.clean_none s _ _ (poisoned_single s a hp))

theorem ptgen_refused (h : (s.asEnt k).getLsbD 191 = false ∨ (s.asEnt k).extractLsb' 224 32 = BitVec.allOnes 32) : Faults (.ptgen a) s (faultOf 0x01#8) :=
  faults_of (exec_ptgen s a hp k hk) (if_pos (h.imp_right (fld_eq _ 224 32 (BitVec.allOnes 32)).2))

/-- R321: a valid entry below the highest generation takes the next one, once nothing is under way through its leaves. -/
theorem ptgen_advances (hv : (s.asEnt k).getLsbD 191 = true) (hg : (s.asEnt k).extractLsb' 224 32 ≠ BitVec.allOnes 32)
    (hq : s.dropBusy (.space k) = false) : Goes (.ptgen a) s (withEntry s k (s.asEnt k + BitVec.twoPow 256 224)) := by
  refine goes_of (exec_ptgen s a hp k hk) ((if_neg ?_).trans (if_neg ?_)) (by rw [f_withEntry])
  · rintro (h | h)
    · exact Bool.noConfusion (hv.symm.trans h)
    · exact hg ((fld_eq _ 224 32 (BitVec.allOnes 32)).1 h)
  · rw [dropBusy_dropLeaves, hq]
    exact Bool.false_ne_true
end

/-! #### TLBSD (R329) -/

section
variable (s : State) (a b : RegNum) (hp : s.poisoned [.s a, .s b] = none)
include hp

/-- R329: the homes that TLBSD concerns. -/
def dropHomes (s : State) (sb : DWord) : List Nat := if sb.getLsbD 17 then List.range 12 else s.homesOf (fld (s.asEnt (fld sb 0 16)) 184 4)

theorem exec_tlbsd : exec (.tlbsd a b) s = finish s
    (if fld (s.sv b) 18 46 ≠ 0 then .fault (faultOf 0x02#8)
     else if (s.dropLeaves (dropHomes s (s.sv b)) (dropOf (s.sv a) (s.sv b))).dropBusy (dropOf (s.sv a) (s.sv b)) then
       .hold (s.dropLeaves (dropHomes s (s.sv b)) (dropOf (s.sv a) (s.sv b)))
     else .done (s.dropLeaves (dropHomes s (s.sv b)) (dropOf (s.sv a) (s.sv b)))) :=
  congrArg (finish s) (State.clean_none s _ _ hp)

theorem tlbsd_reserved (h : (s.sv b).extractLsb' 18 46 ≠ 0) : Faults (.tlbsd a b) s (faultOf 0x02#8) :=
  faults_of (exec_tlbsd s a b hp) (if_pos fun hf => h ((fld_eq _ 18 46 0#46).1 hf))

theorem tlbsd_waits (h : (s.sv b).extractLsb' 18 46 = 0) (hq : s.dropBusy (dropOf (s.sv a) (s.sv b)) = true) :
    Holds (.tlbsd a b) s (s.dropLeaves (dropHomes s (s.sv b)) (dropOf (s.sv a) (s.sv b))) :=
  holds_of (exec_tlbsd s a b hp) ((if_neg (not_not.2 ((fld_eq _ 18 46 0#46).2 h))).trans (if_pos (by rw [dropBusy_dropLeaves, hq])))

theorem tlbsd_goes (h : (s.sv b).extractLsb' 18 46 = 0) (hq : s.dropBusy (dropOf (s.sv a) (s.sv b)) = false) :
    Goes (.tlbsd a b) s (s.dropLeaves (dropHomes s (s.sv b)) (dropOf (s.sv a) (s.sv b))) :=
  goes_of (exec_tlbsd s a b hp) ((if_neg (not_not.2 ((fld_eq _ 18 46 0#46).2 h))).trans (if_neg (by rw [dropBusy_dropLeaves, hq]; exact Bool.false_ne_true))) rfl
end

/-- R329: the leaves that TLBSD names. -/
theorem dropOf_leaf (sa sb : DWord) (x : TlbEnt) : (dropOf sa sb).leaf x = true ↔
    if sb.getLsbD 17 = true then True else if sb.getLsbD 16 = true then x.asid = (sb.extractLsb' 0 16).toNat else x.hits (sb.extractLsb' 0 16).toNat sa = true := by
  unfold dropOf
  split_ifs
  · exact ⟨fun _ => trivial, fun _ => rfl⟩
  · exact beq_iff_eq
  · exact Iff.rfl

/-! #### HTLD (R280, R281, R329) -/

/-- R281: a unit is to install a table. -/
def install (t : KMap Byte) (s : State) (u : Nat) : State := s.setBank u { s.bank u with pending := some t }

theorem bank_install_all (t : KMap Byte) (l : List Nat) (s : State) (n : Nat) :
    (l.foldl (install t) s).bank n = if n ∈ l then { s.bank n with pending := some t } else s.bank n := by
  induction l generalizing s with
  | nil => rfl
  | cons u l ih =>
    have hu : (install t s u).bank n = if n = u then { s.bank u with pending := some t } else s.bank n := KMap.get_ins ..
    rw [List.foldl_cons, ih, hu]
    by_cases h : n = u
    · subst h
      simp
    · simp [h]

theorem takeTable_eq (s : State) (part : Nat) (t : KMap Byte) :
    s.takeTable part t = (s.unitsBehind part t).foldl (install t) (s.setPart part { s.part part with handlers := t }) := rfl

/-- R281: a table that is taken changes the partition and bank units only. -/
theorem takeTable_frame {γ : Type} (p : State → γ) (hbank : ∀ (s : State) u x, p (s.setBank u x) = p s) (s : State) (part : Nat) (t : KMap Byte) :
    p (s.takeTable part t) = p (s.setPart part { s.part part with handlers := t }) :=
  PartControl.foldl_frame p (install t) (fun s u => hbank s u _) _ _

/-- R281: every unit of the partition's homes holds the table or is to install it. -/
theorem takeTable_units (s : State) (part : Nat) (t : KMap Byte) (h n : Nat) (hh : (s.part part).homes.getLsbD h = true) (h12 : h < 12) (hn : n < 128) :
    ((s.takeTable part t).bank (128 * h + n)).pending.getD ((s.takeTable part t).bank (128 * h + n)).table = t := by
  rw [takeTable_eq, bank_install_all]
  split_ifs with hb
  · rfl
  · by_contra hne
    refine hb (List.mem_flatMap.2 ⟨h, List.mem_filter.2 ⟨List.mem_range.2 h12, hh⟩, List.mem_filter.2 ⟨List.mem_map.2 ⟨n, List.mem_range.2 hn, rfl⟩, ?_⟩⟩)
    exact bne_iff_ne.2 hne

/-- R280: the image that HTLD reads. -/
def imageAt (s : State) (sa : DWord) : KMap Byte :=
  putCells [] (cellsAt 0 ((List.range 544).flatMap fun i => leBytes 8 (valueAt s (sa + BitVec.ofNat 64 (8 * i)) 8)))

/-- R280, R281: what HTLD does with an image that it has read. -/
def htldAct (part : Nat) (t : KMap Byte) (s : State) : Act :=
  match tableRefusal t with
  | some r => .fault (faultOf 0x01#8 (BitVec.ofNat 64 (r.1 + 16 * r.2)))
  | none => if (s.takeTable part t).installing part then .hold (s.takeTable part t) else .done (s.takeTable part t)

section
variable (s : State) (a b : RegNum) (hp : s.poisoned [.s a, .s b] = none)
include hp

theorem exec_htld : exec (.htld a b) s = finish s
    (if 12 ≤ fld (s.sv b) 0 4 then .fault (faultOf 0x01#8 0xF#64)
     else readRecord s a 544 fun xs t => htldAct (fld (s.sv b) 0 4) (putCells [] (cellsAt 0 (xs.flatMap fun x => leBytes 8 x.toNat))) t) :=
  congrArg (finish s) (State.clean_none s _ _ hp)

theorem htld_noPartition (h : 12 ≤ fld (s.sv b) 0 4) : Faults (.htld a b) s (faultOf 0x01#8 0xF) :=
  faults_of (exec_htld s a b hp) (if_pos h)

variable (hpart : fld (s.sv b) 0 4 < 12) (hcheck : s.checkGlobal s.f.coreKey s.g.rights .read 64 false [⟨0, s.sv a, 8⟩] = none)
  (hreads : ReadsHere s 8 (wordsFrom (s.sv a) 544))
include hpart hcheck hreads

theorem exec_htld_reads : exec (.htld a b) s = finish s (htldAct (fld (s.sv b) 0 4) (imageAt s (s.sv a)) (translated s (wordsFrom (s.sv a) 544))) := by
  rw [exec_htld s a b hp, if_neg (Nat.not_le.2 hpart), readRecord_here s a 544 _ hcheck hreads, wordBytes, wordsFrom, List.flatMap_map]
  rfl

theorem htld_refused (x y : Nat) (h : tableRefusal (imageAt s (s.sv a)) = some (x, y)) :
    Faults (.htld a b) s (faultOf 0x01#8 (BitVec.ofNat 64 (x + 16 * y))) :=
  faults_of (exec_htld_reads s a b hp hpart hcheck hreads) (by rw [htldAct, h])

/-- R280, R281, R329: an accepted image becomes the table, pending at every unit that lacks it, and the word waits while one installs. -/
theorem htld_taken (h : tableRefusal (imageAt s (s.sv a)) = none) : ∃ t, (t.part (fld (s.sv b) 0 4)).handlers = imageAt s (s.sv a) ∧ t.mem = s.mem ∧
    (∀ h n, (s.part (fld (s.sv b) 0 4)).homes.getLsbD h = true → h < 12 → n < 128 →
      (t.bank (128 * h + n)).pending.getD (t.bank (128 * h + n)).table = imageAt s (s.sv a)) ∧
    (t.installing (fld (s.sv b) 0 4) = true → Holds (.htld a b) s t) ∧ (t.installing (fld (s.sv b) 0 4) = false → Goes (.htld a b) s t) := by
  have hexec := exec_htld_reads s a b hp hpart hcheck hreads
  have hpart := translated_frame (fun t => t.part (fld (s.sv b) 0 4)) (fun _ _ => rfl) s (wordsFrom (s.sv a) 544)
  have hsame := translated_frame State.mem (fun _ _ => rfl) s (wordsFrom (s.sv a) 544)
  have hfrag := translated_frame State.f (fun _ _ => rfl) s (wordsFrom (s.sv a) 544)
  generalize fld (s.sv b) 0 4 = part at *
  generalize imageAt s (s.sv a) = t at *
  generalize translated s (wordsFrom (s.sv a) 544) = u at *
  have hact : htldAct part t u = if (u.takeTable part t).installing part then .hold (u.takeTable part t) else .done (u.takeTable part t) := by
    rw [htldAct, h]
  have hparts : (u.takeTable part t).parts = _ := takeTable_frame State.parts (fun _ _ _ => rfl) u part t
  have hmem : (u.takeTable part t).mem = u.mem := takeTable_frame State.mem (fun _ _ _ => rfl) u part t
  have hf : (u.takeTable part t).f = u.f := takeTable_frame State.f (fun _ _ _ => rfl) u part t
  refine ⟨u.takeTable part t, ?_, hmem.trans hsame, fun h n hh h12 hn => takeTable_units u part t h n (by rwa [hpart]) h12 hn,
    fun hi => holds_of hexec ?_, fun hi => goes_of hexec ?_ (by rw [hf, hfrag])⟩
  · rw [State.part, hparts]
    exact congrArg Part.handlers (KMap.get_ins_same ..)
  · rw [hact, if_pos hi]
  · rw [hact, hi]
    rfl
end

/-! #### KEYLD (R323, R324) -/

/-- R324: the sealed record at an address. -/
def recordAt (s : State) (sa : DWord) : BitVec 1024 :=
  BitVec.ofNat 1024 ((List.range 16).foldr (fun i n => valueAt s (sa + BitVec.ofNat 64 (8 * i)) 8 + 2 ^ 64 * n) 0)
/-- R324: the payload of a sealed record that verifies. -/
def payload (rcd : BitVec 1024) : Option (BitVec 512) := Config.unwrap (rcd.extractLsb' 0 512) (rcd.extractLsb' 512 128)
/-- R324: a record names the selector, and the selector has no reserved bit set. -/
def Names (rcd : BitVec 1024) (sel : DWord) : Prop :=
  rcd.extractLsb' 640 64 = sel ∧ if sel.getLsbD 63 = true then sel.extractLsb' 9 54 = 0 else sel.extractLsb' 12 51 = 0
/-- R323: a payload is a key-table entry with no reserved bit set. -/
def CleanEntry (p : BitVec 512) : Prop := p.extractLsb' 69 3 = 0 ∧ p.extractLsb' 124 3 = 0 ∧ p.extractLsb' 0 64 = 0

theorem fld_beq_zero {n : Nat} (x : BitVec n) (lo w : Nat) : (fld x lo w == 0) = true ↔ x.extractLsb' lo w = 0 := by
  have h := fld_eq x lo w 0#w
  rw [BitVec.toNat_ofNat, Nat.zero_mod] at h
  exact beq_iff_eq.trans h

theorem keyEntryOk_iff (p : BitVec 512) : keyEntryOk (p.setWidth 128) = true ↔ CleanEntry p := by
  simp only [keyEntryOk, Bool.and_eq_true, fld_beq_zero, CleanEntry]
  rw [BitVec.extractLsb'_setWidth_of_le (by decide), BitVec.extractLsb'_setWidth_of_le (by decide), BitVec.extractLsb'_setWidth_of_le (by decide)]
  tauto

theorem names_iff (rcd : BitVec 1024) (sel : DWord) : Names rcd sel ↔
    ¬(rcd.extractLsb' 640 64 ≠ sel ∨ (if sel.getLsbD 63 then fld sel 9 54 == 0 else fld sel 12 51 == 0) = false) := by
  rw [Names, not_or, not_not, Bool.not_eq_false]
  split_ifs <;> rw [fld_beq_zero]

theorem record_words (s : State) (sa : DWord) :
    BitVec.ofNat 1024 (leNat (((wordsFrom sa 16).map fun va => BitVec.ofNat 64 (valueAt s va 8)).flatMap fun x => leBytes 8 x.toNat)) = recordAt s sa := by
  rw [wordBytes, leNat_words _ _ fun va => valueAt_lt s va, wordsFrom, List.foldr_map, recordAt]

section
variable (xs : List DWord) (sel : DWord) (rcd : BitVec 1024) (hrcd : BitVec.ofNat 1024 (leNat (xs.flatMap fun x => leBytes 8 x.toNat)) = rcd)
include hrcd

theorem sealed_unopened (h : payload rcd = none) : sealed xs sel = .error 1 := by
  rw [payload] at h
  simp only [sealed, hrcd, h]

theorem sealed_opened (p : BitVec 512) (h : payload rcd = some p) : sealed xs sel =
    if rcd.extractLsb' 640 64 ≠ sel ∨ (if sel.getLsbD 63 then fld sel 9 54 == 0 else fld sel 12 51 == 0) = false then .error 2
    else if sel.getLsbD 63 = false ∧ keyEntryOk (p.setWidth 128) = false then .error 3 else .ok p := by
  rw [payload] at h
  simp only [sealed, hrcd, h]

theorem sealed_misnamed (p : BitVec 512) (h : payload rcd = some p) (hn : ¬Names rcd sel) : sealed xs sel = .error 2 := by
  rw [sealed_opened xs sel rcd hrcd p h, if_pos (by rwa [names_iff, not_not] at hn)]

theorem sealed_unclean (p : BitVec 512) (h : payload rcd = some p) (hn : Names rcd sel) (hs : sel.getLsbD 63 = false) (hc : ¬CleanEntry p) :
    sealed xs sel = .error 3 := by
  rw [sealed_opened xs sel rcd hrcd p h, if_neg ((names_iff ..).1 hn), if_pos ⟨hs, by rwa [← keyEntryOk_iff, Bool.not_eq_true] at hc⟩]

theorem sealed_ok (p : BitVec 512) (h : payload rcd = some p) (hn : Names rcd sel) (hc : sel.getLsbD 63 = false → CleanEntry p) : sealed xs sel = .ok p := by
  rw [sealed_opened xs sel rcd hrcd p h, if_neg ((names_iff ..).1 hn), if_neg]
  rintro ⟨hs, hk⟩
  rw [(keyEntryOk_iff p).2 (hc hs)] at hk
  cases hk
end

/-- R324: what KEYLD does with what a record comes to. -/
def keyldAct (sel : DWord) (r : Except DWord (BitVec 512)) (s : State) : Act :=
  match r with
  | .error k => .fault (faultOf 0x01#8 k)
  | .ok p =>
    if sel.getLsbD 63 && s.slotBusy (fld sel 0 9) then .hold s
    else if sel.getLsbD 63 then .done { s with keySlots := s.keySlots.put 0 (fld sel 0 9) p }
    else .done { s with keyTab := s.keyTab.put 0 (fld sel 0 12) (p.setWidth 128) }

section
variable (sel : DWord) (p : BitVec 512) (s : State)

theorem keyldAct_entry (h : sel.getLsbD 63 = false) :
    keyldAct sel (.ok p) s = .done { s with keyTab := s.keyTab.put 0 (fld sel 0 12) (p.setWidth 128) } := by
  unfold keyldAct
  rw [h]
  rfl

theorem keyldAct_slotBusy (h : sel.getLsbD 63 = true) (hq : s.slotBusy (fld sel 0 9) = true) : keyldAct sel (.ok p) s = .hold s := by
  unfold keyldAct
  rw [h, hq]
  rfl

theorem keyldAct_slot (h : sel.getLsbD 63 = true) (hq : s.slotBusy (fld sel 0 9) = false) :
    keyldAct sel (.ok p) s = .done { s with keySlots := s.keySlots.put 0 (fld sel 0 9) p } := by
  unfold keyldAct
  rw [h, hq]
  rfl
end

section
variable (s : State) (a b : RegNum) (hp : s.poisoned [.s a, .s b] = none)
  (hcheck : s.checkGlobal s.f.coreKey s.g.rights .read 64 false [⟨0, s.sv a, 8⟩] = none) (hreads : ReadsHere s 8 (wordsFrom (s.sv a) 16))
include hp hcheck hreads

theorem exec_keyld_reads : exec (.keyld a b) s = finish s (keyldAct (s.sv b)
    (sealed ((wordsFrom (s.sv a) 16).map fun va => BitVec.ofNat 64 (valueAt s va 8)) (s.sv b)) (translated s (wordsFrom (s.sv a) 16))) := by
  have h : exec (.keyld a b) s = finish s (s.clean [.s a, .s b] (readRecord s a 16 fun xs t => keyldAct (s.sv b) (sealed xs (s.sv b)) t)) := rfl
  rw [h, State.clean_none s _ _ hp, readRecord_here s a 16 _ hcheck hreads]

theorem keyld_unopened (h : payload (recordAt s (s.sv a)) = none) : Faults (.keyld a b) s (faultOf 0x01#8 1) :=
  faults_of (exec_keyld_reads s a b hp hcheck hreads) (by rw [sealed_unopened _ _ _ (record_words s _) h, keyldAct])

variable (p : BitVec 512) (h : payload (recordAt s (s.sv a)) = some p)
include h

theorem keyld_misnamed (hn : ¬Names (recordAt s (s.sv a)) (s.sv b)) : Faults (.keyld a b) s (faultOf 0x01#8 2) :=
  faults_of (exec_keyld_reads s a b hp hcheck hreads) (by rw [sealed_misnamed _ _ _ (record_words s _) p h hn, keyldAct])

variable (hn : Names (recordAt s (s.sv a)) (s.sv b))
include hn

theorem keyld_unclean (hs : (s.sv b).getLsbD 63 = false) (hc : ¬CleanEntry p) : Faults (.keyld a b) s (faultOf 0x01#8 3) :=
  faults_of (exec_keyld_reads s a b hp hcheck hreads) (by rw [sealed_unclean _ _ _ (record_words s _) p h hn hs hc, keyldAct])

theorem exec_keyld_ok (hc : (s.sv b).getLsbD 63 = false → CleanEntry p) :
    exec (.keyld a b) s = finish s (keyldAct (s.sv b) (.ok p) (translated s (wordsFrom (s.sv a) 16))) := by
  rw [exec_keyld_reads s a b hp hcheck hreads, sealed_ok _ _ _ (record_words s _) p h hn hc]

theorem keyld_entry (hs : (s.sv b).getLsbD 63 = false) (hc : CleanEntry p) :
    Goes (.keyld a b) s { translated s (wordsFrom (s.sv a) 16) with keyTab := s.keyTab.put 0 (fld (s.sv b) 0 12) (p.setWidth 128) } := by
  rw [← translated_frame State.keyTab (fun _ _ => rfl) s (wordsFrom (s.sv a) 16)]
  exact goes_of (exec_keyld_ok s a b hp hcheck hreads p h hn fun _ => hc) (keyldAct_entry _ _ _ hs)
    (translated_frame (fun t => t.f.pc) (fun _ _ => rfl) s _)

theorem keyld_slotBusy (hs : (s.sv b).getLsbD 63 = true) (hq : s.slotBusy (fld (s.sv b) 0 9) = true) :
    Holds (.keyld a b) s (translated s (wordsFrom (s.sv a) 16)) := by
  rw [← translated_frame (fun t => t.slotBusy (fld (s.sv b) 0 9)) (fun _ _ => rfl) s (wordsFrom (s.sv a) 16)] at hq
  exact holds_of (exec_keyld_ok s a b hp hcheck hreads p h hn fun hf => Bool.noConfusion (hs.symm.trans hf)) (keyldAct_slotBusy _ _ _ hs hq)

theorem keyld_slot (hs : (s.sv b).getLsbD 63 = true) (hq : s.slotBusy (fld (s.sv b) 0 9) = false) :
    Goes (.keyld a b) s { translated s (wordsFrom (s.sv a) 16) with keySlots := s.keySlots.put 0 (fld (s.sv b) 0 9) p } := by
  rw [← translated_frame (fun t => t.slotBusy (fld (s.sv b) 0 9)) (fun _ _ => rfl) s (wordsFrom (s.sv a) 16)] at hq
  rw [← translated_frame State.keySlots (fun _ _ => rfl) s (wordsFrom (s.sv a) 16)]
  exact goes_of (exec_keyld_ok s a b hp hcheck hreads p h hn fun hf => Bool.noConfusion (hs.symm.trans hf)) (keyldAct_slot _ _ _ hs hq)
    (translated_frame (fun t => t.f.pc) (fun _ _ => rfl) s _)
end

/-- Settles O32: word by word, by what each refuses and what it writes. -/
theorem privilegedWords : Obligations.PrivilegedWords := by
  intro s a b sa sb va vas rd part image rcd key u asid named homes k e
  refine ⟨fun hp => ⟨ovtld_bounded s a hp, fun hb => ⟨ovtld_here s a hp hb, fun hdev => ?_⟩, ptgen_refused s a hp k rfl, fun hv hg hq => ?_⟩,
    fun hp => ⟨htld_noPartition s a b hp, fun hpart ⟨hcheck, hreads⟩ => ?_, fun ⟨hcheck, hreads⟩ => ?_, tlbsd_reserved s a b hp, fun hres => ?_⟩⟩
  · have hexec := exec_ovtld_away s a hp hb hdev
    exact ⟨fun h => holds_of hexec (roundTrip_none s _ _ h), fun h => holds_of hexec (roundTrip_asked s _ _ h),
      fun h => goes_of hexec (roundTrip_given s _ _ h) (by rw [f_setG, State.f_setF]),
      fun h => faults_of hexec (roundTrip_refused s _ _ h)⟩
  · have hk := (asEnt_withEntry s k (e + BitVec.twoPow 256 224) k).trans (if_pos rfl)
    obtain ⟨hgen, hlow⟩ := nextGen_bits e
    refine ⟨_, ptgen_advances s a hp k rfl hv hg hq, ?_, ?_, fun j hj => (asEnt_withEntry s k _ j).trans (if_neg hj),
      sameBut_withEntry s k _, tlb_withEntry s k _⟩
    · rw [hk]
      exact hgen
    · rw [hk]
      exact hlow
  · exact ⟨htld_taken s a b hp hpart hcheck hreads, htld_refused s a b hp hpart hcheck hreads⟩
  · exact ⟨keyld_unopened s a b hp hcheck hreads, fun p h => ⟨keyld_misnamed s a b hp hcheck hreads p h, keyld_slotBusy s a b hp hcheck hreads p h,
      keyld_slot s a b hp hcheck hreads p h, keyld_unclean s a b hp hcheck hreads p h, keyld_entry s a b hp hcheck hreads p h⟩⟩
  · refine ⟨s.dropLeaves (dropHomes s sb) (dropOf sa sb), sameBut_dropLeaves .., tlbsd_waits s a b hp hres, tlbsd_goes s a b hp hres,
      fun c => ⟨fun hc x hx => ?_, fun hc => (core_dropLeaves ..).trans (if_neg (Bool.eq_false_iff.1 hc))⟩⟩
    obtain ⟨hmem, hleaf⟩ := mem_tlb_dropLeaves s _ _ c hc x hx
    exact ⟨hmem, fun hnamed => Bool.eq_false_iff.1 hleaf ((dropOf_leaf sa sb x).2 hnamed)⟩

end Sys2Proof.Proofs.Privileged


/-! ### Division by BRM in trap mode (R148, R151, R342) -/

namespace Sys2Proof.Proofs.Division

open Sys2Proof Sys2Proof.Machine Sys2Proof.Claim

/-- R342: in trap mode a BRM that would divide its lanes takes ILLEGAL_OP, wherever its target lies. -/
theorem brm_trapMode (s : State) (m : BitVec 3) (i : BitVec 18) (hT : s.mreg 0 &&& s.mreg m ≠ 0) (hU : s.mreg 0 &&& ~~~(s.mreg 0 &&& s.mreg m) ≠ 0)
    (hw : s.f.written.contains (.m 0) = false) (ht : s.f.trap.isSome = true) : Faults (.brm m i) s (faultOf 0x01#8 3) := by
  have hdivide : ∀ parts keep, divideAct s parts keep = .fault (faultOf 0x01#8 3) := fun parts keep => by
    simp only [divideAct, hw, ht, Bool.false_eq_true, if_false, if_true]
  exact Privileged.faults_of rfl ((if_neg hT).trans ((if_neg hU).trans (by rw [hdivide, hdivide, ite_self])))

/-- Fragment 0 of this device with every lane active, lanes 0 to 31 of them in m1, in trap mode. -/
def trapped : State := { State.reset with frags := [(0, { Frag.free with
  alive := true, own := allLanes, regs := { Regs.created with m := #v[allLanes, 0xFFFFFFFF, 0, 0, 0, 0, 0, 0] }, trap := some ⟨0x40, 0, 0, allLanes, 0, 0x52, 0, false⟩ })] }

/-- Refutes O17: its hypotheses do not exclude trap mode, which forbids a division; the fragment then keeps none of the lanes that the statement leaves it. -/
theorem not_branchDivision : ¬Obligations.BranchDivision := by
  intro h
  obtain ⟨-, here⟩ := h trapped 1 0 1 (by decide +kernel) (by decide +kernel) rfl ⟨rfl, fun _ hg => nomatch hg⟩
  obtain ⟨t, ht, hown, -⟩ := here rfl rfl (by decide +kernel) (by decide)
  have hfault : Faults (.brm 1 0) trapped (faultOf 0x01#8 3) := brm_trapMode trapped 1 0 (by decide +kernel) (by decide +kernel) rfl rfl
  obtain rfl : trapped.takeFault (faultOf 0x01#8 3) = t := Host.Outcome.next.inj (hfault.symm.trans ht)
  exact absurd hown (by decide +kernel)

end Sys2Proof.Proofs.Division

/-! ### Steps of a crossbar array (R250, R252, R255 to R257, R261, R338) -/

namespace Sys2Proof.Proofs.Crossbar

open Sys2Proof Sys2Proof.Machine Sys2Proof.Claim

theorem xar_setXar (s : State) (q : Nat) (X : Xar) (j : Nat) : (s.setXar q X).xar j = if j = q then X else s.xar j := KMap.get_ins ..

theorem xar_setXar_same (s : State) (q : Nat) (X : Xar) : (s.setXar q X).xar q = X := KMap.get_ins_same ..

theorem xar_setXar_other (s : State) (q : Nat) (X : Xar) (j : Nat) (h : j ≠ q) : (s.setXar q X).xar j = s.xar j := KMap.get_ins_other _ _ _ _ _ h

/-- A step that draws a free value and replaces array `q` leaves everything else. -/
theorem drawn_setXar_only (s : State) (q : Nat) (X : Xar) :
    SameBut s (s.draw.2.setXar q X) ∧ ∀ j, j ≠ q → (s.draw.2.setXar q X).xar j = s.xar j :=
  ⟨⟨rfl, rfl, rfl, rfl, rfl, rfl, rfl, rfl, rfl⟩, xar_setXar_other s.draw.2 q X⟩

/-! #### Loads (R250, R255, R338) -/

/-- A byte that some cell names, and every cell that names it gives one value, reads as that value. -/
theorem putCells_agreed (m : KMap Byte) (cells : List (Nat × Byte)) (k : Nat) (x : Byte) (hx : ∀ c ∈ cells, c.1 = k → c.2 = x)
    (hk : ∃ c ∈ cells, c.1 = k) : (putCells m cells).get 0x00#8 k = x := by
  induction cells generalizing m with
  | nil => simp at hk
  | cons c r ih =>
    by_cases hr : ∃ c ∈ r, c.1 = k
    · exact ih _ (fun c hc => hx c (List.mem_cons_of_mem _ hc)) hr
    · have hc : c.1 = k := by
        obtain ⟨c', hc', hk'⟩ := hk
        rcases List.mem_cons.1 hc' with rfl | hmem
        · exact hk'
        · exact absurd ⟨c', hmem, hk'⟩ hr
      have hout : ∀ c' ∈ r, c'.1 ≠ k := fun c' hc' he => hr ⟨c', hc', he⟩
      rw [putCells, List.foldl_cons, ← putCells, putCells_other _ _ _ hout, KMap.get_put, if_pos hc.symm]
      exact hx c (List.mem_cons_self ..) hc

/-- R250: weight (i, j) is the byte at row i and column j of the data. -/
theorem get_cellsOf (rows cols : Nat) (w : List Byte) (hr : rows ≤ 256) (hw : w.length = rows * cols) (i j : Nat) (hi : i < rows) (hj : j < cols) :
    (cellsOf cols w).get 0x00#8 (256 * j + i) = w.getD (i * cols + j) 0 := by
  have hn : i * cols + j < w.length := by
    rw [hw]
    calc i * cols + j < i * cols + cols := by omega
      _ = (i + 1) * cols := by ring
      _ ≤ rows * cols := Nat.mul_le_mul_right cols hi
  have hplace : (i * cols + j) % cols = j ∧ (i * cols + j) / cols = i :=
    ⟨by rw [Nat.mul_comm, Nat.mul_add_mod, Nat.mod_eq_of_lt hj], by rw [Nat.mul_comm, Nat.mul_add_div (by omega), Nat.div_eq_of_lt hj, Nat.add_zero]⟩
  refine putCells_agreed _ _ _ _ ?_ ⟨(256 * j + i, w.getD (i * cols + j) 0), List.mem_mapIdx.2 ⟨i * cols + j, hn, ?_⟩, rfl⟩
  · rintro c hc hk
    obtain ⟨n, hlt, rfl⟩ := List.mem_mapIdx.1 hc
    have hdiv : n / cols < 256 := lt_of_lt_of_le (Nat.div_lt_of_lt_mul (by rwa [Nat.mul_comm, ← hw])) hr
    have hkey : 256 * (n % cols) + n / cols = 256 * j + i := hk
    obtain ⟨hcol, hrow⟩ : n % cols = j ∧ n / cols = i := by
      generalize n % cols = c, n / cols = r at hkey hdiv
      omega
    have hn' : n = i * cols + j := by rw [← hcol, ← hrow, Nat.mul_comm, Nat.div_add_mod]
    simp [← hn', hlt]
  · rw [hplace.1, hplace.2, List.getD_eq_getElem _ _ hn]

theorem writes_toNat (w : BitVec 32) : (if w = 0xFFFFFFFF#32 then w else w + 1).toNat = min (w.toNat + 1) 0xFFFFFFFF := by
  split_ifs with h
  · simp [h]
  · have hne : w.toNat ≠ 0xFFFFFFFF := fun he => h (BitVec.eq_of_toNat_eq he)
    have hlt := w.isLt
    rw [BitVec.toNat_add, show (1 : BitVec 32).toNat = 1 from rfl]
    omega

/-- R255: an array as a load programs it, `bad` of its cells having failed verify. -/
def programmed (X : Xar) (rows cols : Nat) (oexp : Int) (ofmt : BitVec 4) (w : List Byte) (bad : BitVec 8) : Xar :=
  { X with
    rows := rows, cols := cols, w := cellsOf cols w, oexp := oexp, ofmt := ofmt, bad := bad, reason := 0, lastb := 0xFF#8
    writes := if X.writes = 0xFFFFFFFF#32 then X.writes else X.writes + 1 }
/-- R255, R338: an array programmed with cells that failed verify is invalid; otherwise its calibration follows. -/
def verified (X : Xar) (rest : List XbCmd) : Xar :=
  if X.bad = 0 then { X with state := .calibrating, unusable := false, queue := .calibrate :: rest }
  else { X with state := .invalid, reason := 0x2#3, cgen := X.cgen + 1, queue := rest }

theorem exec_load (s : State) (home array : Nat) (rows cols : Nat) (oexp : Int) (ofmt : BitVec 4) (w : List Byte) (rest : List XbCmd)
    (hq : (s.xar (512 * home + array)).queue = .load rows cols oexp ofmt w :: rest) :
    exec (.xbLoadProgram home array) s = .next (s.draw.2.setXar (512 * home + array)
      (verified (programmed (s.xar (512 * home + array)) rows cols oexp ofmt w (Config.badCells s.draw.1)) rest)) := by
  refine congrArg Host.Outcome.next ?_
  simp only [hq]
  rfl

/-- R255: what a verify leaves, whatever it finds, and what it leaves by what it finds. -/
theorem verified_fields (X : Xar) (rest : List XbCmd) :
    let Y := verified X rest
    Y.rows = X.rows ∧ Y.cols = X.cols ∧ Y.oexp = X.oexp ∧ Y.ofmt = X.ofmt ∧ Y.w = X.w ∧ Y.writes = X.writes ∧ Y.lastb = X.lastb ∧
      (Y.bad = 0 → Y.state = .calibrating ∧ Y.reason = X.reason ∧ Y.queue = .calibrate :: rest) ∧
      (Y.bad ≠ 0 → Y.state = .invalid ∧ Y.reason = 2 ∧ Y.queue = rest) := by
  by_cases h : X.bad = 0
  · rw [verified, if_pos h]
    exact ⟨rfl, rfl, rfl, rfl, rfl, rfl, rfl, fun _ => ⟨rfl, rfl, rfl⟩, fun hn => absurd h hn⟩
  · rw [verified, if_neg h]
    exact ⟨rfl, rfl, rfl, rfl, rfl, rfl, rfl, fun hz => absurd hz h, fun _ => ⟨rfl, rfl, rfl⟩⟩

/-! #### Calibrations (R252, R257, R328) -/

/-- R257, R328: an array as the end of its calibration, number `n` of the free values, leaves it. -/
def calibrated (X : Xar) (n : Nat) (rest : List XbCmd) : Xar :=
  let fails := X.unusable || Config.calFails n
  let X1 := { X with
    queue := rest, lastb := 0xFF#8, unusable := fails, cgen := X.cgen + 1, calGen := X.cgen + 1, calRef := Config.calRef n
    cal := (List.range 128).foldl (fun m j => m.put 0 j (Config.calColumn n j)) [] }
  if fails then { X1 with state := .invalid, reason := 0x3#3 } else { X1 with state := .ready, reason := 0x0#3 }

section
variable (s : State) (home array : Nat) (rest : List XbCmd) (hq : (s.xar (512 * home + array)).queue = .calibrate :: rest)
include hq

theorem exec_calibrate_starts (hs : (s.xar (512 * home + array)).state ≠ .calibrating) : exec (.xbCalibrate home array) s =
    .next (s.setXar (512 * home + array) { s.xar (512 * home + array) with state := .calibrating, reason := 0 }) := by
  refine congrArg Host.Outcome.next ?_
  simp only [hq]
  exact if_pos hs

theorem exec_calibrate_ends (hs : (s.xar (512 * home + array)).state = .calibrating) : exec (.xbCalibrate home array) s =
    .next (s.draw.2.setXar (512 * home + array) (calibrated (s.xar (512 * home + array)) s.draw.1 rest)) := by
  refine congrArg Host.Outcome.next ?_
  simp only [hq]
  exact if_neg (not_not.2 hs)
end

/-- R257: how a calibration ends: once one has failed, invalid. -/
theorem calibrated_fields (X : Xar) (n : Nat) (rest : List XbCmd) :
    let Y := calibrated X n rest
    Y.queue = rest ∧ Y.cgen = X.cgen + 1 ∧ Y.w = X.w ∧ Y.lastb = 0xFF ∧ (X.unusable = true → Y.state = .invalid) ∧ (Y.unusable = true ↔ Y.state = .invalid) ∧
      ((Y.state = .ready ∧ Y.reason = 0) ∨ (Y.state = .invalid ∧ Y.reason = 3)) := by
  unfold calibrated
  dsimp only
  split_ifs with h
  · exact ⟨rfl, rfl, rfl, rfl, fun _ => rfl, ⟨fun _ => rfl, fun _ => h⟩, .inr ⟨rfl, rfl⟩⟩
  · refine ⟨rfl, rfl, rfl, rfl, fun hu => absurd (by rw [hu, Bool.true_or]) h, ⟨fun hu => absurd hu h, fun hi => nomatch hi⟩, .inl ⟨rfl, rfl⟩⟩

/-! #### Drift readings (R257) -/

/-- R257: an array as a reading of its reference columns leaves it. -/
def drifted (X : Xar) (v : BitVec 8) : Xar :=
  if X.state = .ready then if 128 ≤ v.toNat then { X with drift := v, state := .invalid, reason := 1 } else { X with drift := v } else X

theorem readDrift_xar (s : State) (q j : Nat) : (s.readDrift q).xar j = if j = q then drifted (s.xar q) (Config.drift s.free) else s.xar j := by
  unfold State.readDrift drifted
  dsimp only
  by_cases hs : (s.draw.2.xar q).state = .ready
  · rw [if_pos hs, xar_setXar, if_pos (show (s.xar q).state = .ready from hs)]
    rfl
  · rw [if_neg hs, if_neg (show ¬(s.xar q).state = .ready from hs)]
    by_cases hj : j = q
    · rw [if_pos hj, hj]
      rfl
    · rw [if_neg hj]
      rfl

/-- R257: a drift reading changes nothing but its array, and the next free value. -/
theorem readDrift_frame {γ : Type} (p : State → γ) (hp : ∀ (s : State) n xs, p { s with free := n, xars := xs } = p s) (s : State) (q : Nat) :
    p (s.readDrift q) = p s := by
  unfold State.readDrift
  dsimp only
  split_ifs
  · exact hp s (s.free + 1) _
  · exact hp s (s.free + 1) _
  · exact hp s (s.free + 1) s.xars

theorem drifted_queue (X : Xar) (v : BitVec 8) : (drifted X v).queue = X.queue := by
  unfold drifted
  split_ifs <;> rfl

theorem drifted_lastb (X : Xar) (v : BitVec 8) : (drifted X v).lastb = X.lastb := by
  unfold drifted
  split_ifs <;> rfl

theorem exec_driftReading (s : State) (home array : Nat) (h : (s.xar (512 * home + array)).state = .ready) :
    exec (.xbDriftReading home array) s = .next ({ s with free := s.free + 1 }.setXar (512 * home + array)
      (if 128 ≤ (Config.drift s.free).toNat then { s.xar (512 * home + array) with drift := Config.drift s.free, state := .invalid, reason := 1 }
       else { s.xar (512 * home + array) with drift := Config.drift s.free })) :=
  congrArg Host.Outcome.next ((if_pos h).trans (if_pos h))

/-! #### Products (R250, R256, R261, R375) -/

theorem natAbs_clamp_le (r : Nat) (x : Int) : (clamp (-r) r x).natAbs ≤ r := by
  unfold clamp
  split_ifs <;> omega

/-- R250, R256: a column's value lies within its reach of the exact sum. -/
theorem analog_near (X : Xar) (x : Nat → Int) (n j : Nat) : ∃ (v : Int) (e : Nat),
    X.analog x n j = .fin (decide (v < 0)) v.natAbs (X.oexp - 8 - e) ∧ (v - X.exact x j * 2 ^ (8 + e)).natAbs ≤ X.reach x j * 2 ^ e := by
  refine ⟨X.exact x j * 2 ^ (8 + (Config.noise n j).2) + clamp (-(X.reach x j * 2 ^ (Config.noise n j).2 : Int)) (X.reach x j * 2 ^ (Config.noise n j).2)
    (Config.noise n j).1, (Config.noise n j).2, rfl, ?_⟩
  rw [add_sub_cancel_left]
  have h := natAbs_clamp_le (X.reach x j * 2 ^ (Config.noise n j).2) (Config.noise n j).1
  push_cast at h
  exact h

/-- The bit length of m - 1: the least power of two that reaches m. -/
theorem le_two_pow_ceilLog (m : Nat) (hm : 0 < m) : m ≤ 2 ^ (if m = 1 then 0 else Nat.log2 (m - 1) + 1) := by
  split_ifs with h
  · simp [h]
  · have := Nat.lt_log2_self (n := m - 1)
    omega

theorem toNat_bexp (m : Nat) (e : Int) (hm : 0 < m) :
    ((bexp m e).toNat : Int) = min 254 (max 1 (128 + e + (if m = 1 then 0 else Nat.log2 (m - 1) + 1 : Nat))) := by
  rw [bexp, if_neg (by omega), BitVec.toNat_ofInt]
  generalize (128 + e + ((if m = 1 then 0 else Nat.log2 (m - 1) + 1 : Nat) : Int)) = x
  omega

/-- R261: below 254 the bound exponent covers m · 2^e. -/
theorem bexp_covers (m : Nat) (e : Int) (hm : 0 < m) : 1 ≤ (bexp m e).toNat ∧ (bexp m e).toNat ≤ 254 ∧
    ((bexp m e).toNat < 254 → 128 + e ≤ (bexp m e).toNat ∧ m ≤ 2 ^ ((bexp m e).toNat - 128 - e).toNat) := by
  have hk := toNat_bexp m e hm
  have hpow := le_two_pow_ceilLog m hm
  generalize (if m = 1 then 0 else Nat.log2 (m - 1) + 1) = L at hk hpow
  refine ⟨by omega, by omega, fun h => ⟨by omega, hpow.trans (Nat.pow_le_pow_right (by decide) (by omega))⟩⟩

/-- R256: a fragment's results once product `id` is formed, `out` giving its lanes: those of the first register, then those of the second. -/
def formedOuts (outs : List Out) (id : Nat) (out : Nat → Word) : List Out :=
  outs.mapIdx fun i o => if o.kind = .array id then
    { o with kind := .unit, vals := lanesOf fun l => if some i = outs.findIdx? fun o => o.kind == .array id then out l else out (96 + l) } else o

/-- The first of some results is the one with none of them before it. -/
theorem findIdx?_iff_take (outs : List Out) (p : Out → Bool) (i : Nat) (o : Out) (ho : outs[i]? = some o) (hp : p o = true) :
    some i = outs.findIdx? p ↔ (outs.take i).any p = false := by
  obtain ⟨hi, rfl⟩ := List.getElem?_eq_some_iff.1 ho
  rw [eq_comm, List.findIdx?_eq_some_iff_getElem, List.any_eq_false]
  constructor
  · rintro ⟨_, -, hbefore⟩ z hz
    obtain ⟨j, hj, rfl⟩ := List.mem_take_iff_getElem.1 hz
    exact hbefore j (by omega)
  · exact fun h => ⟨hi, hp, fun j hj => h _ (List.mem_take_iff_getElem.2 ⟨j, by omega, rfl⟩)⟩

theorem lane_lanesOf (f : Nat → Word) (l : Nat) (hl : l < 96) : lane (lanesOf f) l = f l := by
  simp [lane, lanesOf, hl]

theorem formedOuts_get (outs : List Out) (id : Nat) (out : Nat → Word) (i : Nat) (o : Out) (ho : outs[i]? = some o) :
    ∃ o', (formedOuts outs id out)[i]? = some o' ∧ (o.kind ≠ .array id → o' = o) ∧
      (o.kind = .array id → o' = { o with kind := .unit, vals := o'.vals } ∧ ∀ l, l < 96 →
        lane o'.vals l = out (if (outs.take i).any (fun z => z.kind == .array id) then 96 + l else l)) := by
  rw [formedOuts, List.getElem?_mapIdx, ho, Option.map_some]
  refine ⟨_, rfl, fun h => if_neg h, fun h => ?_⟩
  rw [if_pos h]
  refine ⟨rfl, fun l hl => ?_⟩
  have hfirst := findIdx?_iff_take outs (fun z => z.kind == .array id) i o ho (beq_iff_eq.2 h)
  dsimp only
  rw [lane_lanesOf _ l hl]
  cases hany : (outs.take i).any fun z => z.kind == .array id
  · rw [if_pos (hfirst.2 hany), if_neg Bool.false_ne_true]
  · rw [if_neg fun hf => Bool.noConfusion (hany.symm.trans (hfirst.1 hf)), if_pos rfl]

/-- R256, R375: the state once a product is formed, before the drift is read. -/
def formed (s : State) (home q frag id : Nat) (va : Lanes) (act : Mask) (ovt : BitVec 16) (rest : List XbCmd) : State :=
  let X := s.xar q
  ((s.draw.2.setHome home { s.home home with credProd := (s.home home).credProd - 1 }).setXar q { X with
    queue := rest, lastb := bexp (((List.range 128).map (X.reach (xbInput X va act))).foldl max 0) (X.oexp - 8) }).setFrag frag
    { s.frag frag with outs := formedOuts (s.frag frag).outs id fun j => X.output ovt (X.analog (xbInput X va act) s.free j) }

theorem exec_product (s : State) (home array frag id : Nat) (va : Lanes) (act : Mask) (ovt : BitVec 16) (rest : List XbCmd)
    (hq : (s.xar (512 * home + array)).queue = .product frag id va act ovt :: rest) (hc : 0 < (s.home home).credProd) :
    exec (.xbProduct home array) s = .next ((formed s home (512 * home + array) frag id va act ovt rest).readDrift (512 * home + array)) := by
  refine congrArg Host.Outcome.next ?_
  simp only [hq]
  exact if_neg (by omega)

section
variable (s : State) (home q frag id : Nat) (va : Lanes) (act : Mask) (ovt : BitVec 16) (rest : List XbCmd)

theorem formed_xar (j : Nat) : (formed s home q frag id va act ovt rest).xar j = if j = q then
    { s.xar q with queue := rest, lastb := bexp (((List.range 128).map ((s.xar q).reach (xbInput (s.xar q) va act))).foldl max 0) ((s.xar q).oexp - 8) }
    else s.xar j := KMap.get_ins ..

theorem formed_home : (formed s home q frag id va act ovt rest).home home = { s.home home with credProd := (s.home home).credProd - 1 } := KMap.get_ins_same ..

theorem formed_outs : ((formed s home q frag id va act ovt rest).frag frag).outs =
    formedOuts (s.frag frag).outs id fun j => (s.xar q).output ovt ((s.xar q).analog (xbInput (s.xar q) va act) s.free j) := by
  rw [formed, State.frag_setFrag_same]

theorem sameBut_formed : SameBut s (formed s home q frag id va act ovt rest) := ⟨rfl, rfl, rfl, rfl, rfl, rfl, rfl, rfl, rfl⟩
end

theorem sameBut_readDrift (s u : State) (q : Nat) (h : SameBut s u) : SameBut s (u.readDrift q) := by
  obtain ⟨hmem, hscratch, hvault, hopmem, hteams, hgrids, hparts, hcmds, hnet⟩ := h
  have keep {γ : Type} (p : State → γ) (hp : ∀ (s : State) n xs, p { s with free := n, xars := xs } = p s) := readDrift_frame p hp u q
  exact ⟨(keep State.mem fun _ _ _ => rfl).trans hmem, (keep State.scratch fun _ _ _ => rfl).trans hscratch, (keep State.vault fun _ _ _ => rfl).trans hvault,
    (keep State.opmem fun _ _ _ => rfl).trans hopmem, (keep State.teams fun _ _ _ => rfl).trans hteams, (keep State.grids fun _ _ _ => rfl).trans hgrids,
    (keep State.parts fun _ _ _ => rfl).trans hparts, (keep State.cmds fun _ _ _ => rfl).trans hcmds, (keep State.net fun _ _ _ => rfl).trans hnet⟩

/-- Settles O36: a load by what it leaves in the array, a calibration by how it ends, a product by its columns and its fragment's results. -/
theorem crossbarSteps : Obligations.CrossbarSteps := by
  refine ⟨?_, fun m e => ⟨rfl, bexp_covers m e⟩⟩
  rintro s home array _ rest q only rfl
  refine ⟨fun rows cols oexp ofmt w hq hr hw => ?_, fun hq hs => exec_calibrate_starts s home array rest hq hs, fun hq hs => ?_,
    fun frag id va act ovt hq hc => ?_, fun hs => ⟨(Config.drift s.free).toNat, ?_⟩⟩
  · refine ⟨_, exec_load s home array rows cols oexp ofmt w rest hq, drawn_setXar_only s q _, ?_⟩
    rw [xar_setXar_same]
    obtain ⟨hrows, hcols, hexp, hfmt, hcells, hwrites, hlast, hpass, hfail⟩ :=
      verified_fields (programmed (s.xar q) rows cols oexp ofmt w (Config.badCells s.draw.1)) rest
    refine ⟨hrows, hcols, hexp, hfmt, fun i j hi hj => ?_, by rw [hwrites, programmed, writes_toNat], hlast, hpass, hfail⟩
    rw [Xar.weight, hcells, programmed, get_cellsOf rows cols w hr hw i j hi hj]
  · refine ⟨_, exec_calibrate_ends s home array rest hq hs, drawn_setXar_only s q _, ?_⟩
    rw [xar_setXar_same]
    exact calibrated_fields (s.xar q) s.draw.1 rest
  · intro x fs
    refine ⟨_, fun j => (s.xar q).analog x s.free j, exec_product s home array frag id va act ovt rest hq hc,
      ⟨sameBut_readDrift _ _ _ (sameBut_formed ..), fun j hj => ?_⟩, ?_, ?_, ?_, analog_near (s.xar q) x s.free, ?_⟩
    · rw [readDrift_xar, if_neg hj, formed_xar, if_neg hj]
    · rw [readDrift_frame (fun t => t.home home) (fun _ _ _ => rfl), formed_home]
      exact Nat.sub_add_cancel hc
    · rw [readDrift_xar, if_pos rfl, drifted_queue, formed_xar, if_pos rfl]
    · rw [readDrift_xar, if_pos rfl, drifted_lastb, formed_xar, if_pos rfl]
    · intro i o ho
      rw [readDrift_frame (fun t => t.frag frag) (fun _ _ _ => rfl), formed_outs]
      exact formedOuts_get fs id _ i o ho
  · rw [exec_driftReading s home array hs, BitVec.ofNat_toNat, BitVec.setWidth_eq]

end Sys2Proof.Proofs.Crossbar

/-! ### LAUNCH and LSTAT (R290 to R292, R294, R298) -/

namespace Sys2Proof.Proofs.Launch

open Sys2Proof Sys2Proof.Machine Sys2Proof.Claim Sys2Proof.Proofs.Privileged

/-! #### Before the word's own effect (R225, R235, R342) -/

theorem noTrapMode_none (s : State) (k : Act) (h : s.f.trap = none) : noTrapMode s k = k := by
  rw [noTrapMode, h]
  rfl

theorem keeps_iff (s : State) (g : Group) : s.keeps g = true ↔ g.dev = s.fabric.toNat := beq_iff_eq
theorem keeps_false_iff (s : State) (g : Group) : s.keeps g = false ↔ g.dev ≠ s.fabric.toNat := beq_eq_false_iff_ne

theorem waitsFor_unshared (m e : Msg) (h : ∀ a b, m.request = some a → e.request = some b → sharesOwner a.1 b.1 = false) : m.waitsFor e = false := by
  unfold Msg.waitsFor
  split
  · rw [h _ _ ‹_› ‹_›]
    rfl
  · rfl

theorem bankBefore_unshared (s : State) (m : Msg) (unit : Option Nat)
    (h : ∀ a, m.request = some a → ∀ b ∈ s.banks, ∀ x ∈ b.2.queue, sharesOwner a.1 x.owners = false) : s.bankBefore m unit = false := by
  unfold State.bankBefore
  split
  · refine List.any_eq_false.2 fun b hb => ?_
    rw [Bool.and_eq_true, not_and, Bool.not_eq_true]
    refine fun _ => List.any_eq_false.2 fun x hx => ?_
    rw [h _ ‹_› b hb x hx]
    exact Bool.false_ne_true
  · rfl

/-- R235, R242, R285: with no request of its own in flight, a request of the fragment at issue to a page that is not SO may arrive. -/
theorem mayArrive_nothingBefore (s : State) (h : NothingBefore s) (r : Req) (hr : r.owners = [s.cur]) (ho : r.ord ≠ 0) :
    s.mayArrive s.net.length (.store r) none = true := by
  obtain ⟨hnet, hbanks⟩ := h
  have hwaits : ∀ e ∈ s.net.take s.net.length, (Msg.store r).waitsFor e = false := by
    refine fun e he => waitsFor_unshared _ _ ?_
    rintro _ b ⟨⟩ hb
    have hq := hnet e (List.mem_of_mem_take he)
    rw [hb] at hq
    simpa [sharesOwner, hr] using hq
  have hbank : s.bankBefore (.store r) none = false := by
    refine bankBefore_unshared _ _ _ ?_
    rintro _ ⟨⟩ b hb x hx
    simpa [sharesOwner, hr] using hbanks b hb x hx
  have hso : (Msg.store r).so = false := beq_eq_false_iff_ne.2 ho
  have hany : ((s.net.take s.net.length).any fun e => (Msg.store r).waitsFor e && !s.looseRead (.store r)) = false :=
    List.any_eq_false.2 fun e he => by rw [hwaits e he]; exact Bool.false_ne_true
  rw [State.mayArrive, hany, hbank, hso]
  rfl

/-- R242: a word that reads a scratchpad then waits for nothing. -/
theorem afterStores_nothingBefore (s : State) (h : NothingBefore s) (key n : Nat) (k : Act) : s.afterStores key n k = k :=
  if_pos (mayArrive_nothingBefore s h _ rfl Nat.one_ne_zero)

/-- R298, R302, R308: a word that is sent to its team's core asks it, once its answer's value and a fault that comes back are what it comes to. -/
theorem asksTeam_of {i : Instr} {s : State} {act : Act} {w : TeamWord} {k : WordReply → State → Act} {e : DWord → State → State}
    (hexec : exec i s = finish s act) (hact : (∀ y, s.f.grant ≠ .word (.record y)) → act = s.wordAway w k)
    (hfault : ∀ x t, k (.fault x) t = .fault x) (hdone : ∀ v t, k (.done v) t = .done (e v t)) (hpc : ∀ v t, (e v t).f.pc = t.f.pc) :
    AsksTeam i s w e := by
  refine ⟨fun h => holds_of hexec ?_, fun h => holds_of hexec ?_, fun h => faults_of hexec ?_, fun x h => faults_of hexec ?_, fun v h => goes_of hexec ?_ ?_⟩
  · rw [hact fun y => by simp [h], State.wordAway, h]
  · rw [hact fun y => by simp [h], State.wordAway_asked s w k h]
  · rw [hact fun y => by simp [h], State.wordAway_refused s w k h]
  · rw [hact fun y => by simp [h], State.wordAway_word s w k _ h, hfault]
  · rw [hact fun y => by simp [h], State.wordAway_word s w k _ h, hdone]
  · rw [hpc, State.f_setF]

/-! #### The lease list (R291) -/

/-- R291, R298: the 8-byte words of a list, in pairs. -/
theorem pairUp_words (n : Nat) (f : Nat → DWord) :
    pairUp ((List.range (2 * n)).map fun i => (f i, false)) = (List.range n).map fun i => leaseEnt (f (2 * i + 1) ++ f (2 * i)) := by
  induction n generalizing f with
  | zero => rfl
  | succ n ih =>
    rw [Nat.mul_succ, List.range_succ_eq_map, List.range_succ_eq_map, List.range_succ_eq_map]
    simp only [List.map_cons, List.map_map, pairUp]
    exact congrArg₂ List.cons rfl (ih fun i => f (i + 2))

/-- R291: the words of the lease list that a record names, as addresses. -/
def leaseWords (bits : BitVec 512) : List DWord :=
  (List.range (2 * (LaunchRec.ofBits bits).nlease)).map fun i => (LaunchRec.ofBits bits).lease + BitVec.ofNat 64 (8 * i)
/-- R291: the lease list that a record names, as memory holds it. -/
def leasesAt (s : State) (bits : BitVec 512) : List (LeaseEnt × Bool) :=
  let word := fun i => (BitVec.ofNat 64 (valueAt s ((LaunchRec.ofBits bits).lease + BitVec.ofNat 64 (8 * i)) 8) : DWord)
  (List.range (LaunchRec.ofBits bits).nlease).map fun i => leaseEnt (word (2 * i + 1) ++ word (2 * i))

theorem pairUp_leaseWords (s : State) (bits : BitVec 512) :
    pairUp ((leaseWords bits).map fun va => (BitVec.ofNat 64 (valueAt s va 8), false)) = leasesAt s bits := by
  rw [leaseWords, List.map_map]
  exact pairUp_words _ _

/-- R298: a list that may be read at once is read, and what comes back is what the fragment goes on with. -/
theorem readLeases (s : State) (bits : BitVec 512) (h : ReadsHere s 8 (leaseWords bits)) (k : List (LeaseEnt × Bool) → State → Act) :
    ((s.readVas (.frag s.cur) s.f.coreKey s.g.rights 8 (leaseWords bits)).act fun xs t => orFault (badRead (leaseWords bits) xs) (k (pairUp xs) t)) =
      k (leasesAt s bits) (translated s (leaseWords bits)) := by
  rw [readVas_here s 8 _ h]
  simp only [Got.act]
  rw [badRead_readable _ fun va => BitVec.ofNat 64 (valueAt s va 8), pairUp_leaseWords]
  rfl

/-! #### LAUNCH (R298) -/

theorem exec_launch (s : State) (d a : RegNum) (ht : s.f.trap = none) : exec (.launch d a) s = finish s
    (if s.g.gidx ≠ 0 then .fault (faultOf 0x01#8 1)
     else if s.g.depth = 10 then .fault (faultOf 0x23#8)
     else s.clean [.s a]
      (if (s.sv a).toNat % 64 ≠ 0 then .fault (faultAt 0x13#8 0 [⟨0, s.sv a, 64⟩])
       else if s.keeps s.g = false then launchAway s d (s.sv a)
       else
        match s.scrBytes s.g.team s.g.rights.asid (s.sv a) 64 false with
        | .error e => .fault e
        | .ok key =>
          s.afterStores key 64 <| if s.accessHeld s.cur then .hold s
          else (s.readVas (.frag s.cur) s.f.coreKey s.g.rights 8 (leaseWords (BitVec.ofNat 512 (s.valIn .scratch key 64)))).act fun xs t =>
            orFault (badRead (leaseWords (BitVec.ofNat 512 (s.valIn .scratch key 64))) xs)
              (launchAct t d (BitVec.ofNat 512 (s.valIn .scratch key 64)) (pairUp xs)))) :=
  congrArg (finish s) (noTrapMode_none s _ ht)

section
variable (s : State) (d a : RegNum) (ht : s.f.trap = none) (hg : s.g.gidx = 0) (hd : s.g.depth ≠ 10) (hp : (s.sreg a).poison = false)
  (h64 : (s.sv a).toNat % 64 = 0)
include ht hg hd hp h64

/-- R298, log 58: away from its group's device. -/
theorem exec_launch_away (hdev : s.g.dev ≠ s.fabric.toNat) : exec (.launch d a) s = finish s (launchAway s d (s.sv a)) := by
  rw [exec_launch s d a ht, if_neg (not_not.2 hg), if_neg hd, State.clean_none s _ _ (poisoned_single s a hp), if_neg (not_not.2 h64),
    if_pos ((keeps_false_iff ..).2 hdev)]

/-- R298: a record and a list that may be read at once are read. -/
theorem exec_launch_here (key : Nat) (hdev : s.g.dev = s.fabric.toNat) (hscr : s.scrBytes s.g.team s.g.rights.asid (s.sv a) 64 false = .ok key)
    (hn : NothingBefore s) (hh : s.accessHeld s.cur = false) (hr : ReadsHere s 8 (leaseWords (BitVec.ofNat 512 (s.valIn .scratch key 64)))) :
    exec (.launch d a) s = finish s (launchAct (translated s (leaseWords (BitVec.ofNat 512 (s.valIn .scratch key 64)))) d
      (BitVec.ofNat 512 (s.valIn .scratch key 64)) (leasesAt s (BitVec.ofNat 512 (s.valIn .scratch key 64)))) := by
  rw [exec_launch s d a ht, if_neg (not_not.2 hg), if_neg hd, State.clean_none s _ _ (poisoned_single s a hp), if_neg (not_not.2 h64),
    if_neg (by rw [(keeps_iff ..).2 hdev]; exact Bool.noConfusion)]
  simp only [hscr]
  rw [afterStores_nothingBefore s hn, if_neg (by rw [hh]; exact Bool.false_ne_true), readLeases s _ hr fun ls t => launchAct t d _ ls]
end

theorem launchAway_record (s : State) (d : RegNum) (sa : DWord) (bits : BitVec 512) (h : s.f.grant = .word (.record bits))
    (hh : s.accessHeld s.cur = false) (hr : s.released s.cur false = true) (hreads : ReadsHere s 8 (leaseWords bits)) :
    launchAway s d sa = .hold ((translated s (leaseWords bits)).sendWord s.cur (.launch bits (leasesAt s bits))) := by
  rw [launchAway, h]
  dsimp only
  rw [if_neg (by simp [hh, hr])]
  refine (readLeases s bits hreads fun ls t => .hold (t.sendWord t.cur (.launch bits ls))).trans ?_
  rw [translated_frame State.cur (fun _ _ => rfl)]

theorem launchAway_other (s : State) (d : RegNum) (sa : DWord) (h : ∀ y, s.f.grant ≠ .word (.record y)) :
    launchAway s d sa = s.wordAway (.record sa) (launchEnd d) := by
  unfold launchAway
  split
  · exact absurd ‹_› (h _)
  · rfl

/-! #### The child grid (R294, R298) -/

/-- R294, R298: in `u` grid `k` stands at the end of the team's queue, made from `c` as the partition's next grid after `s`. -/
def Made (s u : State) (team k : Nat) (c : Grid) (age : Nat) : Prop :=
  (u.grid k).alive = true ∧ (u.grid k).gridid = BitVec.ofNat 28 (s.part c.part).nextGrid ∧
    (u.part c.part).nextGrid = (s.part c.part).nextGrid + 1 ∧ (u.team team).pend = (s.team team).pend ++ [k] ∧ (u.grid k).rcd = c.rcd ∧
    (u.grid k).leases = c.leases ∧ (u.grid k).prio = c.prio ∧ (u.grid k).depth = c.depth ∧ (u.grid k).parent = c.parent ∧ (u.grid k).age = age

theorem grid_append (s : State) (team k : Nat) : (s.append team k).grid k =
    { s.grid k with
      age := s.nextId * 2 ^ 33, alive := true, gridid := BitVec.ofNat 28 (s.part (s.grid k).part).nextGrid, bitmap := []
      rights := { (s.grid k).rights with grid := if (s.grid k).formation then (s.grid k).rights.grid else (s.part (s.grid k).part).nextGrid } } :=
  KMap.get_ins_same ..

theorem part_append (s : State) (team k : Nat) :
    (s.append team k).part (s.grid k).part = { s.part (s.grid k).part with nextGrid := (s.part (s.grid k).part).nextGrid + 1 } :=
  KMap.get_ins_same ..

theorem team_append (s : State) (team k : Nat) : (s.append team k).team team = { s.team team with pend := (s.team team).pend ++ [k] } := KMap.get_ins_same ..

theorem made_append (s : State) (team k : Nat) : Made s (s.append team k) team k (s.grid k) (s.nextId * 2 ^ 33) := by
  rw [Made, grid_append, part_append, team_append]
  exact ⟨rfl, rfl, rfl, rfl, rfl, rfl, rfl, rfl, rfl, rfl⟩

theorem appendIf_room (s : State) (team k : Nat) (x : WordReply) (h : (s.team team).pend.length < 4) :
    s.appendIf team k x = (s.append team k, .done ((BitVec.ofNat 28 (s.part (s.grid k).part).nextGrid).setWidth 64)) := by
  rw [State.appendIf, if_pos h, grid_append]

theorem appendIf_full (s : State) (team k : Nat) (x : WordReply) (h : 4 ≤ (s.team team).pend.length) : s.appendIf team k x = (s, x) :=
  if_neg (by omega)

/-- R298: the state in which the record of a LAUNCH stands as a draft under the next number. -/
def drafted (s : State) (bits : BitVec 512) (ls : List (LeaseEnt × Bool)) : State :=
  s.newId.2.setGrid s.nextId (s.draft s.f.group (LaunchRec.ofBits bits) (ls.map (·.1)))

theorem grid_drafted (s : State) (bits : BitVec 512) (ls : List (LeaseEnt × Bool)) :
    (drafted s bits ls).grid s.nextId = s.draft s.f.group (LaunchRec.ofBits bits) (ls.map (·.1)) := KMap.get_ins_same ..

/-- R292, R298: why LAUNCH refuses a record. -/
def refusalHere (s : State) (bits : BitVec 512) (ls : List (LeaseEnt × Bool)) : Option (Nat × Nat) :=
  refusal bits ls (some (s.grid s.t.grid).leases) (s.part s.g.rights.part).nextGrid

section
variable (s : State) (d : RegNum) (bits : BitVec 512) (ls : List (LeaseEnt × Bool))

theorem launchAct_refused (n off : Nat) (h : refusalHere s bits ls = some (n, off)) :
    launchAct s d bits ls = .fault (faultOf 0x01#8 (BitVec.ofNat 64 n) (BitVec.ofNat 64 off)) := by
  have hfor : s.launchFor s.f.group bits ls = (s, .fault (faultOf 0x01#8 (BitVec.ofNat 64 n) (BitVec.ofNat 64 off))) := by
    rw [refusalHere, State.t, State.g] at h
    simp only [State.launchFor, h]
  rw [launchAct, hfor]

variable (h : refusalHere s bits ls = none) (hr : s.released s.cur false = true)
include h

theorem launchFor_drafted : s.launchFor s.f.group bits ls = (drafted s bits ls).appendIf s.g.team s.nextId (.later s.nextId) := by
  rw [refusalHere, State.t, State.g] at h
  simp only [State.launchFor, h]
  rfl

include hr

/-- R298: with room in the team's queue, the grid is made and its GRIDID written. -/
theorem launchAct_room (hroom : s.t.pend.length < 4) : launchAct s d bits ls =
    .done ((((drafted s bits ls).append s.g.team s.nextId).wrS d ((BitVec.ofNat 28 (s.part s.g.rights.part).nextGrid).setWidth 64) false).setE false) := by
  have hfor := (launchFor_drafted s bits ls h).trans (appendIf_room (drafted s bits ls) s.g.team s.nextId _ hroom)
  rw [grid_drafted] at hfor
  rw [launchAct, hfor]
  dsimp only
  rw [if_neg (by simp [hr])]
  rfl

/-- R298: without room, the fragment parks with its draft. -/
theorem launchAct_full (hfull : 4 ≤ s.t.pend.length) : launchAct s d bits ls = .away ((drafted s bits ls).parkLaunch s.nextId d) := by
  have hfor := (launchFor_drafted s bits ls h).trans (appendIf_full (drafted s bits ls) s.g.team s.nextId _ hfull)
  rw [launchAct, hfor]
  dsimp only
  rw [if_neg (by simp [hr])]
  rfl
end

/-! #### The park in LAUNCH (R63, R110, R298) -/

/-- R63: what becomes of a fragment with results outstanding, or with neither a division nor a trap due. -/
theorem settle_undivided (s : State) (n : Nat) (h : (s.frag n).outs ≠ [] ∨ ((s.frag n).leave = none ∧ (s.frag n).due = none)) :
    s.settle n = s ∨ s.settle n = s.setFrag n { s.frag n with parked := false } := by
  unfold State.settle
  dsimp only
  by_cases hq : (s.frag n).outs ≠ [] ∨ (s.frag n).alive = false
  · exact .inl (if_pos hq)
  · obtain ⟨hl, hd⟩ := h.resolve_left fun ho => hq (.inl ho)
    rw [if_neg hq, hl, hd]
    dsimp only
    split_ifs
    · exact .inr rfl
    · exact .inl rfl

/-- R110, R298: the fragment at issue as it parks in LAUNCH. -/
def inLaunch (s : State) (k : Nat) (d : RegNum) : Frag :=
  let due := match s.f.grp with | some g => g.leave.map fun (l : LeaveDue) => { l with park := g.park || s.f.park } | none => none
  { s.f with
    state := .launch k d, pc := s.f.pc + 4, grp := none, pfx := none, held := false, counted := false, chain := false, parked := true, turn := 0
    leave := match due with | some l => some l | none => s.f.leave }

theorem inLaunch_leave (s : State) (k : Nat) (d : RegNum) (h : Still s) : (inLaunch s k d).leave = s.f.leave := by
  unfold inLaunch
  dsimp only
  cases hg : s.f.grp with
  | none => rfl
  | some g =>
    dsimp only
    rw [h.2 g hg]
    rfl

/-- R110, R298: a fragment that parks in LAUNCH keeps its context-state entry, and its park changes neither grids, partitions nor device memory. -/
theorem parkLaunch_waits (s : State) (k : Nat) (d : RegNum) (h : s.f.outs ≠ [] ∨ (Still s ∧ s.f.leave = none ∧ s.f.due = none)) :
    ((s.parkLaunch k d).frag s.cur).state = .launch k d ∧ ((s.parkLaunch k d).frag s.cur).resident = s.f.resident ∧
      ((s.parkLaunch k d).frag s.cur).pc = s.f.pc + 4 ∧ (s.parkLaunch k d).grids = s.grids ∧ (s.parkLaunch k d).parts = s.parts ∧
      (s.parkLaunch k d).mem = s.mem := by
  have hpark : s.parkLaunch k d = ((s.setF (inLaunch s k d)).setCore s.f.coreKey (((s.setF (inLaunch s k d)).core s.f.coreKey).endTurn s.cur)).settle s.cur := rfl
  generalize hv : (s.setF (inLaunch s k d)).setCore s.f.coreKey (((s.setF (inLaunch s k d)).core s.f.coreKey).endTurn s.cur) = v at hpark
  have hf : v.frag s.cur = inLaunch s k d := hv ▸ KMap.get_ins_same ..
  have hdue : (inLaunch s k d).outs ≠ [] ∨ ((inLaunch s k d).leave = none ∧ (inLaunch s k d).due = none) :=
    h.imp id fun hstill => ⟨(inLaunch_leave s k d hstill.1).trans hstill.2.1, hstill.2.2⟩
  rcases settle_undivided v s.cur (hf.symm ▸ hdue) with hu | hu
  · rw [hpark, hu, hf, ← hv]
    exact ⟨rfl, rfl, rfl, rfl, rfl, rfl⟩
  · rw [hpark, hu, State.frag_setFrag_same, hf, ← hv]
    exact ⟨rfl, rfl, rfl, rfl, rfl, rfl⟩

/-! #### Residency (R108 to R110, R165) -/

theorem dropLine_eq (s : State) (core : Nat) (l : LineEnt) : ∃ cs es, s.dropLine core l = { s with cores := cs, sramErr := es } := by
  unfold State.dropLine
  dsimp only
  split_ifs
  · exact ⟨_, _, rfl⟩
  · exact ⟨_, s.sramErr, rfl⟩

/-- R110: evictions change the cores' lines, and mend errors of the records written back. -/
theorem trimLines_eq (core room fuel : Nat) (s : State) : ∃ cs es, s.trimLines core room fuel = { s with cores := cs, sramErr := es } := by
  induction fuel generalizing s with
  | zero => exact ⟨s.cores, s.sramErr, rfl⟩
  | succ fuel ih =>
    rw [State.trimLines]
    split_ifs
    · exact ⟨s.cores, s.sramErr, rfl⟩
    · cases s.victim core with
      | none => exact ⟨s.cores, s.sramErr, rfl⟩
      | some v =>
        obtain ⟨cs, es, h⟩ := dropLine_eq s core v
        obtain ⟨cs', es', h'⟩ := ih (s.dropLine core v)
        exact ⟨cs', es', h'.trans (by rw [h])⟩

/-- R108, R109: what taking a context-state entry changes. -/
theorem seat_eq (s : State) (n : Nat) : ∃ cs es, s.seat n =
    { s with cores := cs, sramErr := es, frags := s.frags.ins n { s.frag n with resident := true, since := s.clock } } := by
  obtain ⟨cs, es, h⟩ := trimLines_eq (s.frag n).coreKey 2 1024 s
  unfold State.seat State.lineRoom
  rw [h]
  exact ⟨_, _, rfl⟩

/-- R109, R165: asking for a context-state entry changes the cores and, of fragments, at most its residency. -/
theorem acquire_eq (s : State) (n : Nat) : ∃ cs es, s.acquire n = { s with cores := cs, sramErr := es } ∨
    s.acquire n = { s with cores := cs, sramErr := es, frags := s.frags.ins n { s.frag n with resident := true, since := s.clock } } := by
  unfold State.acquire
  dsimp only
  split_ifs
  · obtain ⟨cs, es, h⟩ := seat_eq s n
    exact ⟨cs, es, .inr h⟩
  · exact ⟨s.cores, s.sramErr, .inl rfl⟩
  · exact ⟨_, s.sramErr, .inl rfl⟩

theorem acquire_frame {γ : Type} (p : State → γ) (hp : ∀ (s : State) cs es fs, p { s with cores := cs, sramErr := es, frags := fs } = p s) (s : State) (n : Nat) :
    p (s.acquire n) = p s := by
  obtain ⟨cs, es, h | h⟩ := acquire_eq s n
  · rw [h]
    exact hp s cs es s.frags
  · rw [h]
    exact hp s cs es _

theorem acquire_frag {γ : Type} (p : Frag → γ) (hp : ∀ (f : Frag) t, p { f with resident := true, since := t } = p f) (s : State) (n : Nat) :
    p ((s.acquire n).frag n) = p (s.frag n) := by
  obtain ⟨cs, es, h | h⟩ := acquire_eq s n
  · rw [h]
    rfl
  · rw [h]
    exact (congrArg p (KMap.get_ins_same ..)).trans (hp _ _)

/-! #### The end of a park (R165, R298) -/

/-- R298: the fragment writes what its LAUNCH came to, and goes on; one that was evicted waits for an entry again. -/
def resumed (s : State) (n : Nat) (d : RegNum) (v : DWord) : State :=
  let w := (({ s with cur := n } : State).wrS d v false).setE false
  let w1 := w.setFrag n { w.frag n with state := .ready, grant := .none }
  if (s.frag n).resident then w1 else w1.acquire n

section
variable (s : State) (n : Nat) (d : RegNum) (v : DWord)

theorem resumed_frame {γ : Type} (p : State → γ) (hp : ∀ (s : State) c cs es fs, p { s with cur := c, cores := cs, sramErr := es, frags := fs } = p s) :
    p (resumed s n d v) = p s := by
  unfold resumed
  dsimp only
  split_ifs
  · exact hp s n s.cores s.sramErr _
  · rw [acquire_frame p fun s cs es fs => hp s s.cur cs es fs]
    exact hp s n s.cores s.sramErr _

theorem resumed_frag {γ : Type} (p : Frag → γ) (hp : ∀ (f : Frag) t, p { f with resident := true, since := t } = p f) : p ((resumed s n d v).frag n) =
    p { ((({ s with cur := n } : State).wrS d v false).setE false).f with state := .ready, grant := .none } := by
  unfold resumed
  dsimp only
  split_ifs
  · rw [State.frag_setFrag_same]
    rfl
  · rw [acquire_frag p hp, State.frag_setFrag_same]
    rfl

/-- The registers after a scalar result and with CFLAGS.E 0 come from the fragment at issue alone. -/
theorem wrS_setE_regs_congr (u : State) (h : s.f = u.f) :
    ((s.wrS d v false).setE false).f.regs = ((u.wrS d v false).setE false).f.regs := by
  simp only [State.setE, State.setFlags, State.modRegs, State.wrS, State.f_setF, h]

theorem resumed_ready : ((resumed s n d v).frag n).state = .ready ∧ ((resumed s n d v).frag n).pc = (s.frag n).pc ∧
    ((resumed s n d v).frag n).regs = ((({ s with cur := n } : State).wrS d v false).setE false).f.regs := by
  refine ⟨resumed_frag s n d v Frag.state fun _ _ => rfl, (resumed_frag s n d v Frag.pc fun _ _ => rfl).trans ?_, resumed_frag s n d v Frag.regs fun _ _ => rfl⟩
  dsimp only
  rw [State.setE_pc, State.wrS_pc]
  rfl

/-- What is made, is made too once a fragment has gone on. -/
theorem made_resumed (u : State) (team k : Nat) (c : Grid) (age : Nat) (h : Made s u team k c age) : Made s (resumed u n d v) team k c age := by
  have hparts := resumed_frame u n d v (fun t => (t.grids, t.parts, t.teams)) fun _ _ _ _ _ => rfl
  obtain ⟨hg, hp, ht⟩ : (resumed u n d v).grids = u.grids ∧ (resumed u n d v).parts = u.parts ∧ (resumed u n d v).teams = u.teams := by
    simpa using hparts
  simpa only [Made, State.grid, State.part, State.team, hg, hp, ht] using h
end

section
variable (s : State) (m k : Nat) (d : RegNum) (hs : (s.frag m).state = .launch k d)
include hs

/-- R298: the resume step of a fragment parked in LAUNCH that cannot go on changes nothing. -/
theorem exec_resume_waits (hdev : (s.group (s.frag m).group).dev = s.fabric.toNat)
    (h : 4 ≤ (s.team (s.group (s.frag m).group).team).pend.length ∨ s.asleep m = true) : exec (.launchAppendResume m) s = .next s := by
  refine congrArg Host.Outcome.next ?_
  rw [hs]
  dsimp only
  by_cases hw : s.asleep m = true ∨ (s.frag m).outs ≠ [] ∨ (s.frag m).leave ≠ none
  · rw [if_pos hw]
  · rw [if_neg hw, if_pos ((keeps_iff ..).2 hdev), appendIf_full _ _ _ _ (h.resolve_right fun ha => hw (.inl ha))]

variable (hfree : ¬(s.asleep m = true ∨ (s.frag m).outs ≠ [] ∨ (s.frag m).leave ≠ none))
include hfree

theorem exec_resume_appends (hdev : (s.group (s.frag m).group).dev = s.fabric.toNat) (hroom : (s.team (s.group (s.frag m).group).team).pend.length < 4) :
    exec (.launchAppendResume m) s = .next (resumed (s.append (s.group (s.frag m).group).team k) m d
      ((BitVec.ofNat 28 (s.part (s.grid k).part).nextGrid).setWidth 64)) := by
  refine congrArg Host.Outcome.next ?_
  rw [hs]
  dsimp only
  rw [if_neg hfree, if_pos ((keeps_iff ..).2 hdev), appendIf_room _ _ _ _ hroom]
  rfl

variable (hdev : ¬s.keeps (s.group (s.frag m).group) = true)
include hdev

theorem exec_resume_asks (hg : (s.frag m).grant = .none) : exec (.launchAppendResume m) s = .next (s.sendWord m (.append k)) := by
  refine congrArg Host.Outcome.next ?_
  rw [hs]
  dsimp only
  rw [if_neg hfree, if_neg hdev, hg]

theorem exec_resume_answered (v : DWord) (hg : (s.frag m).grant = .word (.done v)) : exec (.launchAppendResume m) s = .next (resumed s m d v) := by
  refine congrArg Host.Outcome.next ?_
  rw [hs]
  dsimp only
  rw [if_neg hfree, if_neg hdev, hg]
  rfl
end

/-! #### What LAUNCH comes to on its group's device (R292, R298) -/

section
variable (s : State) (d a : RegNum) (key : Nat) (bits : BitVec 512) (hbits : bits = BitVec.ofNat 512 (s.valIn .scratch key 64))
  (ht : s.f.trap = none) (hg : s.g.gidx = 0) (hd : s.g.depth ≠ 10) (hp : (s.sreg a).poison = false) (h64 : (s.sv a).toNat % 64 = 0)
  (hdev : s.g.dev = s.fabric.toNat) (hscr : s.scrBytes s.g.team s.g.rights.asid (s.sv a) 64 false = .ok key) (hn : NothingBefore s)
  (hh : s.accessHeld s.cur = false) (hreads : ReadsHere s 8 (leaseWords bits))
include hbits ht hg hd hp h64 hdev hscr hn hh hreads

/-- R298, R320: LAUNCH acts on its record in a state that differs in the cores' caches. -/
theorem exec_launch_cached : ∃ cs, exec (.launch d a) s = finish s (launchAct { s with cores := cs } d bits (leasesAt s bits)) := by
  subst hbits
  obtain ⟨cs, hcs⟩ := cache_eq s s.f.coreKey s.g.rights.asid (leaseWords (BitVec.ofNat 512 (s.valIn .scratch key 64)))
  refine ⟨cs, ?_⟩
  rw [exec_launch_here s d a ht hg hd hp h64 key hdev hscr hn hh hreads, translated, hcs]

theorem launch_refused (n off : Nat) (h : refusalHere s bits (leasesAt s bits) = some (n, off)) :
    Faults (.launch d a) s (faultOf 0x01#8 (BitVec.ofNat 64 n) (BitVec.ofNat 64 off)) := by
  obtain ⟨cs, hexec⟩ := exec_launch_cached s d a key bits hbits ht hg hd hp h64 hdev hscr hn hh hreads
  exact faults_of hexec (launchAct_refused _ d bits _ n off h)

variable (h : refusalHere s bits (leasesAt s bits) = none) (hr : s.released s.cur false = true)
include h hr

theorem launch_appends (hroom : s.t.pend.length < 4) : ∃ u : State,
    Goes (.launch d a) s ((u.wrS d ((BitVec.ofNat 28 (s.part s.g.rights.part).nextGrid).setWidth 64) false).setE false) ∧ u.frags = s.frags ∧ u.mem = s.mem ∧
      Made s u s.g.team s.nextId (s.draft s.f.group (LaunchRec.ofBits bits) ((leasesAt s bits).map (·.1))) ((s.nextId + 1) * 2 ^ 33) := by
  obtain ⟨cs, hexec⟩ := exec_launch_cached s d a key bits hbits ht hg hd hp h64 hdev hscr hn hh hreads
  have hmade := made_append (drafted { s with cores := cs } bits (leasesAt s bits)) s.g.team s.nextId
  refine ⟨_, goes_of hexec (launchAct_room _ d bits _ h hr hroom) ?_, rfl, rfl, ?_⟩
  · rw [State.setE_pc, State.wrS_pc]
    rfl
  · exact grid_drafted { s with cores := cs } bits (leasesAt s bits) ▸ hmade

theorem launch_parks (hfull : 4 ≤ s.t.pend.length) (hpark : s.f.outs ≠ [] ∨ (Still s ∧ s.f.leave = none ∧ s.f.due = none)) : ∃ u,
    exec (.launch d a) s = .next u ∧ (u.frag s.cur).state = .launch s.nextId d ∧ (u.frag s.cur).resident = s.f.resident ∧ (u.frag s.cur).pc = s.f.pc + 4 ∧
      u.grid s.nextId = s.draft s.f.group (LaunchRec.ofBits bits) ((leasesAt s bits).map (·.1)) ∧ u.parts = s.parts ∧ u.mem = s.mem := by
  obtain ⟨cs, hexec⟩ := exec_launch_cached s d a key bits hbits ht hg hd hp h64 hdev hscr hn hh hreads
  obtain ⟨hstate, hres, hpc, hgrids, hparts, hmem⟩ := parkLaunch_waits (drafted { s with cores := cs } bits (leasesAt s bits)) s.nextId d hpark
  refine ⟨_, hexec.trans (congrArg (finish s) (launchAct_full { s with cores := cs } d bits (leasesAt s bits) h hr hfull)), hstate, hres, hpc, ?_, hparts, hmem⟩
  rw [State.grid, hgrids]
  exact grid_drafted { s with cores := cs } bits (leasesAt s bits)
end

/-! #### LAUNCH and LSTAT away from the group's device (log 58) -/

section
variable (s : State) (d a : RegNum) (ht : s.f.trap = none) (hg : s.g.gidx = 0) (hd : s.g.depth ≠ 10) (hp : (s.sreg a).poison = false)
  (h64 : (s.sv a).toNat % 64 = 0) (hdev : s.g.dev ≠ s.fabric.toNat)
include ht hg hd hp h64 hdev

theorem launch_asksTeam : AsksTeam (.launch d a) s (.record (s.sv a)) fun v u => (u.wrS d v false).setE false :=
  asksTeam_of (exec_launch_away s d a ht hg hd hp h64 hdev) (launchAway_other s d (s.sv a)) (fun _ _ => rfl) (fun _ _ => rfl)
    fun v u => by rw [State.setE_pc, State.wrS_pc]

theorem launch_later (c : Nat) (h : s.f.grant = .word (.later c)) :
    exec (.launch d a) s = .next ((s.setF { s.f with grant := .none }).parkLaunch c d) := by
  rw [exec_launch_away s d a ht hg hd hp h64 hdev, launchAway_other s d _ fun y => by simp [h], State.wordAway_word s _ _ _ h]
  rfl

theorem launch_sends (bits : BitVec 512) (h : s.f.grant = .word (.record bits)) (hh : s.accessHeld s.cur = false) (hr : s.released s.cur false = true)
    (hreads : ReadsHere s 8 (leaseWords bits)) :
    ∃ u : State, Holds (.launch d a) s (u.sendWord s.cur (.launch bits (leasesAt s bits))) ∧ u.frags = s.frags ∧ u.net = s.net :=
  ⟨translated s (leaseWords bits), holds_of (exec_launch_away s d a ht hg hd hp h64 hdev) (launchAway_record s d (s.sv a) bits h hh hr hreads),
    translated_frame State.frags (fun _ _ => rfl) s _, translated_frame State.net (fun _ _ => rfl) s _⟩
end

theorem exec_lstat (s : State) (d : RegNum) : exec (.lstat d) s = finish s
    (if s.keeps s.g then .done (s.later d (s.lstatOf s.g.team) false) else s.wordAway .lstat (onDone fun v s => .done (s.later d v false))) := rfl

theorem later_pc (s : State) (d : RegNum) (x : DWord) : (s.later d x false).f.pc = s.f.pc := by
  show ((s.setFrag s.cur _).frag s.cur).pc = _
  rw [State.frag_setFrag_same]
  rfl

theorem lstat_here (s : State) (d : RegNum) (h : s.g.dev = s.fabric.toNat) : Goes (.lstat d) s (s.later d (s.lstatOf s.g.team) false) :=
  goes_of (exec_lstat s d) (if_pos ((keeps_iff ..).2 h)) (later_pc ..)

theorem lstat_away (s : State) (d : RegNum) (h : s.g.dev ≠ s.fabric.toNat) : AsksTeam (.lstat d) s .lstat fun v u => u.later d v false :=
  asksTeam_of (exec_lstat s d) (fun _ => if_neg (by rw [(keeps_false_iff ..).2 h]; exact Bool.false_ne_true)) (fun _ _ => rfl) (fun _ _ => rfl)
    fun v u => later_pc u d v

/-- Settles O44: LAUNCH by the device that holds its group and by what its record and its team's queue allow, the resume step by the same, and LSTAT. -/
theorem launchWords : Obligations.LaunchWords := by
  intro s d a key m g k p parent x r at' vasOf word lsOf ls id made draft
  refine ⟨fun ht => ⟨fun hg => faults_of (exec_launch s d a ht) (if_pos hg), fun hg hd => faults_of (exec_launch s d a ht) ((if_neg (not_not.2 hg)).trans (if_pos hd))⟩,
    fun ht hg hd hp h64 hdev => ⟨launch_asksTeam s d a ht hg hd hp h64 hdev, launch_later s d a ht hg hd hp h64 hdev,
      launch_sends s d a ht hg hd hp h64 hdev⟩,
    fun ht hg hd hp h64 hdev hscr hn hh hreads => ⟨launch_refused s d a key x rfl ht hg hd hp h64 hdev hscr hn hh hreads, fun href hr => ⟨fun hroom => ?_,
      launch_parks s d a key x rfl ht hg hd hp h64 hdev hscr hn hh hreads href hr⟩⟩,
    fun hs hdev ha ho hl => ?_, fun hs hdev => ⟨exec_resume_waits s m key d hs hdev, fun hroom ha ho hl => ?_⟩, lstat_away s d, lstat_here s d⟩
  · obtain ⟨u, hgoes, hfrags, hmem, hmade⟩ := launch_appends s d a key x rfl ht hg hd hp h64 hdev hscr hn hh hreads href hr hroom
    have hrest := hmade
    obtain ⟨-, -, -, -, -, -, hprio, hdepth, -, -⟩ := hrest
    exact ⟨u, hgoes, hfrags, hmem, hmade, hdepth, hprio⟩
  · have hfree : ¬(s.asleep m = true ∨ (s.frag m).outs ≠ [] ∨ (s.frag m).leave ≠ none) := by simp [ha, ho, hl]
    have haway : ¬s.keeps (s.group (s.frag m).group) = true := fun hk => hdev ((keeps_iff ..).1 hk)
    exact ⟨exec_resume_asks s m key d hs hfree haway, fun v hgr => ⟨_, exec_resume_answered s m key d hs hfree haway v hgr, resumed_ready s m d v⟩⟩
  · have hfree : ¬(s.asleep m = true ∨ (s.frag m).outs ≠ [] ∨ (s.frag m).leave ≠ none) := by simp [ha, ho, hl]
    obtain ⟨hstate, hpc, hregs⟩ := resumed_ready (s.append (s.group (s.frag m).group).team key) m d
      ((BitVec.ofNat 28 (s.part (s.grid key).part).nextGrid).setWidth 64)
    refine ⟨_, exec_resume_appends s m key d hs hfree hdev hroom, hstate, hpc, ?_, made_resumed s m d _ _ _ _ _ _ (made_append s _ key)⟩
    exact hregs.trans (wrS_setE_regs_congr _ d _ _ rfl)

end Sys2Proof.Proofs.Launch

/-! ### The checks of a global access, and the division of a word over other homes (R148, R211, R217, R219, R221, R227, R229) -/

namespace Sys2Proof.Proofs.Migration

open Sys2Proof Sys2Proof.Machine Sys2Proof.Claim Sys2Proof.Proofs.Privileged

/-! #### The order of the checks (R211, R217) -/

theorem isEmpty_filter_eq_false {α : Type} {l : List α} {p : α → Bool} : (l.filter p).isEmpty = false ↔ ∃ a ∈ l, p a = true := by
  rw [List.isEmpty_eq_false_iff_exists_mem]
  simp only [List.mem_filter]

/-- Values are not all one exactly where some differs from the first. -/
theorem exists_ne_head {α : Type} (l : List α) (g : α → Nat) : (∃ a ∈ l, g a ≠ (l.head?.map g).getD 0) ↔ ∃ a ∈ l, ∃ b ∈ l, g a ≠ g b := by
  cases l with
  | nil => simp
  | cons x xs =>
    simp only [List.head?_cons, Option.map_some, Option.getD_some]
    refine ⟨fun ⟨a, ha, hne⟩ => ⟨a, ha, x, List.mem_cons_self .., hne⟩, fun ⟨a, ha, b, hb, hne⟩ => ?_⟩
    by_cases h : g a = g x
    · exact ⟨b, hb, fun hb' => hne (h.trans hb'.symm)⟩
    · exact ⟨a, ha, h⟩

section
variable (s : State) (core : Nat) (r : Rights) (need : Need) (e : Nat) (bnd : Bool) (as : List Addr)

open Classical in
/-- R217: the checks of a global access, in their order; `c` is the code of a translation without permission. -/
theorem checkGlobal_code : ∃ c, (c = 0x12#8 ∨ c = 0x19#8) ∧ (s.checkGlobal core r need e bnd as).map (·.code) =
    if ∃ a ∈ as, s.farAway core r a.va = false ∧ s.leased r need a.va a.size = false then some 0x10#8
    else if ∃ a ∈ as, s.protOf core r need a.va ≠ 0 then some c
    else if ∃ a ∈ as, a.va.toNat % e ≠ 0 then some 0x13#8
    else if ∃ a ∈ as, need ≠ .move ∧ r.asgen < (s.leafOf core r.asid a.va).gen then some 0x15#8
    else if ∃ a ∈ as, ∃ b ∈ as, (s.leafOf core r.asid a.va).ord ≠ (s.leafOf core r.asid b.va).ord then some 0x14#8
    else if ∃ a ∈ as, bnd = true ∧ (s.leafOf core r.asid a.va).bnd = false then some 0x18#8
    else none := by
  have hord := exists_ne_head as fun a => (s.leafOf core r.asid a.va).ord
  cases hf : as.filter fun a => s.protOf core r need a.va != 0 with
  | nil =>
    have hprot : ¬∃ a ∈ as, s.protOf core r need a.va ≠ 0 := by simpa using hf
    refine ⟨0x12#8, .inl rfl, ?_⟩
    rw [if_neg hprot, ← if_congr hord rfl rfl]
    simp only [State.checkGlobal, hf, isEmpty_filter_eq_false, Bool.and_eq_true, Bool.not_eq_true', bne_iff_ne, decide_eq_true_eq, apply_ite (Option.map _),
      Option.map_some, Option.map_none, faultAt]
  | cons a l =>
    have hprot : ∃ a ∈ as, s.protOf core r need a.va ≠ 0 := by
      have ha : a ∈ as.filter fun a => s.protOf core r need a.va != 0 := hf ▸ List.mem_cons_self ..
      exact ⟨a, List.mem_of_mem_filter ha, by simpa using List.of_mem_filter ha⟩
    refine ⟨if s.protOf core r need a.va = 100 then 0x19#8 else 0x12#8, by split_ifs <;> simp, ?_⟩
    rw [if_pos hprot]
    simp only [State.checkGlobal, hf, isEmpty_filter_eq_false, Bool.and_eq_true, Bool.not_eq_true', apply_ite (Option.map _), Option.map_some, faultAt,
      apply_ite FaultRec.code]

end

/-! #### The sets of lanes that leave, one for each home (R219, R221) -/

/-- R219: homes in the order in which their sets stand: by device, then by home. -/
def Before (x y : Nat × Nat) : Prop := x.1 < y.1 ∨ (x.1 = y.1 ∧ x.2 < y.2)

theorem Before.trans {x y z : Nat × Nat} (h : Before x y) (h' : Before y z) : Before x z := by
  unfold Before at *
  omega

theorem before_of_not {x y : Nat × Nat} (hne : ¬(x.1 = y.1 ∧ x.2 = y.2)) (h : ¬Before y x) : Before x y := by
  unfold Before at *
  omega

theorem Before.ne {x y : Nat × Nat} (h : Before x y) : x ≠ y := by
  rintro rfl
  unfold Before at h
  omega

/-- The home that a set of lanes leaves for. -/
def target (x : Leaving) : Nat × Nat := (x.dev, x.home)

/-- Where a union has property `P` exactly where a part has it: lanes that join the sets give `P` to their own home's set, and to no other. -/
theorem exists_addLeaving (P : Mask → Prop) (hP : ∀ a b, P (a ||| b) ↔ P a ∨ P b) (xs : List Leaving) (d : Nat × Nat) (m : Mask) (c : Nat × Nat) :
    (∃ y ∈ addLeaving xs d.1 d.2 m, target y = c ∧ P y.lanes) ↔ (d = c ∧ P m) ∨ ∃ y ∈ xs, target y = c ∧ P y.lanes := by
  induction xs with
  | nil => simp [addLeaving, target]
  | cons x xs ih =>
    rw [addLeaving]
    split_ifs with hsame hlt
    · have hx : target x = d := Prod.ext hsame.1 hsame.2
      simp only [List.exists_mem_cons_iff, hP, hx]
      rw [show target ⟨d.1, d.2, x.lanes ||| m⟩ = d from rfl]
      tauto
    · simp only [List.exists_mem_cons_iff]
      rfl
    · simp only [List.exists_mem_cons_iff, ih]
      exact or_left_comm

theorem target_addLeaving (xs : List Leaving) (d : Nat × Nat) (m : Mask) : ∀ y ∈ addLeaving xs d.1 d.2 m, target y = d ∨ ∃ x ∈ xs, target x = target y := by
  intro y hy
  have h := (exists_addLeaving (fun _ => True) (by simp) xs d m (target y)).1 ⟨y, hy, rfl, trivial⟩
  simpa only [and_true, eq_comm (a := d)] using h

theorem addLeaving_sorted (xs : List Leaving) (d : Nat × Nat) (m : Mask) (h : xs.Pairwise fun x y => Before (target x) (target y)) :
    (addLeaving xs d.1 d.2 m).Pairwise fun x y => Before (target x) (target y) := by
  induction xs with
  | nil => exact List.pairwise_singleton ..
  | cons x xs ih =>
    obtain ⟨hx, hxs⟩ := List.pairwise_cons.1 h
    rw [addLeaving]
    split_ifs with hsame hlt
    · have htarget : target x = d := Prod.ext hsame.1 hsame.2
      exact List.pairwise_cons.2 ⟨fun y hy => (htarget ▸ hx y hy : Before d (target y)), hxs⟩
    · have hd : Before d (target x) := hlt
      refine List.pairwise_cons.2 ⟨fun y hy => ?_, h⟩
      rcases List.mem_cons.1 hy with rfl | hy
      · exact hd
      · exact hd.trans (hx y hy)
    · have hd : Before (target x) d := before_of_not hsame hlt
      refine List.pairwise_cons.2 ⟨fun y hy => ?_, ih hxs⟩
      rcases target_addLeaving xs d m y hy with hy | ⟨z, hz, hy⟩
      · rwa [hy]
      · exact hy ▸ hx z hz

section
variable (dest : Addr → Nat × Nat) (lanes : Addr → Mask)

/-- R219: the sets of lanes that leave for the homes that addresses lie at. -/
def leavings (far : List Addr) : List Leaving := far.foldl (fun xs x => addLeaving xs (dest x).1 (dest x).2 (lanes x)) []

theorem exists_leavings (P : Mask → Prop) (hP : ∀ a b, P (a ||| b) ↔ P a ∨ P b) (far : List Addr) (c : Nat × Nat) :
    (∃ y ∈ leavings dest lanes far, target y = c ∧ P y.lanes) ↔ ∃ x ∈ far, dest x = c ∧ P (lanes x) := by
  suffices h : ∀ xs : List Leaving, (∃ y ∈ far.foldl (fun xs x => addLeaving xs (dest x).1 (dest x).2 (lanes x)) xs, target y = c ∧ P y.lanes) ↔
      (∃ x ∈ far, dest x = c ∧ P (lanes x)) ∨ ∃ y ∈ xs, target y = c ∧ P y.lanes by simpa [leavings] using h []
  induction far with
  | nil => simp
  | cons x far ih =>
    intro xs
    rw [List.foldl_cons, ih, exists_addLeaving P hP, List.exists_mem_cons_iff, or_assoc, or_left_comm]

theorem leavings_sorted (far : List Addr) : (leavings dest lanes far).Pairwise fun x y => Before (target x) (target y) :=
  List.foldlRecOn far _ List.Pairwise.nil fun xs h x _ => addLeaving_sorted xs (dest x) (lanes x) h

theorem eq_of_target_eq {xs : List Leaving} (h : xs.Pairwise fun x y => Before (target x) (target y)) {x y : Leaving} (hx : x ∈ xs) (hy : y ∈ xs)
    (he : target x = target y) : x = y :=
  List.inj_on_of_nodup_map (List.pairwise_map.2 (h.imp Before.ne)) hx hy he

theorem mem_leavings (far : List Addr) (c : Nat × Nat) : (∃ y ∈ leavings dest lanes far, target y = c) ↔ ∃ x ∈ far, dest x = c := by
  simpa using exists_leavings dest lanes (fun _ => True) (by simp) far c

/-- R221: a set's lanes are those of the addresses at its home. -/
theorem lanes_leavings (far : List Addr) (y : Leaving) (hy : y ∈ leavings dest lanes far) (l : Nat) :
    y.lanes.getLsbD l = true ↔ ∃ x ∈ far, dest x = target y ∧ (lanes x).getLsbD l = true := by
  rw [← exists_leavings dest lanes (fun m => m.getLsbD l = true) (by simp) far]
  refine ⟨fun h => ⟨y, hy, rfl, h⟩, fun ⟨z, hz, he, h⟩ => ?_⟩
  rwa [← eq_of_target_eq (leavings_sorted dest lanes far) hz hy he]
end


/-! #### What a word that divides has due (R219, R221, R227, R229) -/

/-- A property of values that the unlisted one lacks holds of some listed one where a key's value has it. -/
theorem any_of_get {α : Type} (d : α) (P : α → Bool) (hd : P d = false) (m : KMap α) (k : Nat) (h : P (m.get d k) = true) :
    (m.any fun e => P e.2) = true := by
  induction m with
  | nil => exact absurd (hd.symm.trans h) Bool.false_ne_true
  | cons e m ih =>
    rw [List.any_cons, Bool.or_eq_true]
    by_cases hk : k = e.1
    · exact .inl (by rwa [KMap.get, if_pos hk] at h)
    · exact .inr (ih (by rwa [KMap.get, if_neg hk] at h))

/-- Whether some value has a property stays so where a key's value is replaced by one that is like it. -/
theorem any_ins {α : Type} (d : α) (P : α → Bool) (hd : P d = false) (m : KMap α) (k : Nat) (x : α) (h : P x = P (m.get d k)) :
    ((m.ins k x).any fun e => P e.2) = m.any fun e => P e.2 := by
  induction m with
  | nil =>
    rw [KMap.ins, List.any_cons]
    exact (Bool.or_false _).trans (h.trans hd)
  | cons e m ih =>
    rw [KMap.ins]
    split_ifs with hlt heq
    · have hany := any_of_get d P hd (e :: m) k
      rw [List.any_cons, h]
      exact Bool.or_eq_right_iff_imp.2 hany
    · rw [List.any_cons, List.any_cons, h, KMap.get, if_pos heq]
    · rw [List.any_cons, List.any_cons, ih (h.trans (by rw [KMap.get, if_neg heq]))]

/-- R169, R219: whether a group holds a claim of some slot of a core. -/
def claims (g : Nat) (c : Core) : Bool := c.slots.any fun x => match x.2 with | .claimed k => k == g | _ => false

theorem anchorBits_setCore (s : State) (core : Nat) (c : Core) (h : c.slots = (s.core core).slots) (g : Nat) :
    (s.setCore core c).anchorBits g = s.anchorBits g := by
  have hany : ((s.setCore core c).cores.any fun e => claims g e.2) = s.cores.any fun e => claims g e.2 :=
    any_ins Core.fresh (claims g) rfl _ _ _ (by rw [claims, h]; rfl)
  unfold State.anchorBits
  exact congrArg (fun b : Bool => _ ||| (if b then (2 : DWord) else 0) ||| _ ||| _) hany

/-- R219, R320: translating addresses anchors nothing. -/
theorem anchorBits_cache (s : State) (core asid : Nat) (vas : List DWord) (g : Nat) : (s.cache core asid vas).anchorBits g = s.anchorBits g := by
  refine List.foldlRecOn vas _ (motive := fun t : State => t.anchorBits g = s.anchorBits g) rfl fun t ht va _ => ?_
  cases t.trCore core asid va with
  | ok x => exact (anchorBits_setCore t core { t.core core with tlb := fillTlb 64 (t.core core).tlb asid va x } rfl g).trans ht
  | error x => exact ht

/-- R219: whether a division finds too few entries, or one that is not below 16. -/
def spills (ents : List Nat) (kids : Nat) : Bool := decide (ents.length < kids) || ents.any fun i => decide (16 ≤ i)

/-- R219: the checks of a division, outside trap mode. -/
theorem mayLeave_eq (s : State) (n kids : Nat) (pc : DWord) (ht : (s.frag n).trap = none) : s.mayLeave n pc kids =
    if s.anchorBits (s.frag n).group ≠ 0 ∨ spills ((s.entriesOf n).take kids) kids = true then
      .error (faultOf 0x21#8 (s.anchorBits (s.frag n).group ||| if spills ((s.entriesOf n).take kids) kids then 0x8000000000000000#64 else 0))
    else (s.liveOf (s.group (s.frag n).group).rights.part (s.group (s.frag n).group).rights.asid pc).elim (.error (faultOf 0x20#8)) .ok := by
  rw [State.mayLeave, ht]
  refine (if_neg (by simp)).trans (if_congr Iff.rfl rfl ?_)
  cases s.liveOf (s.group (s.frag n).group).rights.part (s.group (s.frag n).group).rights.asid pc <;> rfl

theorem dueLeave_pc (s : State) (L : LeaveDue) : (s.dueLeave L).f.pc = s.f.pc := by
  unfold State.dueLeave
  split <;> rw [State.f_setF]

/-- R221: whether a word moves its active lanes whole. -/
def entire (a : MigAcc) : Bool :=
  match a with
  | .loadS .. => true
  | .migr _ => true
  | _ => false

section
variable (s : State) (a : MigAcc)

/-- R221: the addresses of a word at other homes. -/
def farAddrs : List Addr := (a.addrs s.src s.eff).filter fun x => s.destOf s.f.coreKey s.g.rights x.va != (s.fabric.toNat, s.f.home)
/-- R219, R221: the sets of lanes that a word sends to other homes. -/
def setsOf : List Leaving :=
  leavings (fun x => s.destOf s.f.coreKey s.g.rights x.va) (fun x => if entire a then s.active else BitVec.twoPow 96 x.lane) (farAddrs s a)
/-- The lanes of some sets. -/
def lanesOfSets (sets : List Leaving) : Mask := sets.foldl (fun (m : Mask) x => m ||| x.lanes) 0
/-- R219: the entries that a word's division takes. -/
def kidsOf (sets : List Leaving) : Nat := if without s.active (lanesOfSets sets) = 0 then sets.length - 1 else sets.length

/-- R217, R219, R221: the access of a word passes its checks, is not kept from issuing, and has an address at another home. -/
structure Departs : Prop where
  check : s.checkGlobal s.f.coreKey s.g.rights a.need a.size (a.writesBnd s.src) (a.addrs s.src s.eff) = none
  free : a.need ≠ .move → s.accessHeld s.cur = false ∧ ((∃ x ∈ a.addrs s.src s.eff, (leafAt s x.va).ord = 0) → s.released s.cur true = true) ∧
    s.mayAccess s.cur (s.accPages s.cur a s.src s.eff) = true
  release : ReleaseMet s a.order
  far : farAddrs s a ≠ []
  trap : s.f.trap = none
  here : s.g.dev = s.fabric.toNat

/-- R320: the fragment's state once its core has translated the word's addresses. -/
def toOthers : State := translated s ((a.addrs s.src s.eff).map (·.va))
/-- R219: the entries of the split table that a word's division takes. -/
def entsOf : List Nat := (s.freeEntries s.f.group).take (kidsOf s (setsOf s a))
/-- R219, R221: what a word that divides has due. -/
def dueHere (e : Live) : LeaveDue :=
  ⟨a, setsOf s a, s.eff, s.f.rpc, s.f.ti0, e.smap, e.vmap, s.src, s.fabric.toNat, s.f.home, false, entsOf s a, []⟩
/-- R219: a word that divides, by what the checks of its division come to. -/
def departure (u : State) (x : Except FaultRec Live) (due : Live → LeaveDue) : Act :=
  match x with
  | .error x => .fault x
  | .ok e => .done (u.dueLeave (due e))

theorem setsOf_from : ∀ y ∈ setsOf s a, ∃ x ∈ farAddrs s a, target y = s.destOf s.f.coreKey s.g.rights x.va := fun y hy => by
  obtain ⟨x, hx, he⟩ := (mem_leavings ..).1 ⟨y, hy, rfl⟩
  exact ⟨x, hx, he.symm⟩

/-- R221: a set holds the lanes whose addresses lie at its home, or the active ones where the word moves whole. -/
theorem setsOf_lanes : ∀ y ∈ setsOf s a, ∀ l, l < 96 → (y.lanes.getLsbD l = true ↔
    if entire a = true then (s.mreg 0).getLsbD l = true else ∃ x ∈ farAddrs s a, x.lane = l ∧ target y = s.destOf s.f.coreKey s.g.rights x.va) := by
  intro y hy l hl
  rw [lanes_leavings _ _ _ y hy]
  split_ifs with hwhole
  · obtain ⟨x, hx, he⟩ := setsOf_from s a y hy
    exact ⟨fun ⟨_, _, _, h⟩ => h, fun h => ⟨x, hx, he.symm, h⟩⟩
  · refine exists_congr fun x => and_congr_right fun _ => ?_
    rw [BitVec.getLsbD_twoPow, eq_comm (a := target y)]
    simp only [Bool.and_eq_true, decide_eq_true_eq]
    exact ⟨fun ⟨hd, _, hx⟩ => ⟨hx, hd⟩, fun ⟨hx, hd⟩ => ⟨hd, hx ▸ hl, hx⟩⟩

/-- R148, R321: a group of this device finds its own entries. -/
theorem tableAct_keeps (s : State) (kids : Nat) (k : State → Act) (h : s.keeps s.g = true) : (if kids = 0 then k s else s.tableAct kids k) = k s := by
  rw [State.tableAct, if_pos h, ite_self]

variable (h : Departs s a)
include h

theorem departs_reads : (a.addrs s.src s.eff).isEmpty = false := by
  rw [List.isEmpty_eq_false_iff]
  intro he
  exact h.far (by rw [farAddrs, he, List.filter_nil])

/-- R232, R235: the word's earlier accesses are performed where its order or an SO page asks for it. -/
theorem departs_released (so : Bool) (hso : so = (a.need != .move && (((a.addrs s.src s.eff).head?.map fun x => (leafAt s x.va).ord == 0).getD false))) :
    ((isRel a.order || so) && !s.released s.cur ((isRel a.order && isSys a.order) || so)) = false := by
  cases so with
  | true =>
    obtain ⟨hneed, hord⟩ := Bool.and_eq_true_iff.1 hso.symm
    have hpage : ∃ x ∈ a.addrs s.src s.eff, (leafAt s x.va).ord = 0 := by
      cases hx : (a.addrs s.src s.eff) with
      | nil => simp [hx] at hord
      | cons x xs => exact ⟨x, List.mem_cons_self .., by simpa [hx] using hord⟩
    rw [Bool.or_true, Bool.or_true, (h.free (by simpa using hneed)).2.1 hpage]
    rfl
  | false =>
    rw [Bool.or_false, Bool.or_false]
    cases hrel : isRel a.order with
    | false => rfl
    | true =>
      rw [Bool.true_and, Bool.true_and, h.release hrel]
      rfl

theorem entriesOf_toOthers : (toOthers s a).entriesOf s.cur = s.freeEntries s.f.group :=
  (translated_frame (fun t => t.entriesOf s.cur) (fun _ _ => rfl) s _).trans (if_pos (beq_iff_eq.2 h.here))

/-- R219: a division's own checks, in the terms of the state before the word. -/
theorem mayLeave_toOthers : (toOthers s a).mayLeave s.cur s.f.pc (kidsOf s (setsOf s a)) =
    if s.anchorBits s.f.group ≠ 0 ∨ spills (entsOf s a) (kidsOf s (setsOf s a)) = true then
      .error (faultOf 0x21#8 (s.anchorBits s.f.group ||| if spills (entsOf s a) (kidsOf s (setsOf s a)) then 0x8000000000000000#64 else 0))
    else ((toOthers s a).liveOf s.g.rights.part s.g.rights.asid s.f.pc).elim (.error (faultOf 0x20#8)) .ok := by
  have hfrag : (toOthers s a).frag s.cur = s.f := translated_frame (fun t => t.frag s.cur) (fun _ _ => rfl) s _
  have hgroup : (toOthers s a).group s.f.group = s.g := translated_frame (fun t => t.group s.f.group) (fun _ _ => rfl) s _
  have hbits : (toOthers s a).anchorBits s.f.group = s.anchorBits s.f.group := anchorBits_cache ..
  rw [mayLeave_eq _ _ _ _ (hfrag ▸ h.trap), hfrag, hgroup, hbits, entriesOf_toOthers s a h, entsOf]

/-- R219, R221: a word that departs goes on with its division due, unless the checks of the division refuse it. -/
theorem migrateWord_departs : s.migrateWord a s.eff = departure (toOthers s a)
    ((toOthers s a).mayLeave s.cur s.f.pc (kidsOf s (setsOf s a))) (dueHere s a) := by
  have hempty := departs_reads s a h
  have hrel := departs_released s a h _ rfl
  have hfar : (farAddrs s a).isEmpty = false := List.isEmpty_eq_false_iff.2 h.far
  have hheld : (a.need != .move && s.accessHeld s.cur) = false := by
    by_cases hm : a.need = .move
    · rw [hm]
      rfl
    · rw [(h.free hm).1, Bool.and_false]
  have hmay : (a.need != .move && !s.mayAccess s.cur (s.accPages s.cur a s.src s.eff)) = false := by
    by_cases hm : a.need = .move
    · rw [hm]
      rfl
    · rw [(h.free hm).2.2, Bool.not_true, Bool.and_false]
  have hkeeps : (toOthers s a).keeps (toOthers s a).g = true := (translated_frame (fun t => t.keeps t.g) (fun _ _ => rfl) s _).trans (beq_iff_eq.2 h.here)
  have hents := entriesOf_toOthers s a h
  unfold State.migrateWord
  dsimp only
  rw [h.check]
  dsimp only
  rw [hempty]
  simp only [Bool.false_and, Bool.false_eq_true, if_false]
  refine (if_neg (Bool.eq_false_iff.1 hheld)).trans ((if_neg (Bool.eq_false_iff.1 hrel)).trans ((if_neg (Bool.eq_false_iff.1 hmay)).trans
    ((if_neg (Bool.eq_false_iff.1 hfar)).trans ((if_neg (by simp [h.trap])).trans ?_))))
  refine (tableAct_keeps (toOthers s a) _ _ hkeeps).trans ?_
  have hfabric : (toOthers s a).fabric = s.fabric := translated_frame State.fabric (fun _ _ => rfl) s _
  rw [hfabric, hents]
  cases a <;> rfl

variable {i : Instr} (hexec : exec i s = finish s (s.migrateWord a s.eff))
include hexec

theorem departs_anchored (hb : s.anchorBits s.f.group ≠ 0 ∨ spills (entsOf s a) (kidsOf s (setsOf s a)) = true) : Faults i s
    (faultOf 0x21#8 (s.anchorBits s.f.group ||| if spills (entsOf s a) (kidsOf s (setsOf s a)) then 0x8000000000000000#64 else 0)) := by
  refine faults_of hexec ?_
  rw [migrateWord_departs s a h, mayLeave_toOthers s a h, if_pos hb]
  rfl

variable (h0 : s.anchorBits s.f.group = 0) (hspill : spills (entsOf s a) (kidsOf s (setsOf s a)) = false)
include h0 hspill

theorem departs_dead (hlive : (toOthers s a).liveOf s.g.rights.part s.g.rights.asid s.f.pc = none) : Faults i s (faultOf 0x20#8) := by
  refine faults_of hexec ?_
  rw [migrateWord_departs s a h, mayLeave_toOthers s a h, if_neg (by simp [h0, hspill]), hlive]
  rfl

theorem departs_goes (e : Live) (hlive : (toOthers s a).liveOf s.g.rights.part s.g.rights.asid s.f.pc = some e) :
    Goes i s ((toOthers s a).dueLeave (dueHere s a e)) := by
  refine goes_of hexec ?_ ((dueLeave_pc ..).trans (translated_frame (fun t => t.f.pc) (fun _ _ => rfl) s _))
  rw [migrateWord_departs s a h, mayLeave_toOthers s a h, if_neg (by simp [h0, hspill]), hlive]
  rfl
end

/-! #### What a division changes of a state besides its fragments (R148, R219) -/

/-- Groups' devices and rights, and what the cores translate, are as they were. -/
structure SameGround (s u : State) : Prop where
  fabric : u.fabric = s.fabric
  dev : ∀ g, (u.group g).dev = (s.group g).dev
  rights : ∀ g, (u.group g).rights = (s.group g).rights
  leaf : ∀ core asid va, u.leafOf core asid va = s.leafOf core asid va

theorem SameGround.refl (s : State) : SameGround s s := ⟨rfl, fun _ => rfl, fun _ => rfl, fun _ _ _ => rfl⟩

theorem SameGround.trans {s t u : State} (h : SameGround s t) (h' : SameGround t u) : SameGround s u :=
  ⟨h'.fabric.trans h.fabric, fun g => (h'.dev g).trans (h.dev g), fun g => (h'.rights g).trans (h.rights g),
    fun core asid va => (h'.leaf core asid va).trans (h.leaf core asid va)⟩

theorem SameGround.keeps {s u : State} (h : SameGround s u) (g : Nat) : u.keeps (u.group g) = s.keeps (s.group g) := by
  rw [State.keeps, State.keeps, h.dev, h.fabric]

theorem sameGround_setFrag (s : State) (n : Nat) (f : Frag) : SameGround s (s.setFrag n f) := ⟨rfl, fun _ => rfl, fun _ => rfl, fun _ _ _ => rfl⟩

/-- R319, R320: translation reads no fragment, group or message, and of a core only its cache. -/
theorem leafOf_of_tlb (s u : State) (hu : u = { s with frags := u.frags, groups := u.groups, net := u.net, remote := u.remote, banks := u.banks, cores := u.cores })
    (h : ∀ core, (u.core core).tlb = (s.core core).tlb) (core asid : Nat) (va : DWord) : u.leafOf core asid va = s.leafOf core asid va := by
  have htr : u.trCore core asid va = s.trCore core asid va := by
    rw [State.trCore, h, hu]
    rfl
  rw [State.leafOf, htr]
  rfl

/-- R148: a core whose write-combining lines name a fragment's heirs beside it. -/
def heirLines (n : Nat) (kids : List Nat) (c : Core) : Core := { c with wc := c.wc.map fun l => { l with frags := heirs n kids l.frags } }

/-- R148: fragments that inherit another's messages. -/
theorem sameGround_inherit (s : State) (n : Nat) (kids : List Nat) : SameGround s (s.inherit n kids) := by
  refine ⟨rfl, fun _ => rfl, fun _ => rfl, leafOf_of_tlb s _ rfl fun core => ?_⟩
  have hcore : (s.inherit n kids).core core = heirLines n kids (s.core core) := get_map_values Core.fresh (fun _ c => heirLines n kids c) (fun _ => rfl) ..
  rw [hcore]
  rfl

theorem group_setGroup_frame {γ : Type} (p : Group → γ) (s : State) (k : Nat) (g : Group) (h : p g = p (s.group k)) (j : Nat) :
    p ((s.setGroup k g).group j) = p (s.group j) := by
  by_cases hj : j = k
  · subst hj
    exact (congrArg p (KMap.get_ins_same ..)).trans h
  · exact congrArg p (KMap.get_ins_other _ _ _ _ _ hj)

/-- R157: lanes that retire from a group's barriers leave its rights and its device. -/
theorem sameGround_retire (s : State) (n : Nat) (lanes : Mask) :
    SameGround s (s.splitUpdate n (.retire lanes)) ∧ (s.splitUpdate n (.retire lanes)).frags = s.frags := by
  unfold State.splitUpdate
  dsimp only
  split_ifs
  · exact ⟨⟨rfl, group_setGroup_frame Group.dev s _ _ rfl, group_setGroup_frame Group.rights s _ _ rfl, leafOf_of_tlb s _ rfl fun _ => rfl⟩, rfl⟩
  · exact ⟨⟨rfl, fun _ => rfl, fun _ => rfl, leafOf_of_tlb s _ rfl fun _ => rfl⟩, rfl⟩

/-! #### The parts of a division (R148, R219) -/

theorem fragNo_inj (g i j : Nat) : fragNo g i = fragNo g j ↔ i = j := Nat.add_right_inj

/-- R219: the part of a division that takes an entry, as it waits to depart. -/
def partOf (f : Frag) (L : LeaveDue) (i : Nat) (x : Leaving) : Frag := { f.departing i x L with resident := false, turn := 0, served := 0 }

/-- The entries of a division that no fragment has taken yet. -/
def untaken (s : State) (g : Nat) (L : LeaveDue) : List Nat := L.ents.filter fun i => !(s.frag (fragNo g i)).alive

section
variable (n : Nat) (f : Frag) (L : LeaveDue)

/-- R219: a part takes the first entry that its division has left. -/
theorem addChild_eq (s : State) (x : Leaving) (i : Nat) (is : List Nat) (hkeeps : s.keeps (s.group f.group) = true) (hn : s.frag n = f)
    (h : untaken s f.group L = i :: is) :
    s.addChild n f L x = (s.setFrag (fragNo f.group i) (partOf f L i x)).inherit n [fragNo f.group i] := by
  have huse : s.useEntry n i = s := if_pos (hn ▸ hkeeps)
  rw [State.addChild, if_pos hkeeps, ← untaken, h]
  dsimp only
  rw [huse]
  rfl

variable (halive : f.alive = true) (hnodup : L.ents.Nodup) (hne : ∀ e ∈ L.ents, fragNo f.group e ≠ n)
include halive hnodup

theorem untaken_setFrag (s : State) (x : Leaving) (i : Nat) (is : List Nat) (h : untaken s f.group L = i :: is) :
    untaken ((s.setFrag (fragNo f.group i) (partOf f L i x)).inherit n [fragNo f.group i]) f.group L = is := by
  have hrest : untaken ((s.setFrag (fragNo f.group i) (partOf f L i x)).inherit n [fragNo f.group i]) f.group L =
      (untaken s f.group L).filter fun j => decide (j ≠ i) := by
    rw [untaken, untaken, List.filter_filter]
    refine List.filter_congr fun j _ => ?_
    by_cases hj : j = i
    · subst hj
      have hfrag : ((s.setFrag (fragNo f.group j) (partOf f L j x)).inherit n [fragNo f.group j]).frag (fragNo f.group j) = partOf f L j x :=
        State.frag_setFrag_same ..
      rw [hfrag, show (partOf f L j x).alive = true from halive]
      simp
    · have hfrag : ((s.setFrag (fragNo f.group i) (partOf f L i x)).inherit n [fragNo f.group i]).frag (fragNo f.group j) = s.frag (fragNo f.group j) :=
        State.frag_setFrag_other _ _ _ _ fun he => hj ((fragNo_inj ..).1 he)
      rw [hfrag, decide_eq_true hj, Bool.true_and]
  have hi : i ∉ is := (List.nodup_cons.1 (h ▸ hnodup.filter _)).1
  rw [hrest, h, List.filter_cons_of_neg (by simp)]
  exact List.filter_eq_self.2 fun j hj => decide_eq_true fun he => hi (he ▸ hj)

include hne

/-- R148, R219: the parts of a division take its entries in order, and leave every other fragment. -/
theorem foldl_addChild (parts : List Leaving) (s : State) (hkeeps : s.keeps (s.group f.group) = true) (hn : s.frag n = f)
    (hlen : parts.length ≤ (untaken s f.group L).length) :
    SameGround s (parts.foldl (fun s x => s.addChild n f L x) s) ∧
      (∀ m, (∀ e ∈ untaken s f.group L, m ≠ fragNo f.group e) → (parts.foldl (fun s x => s.addChild n f L x) s).frag m = s.frag m) ∧
      ∀ (k : Nat) (y : Leaving) (e : Nat), parts[k]? = some y → (untaken s f.group L)[k]? = some e →
        (parts.foldl (fun s x => s.addChild n f L x) s).frag (fragNo f.group e) = partOf f L e y := by
  induction parts generalizing s with
  | nil => exact ⟨.refl s, fun _ _ => rfl, fun _ _ _ h => by simp at h⟩
  | cons x parts ih =>
    cases h : untaken s f.group L with
    | nil => simp [h] at hlen
    | cons i is =>
      have hmem : i ∈ L.ents := List.mem_of_mem_filter (h ▸ List.mem_cons_self .. : i ∈ untaken s f.group L)
      have hi : i ∉ is := (List.nodup_cons.1 (h ▸ hnodup.filter _)).1
      have hu := untaken_setFrag n f L halive hnodup s x i is h
      have hstep : SameGround s ((s.setFrag (fragNo f.group i) (partOf f L i x)).inherit n [fragNo f.group i]) :=
        (sameGround_setFrag ..).trans (sameGround_inherit ..)
      have hn' : ((s.setFrag (fragNo f.group i) (partOf f L i x)).inherit n [fragNo f.group i]).frag n = f :=
        (State.frag_setFrag_other _ _ _ _ (hne i hmem).symm).trans hn
      obtain ⟨hground, hrest, hparts⟩ := ih _ ((hstep.keeps _).trans hkeeps) hn' (by rw [hu]; simpa [h] using hlen)
      rw [hu] at hrest hparts
      rw [List.foldl_cons, addChild_eq n f L s x i is hkeeps hn h]
      refine ⟨hstep.trans hground, fun m hm => ?_, fun k y e hy he => ?_⟩
      · rw [hrest m fun e he => hm e (List.mem_cons_of_mem _ he)]
        exact State.frag_setFrag_other _ _ _ _ (hm i (List.mem_cons_self ..))
      · cases k with
        | zero =>
          obtain rfl : x = y := by simpa using hy
          obtain rfl : i = e := by simpa using he
          rw [hrest _ fun e he' hf => hi ((fragNo_inj f.group i e).1 hf ▸ he')]
          exact State.frag_setFrag_same ..
        | succ k => exact hparts k y e (by simpa using hy) (by simpa using he)
end

/-! #### What the access of the part that stays leaves (R221, R227) -/

/-- R163: whether a fragment waits on a word of memory. -/
def waits (f : Frag) : Bool :=
  match f.state with
  | .waitw .. => true
  | _ => false

/-- R163: a write to memory changes of a fragment only how it waits on a word. -/
def Woken (f g : Frag) : Prop := (∃ st, g = { f with state := st }) ∧ (waits f = false → g = f)

theorem Woken.refl (f : Frag) : Woken f f := ⟨⟨f.state, rfl⟩, fun _ => rfl⟩

theorem Woken.trans {f g h : Frag} (hfg : Woken f g) (hgh : Woken g h) : Woken f h := by
  obtain ⟨⟨st, rfl⟩, hf⟩ := hfg
  obtain ⟨⟨st', rfl⟩, hg⟩ := hgh
  exact ⟨⟨st', rfl⟩, fun hw => (hg ((congrArg waits (hf hw)).trans hw)).trans (hf hw)⟩

theorem woken_seen (f : Frag) (old new : Nat → Nat) : Woken f (f.seen old new) := by
  unfold Frag.seen
  split
  · exact ⟨⟨_, rfl⟩, fun h => by simp [waits, *] at h⟩
  · exact .refl f

theorem woken_setMem (s : State) (cells : List (Nat × Byte)) (m : Nat) : Woken (s.frag m) ((s.setMem cells).frag m) := by
  have hfrag := get_map_values Frag.free (fun _ f => f.seen (fun k => s.valIn .dram k 4) fun k => (s.setMem cells).valIn .dram k 4) (fun _ => rfl) s.frags m
  exact (congrArg (Woken (s.frag m)) hfrag).mpr (woken_seen ..)

theorem woken_atomElem (s : State) (e : Elem) (m : Nat) : Woken (s.frag m) ((s.atomElem e).1.frag m) := by
  unfold State.atomElem
  split_ifs
  · exact .refl _
  · unfold State.writeIn
    split
    · exact woken_setMem ..
    · exact .refl _
    · exact .refl _

theorem woken_atomElems (s : State) (es : List Elem) (m : Nat) : Woken (s.frag m) ((s.atomElems es).1.frag m) :=
  List.foldlRecOn es _ (motive := fun a : State × List (Nat × DWord) × Mask => Woken (s.frag m) (a.1.frag m)) (.refl _)
    fun _ ha e _ => ha.trans (woken_atomElem _ e m)

/-- R112, R221, R227: a fragment once its access is performed, or once it waits for it. -/
def Accessed (f g : Frag) : Prop :=
  ∃ st outs v due parked, g = { f with state := st, outs := outs, regs := { f.regs with v := v }, leave := due, parked := parked }

/-- R163, R227: an access of fragment `n` changes of other fragments only how they wait on a word. -/
structure AccessOf (n : Nat) (s u : State) : Prop where
  others : ∀ m, m ≠ n → Woken (s.frag m) (u.frag m)
  own : Accessed (s.frag n) (u.frag n)

theorem AccessOf.refl (n : Nat) (s : State) : AccessOf n s s := ⟨fun _ _ => .refl _, _, _, _, _, _, rfl⟩

theorem AccessOf.trans {n : Nat} {s t u : State} (h : AccessOf n s t) (h' : AccessOf n t u) : AccessOf n s u := by
  refine ⟨fun m hm => (h.others m hm).trans (h'.others m hm), ?_⟩
  obtain ⟨st, outs, v, due, parked, hst⟩ := h.own
  obtain ⟨st', outs', v', due', parked', hst'⟩ := h'.own
  exact ⟨st', outs', v', due', parked', by rw [hst', hst]⟩

theorem accessOf_setFrag (n : Nat) (s : State) (g : Frag) (h : Accessed (s.frag n) g) : AccessOf n s (s.setFrag n g) := by
  refine ⟨fun m hm => ?_, by rwa [State.frag_setFrag_same]⟩
  rw [State.frag_setFrag_other _ _ _ _ hm]
  exact .refl _

theorem accessOf_atomElems (n : Nat) (s : State) (es : List Elem) : AccessOf n s (s.atomElems es).1 := by
  obtain ⟨⟨st, hst⟩, -⟩ := woken_atomElems s es n
  exact ⟨fun m _ => woken_atomElems s es m, st, _, _, _, _, hst⟩

theorem accessOf_performAcc (s : State) (n : Nat) (a : MigAcc) (src : Regs) (lanes : Mask) (ps : List PageReq) :
    AccessOf n s (s.performAcc n a src lanes ps) := by
  unfold State.performAcc
  cases a with
  | loadV => exact accessOf_setFrag _ _ _ ⟨_, _, _, _, _, rfl⟩
  | loadS =>
    dsimp only
    split
    · exact accessOf_setFrag _ _ _ ⟨_, _, _, _, _, rfl⟩
    · exact .refl n s
  | atom => exact (accessOf_atomElems ..).trans (accessOf_setFrag _ _ _ ⟨_, _, _, _, _, rfl⟩)
  | migr => exact .refl n s
  | join => exact .refl n s

theorem accessOf_parkOn (s : State) (n : Nat) (park : Bool) : AccessOf n s (s.parkOn n park) := by
  unfold State.parkOn
  dsimp only
  split_ifs
  · exact accessOf_setFrag _ _ _ ⟨_, _, _, _, _, rfl⟩
  · exact .refl n s

/-- R112, R219: the access of the part that stays. -/
theorem accessOf_stayAccess (s : State) (n : Nat) : AccessOf n s (s.stayAccess n) := by
  unfold State.stayAccess
  dsimp only
  split
  · split_ifs
    · exact ((accessOf_setFrag n s _ ⟨_, _, _, _, _, rfl⟩).trans (accessOf_performAcc ..)).trans (accessOf_parkOn ..)
    · exact accessOf_setFrag _ _ _ ⟨_, _, _, _, _, rfl⟩
  · exact .refl n s

/-! #### The parts of a division as they wait to depart (R148, R219) -/

section
variable (s : State) (n : Nat) (L : LeaveDue)

/-- R238: on pages that are not SO, the parts of a division need no order among them. -/
theorem orderParts_loose (h : L.acc.need = .move ∨ ∀ a ∈ L.acc.addrs L.src L.eff, (s.leafOf (s.frag n).coreKey (s.group (s.frag n).group).rights.asid a.va).ord ≠ 0) :
    s.orderParts n L = s := by
  unfold State.orderParts
  dsimp only
  refine if_neg ?_
  split
  · exact Bool.false_ne_true
  · rename_i a ha _
    have hneed := h.resolve_left ‹_›
    simpa using hneed a (List.mem_of_mem_head? ha)
  · exact Bool.false_ne_true

/-- R148: the lanes that stay. -/
def stays (f : Frag) (L : LeaveDue) : Mask := without (f.regs.mask 0) (lanesOfSets L.sets)
/-- R148, R219: the part that stays, before its access. -/
def staying (f : Frag) (L : LeaveDue) : Frag :=
  { f with
    own := without f.own (lanesOfSets L.sets), regs := { f.regs with m := f.regs.m.setIfInBounds 0 (stays f L) }, parked := false, grant := .none
    leave := some { L with sets := [], eff := without L.eff (lanesOfSets L.sets), ents := [] } }

/-- R238: the pages of a division's access are not SO, so that its parts go without order. -/
def Loosely : Prop := L.acc.need = .move ∨ ∀ a ∈ L.acc.addrs L.src L.eff, (s.leafOf (s.frag n).coreKey (s.group (s.frag n).group).rights.asid a.va).ord ≠ 0

theorem looselyOf {u : State} (h : Loosely s n L) (hground : SameGround s u) (hkey : (u.frag n).coreKey = (s.frag n).coreKey)
    (hgroup : (u.frag n).group = (s.frag n).group) : Loosely u n L := by
  unfold Loosely at *
  simpa only [hkey, hgroup, hground.rights, hground.leaf] using h

/-- R148, R238: a division in a group of this device reports nothing, and on pages that are not SO it orders nothing. -/
theorem reported_ordered {u : State} (left : List Nat) (hkeeps : s.keeps (s.group (s.frag n).group) = true) (h : Loosely s n L) (hground : SameGround s u)
    (hkey : (u.frag n).coreKey = (s.frag n).coreKey) (hgroup : (u.frag n).group = (s.frag n).group) : (u.reportParts n left).orderParts n L = u := by
  have hreport : u.reportParts n left = u := if_pos (by rw [hgroup, hground.keeps, hkeeps])
  rw [hreport, orderParts_loose u n L (looselyOf s n L h hground hkey hgroup)]

variable (hkeeps : s.keeps (s.group (s.frag n).group) = true) (hloose : Loosely s n L)
include hkeeps hloose

/-- R219: where every active lane leaves, the first set keeps the fragment's entry. -/
theorem migrateParts_leaves (x : Leaving) (xs : List Leaving) (hsets : L.sets = x :: xs) (hstay : stays (s.frag n) L = 0)
    (hkids : SameGround s (xs.foldl (fun t y => t.addChild n (s.frag n) L y) s)) :
    (s.migrateParts n L).frags = ((xs.foldl (fun t y => t.addChild n (s.frag n) L y) s).setFrag n ((s.frag n).departing (s.frag n).idx x L)).frags := by
  have hparts := hkids.trans (sameGround_setFrag _ n ((s.frag n).departing (s.frag n).idx x L))
  have hsame := State.frag_setFrag_same (xs.foldl (fun t y => t.addChild n (s.frag n) L y) s) n ((s.frag n).departing (s.frag n).idx x L)
  unfold State.migrateParts
  dsimp only
  refine (congrArg State.frags (if_pos hstay)).trans ?_
  rw [hsets]
  dsimp only
  split_ifs
  · rw [reported_ordered s n L _ hkeeps hloose hparts (by rw [hsame]; rfl) (by rw [hsame]; rfl)]
  · obtain ⟨hretire, hfrags⟩ := sameGround_retire ((xs.foldl (fun t y => t.addChild n (s.frag n) L y) s).setFrag n ((s.frag n).departing (s.frag n).idx x L)) n
      (without (s.frag n).own ((s.frag n).regs.mask 0))
    have hsame' := (congrArg (fun m => KMap.get Frag.free m n) hfrags).trans hsame
    rw [reported_ordered s n L _ hkeeps hloose (hparts.trans hretire) (congrArg Frag.coreKey hsame' :) (congrArg Frag.group hsame' :), hfrags]

/-- R148: else the part that stays keeps the entry, and makes its access. -/
theorem migrateParts_stays (hstay : stays (s.frag n) L ≠ 0) (hkids : SameGround s (L.sets.foldl (fun t y => t.addChild n (s.frag n) L y) s)) :
    s.migrateParts n L = ((L.sets.foldl (fun t y => t.addChild n (s.frag n) L y) s).setFrag n (staying (s.frag n) L)).stayAccess n := by
  have hsame := State.frag_setFrag_same (L.sets.foldl (fun t y => t.addChild n (s.frag n) L y) s) n (staying (s.frag n) L)
  unfold State.migrateParts
  dsimp only
  refine (if_neg hstay).trans (congrArg (State.stayAccess · n) ?_)
  exact reported_ordered s n L _ hkeeps hloose (hkids.trans (sameGround_setFrag ..)) (congrArg Frag.coreKey hsame :) (congrArg Frag.group hsame :)

end

/-- The mask register that a division sets is read as it was set. -/
theorem mask_setM0 (r : Regs) (x : Mask) : ({ r with m := r.m.setIfInBounds 0 x } : Regs).mask 0 = x := by
  simp [Regs.mask]

/-- R63, R219: a due division whose registers are clean and at the core is made. -/
theorem settle_divides (s : State) (n : Nat) (L : LeaveDue) (hleave : (s.frag n).leave = some L) (hsets : L.sets ≠ []) (houts : (s.frag n).outs = [])
    (halive : (s.frag n).alive = true) (hdue : (s.frag n).due = none) (hstate : (s.frag n).state ≠ .ended)
    (hlines : s.missingLines n (L.carried.1.map (s.frag n).regs.vId ++ L.carried.2.map (s.frag n).regs.sId) = []) (hclean : L.poisoned (s.frag n).regs = none) :
    s.settle n = s.migrateParts n L := by
  have hfill : s.fillCarried n L = s := by
    unfold State.fillCarried
    dsimp only
    rw [hlines]
    rfl
  unfold State.settle
  dsimp only
  rw [if_neg (by simp [houts, halive]), hleave]
  dsimp only
  rw [if_neg hsets, hfill, if_neg hstate, hclean, hdue]

/-- R219: a part of a division as it stands once the division is made. -/
theorem partOf_leaves (f : Frag) (L : LeaveDue) (i : Nat) (y : Leaving) (halive : f.alive = true) :
    let g := partOf f L i y
    g.alive = true ∧ g.group = f.group ∧ g.own = y.lanes ∧ g.regs.mask 0 = y.lanes ∧ g.state = .transit y.dev y.home false ∧ g.regs.v = f.regs.v ∧
      g.regs.s = f.regs.s ∧ g.home = f.home ∧ g.outs = [] ∧ g.leave = some { L with sets := [], eff := L.eff &&& y.lanes, ents := [] } :=
  ⟨halive, rfl, rfl, mask_setM0 .., rfl, rfl, rfl, rfl, rfl, rfl⟩

/-- Settles O23: the checks stand in one chain; a word's sets of lanes are gathered home by home; and a division's parts take its entries in order. -/
theorem accessChecksAndMigration : Obligations.AccessChecksAndMigration := by
  refine ⟨?_, ?_, ?_⟩
  · intro s core r need e bnd as
    obtain ⟨c, hc, hcode⟩ := checkGlobal_code s core r need e bnd as
    dsimp only
    rw [hcode]
    refine ⟨fun h1 => if_pos h1, fun h1 h2 => ?_, fun h1 h2 h3 => ?_, fun h1 h2 h3 h4 => ?_, fun h1 h2 h3 h4 h5 => ?_, fun h1 h2 h3 h4 h5 h6 => ?_,
      fun h1 h2 h3 h4 h5 h6 => ?_, ?_⟩
    · rw [if_neg h1, if_pos h2]
      exact hc.imp (congrArg some) (congrArg some)
    · rw [if_neg h1, if_neg h2, if_pos h3]
    · rw [if_neg h1, if_neg h2, if_neg h3, if_pos h4]
    · rw [if_neg h1, if_neg h2, if_neg h3, if_neg h4, if_pos h5]
    · rw [if_neg h1, if_neg h2, if_neg h3, if_neg h4, if_neg h5, if_pos h6]
    · rw [if_neg h1, if_neg h2, if_neg h3, if_neg h4, if_neg h5, if_neg h6]
    · rintro hpriv ⟨a, -, -, hl⟩
      rw [State.leased, hpriv, Bool.true_or] at hl
      exact Bool.noConfusion hl
  · intro s d b i w op o core r cas c addr word
    have hword : ∀ (i : Instr) (a : MigAcc) (srcs : List Src), (s.poisoned srcs = none → (entire a = true → s.mreg 0 ≠ 0) →
        exec i s = finish s (s.migrateWord a s.eff)) → word i a srcs (entire a) := by
      intro i a srcs hexec hclean hactive hcheck hfree hrelease hfar htrap hdev
      have h : Departs s a := ⟨hcheck, hfree, hrelease, hfar, htrap, hdev⟩
      have hexec := hexec hclean hactive
      exact ⟨setsOf s a, leavings_sorted .., fun x hx => (mem_leavings _ _ _ _).2 ⟨x, hx, rfl⟩, setsOf_from s a, setsOf_lanes s a,
        departs_anchored s a h hexec, fun h0 hspill => ⟨departs_dead s a h hexec h0 hspill, departs_goes s a h hexec h0 hspill⟩⟩
    refine ⟨hword _ (.loadV d b i w o s.zeroed) _ fun hc _ => ?_, hword _ (.loadS d b w o) _ fun hc hm => ?_, hword _ (.atom d b i false op o c s.zeroed) _ fun hc _ => ?_,
      hword _ (.atom d b i true op o c s.zeroed) _ fun hc _ => ?_, hword _ (.migr b) _ fun hc hm => ?_⟩
    · exact congrArg (finish s) (State.clean_none s _ _ hc)
    · exact congrArg (finish s) ((State.clean_none s _ _ hc).trans (if_neg (hm rfl)))
    · exact congrArg (finish s) (State.clean_none s _ _ hc)
    · exact congrArg (finish s) (State.clean_none s _ _ (by simpa using hc))
    · exact congrArg (finish s) ((State.clean_none s _ _ hc).trans (if_neg (hm rfl)))
  · intro s n L x xs f at' gone stay t parts leaves hleave hsets houts halive hdue hstate hdev hlines hclean hloose hlen hnodup hents
    have hkeeps : s.keeps (s.group f.group) = true := beq_iff_eq.2 hdev
    have hne : ∀ e ∈ L.ents, at' e ≠ n := fun e he => (hents e he).2
    have hfree : untaken s f.group L = L.ents := List.filter_eq_self.2 fun e he => by rw [(hents e he).1]; rfl
    have ht : t = s.migrateParts n L := settle_divides s n L hleave (by simp [hsets]) houts halive hdue hstate hlines hclean
    obtain ⟨hground, -, hparts⟩ := foldl_addChild n f L halive hnodup hne parts s hkeeps rfl (hfree.symm ▸ hlen)
    rw [hfree] at hparts
    have hmem : ∀ {k e : Nat}, L.ents[k]? = some e → at' e ≠ n := fun he => hne _ (List.mem_of_getElem? he)
    by_cases hstay : stay = 0
    · have hall : parts = xs := if_pos hstay
      rw [hall] at hground hparts
      have hfrags := migrateParts_leaves s n L hkeeps hloose x xs hsets hstay hground
      have hfrag : ∀ m, t.frag m = ((xs.foldl (fun t y => t.addChild n f L y) s).setFrag n (f.departing f.idx x L)).frag m := fun m => by
        rw [ht]
        exact congrArg (fun fs => KMap.get Frag.free fs m) hfrags
      refine ⟨fun k y e hy he => ?_, fun _ => ?_, fun h => absurd hstay h⟩
      · rw [hfrag, State.frag_setFrag_other _ _ _ _ (hmem he), hparts k y e (hall ▸ hy) he]
        exact ⟨partOf_leaves f L e y halive, rfl⟩
      · rw [hfrag, State.frag_setFrag_same]
        exact ⟨partOf_leaves f L f.idx x halive, rfl⟩
    · have hall : parts = L.sets := if_neg hstay
      rw [hall] at hground hparts
      have hstays := ht.trans (migrateParts_stays s n L hkeeps hloose hstay hground)
      obtain ⟨hothers, hown⟩ := accessOf_stayAccess ((L.sets.foldl (fun t y => t.addChild n f L y) s).setFrag n (staying f L)) n
      refine ⟨fun k y e hy he => ?_, fun h => absurd h hstay, fun _ => ?_⟩
      · have hpart : ((L.sets.foldl (fun t y => t.addChild n f L y) s).setFrag n (staying f L)).frag (at' e) = partOf f L e y :=
          (State.frag_setFrag_other _ _ _ _ (hmem he)).trans (hparts k y e (hall ▸ hy) he)
        have hkept := (hothers (at' e) (hmem he)).2 (hpart ▸ rfl)
        rw [hstays, hkept, hpart]
        exact ⟨partOf_leaves f L e y halive, rfl⟩
      · rw [State.frag_setFrag_same] at hown
        obtain ⟨st, outs, v, due, parked, hown⟩ := hown
        rw [hstays, hown]
        exact ⟨rfl, mask_setM0 .., rfl, rfl, halive, rfl, rfl⟩

end Sys2Proof.Proofs.Migration

/-! ### Special registers, floating arithmetic, reductions and conversions (R40 to R54, R124, R125, R132 to R142) -/

namespace Sys2Proof.Proofs.FloatWords

open Sys2Proof Sys2Proof.Machine Sys2Proof.Claim Sys2Proof.Proofs.Privileged

/-- Fragment 0, active in every lane, within a chain group that issued when GTIMER was 5; the clocks since have brought it to 6. -/
def chained : State := { State.reset with frags := [(0, { Frag.free with
  alive := true, own := allLanes, regs := { Regs.created with m := #v[allLanes, 0, 0, 0, 0, 0, 0, 0] }, gtimer := 6, chain := true
  grp := some ⟨{ Regs.created with m := #v[allLanes, 0, 0, 0, 0, 0, 0, 0] }, 0, 0, 5, [], [], [], 0, false, none⟩ })] }

/-- R334: within a chain group SREAD reads GTIMER as it stood when the group issued. -/
theorem sread_gtimer_chained : Goes (.sread 0 4) chained (chained.wrS 0 5 false) := goes_of rfl rfl rfl

/-- Refutes O9: its GTIMER is the fragment's own, where within a chain group the word reads that of the clock at which the group issued. -/
theorem not_specialRegisterWords : ¬Obligations.SpecialRegisterWords := by
  intro h
  obtain ⟨hread, -⟩ := h chained 0 0 0 0
  have hsix : Goes (.sread 0 4) chained (chained.wrS 0 6 false) := hread 4 6 (by decide +kernel)
  have hsame := Host.Outcome.next.inj (hsix.symm.trans sread_gtimer_chained)
  exact absurd (congrArg (fun t : State => (t.f.regs.sreg 0).val) hsame) (by decide +kernel)

/-! #### NSTEP and the rounding of a lane (R43, R132, R133) -/

@[simp] theorem advance_pc (s : State) (k : BitVec 3) : (s.advance k).f.pc = s.f.pc := by
  unfold State.advance
  split_ifs <;> simp

/-- R43: what a word that rounds by the code `k` leaves of NSTEP. -/
theorem advance_eq (u : State) (k : BitVec 3) : u.advance k = if k ≠ 5 then u else u.setF { u.f with
    regs := { u.f.regs with nstep := u.f.regs.nstep + 1 }, grp := u.f.grp.map fun (g : GroupCtx) => { g with rounded := g.rounded + 1 } } :=
  (ite_not ..).symm

/-- R133: REDF and SCANF round by the code that PFX gives, rs excepted. -/
theorem rnd_of_ne (s : State) (k : BitVec 3) (l : Nat) (h : k ≠ 5) : s.rnd k l = Rnd.ofCode k 0 := if_neg h

section
variable {i : Instr} {s : State} {d : RegNum}

theorem goes_arithV {srcs : List Src} {op : Rnd → Nat → Word} (hexec : exec i s = finish s (arithV s d srcs op)) (h : s.poisoned srcs = none) :
    Goes i s ((s.wrV d (fun l => satF32 s.satCode (op (s.rnd s.rndCode l) l)) (s.bndOf srcs)).advance s.rndCode) :=
  goes_of hexec (State.clean_none _ _ _ h) (by simp)

theorem goes_arithS {srcs : List RegNum} {op : Rnd → Word} (hexec : exec i s = finish s (arithS s d srcs op)) (h : s.poisoned (srcs.map Src.s) = none) :
    Goes i s ((s.wrS d ((satF32 s.satCode (op (s.rnd s.rndCode 0))).setWidth 64) (s.bndOf (srcs.map Src.s))).advance s.rndCode) :=
  goes_of hexec (State.clean_none _ _ _ h) (by simp)

theorem goes_advance {srcs : List Src} {t : State} {k : BitVec 3} (hexec : exec i s = finish s (s.clean srcs (.done (t.advance k))))
    (hpc : t.f.pc = s.f.pc) (h : s.poisoned srcs = none) : Goes i s (t.advance k) :=
  goes_of hexec (State.clean_none _ _ _ h) (by simp [hpc])
end

/-- Settles O10: each word is its arithmetic applied lane by lane under `State.rnd`. -/
theorem floatArithmeticWords : Obligations.FloatArithmeticWords := by
  intro s d a b v k
  dsimp only
  simp only [← advance_eq]
  refine ⟨fun h => ?_, fun p h => ?_, ?_, ?_, ?_, ?_, ?_, ?_, ?_, ?_, ?_, ?_⟩
  · simp [State.rndCode, State.satCode, State.third, h]
  · simp [State.rndCode, State.satCode, State.third, h]
  · exact goes_arithV (op := fun k l => fadd k (s.vl a l) (fLane s v b l)) rfl
  · exact goes_arithV (op := fun k l => fsub k (s.vl a l) (fLane s v b l)) rfl
  · exact goes_arithV (op := fun k l => fmul k (s.vl a l) (fLane s v b l)) rfl
  · exact goes_arithV (op := fun k l => ffma k (s.vl a l) (fLane s v b l) (s.vl (s.third d) l)) rfl
  · exact goes_advance rfl (by simp)
  · exact goes_arithS (op := fun k => fadd k (s.fs a) (s.fs b)) rfl
  · exact goes_arithS (op := fun k => fsub k (s.fs a) (s.fs b)) rfl
  · exact goes_arithS (op := fun k => fmul k (s.fs a) (s.fs b)) rfl
  · exact goes_arithS (op := fun k => ffma k (s.fs a) (s.fs b) (s.fs (s.third d))) rfl
  · exact goes_advance rfl (by simp)

/-! #### Reductions and scans (R53, R54, R137) -/

theorem lanesBelow_getLsbD (m : Mask) (n l : Nat) : (m &&& BitVec.ofNat 96 (2 ^ n - 1)).getLsbD l = (m.getLsbD l && decide (l < n)) := by
  by_cases hl : l < 96
  · rw [BitVec.getLsbD_and, BitVec.getLsbD_ofNat, Nat.testBit_two_pow_sub_one, decide_eq_true hl, Bool.true_and]
  · simp [BitVec.getLsbD_of_ge m l (by omega)]

section
variable (s : State) (a : RegNum) (o : Nat)

/-- R137: the value that a reduction or a scan writes, from the lanes that it keeps. -/
def valueOver (keep : Nat → Bool) : Word :=
  canon ((tree (redfOp o (Rnd.ofCode s.rndCode 0)) (fun l => s.eff.getLsbD l && keep l) (s.vl a)).getD (redfId o))

variable (h : s.rndCode ≠ 0x5#3)
include h

theorem redfOver_eff : redfOver s o a s.eff = valueOver s a o fun _ => true := by
  simp [redfOver, valueOver, rnd_of_ne s _ 0 h]

theorem redfOver_below (n : Nat) : redfOver s o a (s.eff &&& BitVec.ofNat 96 (2 ^ n - 1)) = valueOver s a o fun j => decide (j < n) := by
  rw [redfOver, valueOver, rnd_of_ne s _ 0 h, funext (lanesBelow_getLsbD s.eff n)]

variable (d : RegNum) (hclean : s.poisoned [.v a s.eff] = none)
include hclean

theorem scanF_inc : scanF s d a o true = .done ((s.wrV d (fun l => valueOver s a o fun j => decide (j ≤ l)) (s.bndOf [.v a s.eff])).setE (decide (s.eff = 0))) := by
  rw [scanF, if_neg h, State.clean_none _ _ _ hclean]
  simp only [if_true, redfOver_below s a o h, Nat.lt_succ_iff]
  rfl

theorem scanF_exc : scanF s d a o false = .done ((s.wrV d (fun l => valueOver s a o fun j => decide (j < l)) (s.bndOf [.v a s.eff])).setE (decide (s.eff = 0))) := by
  rw [scanF, if_neg h, State.clean_none _ _ _ hclean]
  simp only [Bool.false_eq_true, if_false, redfOver_below s a o h]
  rfl
end

/-- Settles O13: a scan is the reduction over the lanes of the effective mask up to a lane, or before it. -/
theorem floatReductionsAndScans : Obligations.FloatReductionsAndScans := by
  intro s d a o
  refine ⟨fun h hclean => ⟨?_, ?_⟩, fun h i hi => ?_⟩
  · have hredf : Goes (.redf d a o) s ((s.wrS d ((redfOver s o.toNat a s.eff).setWidth 64) (s.bndOf [.v a s.eff])).setE (decide (s.eff = 0))) :=
      goes_of rfl ((if_neg h).trans (State.clean_none _ _ _ hclean)) (by simp)
    rwa [redfOver_eff s a _ h] at hredf
  · exact ⟨goes_of rfl (scanF_inc s a 0 h d hclean) (by simp), goes_of rfl (scanF_exc s a 0 h d hclean) (by simp),
      goes_of rfl (scanF_inc s a 1 h d hclean) (by simp), goes_of rfl (scanF_exc s a 1 h d hclean) (by simp),
      goes_of rfl (scanF_inc s a 2 h d hclean) (by simp), goes_of rfl (scanF_exc s a 2 h d hclean) (by simp)⟩
  · have hfault : ∀ k, (if s.rndCode = 5 then Act.fault (faultOf 0x01#8) else k) = .fault (faultOf 0x01#8) := fun k => if_pos h
    simp only [List.mem_cons, List.not_mem_nil, or_false] at hi
    rcases hi with rfl | rfl | rfl | rfl | rfl | rfl | rfl <;> exact faults_of rfl (hfault _)

/-! #### Conversions (R140 to R142) -/

theorem wrLanes_congr (s : State) (d : RegNum) (W : Mask) (x y : Nat → Word) (t : Bool) (h : ∀ l, l < 96 → x l = y l) : s.wrLanes d W x t = s.wrLanes d W y t := by
  have hxy : lanesOf x = lanesOf y := Vector.ext fun l hl => by simpa [lanesOf] using h l hl
  simp only [State.wrLanes, hxy]

/-- R142: the beat that an output lane of PACK4 takes its word from. -/
theorem packedBeats_getD (f : Nat → List Nat × Byte) (l : Nat) (hl : l < 96) : ((List.range 3).map f)[l / 32]?.getD ([], 0) = f (l / 32) := by
  rw [List.getElem?_map, List.getElem?_range (by omega)]
  rfl

/-- Settles O14: each word is its conversion applied lane by lane; of PACK4 each lane takes its beat's codes or scale. -/
theorem conversionWords : Obligations.ConversionWords := by
  intro s d a b f g i
  dsimp only
  simp only [← advance_eq]
  refine ⟨fun c => ⟨fun h => ?_, fun p h => ?_⟩, fun h => ⟨?_, ?_, ?_, ?_⟩, fun h => ?_, fun h => ?_⟩
  · simp [State.nmRnd, State.nmSat, h]
  · simp [State.nmRnd, State.nmSat, h]
  · exact goes_advance rfl (by simp) h
  · exact goes_of rfl (State.clean_none _ _ _ h) (by simp)
  · exact goes_advance rfl (by simp) h
  · exact goes_advance rfl (by simp) h
  · exact goes_of rfl (State.clean_none _ _ _ h) (by simp)
  · rw [wrLanes_congr s d _ _ _ _ fun l hl => by rw [← packedBeats_getD (fun n => packBeat s a b (s.nmRnd 4) (s.nmSat 4) n) l hl]]
    exact goes_advance rfl (by simp) h

end Sys2Proof.Proofs.FloatWords

/-! ### Matrix operations and their passes (R52, R166, R174 to R178) -/

namespace Sys2Proof.Proofs.Matrix

open Sys2Proof Sys2Proof.Machine Sys2Proof.Claim Sys2Proof.Proofs.Privileged

/-! #### The passes of an op (R176) -/

/-- A run of ones from lane `k` on. -/
theorem ones_getLsbD (n k r : Nat) (hr : r < 96) : (BitVec.ofNat 96 (2 ^ n - 1) <<< k).getLsbD r = decide (k ≤ r ∧ r < k + n) := by
  simp only [BitVec.getLsbD_shiftLeft, BitVec.getLsbD_ofNat, Nat.testBit_two_pow_sub_one]
  by_cases hk : k ≤ r
  · simp [hr, hk, show r - k < 96 by omega, show r - k < n ↔ r < k + n by omega]
  · simp [hk, show r < k by omega]

theorem octet_getLsbD (q r : Nat) (hr : r < 96) : (octet q).getLsbD r = decide (r / 8 = q) :=
  (ones_getLsbD 8 (8 * q) r hr).trans (decide_eq_decide.2 (by omega))

theorem beat_getLsbD (b r : Nat) (hr : r < 96) : (beat b).getLsbD r = decide (r / 32 = b) :=
  (ones_getLsbD 32 (32 * b) r hr).trans (decide_eq_decide.2 (by omega))

theorem lt_of_getLsbD {m : Mask} {r : Nat} (h : m.getLsbD r = true) : r < 96 := BitVec.lt_of_getLsbD h

section
variable (act : Mask) (b : Nat)

/-- The octets of a beat that hold an active row. -/
def octetsOf : List Nat := (List.range 4).filter fun q => act &&& octet (4 * b + q) != 0x0#96
/-- R176: the passes of a beat: one where three or four octets are active, else one for each. -/
def beatPasses : List (Nat × Mask) :=
  if (octetsOf act b).length = 0 then [] else if 3 ≤ (octetsOf act b).length then [(b, act &&& beat b)]
  else (octetsOf act b).map fun q => (b, act &&& octet (4 * b + q))

theorem passes_eq : passes act = (List.range 3).flatMap (beatPasses act) := rfl

theorem mem_octetsOf {act : Mask} {b r : Nat} (h : act.getLsbD r = true) (hb : r / 32 = b) : r % 32 / 8 ∈ octetsOf act b := by
  refine List.mem_filter.2 ⟨List.mem_range.2 (by omega), bne_iff_ne.2 fun h0 => ?_⟩
  have hbit : (act &&& octet (4 * b + r % 32 / 8)).getLsbD r = true := by
    rw [BitVec.getLsbD_and, h, octet_getLsbD _ _ (lt_of_getLsbD h)]
    exact decide_eq_true (by omega)
  simp [h0] at hbit

/-- A pass of a beat holds active rows of the beat. -/
theorem beatPasses_rows {p : Nat × Mask} (hp : p ∈ beatPasses act b) {r : Nat} (hr : p.2.getLsbD r = true) : act.getLsbD r = true ∧ r / 32 = b ∧ p.1 = b := by
  unfold beatPasses at hp
  split_ifs at hp with h0 h3
  · exact absurd hp List.not_mem_nil
  · obtain rfl := List.mem_singleton.1 hp
    have hlt := lt_of_getLsbD hr
    rw [BitVec.getLsbD_and, beat_getLsbD _ _ hlt, Bool.and_eq_true, decide_eq_true_eq] at hr
    exact ⟨hr.1, hr.2, rfl⟩
  · obtain ⟨q, hq, rfl⟩ := List.mem_map.1 hp
    have hlt := lt_of_getLsbD hr
    have hq4 := List.mem_range.1 (List.mem_filter.1 hq).1
    rw [BitVec.getLsbD_and, octet_getLsbD _ _ hlt, Bool.and_eq_true, decide_eq_true_eq] at hr
    exact ⟨hr.1, by omega, rfl⟩

/-- The passes of its beat hold an active row once. -/
theorem beatPasses_once {r : Nat} (h : act.getLsbD r = true) (hb : r / 32 = b) : ((beatPasses act b).filter fun p => p.2.getLsbD r).length = 1 := by
  have hlt := lt_of_getLsbD h
  have hmem := mem_octetsOf h hb
  unfold beatPasses
  rw [if_neg (List.length_pos_of_mem hmem).ne']
  split_ifs with h3
  · have hkeep : (act &&& beat b).getLsbD r = true := by rw [BitVec.getLsbD_and, h, beat_getLsbD _ _ hlt, decide_eq_true hb]; rfl
    simp [hkeep]
  · have hnodup : (octetsOf act b).Nodup := List.nodup_range.filter _
    have hholds : ∀ q ∈ octetsOf act b, (act &&& octet (4 * b + q)).getLsbD r = (q == r % 32 / 8) := fun q hq => by
      have hq4 := List.mem_range.1 (List.mem_filter.1 hq).1
      rw [BitVec.getLsbD_and, h, octet_getLsbD _ _ hlt, Bool.true_and]
      exact decide_eq_decide.2 (by omega)
    rw [List.filter_map, List.length_map, Function.comp_def, List.filter_congr hholds, ← List.countP_eq_length_filter]
    exact List.count_eq_one_of_mem hnodup hmem

theorem beatPasses_none {r : Nat} (hb : r / 32 ≠ b) : ((beatPasses act b).filter fun p => p.2.getLsbD r).length = 0 := by
  rw [List.length_eq_zero_iff, List.filter_eq_nil_iff]
  exact fun p hp hr => hb (beatPasses_rows act b hp hr).2.1

/-- R176: the passes of an op hold each active row once. -/
theorem passes_once {r : Nat} (h : act.getLsbD r = true) : ((passes act).filter fun p => p.2.getLsbD r).length = 1 := by
  have hlt := lt_of_getLsbD h
  have hbeat : ∀ b, ((beatPasses act b).filter fun p => p.2.getLsbD r).length = if r / 32 = b then 1 else 0 := fun b => by
    split_ifs with hb
    · exact beatPasses_once act b h hb
    · exact beatPasses_none act b hb
  have hthree : List.range 3 = [0, 1, 2] := rfl
  simp only [passes_eq, hthree, List.flatMap_cons, List.flatMap_nil, List.append_nil, List.filter_append, List.length_append, hbeat]
  have : r / 32 = 0 ∨ r / 32 = 1 ∨ r / 32 = 2 := by omega
  rcases this with h | h | h <;> simp [h]

/-- R176: a pass holds active rows of its beat. -/
theorem passes_rows {p : Nat × Mask} (hp : p ∈ passes act) {r : Nat} (hr : p.2.getLsbD r = true) : act.getLsbD r = true ∧ r / 32 = p.1 := by
  obtain ⟨b, -, hp⟩ := List.mem_flatMap.1 hp
  obtain ⟨hact, hbeat, hp1⟩ := beatPasses_rows act b hp hr
  exact ⟨hact, hbeat.trans hp1.symm⟩
end

/-! #### Rows of a tile (R166, R175) -/

theorem tile_setTile (g : Group) (n k : Nat) (t : Tile) : (g.setTile n t).tile k = if k = n then t else g.tile k := KMap.get_put ..

theorem elem_setElem (t : Tile) (r i r' j : Nat) (x : Word) (hi : i < 32) (hj : j < 32) :
    (t.setElem r i x).elem r' j = if r' = r ∧ j = i then x else t.elem r' j :=
  (KMap.get_put ..).trans (if_congr (by omega) rfl rfl)

/-- R175: a row whose elements are replaced, each by a function of itself. -/
def mapRow (F : Nat → Nat → Word → Word) (r : Nat) (cols : List Nat) (t : Tile) : Tile := cols.foldl (fun t i => t.setElem r i (F r i (t.elem r i))) t
/-- R175: the same of several rows. -/
def mapRows (F : Nat → Nat → Word → Word) (rows : List Nat) (t : Tile) : Tile := rows.foldl (fun t r => mapRow F r (List.range 32) t) t

theorem elem_mapRow (F : Nat → Nat → Word → Word) (r : Nat) (cols : List Nat) (t : Tile) (hcols : ∀ i ∈ cols, i < 32) (hnodup : cols.Nodup) (r' j : Nat)
    (hj : j < 32) : (mapRow F r cols t).elem r' j = if r' = r ∧ j ∈ cols then F r j (t.elem r j) else t.elem r' j := by
  induction cols generalizing t with
  | nil => simp [mapRow]
  | cons i cols ih =>
    obtain ⟨hi, hnodup⟩ := List.nodup_cons.1 hnodup
    have hi32 := hcols i (List.mem_cons_self ..)
    have hset := fun r' j hj => elem_setElem t r i r' j (F r i (t.elem r i)) hi32 hj
    rw [mapRow, List.foldl_cons, ← mapRow, ih _ (fun k hk => hcols k (List.mem_cons_of_mem _ hk)) hnodup, hset r j hj, hset r' j hj]
    by_cases hji : j = i
    · subst hji
      by_cases hr : r' = r <;> simp [hi, hr]
    · simp [hji]

theorem elem_mapRows (F : Nat → Nat → Word → Word) (rows : List Nat) (t : Tile) (hnodup : rows.Nodup) (r j : Nat) (hj : j < 32) :
    (mapRows F rows t).elem r j = if r ∈ rows then F r j (t.elem r j) else t.elem r j := by
  induction rows generalizing t with
  | nil => simp [mapRows]
  | cons k rows ih =>
    obtain ⟨hk, hnodup⟩ := List.nodup_cons.1 hnodup
    have hrow := elem_mapRow F k (List.range 32) t (fun _ => List.mem_range.1) List.nodup_range
    rw [mapRows, List.foldl_cons, ← mapRows, ih _ hnodup, hrow r j hj]
    by_cases hrk : r = k
    · subst hrk
      simp [hk, hj]
    · simp [hrk]

theorem mem_lanesIn {m : Mask} {r : Nat} : r ∈ lanesIn m ↔ m.getLsbD r = true := by
  simp only [lanesIn, List.mem_filter, List.mem_range, and_iff_right_iff_imp]
  exact lt_of_getLsbD

theorem lanesIn_nodup (m : Mask) : (lanesIn m).Nodup := List.nodup_range.filter _

/-! #### The words and the pass (R174 to R178) -/

theorem g_setG (s : State) (g : Group) : (s.setG g).g = g := State.group_setGroup_same ..

section
variable (s : State) (t : BitVec 3) (a b : BitVec 7) (st : BitVec 2)

/-- R175: the passes that an MMA leaves in the array's queue. -/
def queuedPasses : List MmaEntry := (passes (s.mreg 0)).map fun p => ⟨s.f.group, st.toNat, s.g.mmaSeq, t.toNat, p.2, a.toNat + p.1, b.toNat,
  s.src.fmt.extractLsb' 0 6, s.src.fmt.extractLsb' 8 6⟩

/-- R175: the state once MMA is accepted. -/
def accepted : State := (s.setCore s.f.coreKey { s.core s.f.coreKey with mmaQ := (s.core s.f.coreKey).mmaQ ++ queuedPasses s t a b st }).setG
  { (s.g.setTile t.toNat { s.g.tile t.toNat with empty := false }) with mmaSeq := s.g.mmaSeq + 1 }

theorem mma_accepted (hact : s.mreg 0 ≠ 0) (hk : mmaK (s.src.fmt.extractLsb' 0 4) (s.src.fmt.extractLsb' 8 4) ≠ none) (htile : s.tileCheck true t = none)
    (hslots : s.mmaSlots a b = none) (hroom : (s.core s.f.coreKey).mmaQ.length + (passes (s.mreg 0)).length ≤ 16) :
    Goes (.mma t a b st) s (accepted s t a b st) := by
  refine goes_of rfl ((if_neg hact).trans ((if_neg hk).trans ?_)) rfl
  rw [htile, hslots]
  exact if_neg (Nat.not_lt.2 hroom)

theorem accepted_tile : (accepted s t a b st).g.tile t.toNat = { s.g.tile t.toNat with empty := false } := by
  rw [accepted, g_setG]
  exact (tile_setTile s.g t.toNat t.toNat { s.g.tile t.toNat with empty := false }).trans (if_pos rfl)

theorem accepted_core : ((accepted s t a b st).core s.f.coreKey).mmaQ = (s.core s.f.coreKey).mmaQ ++ queuedPasses s t a b st :=
  congrArg Core.mmaQ (State.core_setCore_same ..)
end

section
variable (s : State) (core n : Nat) (e : MmaEntry) (rest : List MmaEntry) (k : Nat)

/-- R175, R183: the tile once a pass has written its rows. -/
def passedTile : Tile :=
  { mapRows (s.mmaElem core e k) (lanesIn e.rows) ((s.group e.group).tile e.tile) with
    empty := false
    poison := (s.badRows core e k).foldl (fun p r => p ||| BitVec.twoPow 12 (r / 8))
      (mapRows (s.mmaElem core e k) (lanesIn e.rows) ((s.group e.group).tile e.tile)).poison }

/-- R176, R375: the state once a pass has left the queue, but for its tile. -/
def unqueued : State :=
  let s1 := s.setHome (core / 256) { s.home (core / 256) with credPass := (s.home (core / 256)).credPass - e.credits }
  (s1.setCore core { s1.core core with mmaQ := rest }).count core 7 1

theorem mmaPassComplete_eq (htake : takeAt (s.core core).mmaQ n = some (e, rest)) (hfirst : ∀ x ∈ rest, x.group = e.group → x.stream = e.stream → e.seq ≤ x.seq)
    (hcred : e.credits ≤ (s.home (core / 256)).credPass) (hk : mmaK (e.fmtA.extractLsb' 0 4) (e.fmtB.extractLsb' 0 4) = some k) :
    exec (.mmaPassComplete core n) s = .next ((unqueued s core e rest).setGroup e.group ((s.group e.group).setTile e.tile (passedTile s core e k))) := by
  have hearlier : (rest.any fun x => x.group == e.group && x.stream == e.stream && decide (x.seq < e.seq)) = false := List.any_eq_false.2 fun x hx => by
    simp only [Bool.and_eq_true, beq_iff_eq, decide_eq_true_eq, not_and, Nat.not_lt, and_imp]
    exact hfirst x hx
  show execMmaPassComplete core n s = _
  rw [execMmaPassComplete, htake]
  dsimp only
  rw [hearlier, hk, if_neg Bool.false_ne_true, if_neg (Nat.not_lt.2 hcred)]
  rfl

theorem unqueued_core : ((unqueued s core e rest).core core).mmaQ = rest := by
  rw [unqueued, State.count, State.core_setCore_same, State.core_setCore_same]

theorem passedTile_elem (r j : Nat) (hj : j < 32) : (passedTile s core e k).elem r j =
    if e.rows.getLsbD r = true then s.mmaElem core e k r j (((s.group e.group).tile e.tile).elem r j) else ((s.group e.group).tile e.tile).elem r j :=
  (elem_mapRows _ _ _ (lanesIn_nodup _) r j hj).trans (if_congr mem_lanesIn rfl rfl)
end

/-- Settles O28: the passes cover the active rows beat by beat, and a pass maps its rows to exact sums. -/
theorem matrixOperations : Obligations.MatrixOperations := by
  refine ⟨fun s t a b st => ⟨fun h => goes_of rfl (if_pos h) rfl, fun hact hk htile hslots hroom => ?_⟩,
    fun act => ⟨fun r _ => passes_once act, fun p hp r => passes_rows act hp⟩, fun s core n e rest k htake hfirst hcred hk => ?_, fun s st n upto => ?_⟩
  · refine ⟨accepted s t a b st, mma_accepted s t a b st hact hk htile hslots hroom, ⟨rfl, rfl, rfl, rfl, rfl, rfl, rfl, rfl, rfl⟩, rfl,
      accepted_core s t a b st, accepted_tile s t a b st, ?_⟩
    rw [accepted, g_setG]
  · refine ⟨_, mmaPassComplete_eq s core n e rest k htake hfirst hcred hk, unqueued_core s core e rest, rfl, rfl, fun j hj => ?_, ?_, fun r j hj => ?_⟩
    · rw [State.group_setGroup_same, tile_setTile, if_neg hj]
    · rw [State.group_setGroup_same, tile_setTile, if_pos rfl]
      rfl
    · rw [State.group_setGroup_same, tile_setTile, if_pos rfl]
      exact passedTile_elem s core e k r j hj
  · dsimp only
    simp only [Bool.and_true]
    refine ⟨fun hplace hq => goes_of rfl ?_ rfl, fun hplace hq => goes_of rfl ?_ (by rw [State.f_setF]), fun hwait hgrp hq => ?_⟩
    · rw [hplace]
      exact if_neg (Bool.eq_false_iff.1 hq)
    · rw [hplace]
      exact if_pos hq
    · show execMsyncRelease n s = _
      rw [execMsyncRelease, hwait]
      dsimp only
      rw [hgrp, hq]
      rfl

end Sys2Proof.Proofs.Matrix

/-! ### Stores of a fragment at its own home (R206, R207, R217, R218, R223, R224, R238) -/

namespace Sys2Proof.Proofs.Stores

open Sys2Proof Sys2Proof.Machine Sys2Proof.Claim Sys2Proof.Proofs.Privileged Sys2Proof.Proofs.Bytes Sys2Proof.Proofs.Launch Sys2Proof.Proofs.Migration

/-! #### Maps written one value after another -/

section
variable {α β : Type} [DecidableEq α] (d : α) (key : β → Nat) (val : β → α) (cells : List β) (m : KMap α) (k : Nat)

theorem foldl_put_other (h : ∀ c ∈ cells, key c ≠ k) : (cells.foldl (fun (m : KMap α) c => KMap.put d m (key c) (val c)) m).get d k = m.get d k := by
  induction cells generalizing m with
  | nil => rfl
  | cons c r ih =>
    rw [List.foldl_cons, ih _ fun c' hc' => h c' (List.mem_cons_of_mem _ hc'), KMap.get_put, if_neg (h c (List.mem_cons_self ..)).symm]

theorem foldl_put_agreed (x : α) (hx : ∀ c ∈ cells, key c = k → val c = x) (hk : ∃ c ∈ cells, key c = k) :
    (cells.foldl (fun (m : KMap α) c => KMap.put d m (key c) (val c)) m).get d k = x := by
  induction cells generalizing m with
  | nil => exact absurd hk (by simp)
  | cons c r ih =>
    rw [List.foldl_cons]
    by_cases hr : ∃ c ∈ r, key c = k
    · exact ih _ (fun c hc => hx c (List.mem_cons_of_mem _ hc)) hr
    · have hc : key c = k := by simpa [hr] using hk
      rw [foldl_put_other d key val r _ k fun c' hc' he => hr ⟨c', hc', he⟩, KMap.get_put, if_pos hc.symm]
      exact hx c (List.mem_cons_self ..) hc
end

/-! #### What a write of device memory leaves (R163, R207, R218) -/

/-- R163, R207, R218: `u` is `s` once the bytes `cells` of device memory have been written, each under the memory key of its place. -/
structure Wrote (s u : State) (cells : List (Nat × Byte)) : Prop where
  mem : u.mem = cells.foldl (fun (m : KMap Byte) (c : Nat × Byte) => KMap.put 0x00#8 m (c.1 % 2 ^ 40) c.2) s.mem
  memKeys : u.memKeys = cells.foldl (fun (m : KMap (BitVec 512)) (c : Nat × Byte) => KMap.put 0 m (c.1 % 2 ^ 40) (s.keyAt c.1)) s.memKeys
  errs : ∀ e ∈ u.memErr, e ∈ s.memErr
  frags : ∀ n, Woken (s.frag n) (u.frag n)
  same : u.cur = s.cur ∧ u.keySlots = s.keySlots ∧ u.fabric = s.fabric ∧ u.scratch = s.scratch ∧ u.vault = s.vault ∧ u.opmem = s.opmem

theorem keyAt_congr {s u : State} (h : u.keySlots = s.keySlots) (k : Nat) : u.keyAt k = s.keyAt k := by simp only [State.keyAt, h]

theorem Wrote.trans {s u v : State} {cs ds : List (Nat × Byte)} (h : Wrote s u cs) (h' : Wrote u v ds) : Wrote s v (cs ++ ds) := by
  obtain ⟨hcur, hslots, hfab, hscr, hvault, hop⟩ := h.same
  obtain ⟨hcur', hslots', hfab', hscr', hvault', hop'⟩ := h'.same
  refine ⟨?_, ?_, fun e he => h.errs e (h'.errs e he), fun n => (h.frags n).trans (h'.frags n),
    hcur'.trans hcur, hslots'.trans hslots, hfab'.trans hfab, hscr'.trans hscr, hvault'.trans hvault, hop'.trans hop⟩
  · rw [List.foldl_append, ← h.mem, h'.mem]
  · simp only [List.foldl_append, ← h.memKeys, h'.memKeys, keyAt_congr hslots]

/-- A change of the cores alone writes nothing. -/
theorem wrote_cores (s : State) (cs : KMap Core) : Wrote s { s with cores := cs } [] :=
  ⟨rfl, rfl, fun _ he => he, fun _ => .refl _, rfl, rfl, rfl, rfl, rfl, rfl⟩

theorem wrote_writeMem (s : State) (cells : List (Nat × Byte)) (h : s.badUnits cells = []) : Wrote s (s.writeMem cells) cells := by
  have hall : (cells.filter fun c => !(s.badUnits cells).contains (c.1 % 2 ^ 40 / 32)) = cells := by simp [h]
  refine ⟨?_, ?_, fun e he => (List.mem_filter.1 he).1, fun n => ?_, rfl, rfl, rfl, rfl, rfl, rfl⟩
  · rw [writeMem_mem s cells h, putCells, List.foldl_map]
  · simp only [State.writeMem, hall]
    rfl
  · simp only [State.writeMem, hall]
    exact woken_setMem s cells n

section
variable {s u : State} {cells : List (Nat × Byte)} (h : Wrote s u cells)
include h

/-- A byte at an address that no cell writes is as before, and so is the memory key that it was written under. -/
theorem Wrote.other {k : Nat} (hk : ∀ c ∈ cells, c.1 % 2 ^ 40 ≠ k % 2 ^ 40) :
    u.byte k = s.byte k ∧ u.memKeys.get 0 (k % 2 ^ 40) = s.memKeys.get 0 (k % 2 ^ 40) := by
  refine ⟨?_, ?_⟩
  · rw [State.byte, h.mem, State.byte]
    refine foldl_put_other _ _ _ _ _ _ fun c hc he => hk c hc ?_
    rw [← he, Nat.mod_mod]
  · rw [h.memKeys]
    exact foldl_put_other _ _ _ _ _ _ hk

/-- R207: a byte whose address one cell alone writes reads as that cell says under the memory key of its place. -/
theorem Wrote.dramByte {k : Nat} {x : Byte} (hk : (k, x) ∈ cells) (hone : ∀ c ∈ cells, c.1 % 2 ^ 40 = k % 2 ^ 40 → c = (k, x)) : u.dramByte k = x := by
  have hbyte : u.byte (k % 2 ^ 40) = x := by
    rw [State.byte, h.mem]
    exact foldl_put_agreed _ _ _ _ _ _ x (fun c hc he => by rw [hone c hc he]) ⟨_, hk, rfl⟩
  have hkey : u.memKeys.get 0 (k % 2 ^ 40) = u.keyAt k := by
    rw [h.memKeys, keyAt_congr h.same.2.1]
    exact foldl_put_agreed _ _ _ _ _ _ _ (fun c hc he => by rw [hone c hc he]) ⟨_, hk, rfl⟩
  rw [State.dramByte]
  split_ifs with hlt hor
  · exact (congrArg u.byte (Nat.mod_eq_of_lt hlt)).symm.trans hbyte
  · exact hbyte
  · exact absurd (.inr hkey) hor
end

/-! #### Elements stored at this home (R218, R223) -/

/-- R218: bytes outside every unit in error leave no unit covered in part. -/
theorem badUnits_eq_nil (s : State) (cells : List (Nat × Byte)) (h : ∀ c ∈ cells, ∀ u ∈ s.memErr, c.1 % 2 ^ 40 / 32 ≠ u) : s.badUnits cells = [] := by
  refine List.filter_eq_nil_iff.2 fun u hu hb => ?_
  simp only [Bool.and_eq_true, Bool.not_eq_true', List.isEmpty_eq_false_iff_exists_mem, List.mem_filter, List.mem_map, beq_iff_eq] at hb
  obtain ⟨⟨_, ⟨c, hc, rfl⟩, hk⟩, -⟩ := hb
  exact h c hc u hu hk

theorem wrote_storeElems (s : State) (group home : Nat) (pc : DWord) (es : List Elem) (hdram : ∀ e ∈ es, e.space = .dram)
    (hgood : s.badUnits (es.flatMap Elem.cells) = []) : Wrote s (s.storeElems group home pc es) (es.flatMap Elem.cells) := by
  have hall : (es.filter fun e => e.space == .dram) = es := List.filter_eq_self.2 fun e he => beq_iff_eq.2 (hdram e he)
  have hscr : (es.filter fun e => e.space == .scratch) = [] := List.filter_eq_nil_iff.2 fun e he => by rw [hdram e he]; decide
  have hvault : (es.filter fun e => e.space == .vault) = [] := List.filter_eq_nil_iff.2 fun e he => by rw [hdram e he]; decide
  have hbad : perLane (es.filter fun e => (s.badUnits (es.flatMap Elem.cells)).contains (e.key % 2 ^ 40 / 32)) = [] := by
    rw [hgood]
    simp [perLane]
  have hmend : (s.writeMem (es.flatMap Elem.cells)).mend 2 [] = (s.writeMem (es.flatMap Elem.cells)).sramErr := by simp [State.mend]
  unfold State.storeElems
  simp only [hall, hscr, hvault, hbad, List.flatMap_nil, List.isEmpty_nil, if_true, List.foldl_nil, State.writeVault, hmend]
  exact wrote_writeMem s _ hgood

/-! #### Pages of a word (R217, R238) -/

/-- R207: an element at its place in device memory. -/
def placed (s : State) (e : Elem) : Elem := { e with key := placeOf s e.va }

theorem mem_addPage (ps : List PageReq) (p : PageReq) (e : Elem) :
    e ∈ (addPage ps p).flatMap PageReq.elems ↔ e ∈ ps.flatMap PageReq.elems ∨ e ∈ p.elems := by
  induction ps with
  | nil => simp [addPage]
  | cons q ps ih =>
    rw [addPage]
    split_ifs
    · simp only [List.flatMap_cons, List.mem_append]
      tauto
    · simp only [List.flatMap_cons, List.mem_append]
      tauto
    · rw [List.flatMap_cons, List.mem_append, ih, List.flatMap_cons, List.mem_append, or_assoc]

/-- A page that another joins stays at its home, under its order. -/
theorem forall_addPage (P : Nat → Nat → Nat → Prop) (ps : List PageReq) (p : PageReq) (hps : ∀ q ∈ ps, P q.dev q.home q.ord) (hp : P p.dev p.home p.ord) :
    ∀ q ∈ addPage ps p, P q.dev q.home q.ord := by
  induction ps with
  | nil => simpa [addPage] using hp
  | cons q ps ih =>
    obtain ⟨hq, hps⟩ := List.forall_mem_cons.1 hps
    rw [addPage]
    split_ifs
    · exact List.forall_mem_cons.2 ⟨hq, hps⟩
    · exact List.forall_mem_cons.2 ⟨hp, List.forall_mem_cons.2 ⟨hq, hps⟩⟩
    · exact List.forall_mem_cons.2 ⟨hq, ih hps⟩

section
variable (s : State) (es : List Elem)

/-- The pages of a word of the fragment at issue. -/
def pagesOf : List PageReq := s.pages s.f.coreKey s.g.rights es

theorem mem_pagesOf (e : Elem) : e ∈ (pagesOf s es).flatMap PageReq.elems ↔ ∃ x ∈ es, e = placed s x := by
  induction es using List.reverseRecOn with
  | nil => simp [pagesOf, State.pages]
  | append_singleton es x ih =>
    rw [pagesOf, State.pages, List.foldl_append, List.foldl_cons, List.foldl_nil, mem_addPage, ← State.pages, ← pagesOf, ih, List.mem_singleton]
    simp only [List.mem_append, List.mem_singleton, or_and_right, exists_or, exists_eq_left]
    rfl

theorem forall_pagesOf (P : Nat → Nat → Nat → Prop) (h : ∀ e ∈ es, P (leafAt s e.va).dev (leafAt s e.va).home (leafAt s e.va).ord) :
    ∀ p ∈ pagesOf s es, P p.dev p.home p.ord :=
  List.foldlRecOn es _ (motive := fun ps : List PageReq => ∀ p ∈ ps, P p.dev p.home p.ord) (fun _ hp => nomatch hp)
    fun ps hps e he => forall_addPage P ps _ hps (h e he)
end

/-! #### Releases and the cores' caches (R225, R241, R247, R320) -/

/-- R247: whether a core's write-combining buffer holds bytes of a fragment. -/
def combines (n : Nat) (c : Core) : Bool := c.wc.any fun l => l.frags.contains n

theorem wcLinesOf_isEmpty (s : State) (n : Nat) : (s.wcLinesOf n).isEmpty = !(s.cores.any fun e => combines n e.2) := by
  rw [Bool.eq_iff_iff, List.isEmpty_iff]
  simp [State.wcLinesOf, combines, List.flatMap_eq_nil_iff, List.filter_eq_nil_iff]

theorem released_setCore (s : State) (core : Nat) (c : Core) (h : c.wc = (s.core core).wc) (n : Nat) (sys : Bool) :
    (s.setCore core c).released n sys = s.released n sys := by
  have hany : ((s.setCore core c).cores.any fun e => combines n e.2) = s.cores.any fun e => combines n e.2 :=
    any_ins Core.fresh (combines n) rfl _ _ _ (by rw [combines, h]; rfl)
  rw [State.released, State.released, wcLinesOf_isEmpty, wcLinesOf_isEmpty, hany]
  rfl

/-- R320: translating addresses leaves what a release waits for. -/
theorem released_translated (s : State) (vas : List DWord) (n : Nat) (sys : Bool) : (translated s vas).released n sys = s.released n sys := by
  refine List.foldlRecOn vas _ (motive := fun t : State => t.released n sys = s.released n sys) rfl fun t ht va _ => ?_
  cases t.trCore s.f.coreKey s.g.rights.asid va with
  | ok x => exact (released_setCore t s.f.coreKey { t.core s.f.coreKey with tlb := fillTlb 64 (t.core s.f.coreKey).tlb s.g.rights.asid va x } rfl n sys).trans ht
  | error x => exact ht

/-! #### A store or posted operation at the fragment's own home (R217, R223 to R225) -/

/-- R217, R225, R235, R238, R275: a word's elements pass every check, are not kept from issuing, lie at the fragment's own home on pages that are not SO,
and meet no error. -/
structure StoresAtHome (s : State) (need : Need) (o : BitVec 3) (size : Nat) (bnd : Bool) (es : List Elem) : Prop where
  first : s.f.sent = 0
  nonempty : es ≠ []
  before : NothingBefore s
  check : s.checkGlobal s.f.coreKey s.g.rights need size bnd (es.map fun e => ⟨e.lane, e.va, e.size⟩) = none
  free : s.accessHeld s.cur = false
  release : ReleaseMet s o
  plain : ∀ e ∈ es, e.space = .dram ∧ e.op = none
  here : ∀ e ∈ es, (leafAt s e.va).dev = s.fabric.toNat ∧ (leafAt s e.va).home = s.f.home ∧ (leafAt s e.va).ord ≠ 0
  served : ∀ e ∈ es, s.served [placed s e] = true
  good : ∀ e ∈ es, s.readErr (placeOf s e.va) e.size = false

/-- R19: an element that is delivered lies below the highest home's memory. -/
theorem served_lt (s : State) (e : Elem) (hdram : e.space = .dram) (h : s.served [e] = true) : e.key % 2 ^ 40 < 12 * 2 ^ 36 := by
  simp only [State.served, State.delivered, List.all_cons, List.all_nil, Bool.and_true, hdram, bne_self_eq_false, Bool.false_or, Bool.and_eq_true] at h
  have hlt : e.key / 2 ^ 36 % 16 < 12 := by
    by_contra hge
    have hfuse : s.fuseOf (e.key / 2 ^ 36 % 16) = Fuse.absent := if_neg hge
    rw [hfuse] at h
    exact Bool.false_ne_true h.1
  omega

section
variable {s : State} {e : Elem} (hdram : e.space = .dram) (hserved : s.served [placed s e] = true) (hsize : e.size ≤ 8)
include hdram hserved hsize

/-- R206: the bytes of an element lie at rising addresses. -/
theorem placeOf_add_mod {j : Nat} (hj : j < e.size) : (placeOf s e.va + j) % 2 ^ 40 = placeOf s e.va % 2 ^ 40 + j := by
  have := served_lt s (placed s e) hdram hserved
  simp only [placed] at this
  omega

theorem cells_readable (hgood : s.readErr (placeOf s e.va) e.size = false) : ∀ c ∈ (placed s e).cells, ∀ u ∈ s.memErr, c.1 % 2 ^ 40 / 32 ≠ u := by
  intro c hc u hu hin
  obtain ⟨j, hj, he⟩ := mem_cellsAt.1 hc
  obtain ⟨hlt, -⟩ := List.getElem?_eq_some_iff.1 hj
  rw [length_leBytes] at hlt
  have hmod := placeOf_add_mod hdram hserved hsize hlt
  have herr := List.any_eq_false.1 hgood u hu
  simp only [decide_eq_true_eq] at herr
  simp only [placed] at he hlt
  rw [he] at hin
  omega
end

theorem sendPage_here (u : State) (posted sysrel bnd : Bool) (p : PageReq) (hdev : p.dev = u.fabric.toNat) (hhome : p.home = u.f.home)
    (hop : ∀ e ∈ p.elems, e.op = none) : u.sendPage posted sysrel bnd p = u.storeElems u.f.group u.f.home u.f.pc p.elems := by
  have hany : (p.elems.any fun e => e.op.isSome) = false := List.any_eq_false.2 fun e he => by rw [hop e he]; exact Bool.false_ne_true
  unfold State.sendPage
  exact (if_pos hdev).trans ((if_pos hhome).trans (if_neg (Bool.eq_false_iff.1 hany)))

/-- R223, R238: pages at the fragment's own home are written one after another. -/
theorem wrote_sendPages (s : State) (posted sysrel bnd : Bool) (ps : List PageReq) (hps : ∀ p ∈ ps, p.dev = s.fabric.toNat ∧ p.home = s.f.home)
    (hplain : ∀ e ∈ ps.flatMap PageReq.elems, e.space = .dram ∧ e.op = none ∧ ∀ c ∈ e.cells, ∀ u ∈ s.memErr, c.1 % 2 ^ 40 / 32 ≠ u)
    (u : State) (cs : List (Nat × Byte)) (h : Wrote s u cs) :
    Wrote s (ps.foldl (fun t p => t.sendPage posted sysrel bnd p) u) (cs ++ (ps.flatMap PageReq.elems).flatMap Elem.cells) := by
  induction ps generalizing u cs with
  | nil => simpa using h
  | cons p ps ih =>
    obtain ⟨⟨hdev, hhome⟩, hps⟩ := List.forall_mem_cons.1 hps
    rw [List.flatMap_cons, List.forall_mem_append] at hplain
    obtain ⟨hp, hplain⟩ := hplain
    obtain ⟨hcur, -, hfab, -⟩ := h.same
    obtain ⟨⟨st, hst⟩, -⟩ := h.frags s.cur
    have hf : u.f = { s.f with state := st } := (congrArg u.frag hcur).trans hst
    have hpage : u.sendPage posted sysrel bnd p = u.storeElems u.f.group u.f.home u.f.pc p.elems :=
      sendPage_here u posted sysrel bnd p (hdev.trans (congrArg _ hfab.symm)) (by rw [hf]; exact hhome) fun e he => (hp e he).2.1
    have hgood : u.badUnits (p.elems.flatMap Elem.cells) = [] := badUnits_eq_nil u _ fun c hc v hv => by
      obtain ⟨e, he, hce⟩ := List.mem_flatMap.1 hc
      exact (hp e he).2.2 c hce v (h.errs v hv)
    rw [List.foldl_cons, hpage, List.flatMap_cons, List.flatMap_append, ← List.append_assoc]
    exact ih hps hplain _ _ (h.trans (wrote_storeElems u _ _ _ _ (fun e he => (hp e he).1) hgood))

theorem wcHeld_here (s : State) (core n : Nat) (r : Rights) (bnd : Bool) (ps : List PageReq) (h : ∀ p ∈ ps, p.dev = s.fabric.toNat) :
    s.wcHeld core n r bnd ps = false := by
  induction ps with
  | nil => rfl
  | cons p ps ih =>
    rw [State.wcHeld, if_pos (.inl (h p (List.mem_cons_self ..)))]
    exact ih fun q hq => h q (List.mem_cons_of_mem _ hq)

section
variable {s : State} {need : Need} {o : BitVec 3} {size : Nat} {bnd : Bool} {es : List Elem} (h : StoresAtHome s need o size bnd es)
include h

theorem StoresAtHome.pages : ∀ p ∈ pagesOf s es, p.dev = s.fabric.toNat ∧ p.home = s.f.home ∧ p.ord ≠ 0 :=
  forall_pagesOf s es (fun d x o => d = s.fabric.toNat ∧ x = s.f.home ∧ o ≠ 0) h.here

theorem StoresAtHome.mayAccess : s.mayAccess s.cur (pagesOf s es) = true := by
  refine List.all_eq_true.2 fun p hp => ?_
  obtain ⟨-, -, hord⟩ := h.pages p hp
  have hserved : s.served p.elems = true := by
    refine (congrArg s.served (List.map_id p.elems).symm).trans (served_map s id p.elems fun e he => ?_)
    obtain ⟨x, hx, rfl⟩ := (mem_pagesOf s es e).1 (List.mem_flatMap.2 ⟨p, hp, he⟩)
    exact h.served x hx
  rw [mayArrive_nothingBefore s h.before _ rfl hord, hserved]
  simp

/-- R223 to R225: such a word writes its elements' bytes, each at its place, and nothing else. -/
theorem StoresAtHome.storeWord (hsize : ∀ e ∈ es, e.size ≤ 8) (posted : Bool) (adv : State → State) :
    ∃ u cells, s.storeWord posted need o size bnd es adv = .done (adv u) ∧ Wrote s u cells ∧ ∀ c, c ∈ cells ↔ ∃ e ∈ es, c ∈ (placed s e).cells := by
  have hpages := h.pages
  obtain ⟨cs, hcs⟩ := cache_eq s s.f.coreKey s.g.rights.asid (es.map (·.va))
  have hwrote := wrote_sendPages s posted (isRel o && isSys o) bnd (pagesOf s es) (fun p hp => ⟨(hpages p hp).1, (hpages p hp).2.1⟩) (fun e he => by
    obtain ⟨x, hx, rfl⟩ := (mem_pagesOf s es e).1 he
    obtain ⟨hdram, hop⟩ := h.plain x hx
    exact ⟨hdram, hop, cells_readable hdram (h.served x hx) (hsize x hx) (h.good x hx)⟩) (translated s (es.map (·.va))) []
    (by rw [translated, hcs]; exact wrote_cores s cs)
  refine ⟨_, _, ?_, hwrote, fun c => ?_⟩
  · have hempty : es.isEmpty = false := List.isEmpty_eq_false_iff.2 h.nonempty
    have hso : ((pagesOf s es).any fun p => p.ord == 0) = false := List.any_eq_false.2 fun p hp => by simpa using (hpages p hp).2.2
    have hheld : (translated s (es.map (·.va))).accessHeld s.cur = false := (translated_frame (fun t => t.accessHeld s.cur) (fun _ _ => rfl) s _).trans h.free
    have hrel : (isRel o && !(translated s (es.map (·.va))).released s.cur (isRel o && isSys o)) = false := by
      rw [released_translated]
      cases hr : isRel o with
      | false => rfl
      | true =>
        rw [Bool.true_and, Bool.true_and, h.release hr]
        rfl
    have hmay : (translated s (es.map (·.va))).mayAccess s.cur (pagesOf s es) = true :=
      (translated_frame (fun t => t.mayAccess s.cur (pagesOf s es)) (fun _ _ => rfl) s _).trans h.mayAccess
    have hfab : (translated s (es.map (·.va))).fabric = s.fabric := translated_frame State.fabric (fun _ _ => rfl) s _
    have hwc : (translated s (es.map (·.va))).wcHeld s.f.coreKey s.cur s.g.rights bnd (pagesOf s es) = false :=
      wcHeld_here _ _ _ _ _ _ fun p hp => by rw [hfab]; exact (hpages p hp).1
    have hclash : (translated s (es.map (·.va))).linesClash s.f.coreKey s.g.rights (pagesOf s es) = false := List.any_eq_false.2 fun p hp => by
      rw [hfab, (hpages p hp).1]
      simp
    have hhead : ((pagesOf s es).head?.map (·.dev)).getD 0 = s.fabric.toNat := by
      obtain ⟨e, he⟩ := List.exists_mem_of_ne_nil es h.nonempty
      obtain ⟨p, hp, -⟩ := List.mem_flatMap.1 ((mem_pagesOf s es _).2 ⟨e, he, rfl⟩)
      obtain ⟨q, qs, hq⟩ := List.exists_cons_of_ne_nil (List.ne_nil_of_mem hp)
      rw [hq]
      exact (hpages q (by simp [hq])).1
    have hps : s.pages s.f.coreKey s.g.rights es = pagesOf s es := rfl
    have htr : s.cache s.f.coreKey s.g.rights.asid (es.map (·.va)) = translated s (es.map (·.va)) := rfl
    unfold State.storeWord
    simp only [h.first, if_true, h.check, hps, htr, hempty, Bool.false_and, Bool.false_eq_true, if_false, hheld, hso, Bool.or_false, hhead, hfab,
      bne_self_eq_false, Bool.and_false, Bool.not_false, Bool.and_true, hrel, hmay, Bool.not_true, hwc, hclash, State.byPage]
  · simp only [List.nil_append, List.mem_flatMap]
    constructor
    · rintro ⟨x, hx, hc⟩
      obtain ⟨e, he, rfl⟩ := (mem_pagesOf s es x).1 (List.mem_flatMap.2 hx)
      exact ⟨e, he, hc⟩
    · rintro ⟨e, he, hc⟩
      exact ⟨_, List.mem_flatMap.1 ((mem_pagesOf s es _).2 ⟨e, he, rfl⟩), hc⟩
end

/-! #### The checks of a word, lane by lane (R217) -/

/-- R217: an access of `n` bytes passes the checks of a word whose first address lies on a page of order `ord`. -/
structure Admits (s : State) (core : Nat) (r : Rights) (need : Need) (e : Nat) (bnd : Bool) (ord : Nat) (va : DWord) (n : Nat) : Prop where
  lease : (!(s.farAway core r va) && !(s.leased r need va n)) = false
  prot : (s.protOf core r need va != 0) = false
  aligned : (va.toNat % e != 0) = false
  fresh : (need != .move && decide (r.asgen < (s.leafOf core r.asid va).gen)) = false
  alike : ((s.leafOf core r.asid va).ord != ord) = false
  bound : (bnd && !(s.leafOf core r.asid va).bnd) = false

section
variable (s : State) (core : Nat) (r : Rights) (need : Need) (e : Nat) (bnd : Bool)

/-- R217: the order of a word's first page. -/
def firstOrd (as : List Addr) : Nat := (as.head?.map fun a => (s.leafOf core r.asid a.va).ord).getD 0

theorem checkGlobal_eq_none (as : List Addr) :
    s.checkGlobal core r need e bnd as = none ↔ ∀ a ∈ as, Admits s core r need e bnd (firstOrd s core r as) a.va a.size := by
  have hsome : ∀ p : Addr → Bool, (!(as.filter p).isEmpty) = true ↔ ¬∀ a ∈ as, p a = false := fun p => by simp
  have hprot : ∀ {a : Addr} {l : List Addr}, as.filter (fun a => s.protOf core r need a.va != 0) = a :: l → ¬∀ a ∈ as, (s.protOf core r need a.va != 0) = false :=
    fun hl => (hsome _).1 (by rw [hl]; rfl)
  have hclean : as.filter (fun a => s.protOf core r need a.va != 0) = [] → ∀ a ∈ as, (s.protOf core r need a.va != 0) = false :=
    fun hl a ha => Bool.eq_false_iff.2 (List.filter_eq_nil_iff.1 hl a ha)
  have hord : (as.head?.map fun a => (s.leafOf core r.asid a.va).ord).getD 0 = firstOrd s core r as := rfl
  unfold State.checkGlobal
  simp only [hsome, hord, ite_not]
  rcases hl : as.filter fun a => s.protOf core r need a.va != 0 with _ | ⟨x, l⟩ <;> simp only [hl]
  · split_ifs with hlease hal hst hmix hbnd
    · exact iff_of_true rfl fun a ha => ⟨hlease a ha, hclean hl a ha, hal a ha, hst a ha, hmix a ha, hbnd a ha⟩
    · exact iff_of_false (by simp) fun h => hbnd fun a ha => (h a ha).bound
    · exact iff_of_false (by simp) fun h => hmix fun a ha => (h a ha).alike
    · exact iff_of_false (by simp) fun h => hst fun a ha => (h a ha).fresh
    · exact iff_of_false (by simp) fun h => hal fun a ha => (h a ha).aligned
    · exact iff_of_false (by simp) fun h => hlease fun a ha => (h a ha).lease
  · exact iff_of_false (by split_ifs <;> simp) fun h => hprot hl fun a ha => (h a ha).prot

/-- R217: whether addresses pass does not depend on the lanes that they are reported for. -/
theorem checkGlobal_relabel {as bs : List Addr} (h : as.map (fun a => (a.va, a.size)) = bs.map fun a => (a.va, a.size))
    (hcheck : s.checkGlobal core r need e bnd as = none) : s.checkGlobal core r need e bnd bs = none := by
  have hord : ∀ cs : List Addr, firstOrd s core r cs = ((cs.map fun a => (a.va, a.size)).head?.map fun x => (s.leafOf core r.asid x.1).ord).getD 0 := fun cs => by
    rw [List.head?_map, Option.map_map]
    rfl
  have hall : ∀ (ord : Nat) (cs : List Addr), (∀ a ∈ cs, Admits s core r need e bnd ord a.va a.size) ↔
      ∀ x ∈ cs.map fun a => (a.va, a.size), Admits s core r need e bnd ord x.1 x.2 := fun ord cs => by simp
  rw [checkGlobal_eq_none, hall, hord, h] at hcheck
  rwa [checkGlobal_eq_none, hall, hord]
end

theorem served_congr (s : State) (x y : Elem) (hspace : x.space = y.space) (hkey : x.key = y.key) : s.served [x] = s.served [y] := by
  simp [State.served, State.delivered, State.inCompute, hspace, hkey]

/-- A word's addresses as the statements name them, with the word's own elements. -/
theorem storesAtHome_of {s : State} {o : BitVec 3} {size : Nat} {bnd : Bool} {as : List Addr} {es : List Elem}
    (hsame : as.map (fun a => (a.va, a.size)) = es.map fun e => (e.va, e.size)) (hplain : ∀ e ∈ es, e.space = .dram ∧ e.op = none) (hsent : s.f.sent = 0)
    (h : LocalAccess s .write size bnd as) (hrel : ReleaseMet s o) (hgood : ∀ a ∈ as, s.readErr (placeOf s a.va) a.size = false) :
    StoresAtHome s .write o size bnd es := by
  obtain ⟨hne, hbefore, hserved, hcheck, hfree, hhere⟩ := h
  have hmem : ∀ e ∈ es, ∃ a ∈ as, a.va = e.va ∧ a.size = e.size := fun e he => by
    have := List.mem_map_of_mem (f := fun e : Elem => (e.va, e.size)) he
    rw [← hsame] at this
    simpa using this
  refine ⟨hsent, ?_, hbefore, checkGlobal_relabel s _ _ _ _ _ (by simpa [Function.comp_def] using hsame) hcheck, hfree, hrel, hplain, fun e he => ?_, fun e he => ?_, fun e he => ?_⟩
  · rintro rfl
    exact hne (by simpa using hsame)
  · obtain ⟨a, ha, hva, -⟩ := hmem e he
    rw [← hva]
    exact hhere a ha
  · obtain ⟨a, ha, hva, -⟩ := hmem e he
    have hkey : placeOf s a.va = (placed s e).key := congrArg (placeOf s) hva
    exact (served_congr s (placed s e) ⟨a.lane, .dram, placeOf s a.va, a.size, 0, a.va, none, 0⟩ (hplain e he).1 hkey.symm).trans (hserved a ha)
  · obtain ⟨a, ha, hva, hsize⟩ := hmem e he
    rw [← hva, ← hsize]
    exact hgood a ha

/-! #### Bytes of elements (R6, R223) -/

theorem mem_cells_placed (s : State) (e : Elem) (c : Nat × Byte) :
    c ∈ (placed s e).cells ↔ ∃ j, j < e.size ∧ c = (placeOf s e.va + j, BitVec.ofNat 8 (e.data.toNat / 256 ^ j)) := by
  refine mem_cellsAt.trans (exists_congr fun j => ?_)
  by_cases hj : j < e.size
  · simp only [placed, leBytes, List.getElem?_map, List.getElem?_range hj, hj, true_and, Option.map_some, Option.some.injEq, Prod.ext_iff]
    exact ⟨fun h => ⟨h.2, h.1.symm⟩, fun h => ⟨h.2.symm, h.1⟩⟩
  · have hnone : (leBytes e.size e.data.toNat)[j]? = none := List.getElem?_eq_none (by rw [length_leBytes]; omega)
    simp only [placed, hnone, hj, false_and, reduceCtorEq]

/-- A byte of a value's low bytes. -/
theorem mod_pow_byte (v j n : Nat) (hj : j < n) : v % 256 ^ n / 256 ^ j % 256 = v / 256 ^ j % 256 := by
  obtain ⟨m, rfl⟩ := Nat.exists_eq_add_of_lt hj
  rw [show j + m + 1 = j + (m + 1) by omega, pow_add, Nat.mod_mul_right_div_self, Nat.mod_mod_of_dvd _ (Dvd.intro_left _ (pow_succ 256 m).symm)]

theorem ofNat_mod_pow_byte (v j n : Nat) (hj : j < n) : BitVec.ofNat 8 (v % 256 ^ n / 256 ^ j) = BitVec.ofNat 8 (v / 256 ^ j) :=
  BitVec.eq_of_toNat_eq (by simpa using mod_pow_byte v j n hj)

theorem ofNat64_byte (v j : Nat) (hj : j < 8) : BitVec.ofNat 8 ((BitVec.ofNat 64 v).toNat / 256 ^ j) = BitVec.ofNat 8 (v / 256 ^ j) := by
  rw [BitVec.toNat_ofNat, show 2 ^ 64 = 256 ^ 8 by norm_num, ofNat_mod_pow_byte v j 8 hj]

/-! #### What a store leaves of the fragments (R43, R163, R223) -/

theorem advance_frame {γ : Type} (p : State → γ) (hp : ∀ (s : State) f, p (s.setF f) = p s) (s : State) (k : BitVec 3) : p (s.advance k) = p s := by
  unfold State.advance
  split_ifs
  · exact hp s _
  · rfl

/-- R43: the fragment at issue once its word has rounded by the code `k`. -/
def advanced (f : Frag) (k : BitVec 3) : Frag :=
  if k ≠ 5 then f else { f with regs := { f.regs with nstep := f.regs.nstep + 1 }, grp := f.grp.map fun (g : GroupCtx) => { g with rounded := g.rounded + 1 } }

theorem f_advance (s : State) (k : BitVec 3) : (s.advance k).f = advanced s.f k := by
  rw [FloatWords.advance_eq, advanced]
  split_ifs
  · rfl
  · exact State.f_setF ..

/-- R163: of the fragments a write to memory changes only how they wait on a word. -/
theorem onlyFrag_advance {s u : State} {cells : List (Nat × Byte)} (h : Wrote s u cells) (k : BitVec 3) : OnlyFrag s (u.advance k) (advanced s.f k) := by
  obtain ⟨hcur, -⟩ := h.same
  have hcur' : (u.advance k).cur = s.cur := (advance_frame State.cur (fun _ _ => rfl) u k).trans hcur
  refine ⟨hcur', fun n => ?_⟩
  obtain ⟨⟨st, hst⟩, -⟩ := h.frags n
  by_cases hn : n = s.cur
  · subst hn
    have hf : u.f = { s.f with state := st } := (congrArg u.frag hcur).trans hst
    have hown : (u.advance k).frag s.cur = advanced u.f k := (congrArg (u.advance k).frag hcur'.symm).trans (f_advance u k)
    rw [if_pos rfl, hown, hf, advanced, advanced]
    split_ifs <;> rfl
  · have hother : (u.advance k).frag n = u.frag n := by
      rw [FloatWords.advance_eq]
      split_ifs
      · rfl
      · exact State.frag_setF_other _ _ _ (hcur ▸ hn)
    rw [if_neg hn, hother, hst]

/-- R223, R224: a word whose elements are one for each of its lanes, of one size, stores them here. -/
theorem storesHere_of {i : Instr} {s : State} {o : BitVec 3} {size : Nat} {bnd : Bool} {lanes : List Nat} {addr : Nat → DWord} {val : Nat → Nat}
    (data : Nat → DWord) (posted : Bool) (k : BitVec 3) (hsize : size ≤ 8)
    (hdata : ∀ l ∈ lanes, ∀ j, j < size → BitVec.ofNat 8 ((data l).toNat / 256 ^ j) = BitVec.ofNat 8 (val l / 256 ^ j))
    (hexec : s.f.sent = 0 → LocalAccess s .write size bnd (lanes.map fun l => ⟨l, addr l, size⟩) → exec i s = finish s
      (s.storeWord posted .write o size bnd (lanes.map fun l => ⟨l, .dram, 0, size, data l, addr l, none, 0⟩) fun u => u.advance k)) :
    StoresHere i s o size bnd lanes addr val (advanced s.f k) := by
  intro hsent hlocal hrel hgood
  have hhome : StoresAtHome s .write o size bnd (lanes.map fun l => ⟨l, .dram, 0, size, data l, addr l, none, 0⟩) :=
    storesAtHome_of (by simp [Function.comp_def]) (by simp) hsent hlocal hrel (by simpa using hgood)
  obtain ⟨u, cells, hword, hwrote, hcells⟩ := hhome.storeWord (by simpa using fun _ _ => hsize) posted fun u => u.advance k
  obtain ⟨-, -, -, hscr, hvault, hop⟩ := hwrote.same
  have hmod : ∀ l ∈ lanes, ∀ j, j < size → (placeOf s (addr l) + j) % 2 ^ 40 = placeOf s (addr l) % 2 ^ 40 + j := fun l hl j hj =>
    placeOf_add_mod (e := ⟨l, .dram, 0, size, data l, addr l, none, 0⟩) rfl (hhome.served _ (List.mem_map_of_mem hl)) hsize hj
  have hcell : ∀ c, c ∈ cells ↔ ∃ l ∈ lanes, ∃ j, j < size ∧ c = (placeOf s (addr l) + j, BitVec.ofNat 8 ((data l).toNat / 256 ^ j)) := fun c => by
    simp only [hcells, List.mem_map, exists_exists_and_eq_and, mem_cells_placed]
  have honly := onlyFrag_advance hwrote k
  refine ⟨u.advance k, goes_of (hexec hsent hlocal) hword ?_, honly, (advance_frame State.scratch (fun _ _ => rfl) u k).trans hscr,
    (advance_frame State.vault (fun _ _ => rfl) u k).trans hvault, (advance_frame State.opmem (fun _ _ => rfl) u k).trans hop, fun n hn => ?_, fun l hl j hj hout => ?_⟩
  · have hf := honly.2 s.cur
    rw [if_pos rfl, ← honly.1, State.frag_cur] at hf
    rw [hf, advanced]
    split_ifs <;> rfl
  · have hother := hwrote.other (k := n) fun c hc he => by
      obtain ⟨l, hl, j, hj, rfl⟩ := (hcell c).1 hc
      have := hn (placeOf s (addr l)) (List.mem_map_of_mem hl)
      rw [← he, hmod l hl j hj] at this
      omega
    exact ⟨(advance_frame (fun t => t.byte n) (fun _ _ => rfl) u k).trans hother.1,
      (advance_frame (fun t => t.memKeys.get 0 (n % 2 ^ 40)) (fun _ _ => rfl) u k).trans hother.2⟩
  · refine (advance_frame (fun t => t.dramByte (placeOf s (addr l) + j)) (fun _ _ => rfl) u k).trans ?_
    rw [← hdata l hl j hj]
    refine hwrote.dramByte ((hcell _).2 ⟨l, hl, j, hj, rfl⟩) fun c hc he => ?_
    obtain ⟨l', hl', j', hj', rfl⟩ := (hcell c).1 hc
    rw [hmod l hl j hj, hmod l' hl' j' hj'] at he
    have hll : l' = l := by
      by_contra hne
      have := hout (placeOf s (addr l')) (List.mem_map_of_mem (List.mem_filter.2 ⟨hl', bne_iff_ne.2 hne⟩))
      rw [hmod l hl j hj] at this
      omega
    subst hll
    rw [show j' = j by omega]

/-! #### ST and STP (R223, R224, R228) -/

theorem widthOf_le (w : BitVec 3) : widthOf w ≤ 8 := by
  unfold widthOf
  split <;> decide

theorem narrowFmt_bytes (f : BitVec 2) : (narrowFmt f).width / 8 ≤ 8 := by
  unfold narrowFmt
  split <;> decide

/-- Settles O20: each word's elements are one for each lane, and a byte that one lane alone covers is written by its element alone. -/
theorem globalStoresAtHome : Obligations.GlobalStoresAtHome := by
  intro s d b i w o
  refine ⟨fun hclean => ⟨?_, ?_, ?_⟩, fun hclean => ?_⟩
  · exact storesHere_of (fun l => BitVec.ofNat 64 (intStore s d w l)) false 0 (widthOf_le w) (fun l _ j hj => ofNat64_byte _ j (hj.trans_le (widthOf_le w)))
      fun _ _ => congrArg (finish s) (State.clean_none _ _ _ hclean)
  · exact storesHere_of (fun l => BitVec.ofNat 64 (intStore s d w l)) true 0 (widthOf_le w) (fun l _ j hj => ofNat64_byte _ j (hj.trans_le (widthOf_le w)))
      fun _ _ => congrArg (finish s) (State.clean_none _ _ _ hclean)
  · exact storesHere_of _ false _ (narrowFmt_bytes _) (fun l _ j hj => ofNat64_byte _ j (hj.trans_le (narrowFmt_bytes _)))
      fun _ _ => congrArg (finish s) (State.clean_none _ _ _ hclean)
  · refine storesHere_of (fun _ => BitVec.ofNat 64 ((s.sv d).toNat % 2 ^ (8 * widthOf w))) false 0 (widthOf_le w) (fun l _ j hj => ?_)
      fun _ _ => congrArg (finish s) (State.clean_none _ _ _ hclean)
    rw [ofNat64_byte _ j (hj.trans_le (widthOf_le w)), pow_mul, show 2 ^ 8 = 256 by norm_num, ofNat_mod_pow_byte _ j _ hj]

end Sys2Proof.Proofs.Stores

/-! ### Tile stores (R180, R181) -/

namespace Sys2Proof.Proofs.TileStores

open Sys2Proof Sys2Proof.Machine Sys2Proof.Claim Sys2Proof.Proofs.Privileged Sys2Proof.Proofs.Bytes Sys2Proof.Proofs.Stores

theorem fmtBytes_le (f : BitVec 4) : fmtBits f.toNat / 8 ≤ 8 := by
  revert f
  decide

/-- R180, R217: a tile store that passes its checks is a posted store of its elements, numbered in order. -/
theorem tileStore_checked (s : State) (t : BitVec 3) (e : Nat) (es : List Elem) (hsent : s.f.sent = 0)
    (hpoison : (s.g.tile t.toNat).poisonFault t (s.mreg 0) = none)
    (hcheck : s.checkGlobal s.f.coreKey s.g.rights .write e (s.g.tile t.toNat).bnd (es.map fun x => ⟨x.lane, x.va, x.size⟩) = none) :
    s.tileStore t e es = s.storeWord true .write 0 e (s.g.tile t.toNat).bnd (es.mapIdx fun i x => { x with lane := i }) fun u => u.advance 0 := by
  have hfault : (if s.f.sent = 0 then (s.g.tile t.toNat).poisonFault t s.active else none) = none := (if_pos hsent).trans hpoison
  simp only [State.tileStore, hcheck, hfault]
  rfl

/-! #### CST: the elements of the active rows (R180) -/

/-- Elements of one size, each with its lane, its address and its value. -/
def elemsOf (e : Nat) (xs : List (Nat × DWord × Nat)) : List Elem := xs.map fun x => ⟨x.1, .dram, 0, e, BitVec.ofNat 64 x.2.2, x.2.1, none, 0⟩

theorem elemsOf_numbered (e : Nat) (xs : List (Nat × DWord × Nat)) : (elemsOf e xs).mapIdx (fun i x => { x with lane := i }) =
    (List.range (xs.map (·.2)).length).map fun i =>
      ⟨i, .dram, 0, e, BitVec.ofNat 64 ((xs.map (·.2)).getD i (0, 0)).2, ((xs.map (·.2)).getD i (0, 0)).1, none, 0⟩ := by
  refine List.ext_getElem (by simp [elemsOf]) fun i hi _ => ?_
  have hi : i < xs.length := by simpa [elemsOf] using hi
  simp [elemsOf, hi]

theorem elemsOf_places (e : Nat) (xs : List (Nat × DWord × Nat)) :
    ((List.range (xs.map (·.2)).length).map fun i => Addr.mk i ((xs.map (·.2)).getD i (0, 0)).1 e).map (fun a => (a.va, a.size)) =
      ((elemsOf e xs).map fun x => Addr.mk x.lane x.va x.size).map fun a => (a.va, a.size) := by
  refine List.ext_getElem (by simp [elemsOf]) fun i hi _ => ?_
  have hi : i < xs.length := by simpa [elemsOf] using hi
  simp [elemsOf, hi]

section
variable (s : State) (a : RegNum) (f : BitVec 4) (c : Tile)

/-- R180: columns and pitch of CST. -/
def cstCols : Nat := if fld (s.sv (a + 1)) 32 6 = 0 then 32 else fld (s.sv (a + 1)) 32 6
def cstPitch : Nat := fld (s.sv (a + 1)) 0 32
/-- R180: the elements that CST stores, each with its row. -/
def cstRows : List (Nat × DWord × Nat) := (lanesIn (s.mreg 0)).flatMap fun r => (List.range (cstCols s a)).map fun n =>
  (r, s.sv a + BitVec.ofNat 64 (r * cstPitch s a) + BitVec.ofNat 64 (n * (fmtBits f.toNat / 8)), tileOut s.g.ovt f.toNat (c.elem r n))

theorem cst_act (t : BitVec 3) (ha : a ≠ 63) (htile : s.tileCheck false t = none) (hclean : s.poisoned [.s a, .s (a + 1)] = none) (hcols : cstCols s a ≤ 32)
    (hsa : (s.sv a).toNat % (fmtBits f.toNat / 8) = 0) (hpitch : cstPitch s a % (fmtBits f.toNat / 8) = 0) (hrows : lanesIn (s.mreg 0) ≠ []) :
    exec (.cst t a f) s = finish s (s.tileStore t (fmtBits f.toNat / 8) (elemsOf (fmtBits f.toNat / 8) (cstRows s a f (s.g.tile t.toNat)))) := by
  refine congrArg (finish s) ((if_neg ha).trans ?_)
  rw [htile, State.clean_none _ _ _ hclean]
  refine (if_neg (Nat.not_lt.2 hcols)).trans ((if_neg hrows).trans ((if_neg (not_or.2 ⟨not_not.2 hsa, not_not.2 hpitch⟩)).trans ?_))
  simp only [elemsOf, cstRows, List.map_flatMap, List.map_map]
  rfl
end

/-! #### CSTZ: an object in one run of device memory (R181) -/

section
variable {s u : State} {cells : List (Nat × Byte)} (h : Wrote s u cells) {z : Nat} {items : List (Nat × Nat × DWord)}
  (hcells : ∀ c, c ∈ cells ↔ ∃ x ∈ items, ∃ j, j < x.2.1 ∧ c = (z + x.1 + j, BitVec.ofNat 8 (x.2.2.toNat / 256 ^ j)))
  (hmod : ∀ x ∈ items, ∀ j, j < x.2.1 → (z + x.1 + j) % 2 ^ 40 = z % 2 ^ 40 + x.1 + j)
include h hcells hmod

/-- Of items that lie apart in a run, each reads back. -/
theorem run_value (hapart : ∀ x ∈ items, ∀ y ∈ items, ∀ i j, i < x.2.1 → j < y.2.1 → x.1 + i = y.1 + j → x = y) {x : Nat × Nat × DWord} (hx : x ∈ items) :
    u.valIn .dram (z + x.1) x.2.1 = x.2.2.toNat % 256 ^ x.2.1 := by
  have hbytes : u.bytesIn .dram (z + x.1) x.2.1 = leBytes x.2.1 x.2.2.toNat := by
    refine List.map_congr_left fun j hj => h.dramByte ((hcells _).2 ⟨x, hx, j, List.mem_range.1 hj, rfl⟩) fun c hc he => ?_
    obtain ⟨y, hy, i, hi, rfl⟩ := (hcells c).1 hc
    rw [hmod x hx j (List.mem_range.1 hj), hmod y hy i hi] at he
    obtain rfl : y = x := hapart y hy x hx i j hi (List.mem_range.1 hj) (by omega)
    rw [show i = j by omega]
  rw [State.valIn, hbytes, leNat_leBytes]

/-- A byte that none of the items covers is as before. -/
theorem run_outside {k : Nat} (hk : ∀ x ∈ items, ∀ j, j < x.2.1 → k % 2 ^ 40 ≠ z % 2 ^ 40 + x.1 + j) : u.byte k = s.byte k := by
  refine (h.other fun c hc he => ?_).1
  obtain ⟨x, hx, j, hj, rfl⟩ := (hcells c).1 hc
  exact hk x hx j hj (he.symm.trans (hmod x hx j hj))
end

/-- R181: the map of the columns of a row that are kept. -/
def rowMap (keep : Nat → Bool) (k : Nat) : Nat := (List.range k).foldl (fun (x : Nat) n => if keep n then x + 2 ^ n else x) 0

theorem rowMap_succ (keep : Nat → Bool) (k : Nat) : rowMap keep (k + 1) = if keep k then rowMap keep k + 2 ^ k else rowMap keep k := by
  rw [rowMap, List.range_succ, List.foldl_append]
  rfl

theorem rowMap_lt (keep : Nat → Bool) (k : Nat) : rowMap keep k < 2 ^ k := by
  induction k with
  | zero => exact Nat.one_pos
  | succ k ih =>
    rw [rowMap_succ, pow_succ]
    split_ifs <;> omega

theorem rowMap_testBit (keep : Nat → Bool) (k n : Nat) : (rowMap keep k).testBit n = (decide (n < k) && keep n) := by
  induction k with
  | zero => simp [rowMap]
  | succ k ih =>
    have hor : rowMap keep k + 2 ^ k = 2 ^ k ||| rowMap keep k := by
      rw [Nat.add_comm]
      simpa using Nat.two_pow_add_eq_or_of_lt (rowMap_lt keep k) 1
    rw [rowMap_succ]
    rcases Nat.lt_trichotomy n k with hlt | rfl | hgt
    · split_ifs <;> simp [hor, ih, hlt, Nat.lt_succ_of_lt hlt, Nat.testBit_two_pow_of_ne hlt.ne']
    · split_ifs with hn <;> simp [hor, ih, hn]
    · split_ifs <;> simp [hor, ih, hgt.not_gt, show ¬n < k + 1 by omega, Nat.testBit_two_pow_of_ne hgt.ne]

section
variable (keep : Nat → Nat → Bool) (val : Nat → Nat → Nat)

/-- R181: the elements of a tile that are kept, each with its row. -/
def keptOf : List (Nat × Nat) := (List.range 96).flatMap fun r => ((List.range 32).filter fun n => keep r n).map fun n => (r, val r n)

theorem length_keptOf : (keptOf keep val).length ≤ 3072 := by
  rw [keptOf, List.length_flatMap]
  refine (List.sum_le_card_nsmul _ 32 fun x hx => ?_).trans (by simp)
  obtain ⟨r, -, rfl⟩ := List.mem_map.1 hx
  simpa using List.length_filter_le (fun n => keep r n) (List.range 32)

/-- R181: the parts of a CSTZ object: offset, size and data. -/
def objItems (e : Nat) : List (Nat × Nat × DWord) :=
  (0, 4, BitVec.ofNat 64 (keptOf keep val).length) :: ((List.range 96).map fun r => (64 + 4 * r, 4, BitVec.ofNat 64 (rowMap (keep r) 32))) ++
    (keptOf keep val).mapIdx fun i y => (448 + i * e, e, BitVec.ofNat 64 y.2)

/-- R181: the same as elements at virtual addresses. -/
def objElems (e : Nat) (sa : DWord) : List Elem :=
  ⟨0, .dram, 0, 4, BitVec.ofNat 64 (keptOf keep val).length, sa, none, 0⟩ ::
    (((List.range 96).map fun r => ⟨r, .dram, 0, 4, BitVec.ofNat 64 (rowMap (keep r) 32), sa + BitVec.ofNat 64 (64 + 4 * r), none, 0⟩) ++
      (keptOf keep val).mapIdx fun i y => ⟨y.1, .dram, 0, e, BitVec.ofNat 64 y.2, sa + BitVec.ofNat 64 (448 + i * e), none, 0⟩)

variable {keep val} {e : Nat}

theorem mem_objItems {x : Nat × Nat × DWord} : x ∈ objItems keep val e ↔ x = (0, 4, BitVec.ofNat 64 (keptOf keep val).length) ∨
    (∃ r, r < 96 ∧ x = (64 + 4 * r, 4, BitVec.ofNat 64 (rowMap (keep r) 32))) ∨
    ∃ i y, (keptOf keep val)[i]? = some y ∧ x = (448 + i * e, e, BitVec.ofNat 64 y.2) := by
  simp only [objItems, List.cons_append, List.mem_cons, List.mem_append, List.mem_map, List.mem_range, List.mem_mapIdx, List.getElem?_eq_some_iff, eq_comm (a := x)]
  refine or_congr_right (or_congr_right ⟨?_, ?_⟩)
  · rintro ⟨i, hi, hx⟩
    exact ⟨i, _, ⟨hi, rfl⟩, hx⟩
  · rintro ⟨i, y, ⟨hi, rfl⟩, hx⟩
    exact ⟨i, hi, hx⟩

/-- R181: the parts of an object lie apart. -/
theorem objItems_apart : ∀ x ∈ objItems keep val e, ∀ y ∈ objItems keep val e, ∀ i j, i < x.2.1 → j < y.2.1 → x.1 + i = y.1 + j → x = y := by
  intro x hx y hy i j hi hj he
  rcases mem_objItems.1 hx with rfl | ⟨r, hr, rfl⟩ | ⟨m, v, hv, rfl⟩ <;> rcases mem_objItems.1 hy with rfl | ⟨r', hr', rfl⟩ | ⟨n, w, hw, rfl⟩ <;>
    dsimp only at hi hj he
  · rfl
  · omega
  · omega
  · omega
  · obtain rfl : r = r' := by omega
    rfl
  · omega
  · omega
  · omega
  · have hmn : m = n := by
      have hdiv : ∀ m i, i < e → (m * e + i) / e = m := fun m i hi => by
        rw [Nat.mul_comm, Nat.mul_add_div (by omega), Nat.div_eq_of_lt hi, Nat.add_zero]
      rw [← hdiv m i hi, ← hdiv n j hj, show m * e + i = n * e + j by omega]
    subst hmn
    obtain rfl : v = w := Option.some.inj (hv.symm.trans hw)
    rfl

theorem objItems_end {x : Nat × Nat × DWord} (hx : x ∈ objItems keep val e) {j : Nat} (hj : j < x.2.1) :
    (x.1 + j < 4 ∨ 64 ≤ x.1 + j) ∧ x.1 + j < 64 + (384 + (keptOf keep val).length * e) := by
  rcases mem_objItems.1 hx with rfl | ⟨r, hr, rfl⟩ | ⟨m, v, hv, rfl⟩ <;> dsimp only at hj ⊢
  · omega
  · omega
  · obtain ⟨hm, -⟩ := List.getElem?_eq_some_iff.1 hv
    have := Nat.mul_le_mul_right e (Nat.succ_le_of_lt hm)
    rw [Nat.succ_mul] at this
    omega
end

section
variable {s : State} {t : BitVec 3} {a : RegNum} {f : BitVec 4} {keep : Nat → Nat → Bool} {val : Nat → Nat → Nat}
  (hkeep : ∀ r n, keep r n = ((s.mreg 0).getLsbD r && !isZeroCode f (fmtBits f.toNat / 8) (val r n)))
  (hval : ∀ r n, val r n = tileOut s.g.ovt f.toNat ((s.g.tile t.toNat).elem r n))

/-- R181: the addresses of an object, as the statement names them. -/
def objAddrs (keep : Nat → Nat → Bool) (val : Nat → Nat → Nat) (e : Nat) (sa : DWord) : List Addr :=
  ⟨0, sa, 4⟩ :: ((List.range 96).map fun r => ⟨r, sa + BitVec.ofNat 64 (64 + 4 * r), 4⟩) ++
    (List.range (keptOf keep val).length).map fun i => ⟨i, sa + BitVec.ofNat 64 (448 + i * e), e⟩

theorem objAddrs_places (e : Nat) (sa : DWord) : (objAddrs keep val e sa).map (fun x => (x.va, x.size)) = (objElems keep val e sa).map fun x => (x.va, x.size) := by
  have hbody : ((List.range (keptOf keep val).length).map fun i => (sa + BitVec.ofNat 64 (448 + i * e), e)) =
      ((keptOf keep val).mapIdx fun i y => Elem.mk y.1 .dram 0 e (BitVec.ofNat 64 y.2) (sa + BitVec.ofNat 64 (448 + i * e)) none 0).map fun x => (x.va, x.size) :=
    List.ext_getElem (by simp) fun i _ _ => by simp
  simp only [objAddrs, objElems, List.map_cons, List.map_append, List.map_map, Function.comp_def, List.cons_append, hbody]

include hkeep hval in
theorem cstz_act (htile : s.tileCheck false t = none) (hclean : (s.sreg a).poison = false) (hsa : (s.sv a).toNat % 64 = 0) :
    exec (.cstz t a f) s = finish s (s.tileStore t 1 (objElems keep val (fmtBits f.toNat / 8) (s.sv a))) := by
  obtain rfl : val = fun r n => tileOut s.g.ovt f.toNat ((s.g.tile t.toNat).elem r n) := funext₂ hval
  obtain rfl : keep = _ := funext₂ hkeep
  show finish s (orFault _ _) = _
  rw [htile]
  exact congrArg (finish s) ((State.clean_none _ _ _ (poisoned_single s a hclean)).trans (if_neg (not_not.2 hsa)))

variable {e : Nat} {sa : DWord} (hrun : ∀ y ∈ objAddrs keep val e sa, placeOf s y.va = placeOf s sa + (y.va - sa).toNat)
include hrun

/-- R181: where the parts of an object in one run lie. -/
theorem objElems_places (he : e ≤ 8) : (objElems keep val e sa).map (fun x => (placeOf s x.va, x.size, x.data)) =
    (objItems keep val e).map fun x => (placeOf s sa + x.1, x.2.1, x.2.2) := by
  have hoff : ∀ n, n < 2 ^ 64 → (sa + BitVec.ofNat 64 n - sa).toNat = n := fun n hn => by
    rw [add_sub_cancel_left, BitVec.toNat_ofNat, Nat.mod_eq_of_lt hn]
  have hrow : ∀ r ∈ List.range 96, placeOf s (sa + BitVec.ofNat 64 (64 + 4 * r)) = placeOf s sa + (64 + 4 * r) := fun r hr => by
    have hlt := List.mem_range.1 hr
    have hat := hrun ⟨r, sa + BitVec.ofNat 64 (64 + 4 * r), 4⟩ (List.mem_append_left _ (List.mem_cons_of_mem _ (List.mem_map_of_mem hr)))
    rwa [hoff _ (by omega)] at hat
  have hbody : ∀ i, i < (keptOf keep val).length → placeOf s (sa + BitVec.ofNat 64 (448 + i * e)) = placeOf s sa + (448 + i * e) := fun i hi => by
    have hlen := length_keptOf keep val
    have hmul := Nat.mul_le_mul (hi.le.trans hlen) he
    have hat := hrun ⟨i, sa + BitVec.ofNat 64 (448 + i * e), e⟩ (List.mem_append_right _ (List.mem_map_of_mem (List.mem_range.2 hi)))
    rwa [hoff _ (by omega)] at hat
  have htail : (((keptOf keep val).mapIdx fun i y => Elem.mk y.1 .dram 0 e (BitVec.ofNat 64 y.2) (sa + BitVec.ofNat 64 (448 + i * e)) none 0).map
        fun x => (placeOf s x.va, x.size, x.data)) =
      ((keptOf keep val).mapIdx fun i y => (448 + i * e, e, BitVec.ofNat 64 y.2)).map fun x => (placeOf s sa + x.1, x.2.1, x.2.2) :=
    List.ext_getElem (by simp) fun i hi _ => by
      rw [List.getElem_map, List.getElem_mapIdx, List.getElem_map, List.getElem_mapIdx]
      exact congrArg (·, e, _) (hbody i (by simpa using hi))
  simp only [objElems, objItems, List.map_cons, List.map_append, htail, List.map_map, Function.comp_def, List.cons_append,
    List.map_congr_left fun r hr => congrArg (fun p => (p, 4, BitVec.ofNat 64 (rowMap (keep r) 32))) (hrow r hr), Nat.add_zero]
end

/-- What does not depend on elements' lanes is the same once they are numbered. -/
theorem numbered_map {β : Type} (g : Elem → β) (hg : ∀ x i, g { x with lane := i } = g x) (es : List Elem) :
    (es.mapIdx fun i x => { x with lane := i }).map g = es.map g :=
  List.ext_getElem (by simp) fun i _ _ => by simp [hg]

theorem objElems_plain (keep : Nat → Nat → Bool) (val : Nat → Nat → Nat) {e : Nat} (he : e ≤ 8) (sa : DWord) :
    ∀ x ∈ objElems keep val e sa, (x.space = .dram ∧ x.op = none) ∧ x.size ≤ 8 := by
  intro x hx
  simp only [objElems, List.mem_cons, List.mem_append, List.mem_map, List.mem_mapIdx] at hx
  rcases hx with rfl | ⟨r, -, rfl⟩ | ⟨i, -, rfl⟩
  · exact ⟨⟨rfl, rfl⟩, (by decide : 4 ≤ 8)⟩
  · exact ⟨⟨rfl, rfl⟩, (by decide : 4 ≤ 8)⟩
  · exact ⟨⟨rfl, rfl⟩, he⟩

/-- A cell is one of the bytes, little-endian, of data stored at a place. -/
def Covers (c : Nat × Byte) (p : Nat × Nat × DWord) : Prop := ∃ j, j < p.2.1 ∧ c = (p.1 + j, BitVec.ofNat 8 (p.2.2.toNat / 256 ^ j))

/-- R181: CSTZ writes the parts of its object, one after another in a run of device memory, and nothing else. -/
theorem cstz_wrote {s : State} {t : BitVec 3} {a : RegNum} {f : BitVec 4} {keep : Nat → Nat → Bool} {val : Nat → Nat → Nat}
    (hkeep : ∀ r n, keep r n = ((s.mreg 0).getLsbD r && !isZeroCode f (fmtBits f.toNat / 8) (val r n)))
    (hval : ∀ r n, val r n = tileOut s.g.ovt f.toNat ((s.g.tile t.toNat).elem r n)) (htile : s.tileCheck false t = none)
    (hpoison : (s.g.tile t.toNat).poisonFault t (s.mreg 0) = none) (hclean : (s.sreg a).poison = false) (hsa : (s.sv a).toNat % 64 = 0) (hsent : s.f.sent = 0)
    (hlocal : LocalAccess s .write 1 (s.g.tile t.toNat).bnd (objAddrs keep val (fmtBits f.toNat / 8) (s.sv a)))
    (hgood : ∀ y ∈ objAddrs keep val (fmtBits f.toNat / 8) (s.sv a), s.readErr (placeOf s y.va) y.size = false)
    (hrun : ∀ y ∈ objAddrs keep val (fmtBits f.toNat / 8) (s.sv a), placeOf s y.va = placeOf s (s.sv a) + (y.va - s.sv a).toNat) :
    ∃ u cells, Goes (.cstz t a f) s u ∧ Wrote s u cells ∧ ∀ c, c ∈ cells ↔ ∃ x ∈ objItems keep val (fmtBits f.toNat / 8), ∃ j, j < x.2.1 ∧
      c = (placeOf s (s.sv a) + x.1 + j, BitVec.ofNat 8 (x.2.2.toNat / 256 ^ j)) := by
  have he := fmtBytes_le f
  have hplain := objElems_plain keep val he (s.sv a)
  have hnumbered : ∀ x ∈ (objElems keep val (fmtBits f.toNat / 8) (s.sv a)).mapIdx fun i x => { x with lane := i }, (x.space = .dram ∧ x.op = none) ∧ x.size ≤ 8 := by
    intro x hx
    obtain ⟨i, hi, rfl⟩ := List.mem_mapIdx.1 hx
    have hplain := hplain _ (List.getElem_mem hi)
    exact hplain
  have hsame := objAddrs_places (keep := keep) (val := val) (fmtBits f.toNat / 8) (s.sv a)
  have hhome : StoresAtHome s .write 0 1 (s.g.tile t.toNat).bnd ((objElems keep val (fmtBits f.toNat / 8) (s.sv a)).mapIdx fun i x => { x with lane := i }) :=
    storesAtHome_of (hsame.trans (numbered_map (fun x => (x.va, x.size)) (fun _ _ => rfl) _).symm) (fun x hx => (hnumbered x hx).1) hsent hlocal (fun h => absurd h (by decide)) hgood
  have hcheck := checkGlobal_relabel s s.f.coreKey s.g.rights .write 1 (s.g.tile t.toNat).bnd
    (bs := (objElems keep val (fmtBits f.toNat / 8) (s.sv a)).map fun x => ⟨x.lane, x.va, x.size⟩) (by rw [hsame, List.map_map]; rfl) hlocal.2.2.2.1
  obtain ⟨u, cells, hword, hwrote, hcells⟩ := hhome.storeWord (fun x hx => (hnumbered x hx).2) true fun u => u.advance 0
  have hact : s.tileStore t 1 (objElems keep val (fmtBits f.toNat / 8) (s.sv a)) = .done u := (tileStore_checked s t 1 _ hsent hpoison hcheck).trans hword
  obtain ⟨⟨st, hst⟩, -⟩ := hwrote.frags s.cur
  have hf : u.f = { s.f with state := st } := (congrArg u.frag hwrote.same.1).trans hst
  refine ⟨u, cells, goes_of (cstz_act hkeep hval htile hclean hsa) hact (by rw [hf]), hwrote, fun c => ?_⟩
  have hmap : ((objElems keep val (fmtBits f.toNat / 8) (s.sv a)).mapIdx fun i x => { x with lane := i }).map (fun x => (placeOf s x.va, x.size, x.data)) =
      (objItems keep val (fmtBits f.toNat / 8)).map fun x => (placeOf s (s.sv a) + x.1, x.2.1, x.2.2) :=
    (numbered_map (fun x => (placeOf s x.va, x.size, x.data)) (fun _ _ => rfl) _).trans (objElems_places hrun he)
  calc c ∈ cells
      ↔ ∃ p ∈ ((objElems keep val (fmtBits f.toNat / 8) (s.sv a)).mapIdx fun i x => { x with lane := i }).map (fun x => (placeOf s x.va, x.size, x.data)), Covers c p := by
        simp only [hcells, mem_cells_placed, List.mem_map, exists_exists_and_eq_and, Covers]
    _ ↔ _ := by
        rw [hmap]
        simp only [List.mem_map, exists_exists_and_eq_and, Covers]

/-- Settles O27: CST numbers its elements row by row; CSTZ writes the count, the row maps and the kept elements side by side. -/
theorem tileStores : Obligations.TileStores := by
  intro s t a f c e sa x cols pitch val cst at' keep kept z obj htile hpoison hpos
  have he : e ≤ 8 := fmtBytes_le f
  refine ⟨fun ha hclean hcols hsa hpitch => ?_, fun hclean hsa hsent hlocal hgood hrun => ?_⟩
  · have hcst : cst = (cstRows s a f c).map (·.2) := by
      simp only [cstRows, List.map_flatMap, List.map_map]
      rfl
    have hact : s.f.sent = 0 → LocalAccess s .write e c.bnd ((List.range cst.length).map fun i => ⟨i, (at' i).1, e⟩) →
        exec (.cst t a f) s = finish s (s.storeWord true .write 0 e c.bnd
          ((List.range cst.length).map fun i => ⟨i, .dram, 0, e, BitVec.ofNat 64 (at' i).2, (at' i).1, none, 0⟩) fun u => u.advance 0) := by
      intro hsent hlocal
      simp only [at', hcst] at hlocal ⊢
      have hrows : lanesIn (s.mreg 0) ≠ [] := fun h => hlocal.1 (by rw [cstRows, h]; rfl)
      have hcheck := checkGlobal_relabel s _ _ _ _ _ (elemsOf_places e (cstRows s a f c)) hlocal.2.2.2.1
      rw [cst_act s a f t ha htile hclean hcols hsa hpitch hrows, tileStore_checked s t _ _ hsent hpoison hcheck, elemsOf_numbered]
    exact storesHere_of (fun i => BitVec.ofNat 64 (at' i).2) true 0 he (fun i _ j hj => ofNat64_byte _ j (hj.trans_le he)) hact
  · have hkept : kept = keptOf keep val := rfl
    have hlen := length_keptOf keep val
    obtain ⟨u, cells, hgoes, hwrote, hcells⟩ := cstz_wrote (keep := keep) (val := val) (fun _ _ => rfl) (fun _ _ => rfl) htile hpoison hclean hsa hsent hlocal hgood hrun
    have hz : z % 2 ^ 40 < 12 * 2 ^ 36 := served_lt s ⟨0, .dram, z, 4, 0, sa, none, 0⟩ rfl (hlocal.2.2.1 ⟨0, sa, 4⟩ (List.mem_append_left _ (List.mem_cons_self ..)))
    have hmul := Nat.mul_le_mul hlen he
    have hmod : ∀ x ∈ objItems keep val e, ∀ j, j < x.2.1 → (z + x.1 + j) % 2 ^ 40 = z % 2 ^ 40 + x.1 + j := fun x hx j hj => by
      obtain ⟨-, hend⟩ := objItems_end hx hj
      omega
    have hread : ∀ x ∈ objItems keep val e, u.valIn .dram (z + x.1) x.2.1 = x.2.2.toNat % 256 ^ x.2.1 := fun x hx =>
      run_value hwrote hcells hmod objItems_apart hx
    refine ⟨u, hgoes, ?_, fun r hr n hn => ?_, fun i y hy => ?_, fun k hhead hbody => ?_⟩
    · have hcount := hread _ (mem_objItems.2 (.inl rfl))
      dsimp only at hcount
      rw [Nat.add_zero, BitVec.toNat_ofNat] at hcount
      rw [hcount, hkept]
      omega
    · have hrow := hread _ (mem_objItems.2 (.inr (.inl ⟨r, hr, rfl⟩)))
      have hlt := rowMap_lt (keep r) 32
      dsimp only at hrow
      rw [← Nat.add_assoc, BitVec.toNat_ofNat] at hrow
      rw [hrow, show rowMap (keep r) 32 % 2 ^ 64 % 256 ^ 4 = rowMap (keep r) 32 by omega, rowMap_testBit, decide_eq_true hn, Bool.true_and]
    · have hval := hread _ (mem_objItems.2 (.inr (.inr ⟨i, y, hy, rfl⟩)))
      have hdvd : 256 ^ e ∣ 2 ^ 64 := by
        rw [show 2 ^ 64 = 256 ^ 8 by norm_num]
        exact pow_dvd_pow 256 he
      dsimp only at hval
      rwa [← Nat.add_assoc, BitVec.toNat_ofNat, Nat.mod_mod_of_dvd _ hdvd] at hval
    · have hhead : k % 2 ^ 40 < z % 2 ^ 40 ∨ z % 2 ^ 40 + 4 ≤ k % 2 ^ 40 := hhead z (List.mem_singleton_self z)
      have hbody : k % 2 ^ 40 < (z + 64) % 2 ^ 40 ∨ (z + 64) % 2 ^ 40 + (384 + (keptOf keep val).length * e) ≤ k % 2 ^ 40 :=
        hbody (z + 64) (List.mem_singleton_self _)
      refine run_outside hwrote hcells hmod fun x (hx : x ∈ objItems keep val e) j hj (hk : k % 2 ^ 40 = z % 2 ^ 40 + x.1 + j) => ?_
      obtain ⟨hpart, hend⟩ := objItems_end hx hj
      omega

end Sys2Proof.Proofs.TileStores

/-! ### Values of the floating formats (R32, R33, R41, R42, R134 to R136) -/

namespace Sys2Proof.Proofs.FloatValues

open Sys2Proof Sys2Proof.Machine

/-! #### A finite pattern rounds to itself (R32, R41, R42) -/

section
variable (F : Format) (k : Rnd) (neg : Bool)

/-- R41: a number that lies in the last place of its binade rounds to itself, in every mode. -/
theorem code_exact {m : Nat} {e : Int} (hm : m ≠ 0) (hq : max ((Nat.log2 m : Int) + e - (F.mbits : Int)) F.emin = e) :
    F.code k neg m e = (e - F.emin).toNat * 2 ^ F.mbits + m := by
  have hsplit : splitAt m (e - e) = (m, 0, 0) := by simp [splitAt]
  simp only [Format.code, if_neg hm, hq, hsplit, Rnd.up, if_true, Bool.false_eq_true, if_false]

/-- R32, R41: a subnormal number. -/
theorem code_subnormal {c : Nat} (hc : c < 2 ^ F.mbits) : F.code k neg c F.emin = c := by
  rcases Nat.eq_zero_or_pos c with rfl | hpos
  · exact if_pos rfl
  · have hlog : Nat.log2 c < F.mbits := (Nat.log2_lt hpos.ne').2 hc
    rw [code_exact F k neg hpos.ne' (max_eq_right (by omega)), Int.sub_self]
    simp

/-- R32, R41: a normal number. -/
theorem code_normal {ex f : Nat} (hex : ex ≠ 0) (hf : f < 2 ^ F.mbits) : F.code k neg (2 ^ F.mbits + f) (F.emin + (ex : Int) - 1) = ex * 2 ^ F.mbits + f := by
  have hlog : Nat.log2 (2 ^ F.mbits + f) = F.mbits := by
    rw [Nat.log2_eq_iff (by omega), pow_succ]
    omega
  obtain ⟨n, rfl⟩ := Nat.exists_eq_add_one_of_ne_zero hex
  rw [code_exact F k neg (by omega) (by rw [hlog]; omega), show (F.emin + ((n + 1 : Nat) : Int) - 1 - F.emin).toNat = n by omega]
  ring

/-- R32: a finite pattern is its sign and its magnitude code, which the format's rounding gives back. -/
theorem code_of_decode {x m : Nat} {e : Int} {neg : Bool} (h : F.decode x = .fin neg m e) :
    neg = (x / 2 ^ (F.width - 1) % 2 == 1) ∧ x % 2 ^ (F.width - 1) ≤ F.maxCode ∧ F.code k neg m e = x % 2 ^ (F.width - 1) := by
  unfold Format.decode at h
  dsimp only at h
  have hmod := Nat.mod_lt (x % 2 ^ (F.width - 1)) (Nat.two_pow_pos F.mbits)
  have hdiv := Nat.div_add_mod (x % 2 ^ (F.width - 1)) (2 ^ F.mbits)
  split_ifs at h with hinf hmax hex
  · obtain ⟨rfl, rfl, rfl⟩ := FVal.fin.inj h
    rw [hex, Nat.mul_zero, Nat.zero_add] at hdiv
    exact ⟨rfl, Nat.not_lt.1 hmax, code_subnormal F k _ (hdiv ▸ hmod)⟩
  · obtain ⟨rfl, rfl, rfl⟩ := FVal.fin.inj h
    refine ⟨rfl, Nat.not_lt.1 hmax, ?_⟩
    rw [code_normal F k _ hex hmod, Nat.mul_comm, hdiv]

/-- R32, R47: a finite pattern narrows to itself, under every saturation control. -/
theorem narrow_of_decode {x m : Nat} {e : Int} {neg : Bool} (ctl : BitVec 2) (hx : x < 2 ^ F.width) (h : F.decode x = .fin neg m e) :
    neg = decide (2 ^ (F.width - 1) ≤ x) ∧ F.narrow k ctl (.fin neg m e) = x := by
  obtain ⟨hneg, hmax, hcode⟩ := code_of_decode F k h
  have hnarrow : F.narrow k ctl (.fin neg m e) = F.signed neg (x % 2 ^ (F.width - 1)) := by
    simp only [Format.narrow, hcode, if_neg (Nat.not_lt.2 hmax)]
  have hwidth : 2 ^ F.width = 2 * 2 ^ (F.width - 1) := by
    rw [← pow_succ', Nat.sub_add_cancel (by unfold Format.width; omega)]
  rw [hwidth] at hx
  rw [hnarrow, hneg, Format.signed]
  by_cases hle : 2 ^ (F.width - 1) ≤ x
  · have hone : x / 2 ^ (F.width - 1) = 1 := Nat.div_eq_of_lt_le (by omega) (by omega)
    have hmod : x % 2 ^ (F.width - 1) = x - 2 ^ (F.width - 1) := by rw [Nat.mod_eq_sub_mod hle, Nat.mod_eq_of_lt (by omega)]
    simp only [hone, hmod, hle]
    exact ⟨rfl, by simp; omega⟩
  · have hzero : x / 2 ^ (F.width - 1) = 0 := Nat.div_eq_of_lt (by omega)
    simp [hzero, hle, Nat.mod_eq_of_lt (Nat.not_le.1 hle)]
end

/-! #### Patterns of FP32 (R32, R33) -/

/-- R32, R33: a pattern of FP32 is a NaN. -/
def isNan32 (z : Word) : Bool := decide (0x7F800000 < z.toNat % 2 ^ 31)

/-- R32: what a pattern of FP32 stands for. -/
theorem ofF32_eq (z : Word) : ofF32 z = if z.toNat % 2 ^ 31 = 0x7F800000 then .inf z.msb else if isNan32 z = true then .nan
    else if z.toNat % 2 ^ 31 < 2 ^ 23 then .fin z.msb (z.toNat % 2 ^ 31) (-149)
    else .fin z.msb (2 ^ 23 + z.toNat % 2 ^ 31 % 2 ^ 23) ((z.toNat % 2 ^ 31 / 2 ^ 23 : Nat) - 150) := by
  have hsign : (z.toNat / 2 ^ 31 % 2 == 1) = z.msb := by
    rw [BitVec.msb_eq_decide, Bool.eq_iff_iff, beq_iff_eq, decide_eq_true_iff]
    have := z.isLt
    omega
  unfold ofF32 Format.decode
  simp only [show fp32.width - 1 = 31 from rfl, show fp32.infCode = 0x7F800000 from rfl, show fp32.maxCode = 0x7F7FFFFF from rfl, show fp32.mbits = 23 from rfl,
    show fp32.ieee = true from rfl, show fp32.emin = -149 from rfl, hsign, Bool.true_and, beq_iff_eq, isNan32, decide_eq_true_eq]
  by_cases hinf : z.toNat % 2 ^ 31 = 0x7F800000
  · rw [if_pos hinf, if_pos hinf]
  · have hnan : 0x7F7FFFFF < z.toNat % 2 ^ 31 ↔ 0x7F800000 < z.toNat % 2 ^ 31 := by omega
    have hsub : z.toNat % 2 ^ 31 / 2 ^ 23 = 0 ↔ z.toNat % 2 ^ 31 < 2 ^ 23 := Nat.div_eq_zero_iff_lt (by decide)
    have hexp (n : Nat) : (-149 : Int) + n - 1 = n - 150 := by omega
    simp only [if_neg hinf, hnan, hsub, hexp]

/-- R33: the pattern of a NaN. -/
theorem ofF32_of_isNan {z : Word} (h : isNan32 z = true) : ofF32 z = .nan := by
  rw [ofF32_eq, if_neg (by have := of_decide_eq_true h; omega), if_pos h]

/-- R32: any other pattern stands for an infinity or a number, a zero where its magnitude is 0. -/
theorem ofF32_of_number {z : Word} (h : isNan32 z = false) : z.toNat % 2 ^ 31 = 0x7F800000 ∧ ofF32 z = .inf z.msb ∨
    z.toNat % 2 ^ 31 ≠ 0x7F800000 ∧ ∃ m e, ofF32 z = .fin z.msb m e ∧ (m = 0 ↔ z.toNat % 2 ^ 31 = 0) := by
  simp only [ofF32_eq, h, Bool.false_eq_true, if_false]
  split_ifs with hinf hsub
  · exact .inl ⟨hinf, rfl⟩
  · exact .inr ⟨hinf, _, _, rfl, Iff.rfl⟩
  · exact .inr ⟨hinf, _, _, rfl, by omega⟩

theorem ofF32_ne_nan {z : Word} (h : isNan32 z = false) : ofF32 z ≠ .nan := by
  obtain ⟨-, hval⟩ | ⟨-, m, e, hval, -⟩ := ofF32_of_number h <;> rw [hval] <;> exact FVal.noConfusion

theorem isNan_ofF32 (z : Word) : (ofF32 z).isNan = isNan32 z := by
  cases h : isNan32 z
  · exact beq_eq_false_iff_ne.2 (ofF32_ne_nan h)
  · rw [ofF32_of_isNan h]; rfl

/-! #### Sums, differences and products of a NaN (R134) -/

theorem add_nan (k : Rnd) (x : FVal) : x.add k .nan = .nan := by cases x <;> rfl
theorem mul_nan (x : FVal) : x.mul .nan = .nan := by cases x <;> rfl

/-- R134: a NaN operand makes the canonical NaN. -/
theorem arithmetic_of_isNan {x y : Word} (k : Rnd) (h : isNan32 x = true ∨ isNan32 y = true) :
    fadd k x y = 0x7FC00000 ∧ fsub k x y = 0x7FC00000 ∧ fmul k x y = 0x7FC00000 := by
  unfold fadd fsub fmul
  rcases h with h | h <;> rw [ofF32_of_isNan h]
  · exact ⟨rfl, rfl, rfl⟩
  · rw [FVal.neg, add_nan, mul_nan]
    exact ⟨rfl, rfl, rfl⟩

/-! #### The order of values that are not NaNs (R135, R136) -/

/-- The comparison of two values changes its sign with their order. -/
theorem cmp_swap (x y : FVal) : y.cmp x = -x.cmp y := by
  cases x with
  | nan => cases y <;> rfl
  | inf a => cases y with
    | nan => rfl
    | inf b => cases a <;> cases b <;> rfl
    | fin b n f => cases a <;> rfl
  | fin a m e => cases y with
    | nan => rfl
    | inf b => cases b <;> rfl
    | fin b n f => simp only [FVal.cmp, min_comm f e, neg_sub]

section
variable {x y : Word} (hx : isNan32 x = false) (hy : isNan32 y = false)
include hx hy

/-- R136: `.lt` of two values that are not NaNs. -/
theorem lt_of_numbers : (ofF32 x).lt (ofF32 y) = decide ((ofF32 x).cmp (ofF32 y) < 0) := by
  rw [FVal.lt, isNan_ofF32, isNan_ofF32, hx, hy]; rfl

/-- R136: `.le` of two values that are not NaNs. -/
theorem fcmp_le_of_numbers : fcmp 3 x y = decide ((ofF32 x).cmp (ofF32 y) ≤ 0) := by
  change ((ofF32 x).lt (ofF32 y) || (ofF32 x).eqv (ofF32 y)) = _
  rw [lt_of_numbers hx hy, FVal.eqv, isNan_ofF32, isNan_ofF32, hx, hy, Bool.eq_iff_iff]
  simp [le_iff_lt_or_eq]

/-- R135: FMIN of two values that are not NaNs. -/
theorem fmin_of_numbers : fmin x y = if (ofF32 x).cmp (ofF32 y) < 0 then x else if (ofF32 y).cmp (ofF32 x) < 0 then y else if x.msb then x else y := by
  unfold fmin
  split
  · exact absurd ‹_› (ofF32_ne_nan hx)
  · exact absurd ‹_› (ofF32_ne_nan hx)
  · exact absurd ‹_› (ofF32_ne_nan hy)
  · simp only [lt_of_numbers hx hy, lt_of_numbers hy hx, decide_eq_true_eq]

/-- R135: FMAX of two values that are not NaNs. -/
theorem fmax_of_numbers : fmax x y = if (ofF32 x).cmp (ofF32 y) < 0 then y else if (ofF32 y).cmp (ofF32 x) < 0 then x else if x.msb then y else x := by
  unfold fmax
  split
  · exact absurd ‹_› (ofF32_ne_nan hx)
  · exact absurd ‹_› (ofF32_ne_nan hx)
  · exact absurd ‹_› (ofF32_ne_nan hy)
  · simp only [lt_of_numbers hx hy, lt_of_numbers hy hx, decide_eq_true_eq]

/-- R135: FMIN and FMAX give an operand, not greater and not less than either. -/
theorem fmin_fmax_of_numbers : (fmin x y = x ∨ fmin x y = y) ∧ (fmax x y = x ∨ fmax x y = y) ∧
    fcmp 3 (fmin x y) x = true ∧ fcmp 3 (fmin x y) y = true ∧ fcmp 3 x (fmax x y) = true ∧ fcmp 3 y (fmax x y) = true := by
  have hswap := cmp_swap (ofF32 x) (ofF32 y)
  have hxx := cmp_swap (ofF32 x) (ofF32 x)
  have hyy := cmp_swap (ofF32 y) (ofF32 y)
  rw [fmin_of_numbers hx hy, fmax_of_numbers hx hy]
  split_ifs <;>
    simp only [fcmp_le_of_numbers hx hx, fcmp_le_of_numbers hx hy, fcmp_le_of_numbers hy hx, fcmp_le_of_numbers hy hy, decide_eq_true_eq, true_or, or_true, true_and] <;>
    omega
end

/-- R135: FMIN and FMAX of a NaN and a value that is not a NaN. -/
theorem fmin_fmax_of_isNan {x y : Word} (hx : isNan32 x = true) (hy : isNan32 y = false) : fmin x y = y ∧ fmax x y = y ∧ fmin y x = y ∧ fmax y x = y := by
  have hy := ofF32_ne_nan hy
  unfold fmin fmax
  rw [ofF32_of_isNan hx]
  cases h : ofF32 y with
  | nan => exact absurd h hy
  | inf _ => exact ⟨rfl, rfl, rfl, rfl⟩
  | fin _ _ _ => exact ⟨rfl, rfl, rfl, rfl⟩

/-- R135: FMIN and FMAX of two NaNs. -/
theorem fmin_fmax_of_isNan_both {x y : Word} (hx : isNan32 x = true) (hy : isNan32 y = true) : fmin x y = 0x7FC00000 ∧ fmax x y = 0x7FC00000 := by
  unfold fmin fmax
  rw [ofF32_of_isNan hx, ofF32_of_isNan hy]
  exact ⟨rfl, rfl⟩

/-- R136: FCMP with a NaN. -/
theorem fcmp_unordered (x y : Word) : fcmp 4 x y = (isNan32 x || isNan32 y) ∧ fcmp 5 x y = (!(isNan32 x || isNan32 y)) ∧
    (isNan32 x = true ∨ isNan32 y = true → fcmp 0 x y = false ∧ fcmp 2 x y = false) := by
  have hunord : (ofF32 x).unord (ofF32 y) = (isNan32 x || isNan32 y) := by rw [FVal.unord, isNan_ofF32, isNan_ofF32]
  refine ⟨hunord, congrArg not hunord, fun h => ?_⟩
  change (ofF32 x).eqv (ofF32 y) = false ∧ (ofF32 x).lt (ofF32 y) = false
  rw [FVal.eqv, FVal.lt, isNan_ofF32, isNan_ofF32]
  rcases h with h | h <;> simp [h]

/-! #### Classes (R135) -/

/-- R135: the class of a NaN. -/
theorem fclass_of_isNan {x : Word} (h : isNan32 x = true) : fclass x = if x.getLsbD 22 then 9 else 8 := by
  rw [fclass, ofF32_of_isNan h]

/-- R135: the class of any other pattern, by its magnitude and its sign. -/
theorem fclass_of_number {x : Word} (h : isNan32 x = false) : fclass x < 8 ∧
    (fclass x = 0 ↔ x.toNat % 2 ^ 31 = 0x7F800000 ∧ x.msb = true) ∧ (fclass x = 7 ↔ x.toNat % 2 ^ 31 = 0x7F800000 ∧ x.msb = false) ∧
    (fclass x = 3 ↔ x.toNat % 2 ^ 31 = 0 ∧ x.msb = true) ∧ (fclass x = 4 ↔ x.toNat % 2 ^ 31 = 0 ∧ x.msb = false) := by
  unfold fclass
  obtain ⟨hinf, hval⟩ | ⟨hinf, m, e, hval, hzero⟩ := ofF32_of_number h <;> rw [hval]
  · dsimp only
    rw [hinf]
    cases x.msb <;> decide
  · dsimp only
    by_cases hm : m = 0
    · rw [if_pos hm, hzero.1 hm]
      cases x.msb <;> decide
    · rw [if_neg hm]
      have hne : x.toNat % 2 ^ 31 ≠ 0 := fun h => hm (hzero.2 h)
      simp only [hinf, hne, false_and, iff_false]
      split_ifs <;> decide

/-- A pattern is its magnitude and its sign. -/
theorem eq_iff_magnitude (x c : Word) : x = c ↔ x.toNat % 2 ^ 31 = c.toNat % 2 ^ 31 ∧ x.msb = c.msb := by
  constructor
  · rintro rfl
    exact ⟨rfl, rfl⟩
  · rintro ⟨hmag, hsign⟩
    rw [BitVec.msb_eq_decide, BitVec.msb_eq_decide, decide_eq_decide] at hsign
    have hx := x.isLt
    have hc := c.isLt
    exact BitVec.eq_of_toNat_eq (by omega)

/-- R135: what the classes of FCLASS stand for. -/
theorem fclass_rules (x : Word) :
    fclass x < 10 ∧ (fclass x = 8 ↔ isNan32 x = true ∧ x.getLsbD 22 = false) ∧ (fclass x = 9 ↔ isNan32 x = true ∧ x.getLsbD 22 = true) ∧
    (fclass x = 0 ↔ x = 0xFF800000) ∧ (fclass x = 7 ↔ x = 0x7F800000) ∧ (fclass x = 3 ↔ x = 0x80000000) ∧ (fclass x = 4 ↔ x = 0) := by
  simp only [eq_iff_magnitude x]
  cases h : isNan32 x with
  | false =>
    obtain ⟨hlt, h0, h7, h3, h4⟩ := fclass_of_number h
    refine ⟨by omega, ?_, ?_, h0, h7, h3, h4⟩
    · simp; omega
    · simp; omega
  | true =>
    have hmag : 0x7F800000 < x.toNat % 2 ^ 31 := of_decide_eq_true h
    rw [fclass_of_isNan h]
    cases x.getLsbD 22 <;> simp <;> omega

/-- Settles O12: NaNs through the values of the patterns, FMIN and FMAX through one comparison that changes its sign with the
order, and the formats through the magnitude code that decoding reads. -/
theorem floatValueRules : Obligations.FloatValueRules := by
  refine ⟨fun x y k => ?_, fun F _ x k ctl neg m e hx h => ?_⟩
  · obtain ⟨hunord, hord, hnan⟩ := fcmp_unordered x y
    obtain ⟨hlt, h8, h9, h0, h7, h3, h4⟩ := fclass_rules x
    exact ⟨arithmetic_of_isNan k, fmin_fmax_of_isNan, fmin_fmax_of_isNan_both, fmin_fmax_of_numbers, hlt, h8, h9, h0, h7, h3, h4,
      hunord, hord, rfl, rfl, hnan⟩
  · obtain ⟨-, -, hcode⟩ := code_of_decode F k h
    obtain ⟨hneg, hnarrow⟩ := narrow_of_decode F k ctl hx h
    exact ⟨hcode, hneg, hnarrow⟩

end Sys2Proof.Proofs.FloatValues

/-! ### Register writes and deliveries (R62, R64, R98 to R103) -/

namespace Sys2Proof.Proofs.RegWrites

open Sys2Proof Sys2Proof.Machine Sys2Proof.Claim

/-! #### Masks and lanes -/

theorem getLsbD_without (a b : Mask) (l : Nat) : (without a b).getLsbD l = (a.getLsbD l && !b.getLsbD l) := by
  by_cases hl : l < 96
  · simp [without, hl]
  · simp [without, BitVec.getLsbD_of_ge _ l (Nat.le_of_not_lt hl)]

theorem getLsbD_maskBelow (f : Nat → Bool) (n l : Nat) (hn : n ≤ 96) : (maskBelow f n).getLsbD l = (decide (l < n) && f l) := by
  induction n with
  | zero => simp [maskBelow]
  | succ n ih =>
    have hstep : (decide (l < n + 1) && f l) = ((decide (l < n) && f l) || (decide (l = n) && f n)) := by
      rcases Nat.lt_trichotomy l n with h | rfl | h
      · simp [h, Nat.lt_succ_of_lt h, Nat.ne_of_lt h]
      · simp
      · simp [Nat.not_lt_of_gt h, show ¬l < n + 1 by omega, show l ≠ n by omega]
    rw [hstep, ← ih (by omega), maskBelow]
    split_ifs with hf
    · have hbit : (BitVec.twoPow 96 n).getLsbD l = decide (l = n) := by
        rw [BitVec.getLsbD_twoPow]
        by_cases h : l = n
        · simp [h, show n < 96 by omega]
        · simp [h, Ne.symm h]
      rw [BitVec.getLsbD_or, hbit, hf, Bool.and_true]
    · simp [hf]

/-- The bits of a mask that is given lane by lane. -/
theorem getLsbD_maskOf (f : Nat → Bool) (l : Nat) : (maskOf f).getLsbD l = (decide (l < 96) && f l) := getLsbD_maskBelow f 96 l le_rfl

/-- A beat of a mask register, written from a word (R101). -/
theorem getLsbD_beatBits (x : DWord) (b l : Nat) (hl : l < 96) :
    ((x.setWidth 32).setWidth 96 <<< (32 * b) : Mask).getLsbD l = (decide (l / 32 = b) && x.getLsbD (l % 32)) := by
  simp only [BitVec.getLsbD_shiftLeft, BitVec.getLsbD_setWidth, hl, decide_true, Bool.true_and]
  by_cases hb : l / 32 = b
  · have hlow : l - 32 * b = l % 32 := by omega
    simp [hb, hlow, show ¬l < 32 * b by omega, Nat.mod_lt, show l % 32 < 96 by omega]
  · rcases Nat.lt_or_gt_of_ne hb with h | h
    · simp [hb, show l < 32 * b by omega]
    · simp [hb, show ¬l - 32 * b < 32 by omega]

theorem getLsbD_splatBeat (x : DWord) (l : Nat) (hl : l < 96) : (State.deliver.splatBeat x).getLsbD l = x.getLsbD (l % 32) := by
  have hbeat := fun b => getLsbD_beatBits x b l hl
  have h0 := hbeat 0
  have h1 := hbeat 1
  have h2 := hbeat 2
  rw [Nat.mul_zero, BitVec.shiftLeft_zero] at h0
  rw [State.deliver.splatBeat, BitVec.getLsbD_or, BitVec.getLsbD_or, h0, h1, h2]
  rcases (by omega : l / 32 = 0 ∨ l / 32 = 1 ∨ l / 32 = 2) with h | h | h <;> simp [h]

/-! #### Masks of the register file (R99, R101) -/

theorem mask_writeM_same (r : Regs) (own : Mask) (k : BitVec 3) (x : Mask) : (r.writeM own k x).mask k = if k = 0 then x &&& own else x := by
  have hk : k.toNat < 8 := k.isLt
  simp [Regs.writeM, Regs.mask, hk]

theorem mask_writeM_other (r : Regs) (own : Mask) (k j : BitVec 3) (x : Mask) (h : j ≠ k) : (r.writeM own k x).mask j = r.mask j := by
  have hjk : k.toNat ≠ j.toNat := fun e => h (BitVec.eq_of_toNat_eq e.symm)
  simp [Regs.writeM, Regs.mask, hjk]

/-- R101: a beat of m0 that is written holds the word's bits in the owned lanes, and the other beats keep theirs. -/
theorem getLsbD_writeBeat (r : Regs) (own : Mask) (d : RegNum) (x : DWord) (l : Nat) (hl : l < 96) : ((r.writeBeat own d x).mask 0).getLsbD l =
    (own.getLsbD l && (if l / 32 = d.toNat - 61 then x.getLsbD (l % 32) else (r.mask 0).getLsbD l)) := by
  rw [Regs.writeBeat, mask_writeM_same, if_pos rfl, BitVec.getLsbD_and, BitVec.getLsbD_or, getLsbD_without, getLsbD_beatBits _ _ _ hl,
    Matrix.beat_getLsbD _ _ hl, beatOf, Bool.and_comm]
  by_cases h : l / 32 = d.toNat - 61 <;> simp [h]

/-! #### Scalar writes -/

section
variable (s : State) (d : RegNum) (x : DWord) (t : Bool)

theorem wrS_only : s.wrS d x t = s.modRegs fun r => { r with s := (s.wrS d x t).f.regs.s, m := (s.wrS d x t).f.regs.m } := by
  by_cases h : 61 ≤ d.toNat
  · simp [State.wrS, State.modRegs, h, Regs.writeBeat, Regs.writeM]
  · simp [State.wrS, State.modRegs, h, Regs.writeS]

theorem wrS_file (h : d.toNat < 61) : (s.wrS d x t).f.regs = s.f.regs.writeS (s.f.regs.sEnt d) ⟨x, t, false⟩ := by
  simp [State.wrS, Nat.not_le.2 h]

theorem wrS_beat (h : 61 ≤ d.toNat) : (s.wrS d x t).f.regs = s.f.regs.writeBeat s.f.own d x := by
  simp [State.wrS, h]
end

/-! #### Vector writes -/

/-- R103: what a write of lanes leaves in a vector register. -/
theorem lane_write (old : VReg) (own W : Mask) (vals : Lanes) (t : Bool) (p : Mask) (l : Nat) (hl : l < 96) :
    lane (old.write own W vals t p).lanes l = if W.getLsbD l then lane vals l else lane old.lanes l := by
  by_cases hW : W = 0#96
  · simp [VReg.write, hW]
  · rw [VReg.write, if_neg hW, Crossbar.lane_lanesOf _ l hl]

theorem poison_write (old : VReg) (own W : Mask) (vals : Lanes) (t : Bool) (l : Nat) :
    (old.write own W vals t 0x0#96).poison.getLsbD l = (old.poison.getLsbD l && !W.getLsbD l) := by
  by_cases hW : W = 0#96
  · simp [VReg.write, hW]
  · simp [VReg.write, hW, getLsbD_without]

theorem bnd_write (old : VReg) (own W : Mask) (vals : Lanes) (t : Bool) (p : Mask) :
    (old.write own W vals t p).bnd = if W = 0 then old.bnd else if own &&& ~~~W = 0 then t else t || old.bnd := by
  by_cases hW : W = 0#96
  · simp [VReg.write, hW]
  · rw [VReg.write, if_neg hW]
    exact (if_neg hW).symm

/-! #### The effective mask (R64) -/

section
variable {s : State} {p : Pfx}

theorem eff_unprefixed (h : s.f.pfx = none) : s.eff = s.mreg 0 ∧ s.zeroed = 0 := by
  simp [State.eff, State.zeroed, h, State.active]

theorem getLsbD_eff (h : s.f.pfx = some p) (l : Nat) : s.eff.getLsbD l = ((s.mreg 0).getLsbD l && (p.m == 0 || (s.mreg p.m).getLsbD l)) := by
  simp only [State.eff, h, State.active]
  by_cases hm : p.m = 0#3
  · simp [hm]
  · rw [if_neg hm, BitVec.getLsbD_and, show (p.m == 0) = false from beq_false_of_ne hm, Bool.false_or]

theorem getLsbD_zeroed (h : s.f.pfx = some p) (l : Nat) : s.zeroed.getLsbD l = (p.z == 1 && (s.mreg 0).getLsbD l && !s.eff.getLsbD l) := by
  simp only [State.zeroed, h, State.active]
  by_cases hz : p.z = 1#1 <;> simp [hz, getLsbD_without]
end

/-- R64: a lane of the effective mask is active, and none of those that are zeroed. -/
theorem eff_active_unzeroed (s : State) (l : Nat) (he : s.eff.getLsbD l = true) : (s.mreg 0).getLsbD l = true ∧ s.zeroed.getLsbD l = false := by
  cases hp : s.f.pfx with
  | none =>
    obtain ⟨heff, hzero⟩ := eff_unprefixed hp
    exact ⟨heff ▸ he, by simp [hzero]⟩
  | some p =>
    have hact := getLsbD_eff hp l
    rw [he] at hact
    refine ⟨?_, by simp [getLsbD_zeroed hp, he]⟩
    simp only [Bool.true_eq, Bool.and_eq_true] at hact
    exact hact.1

/-! #### Deliveries (R62) -/

/-- A vector entry once an outstanding result is written there; the result's tag is that of the whole word. -/
def deliveredV (f : Frag) (o : Out) (e : Nat) : VReg :=
  let old := f.regs.v.get VReg.zero e
  { old.write f.own o.mask o.vals o.bnd o.poison with bnd := if without f.own o.whole = 0x0#96 then o.bnd else o.bnd || old.bnd }

/-- The registers of a fragment once an outstanding result is written. -/
def delivered (f : Frag) (o : Out) : Regs :=
  match o.dest with
  | .v e => { f.regs with v := f.regs.v.put VReg.zero e (deliveredV f o e) }
  | .s e => f.regs.writeS e ⟨o.sval, o.bnd, o.poison != 0x0#96⟩
  | .m k => f.regs.writeM f.own (BitVec.ofNat 3 k) (without (f.regs.m[k]?.getD 0) o.whole ||| (State.deliver.splatBeat o.sval &&& o.whole))
  | .flags => { f.regs with cflags := setFlag f.regs.cflags 4 (o.sval != 0) }

/-- R62: with other results outstanding, a delivery writes its registers and nothing else. -/
theorem deliver_more (s : State) (n k : Nat) (o : Out) (rest : List Out) (h : takeAt (s.frag n).outs k = some (o, rest)) (hrest : rest ≠ []) :
    s.deliver n k = s.setFrag n { s.frag n with outs := rest, regs := delivered (s.frag n) o } := by
  unfold State.deliver
  simp only [h]
  have hsettle : ∀ u : State, (u.frag n).outs ≠ [] → u.settle n = u := fun u hu => by
    unfold State.settle
    exact if_pos (.inl hu)
  rw [hsettle]
  · rfl
  · simpa using hrest

/-- Settles O1: register files and masks are read back from what was put in them; the effective mask is taken bit by bit. -/
theorem registerWrites : Obligations.RegisterWrites := by
  refine ⟨fun s d x t => ⟨wrS_only s d x t, fun hd => ?_, fun hd => ?_⟩, fun s d x t => ?_, fun s l => ?_, fun s n k o rest => ?_⟩
  · rw [wrS_file s d x t hd]
    exact ⟨by simp [Regs.writeS, KMap.get_put], fun e he => by simp [Regs.writeS, KMap.get_put, he], rfl⟩
  · rw [wrS_beat s d x t hd]
    exact ⟨rfl, fun k hk => mask_writeM_other _ _ _ _ _ hk, fun l hl => getLsbD_writeBeat _ _ _ _ _ hl⟩
  · have hnew : (s.wrV d x t).f.regs.v.get VReg.zero (s.f.regs.vEnt d) = (s.f.regs.v.get VReg.zero (s.f.regs.vEnt d)).write s.f.own (s.eff ||| s.zeroed)
        (lanesOf fun l => if s.eff.getLsbD l then x l else 0) t 0x0#96 := by
      simp [State.wrV, Regs.writeV, KMap.get_put]
    refine ⟨by simp [State.wrV, State.modRegs, Regs.writeV], fun e he => by simp [State.wrV, Regs.writeV, KMap.get_put, he], fun l hl => ?_, ?_⟩
    · rw [hnew, lane_write _ _ _ _ _ _ _ hl, poison_write, Crossbar.lane_lanesOf _ l hl]
      refine ⟨?_, rfl⟩
      cases he : s.eff.getLsbD l <;> simp [he]
    · rw [hnew, bnd_write]
  · exact ⟨eff_unprefixed, fun p hp => ⟨getLsbD_eff hp l, getLsbD_zeroed hp l⟩, eff_active_unzeroed s l⟩
  · intro f t h hrest
    have ht : t = s.setFrag n { f with outs := rest, regs := delivered f o } := deliver_more s n k o rest h hrest
    have hregs : (t.frag n).regs = delivered f o := by rw [ht, State.frag_setFrag_same]
    rw [hregs]
    refine ⟨ht, fun e he => ?_, fun e he => ?_, fun he => ?_⟩
    · have hv : delivered f o = { f.regs with v := f.regs.v.put VReg.zero e (deliveredV f o e) } := by simp only [delivered, he]
      rw [hv]
      exact ⟨fun j hj => by simp [KMap.get_put, hj], rfl, rfl, fun l hl => by rw [KMap.get_put, if_pos rfl]; exact lane_write _ _ _ _ _ _ _ hl⟩
    · have hs : delivered f o = f.regs.writeS e ⟨o.sval, o.bnd, o.poison != 0x0#96⟩ := by simp only [delivered, he]
      rw [hs]
      exact ⟨by simp [Regs.writeS, KMap.get_put], fun j hj => by simp [Regs.writeS, KMap.get_put, hj], rfl, rfl⟩
    · have hm : delivered f o = f.regs.writeM f.own 0 (without (f.regs.m[0]?.getD 0) o.whole ||| (State.deliver.splatBeat o.sval &&& o.whole)) := by
        simp only [delivered, he]; rfl
      rw [hm]
      refine ⟨rfl, rfl, fun l hl => ?_⟩
      rw [mask_writeM_same, if_pos rfl, BitVec.getLsbD_and, BitVec.getLsbD_or, BitVec.getLsbD_and, getLsbD_without, getLsbD_splatBeat _ _ hl, Bool.and_comm]
      cases hw : o.whole.getLsbD l <;> simp [Regs.mask]

end Sys2Proof.Proofs.RegWrites

/-! ### Vector integer words, poisoned sources, and words that the rules write out (R56, R103, R115 to R122) -/

namespace Sys2Proof.Proofs.VectorInt

open Sys2Proof Sys2Proof.Machine Sys2Proof.Claim Sys2Proof.Proofs.Privileged

/-- Settles O56: the decoder evaluated on each word. -/
theorem decodedWords : Obligations.DecodedWords :=
  ⟨rfl, rfl, rfl, rfl, rfl, rfl, rfl, rfl, rfl, rfl, rfl, rfl, rfl, rfl, rfl, rfl, rfl, rfl⟩

/-! #### Poisoned sources (R103) -/

theorem poisonOf_clean_s {s : State} {a : RegNum} (h : (s.sreg a).poison = false) : s.poisonOf (.s a) = none := by
  simp [State.poisonOf, h]

theorem poisonOf_poisoned_s {s : State} {a : RegNum} (h : (s.sreg a).poison = true) : s.poisonOf (.s a) = some (faultOf 0x19#8 (64 + a.setWidth 64)) := by
  simp [State.poisonOf, h, faultOf]

theorem poisonOf_clean_v {s : State} {a : RegNum} {m : Mask} (h : (s.vreg a).poison &&& m = 0) : s.poisonOf (.v a m) = none :=
  if_pos h

theorem poisonOf_poisoned_v {s : State} {a : RegNum} {m : Mask} (h : (s.vreg a).poison &&& m ≠ 0) :
    s.poisonOf (.v a m) = some (faultOf 0x19#8 (a.setWidth 64) (lanesLo ((s.vreg a).poison &&& m)) (lanesHi ((s.vreg a).poison &&& m))) :=
  if_neg h

theorem poisoned_cons_some {s : State} {x : Src} {xs : List Src} {r : FaultRec} (h : s.poisonOf x = some r) : s.poisoned (x :: xs) = some r := by
  simp [State.poisoned, h]

theorem poisoned_cons_none {s : State} {x : Src} {xs : List Src} (h : s.poisonOf x = none) : s.poisoned (x :: xs) = s.poisoned xs := by
  simp [State.poisoned, h]

/-- Lanes 0 to 63 and lanes 64 to 95 of a mask, as a report holds them. -/
theorem lanesLo_eq (m : Mask) : lanesLo m = m.extractLsb' 0 64 := BitVec.eq_of_getLsbD_eq fun i hi => by simp [lanesLo, hi]

theorem lanesHi_eq (m : Mask) : lanesHi m = (m.extractLsb' 64 32).setWidth 64 := by
  refine BitVec.eq_of_getLsbD_eq fun i hi => ?_
  simp only [lanesHi, BitVec.getLsbD_setWidth, BitVec.getLsbD_extractLsb', BitVec.getLsbD_ushiftRight, hi, decide_true, Bool.true_and]
  by_cases h : i < 32
  · simp [h]
  · simp [h, BitVec.getLsbD_of_ge m (64 + i) (by omega)]

theorem faults_poisoned {i : Instr} {s : State} {xs : List Src} {k : Act} {r : FaultRec} (hexec : exec i s = finish s (s.clean xs k))
    (h : s.poisoned xs = some r) : Faults i s r :=
  faults_of hexec (State.clean_some s xs k r h)

/-- Settles O2: the first source that is poisoned is the one found. -/
theorem poisonedSourceFaults : Obligations.PoisonedSourceFaults := by
  refine fun s d a b w => ⟨fun ha => ?_, fun ha hb => ?_, fun hv => ?_, fun hv => ?_⟩
  · exact faults_poisoned rfl (poisoned_cons_some (poisonOf_poisoned_s ha))
  · exact faults_poisoned rfl ((poisoned_cons_none (poisonOf_clean_s ha)).trans (poisoned_cons_some (poisonOf_poisoned_s hb)))
  · rw [← lanesLo_eq, ← lanesHi_eq]
    exact faults_poisoned rfl (poisoned_cons_some (poisonOf_poisoned_v hv))
  · exact poisoned_cons_none (poisonOf_clean_v hv)

/-! #### Words that write the lanes of a vector -/

/-- A word that checks its sources and writes `x` writes any `y` that has the same lanes. -/
theorem vector_of {i : Instr} {s : State} {d : RegNum} {srcs : List Src} {x y : Nat → Word} (h : ∀ l, x l = y l)
    (hexec : exec i s = finish s (s.clean srcs (.done (s.wrV d x (s.bndOf srcs))))) : Vector i s d srcs y := fun hp => by
  rw [← funext h]
  exact goes_of hexec (State.clean_none _ _ _ hp) (State.wrV_pc ..)

theorem movhi_lane (x : Word) (imm : BitVec 18) : (x <<< 18) + imm.setWidth 32 = x * 2 ^ 18 + imm.setWidth 32 := by
  rw [BitVec.shiftLeft_eq_mul_twoPow]
  rfl

/-- Settles O6: each word is its operation on the low bits of the lanes; `Laws` gives the operations in the arithmetic of numbers. -/
theorem vectorIntegerWords : Obligations.VectorIntegerWords := by
  intro s d a b w k imm i18 n
  refine ⟨vector_of (fun _ => rfl) rfl, vector_of (fun _ => rfl) rfl, vector_of (fun _ => rfl) rfl, vector_of (fun _ => rfl) rfl,
    vector_of (fun _ => rfl) rfl, vector_of (fun _ => rfl) rfl,
    vector_of (fun _ => minI_sx _ _) rfl, vector_of (fun _ => minN_zx _ _) rfl, vector_of (fun _ => maxI_sx _ _) rfl, vector_of (fun _ => maxN_zx _ _) rfl,
    vector_of (fun _ => congrArg (BitVec.signExtend 32) (absI_eq _)) rfl, vector_of (fun _ => rfl) rfl,
    vector_of (fun _ => rfl) rfl, vector_of (fun _ => rfl) rfl, vector_of (fun _ => rfl) rfl, vector_of (fun _ => rfl) rfl, vector_of (fun _ => rfl) rfl,
    vector_of (fun _ => congrArg (BitVec.setWidth 32) (shlN_eq _ _)) rfl, vector_of (fun _ => congrArg (BitVec.setWidth 32) (shrN_eq _ _)) rfl,
    vector_of (fun _ => congrArg (BitVec.signExtend 32) (sarN_eq _ _)) rfl, vector_of (fun _ => congrArg (BitVec.setWidth 32) (rotN_eq _ _)) rfl,
    vector_of (fun _ => rfl) rfl, vector_of (fun _ => rfl) rfl, vector_of (fun _ => rfl) rfl, vector_of (fun _ => rfl) rfl, vector_of (fun _ => rfl) rfl,
    vector_of (fun _ => congrArg (BitVec.setWidth 32) (brev_eq _)) rfl, ?_, vector_of (fun _ => rfl) rfl,
    vector_of (fun _ => rfl) rfl, vector_of (fun _ => rfl) rfl, vector_of (fun _ => movhi_lane _ _) rfl,
    vector_of (fun _ => shlN_eq _ _) rfl, vector_of (fun _ => shrN_eq _ _) rfl, vector_of (fun _ => sarN_eq _ _) rfl, vector_of (fun _ => rotN_eq _ _) rfl⟩
  by_cases hw : w = 3
  · rw [if_pos hw]
    exact vector_of (fun _ => rfl) (if_pos hw)
  · rw [if_neg hw]
    exact vector_of (fun _ => rfl) (if_neg hw)

end Sys2Proof.Proofs.VectorInt

/-! ### Special-function words (R143, R144) -/

namespace Sys2Proof.Proofs.SpecialFns

open Sys2Proof Sys2Proof.Machine Sys2Proof.Claim Sys2Proof.Proofs.Privileged Sys2Proof.Proofs.RegWrites Sys2Proof.Proofs.FloatValues

/-! #### Magnitudes of FP32 patterns (R32) -/

/-- The magnitude of a code, in units of 2^-149. -/
def units (c : Nat) : Nat := if c < 2 ^ 23 then c else (2 ^ 23 + c % 2 ^ 23) * 2 ^ (c / 2 ^ 23 - 1)

theorem units_succ (c : Nat) : units c < units (c + 1) := by
  unfold units
  by_cases hsub : c + 1 < 2 ^ 23
  · rw [if_pos hsub, if_pos (by omega)]
    omega
  · rw [if_neg hsub]
    by_cases hedge : c < 2 ^ 23
    · obtain rfl : c = 2 ^ 23 - 1 := by omega
      decide
    · rw [if_neg hedge]
      by_cases hlast : c % 2 ^ 23 = 2 ^ 23 - 1
      · obtain ⟨hmod, hdiv⟩ : (c + 1) % 2 ^ 23 = 0 ∧ (c + 1) / 2 ^ 23 - 1 = c / 2 ^ 23 - 1 + 1 := by omega
        rw [hmod, hdiv, hlast, pow_succ' 2 (c / 2 ^ 23 - 1), ← Nat.mul_assoc]
        exact Nat.mul_lt_mul_of_pos_right (by decide) (Nat.two_pow_pos _)
      · obtain ⟨hmod, hdiv⟩ : (c + 1) % 2 ^ 23 = c % 2 ^ 23 + 1 ∧ (c + 1) / 2 ^ 23 = c / 2 ^ 23 := by omega
        rw [hmod, hdiv]
        exact Nat.mul_lt_mul_of_pos_right (by omega) (Nat.two_pow_pos _)

theorem units_strictMono : StrictMono units := strictMono_nat_of_lt_succ units_succ

/-- A comparison of magnitudes, in units of 2^-149. -/
theorem magLe_units {m p : Nat} {e q : Int} (he : -149 ≤ e) (hq : -149 ≤ q) :
    magLe m e p q = decide (m * 2 ^ (e + 149).toNat ≤ p * 2 ^ (q + 149).toNat) := by
  have hsplit : ∀ x : Int, min e q ≤ x → (x + 149).toNat = (x - min e q).toNat + (min e q + 149).toNat := fun x hx => by omega
  have hpos := Nat.two_pow_pos (min e q + 149).toNat
  simp only [magLe, scaled, Bool.false_eq_true, if_false, Int.ofNat_le, decide_eq_decide]
  rw [hsplit e (min_le_left ..), hsplit q (min_le_right ..), pow_add, pow_add, ← Nat.mul_assoc, ← Nat.mul_assoc]
  exact (Nat.mul_le_mul_right_iff hpos).symm

/-- R32: a pattern that is neither a NaN nor an infinity is a number of its sign and magnitude. -/
theorem ofF32_units {a : Word} (h : a.toNat % 2 ^ 31 < 0x7F800000) : ∃ m e, ofF32 a = .fin a.msb m e ∧ -149 ≤ e ∧
    m * 2 ^ (e + 149).toNat = units (a.toNat % 2 ^ 31) := by
  have hnum : isNan32 a = false := by simp only [isNan32, decide_eq_false_iff_not]; omega
  rw [ofF32_eq, if_neg (by omega), hnum, if_neg Bool.false_ne_true]
  unfold units
  split_ifs with hsub
  · exact ⟨_, _, rfl, le_rfl, by simp⟩
  · exact ⟨_, _, rfl, by omega, by congr 2; omega⟩

theorem ofF32_inf {a : Word} (h : a.toNat % 2 ^ 31 = 0x7F800000) : ofF32 a = .inf a.msb := by
  rw [ofF32_eq, if_pos h]

/-! #### Stated results (R143) -/

theorem sfu_of_stated {fn : Nat} {a r : Word} (h : sfuStated fn a = some r) : sfu fn a = r := by
  simp only [sfu, h]

/-- R33: a NaN gives the canonical NaN. -/
theorem sfu_nan {fn : Nat} {a : Word} (h : isNan32 a = true) : sfu fn a = 0x7FC00000 :=
  sfu_of_stated (by simp only [sfuStated, ofF32_of_isNan h]; rfl)

theorem msb_iff (a : Word) : a.msb = true ↔ 2 ^ 31 ≤ a.toNat := by
  rw [BitVec.msb_eq_decide, decide_eq_true_iff]

theorem msb_false_iff (a : Word) : a.msb = false ↔ a.toNat < 2 ^ 31 := by
  rw [BitVec.msb_eq_decide, decide_eq_false_iff_not, Nat.not_le]

/-- Square roots and logarithms of what lies below zero are NaN. -/
theorem sfu_negative {a : Word} (h : 0x80000000 < a.toNat) : sfu 1 a = 0x7FC00000 ∧ sfu 2 a = 0x7FC00000 ∧ sfu 4 a = 0x7FC00000 := by
  have hneg : a.msb = true := (msb_iff a).2 (by omega)
  by_cases hnan : isNan32 a = true
  · exact ⟨sfu_nan hnan, sfu_nan hnan, sfu_nan hnan⟩
  · obtain ⟨-, hval⟩ | ⟨-, m, e, hval, hzero⟩ := ofF32_of_number (Bool.eq_false_iff.2 hnan)
    · refine ⟨?_, ?_, ?_⟩ <;> exact sfu_of_stated (by simp only [sfuStated, hval, hneg]; rfl)
    · have hm : m ≠ 0 := fun h0 => by
        have := a.isLt
        have := hzero.1 h0
        omega
      refine ⟨?_, ?_, ?_⟩ <;> exact sfu_of_stated (by simp only [sfuStated, hval, hneg, if_neg hm]; rfl)

/-- The pattern of a magnitude code with its sign. -/
theorem eq_signed (a : Word) : a.toNat = (if a.msb then 2 ^ 31 else 0) + a.toNat % 2 ^ 31 := by
  have := a.isLt
  have := msb_iff a
  split_ifs with h <;> simp only [h, Bool.false_eq_true, true_iff, false_iff] at this <;> omega

theorem sfu_exp2_over {a : Word} (h : 0x43000000 ≤ a.toNat) (h' : a.toNat ≤ 0x7F800000) : sfu 3 a = 0x7F800000 := by
  have hpos : a.msb = false := (msb_false_iff a).2 (by omega)
  have hmod : a.toNat % 2 ^ 31 = a.toNat := Nat.mod_eq_of_lt (by omega)
  rcases Nat.lt_or_eq_of_le h' with hlt | heq
  · obtain ⟨m, e, hval, he, hu⟩ := ofF32_units (hmod ▸ hlt)
    have hbig : units 0x43000000 ≤ units (a.toNat % 2 ^ 31) := units_strictMono.monotone (hmod.symm ▸ h)
    have hle : magLe 1 7 m e = true := by
      rw [magLe_units (by decide) he, hu, decide_eq_true_iff]
      exact le_trans (by decide +kernel) hbig
    have hm : m ≠ 0 := fun h0 => by
      rw [← hu, h0, Nat.zero_mul] at hbig
      exact absurd hbig (by decide +kernel)
    refine sfu_of_stated ?_
    simp only [sfuStated, hval, hpos, if_neg hm, hle]
    rfl
  · refine sfu_of_stated ?_
    simp only [sfuStated, ofF32_inf (hmod.trans heq), hpos]
    exact congrArg some (BitVec.eq_of_toNat_eq heq)

theorem sfu_exp2_under {a : Word} (h : 0xC3160000 < a.toNat) (h' : a.toNat ≤ 0xFF800000) : sfu 3 a = 0 := by
  have hneg : a.msb = true := (msb_iff a).2 (by omega)
  have hmod : a.toNat % 2 ^ 31 = a.toNat - 2 ^ 31 := by omega
  rcases Nat.lt_or_eq_of_le h' with hlt | heq
  · obtain ⟨m, e, hval, he, hu⟩ := ofF32_units (a := a) (by omega)
    have hbig : units 0x43160000 < units (a.toNat % 2 ^ 31) := units_strictMono (by omega)
    have hle : magLe m e 150 0 = false := by
      rw [magLe_units he (by decide), hu, decide_eq_false_iff_not, Nat.not_le]
      exact lt_of_le_of_lt (by decide +kernel) hbig
    have hm : m ≠ 0 := fun h0 => by
      rw [← hu, h0, Nat.zero_mul] at hbig
      exact absurd hbig (Nat.not_lt_zero _)
    refine sfu_of_stated ?_
    simp only [sfuStated, hval, hneg, if_neg hm, hle]
    rfl
  · refine sfu_of_stated ?_
    simp only [sfuStated, ofF32_inf (a := a) (by omega), hneg]
    rfl

/-- A small argument is its own sine and hyperbolic tangent. -/
theorem sfu_small {a : Word} (h : a.toNat % 2 ^ 31 ≤ 0x39800000) : sfu 5 a = a ∧ sfu 7 a = a := by
  obtain ⟨m, e, hval, he, hu⟩ := ofF32_units (a := a) (by omega)
  have hle : magLe m e 1 (-12) = true := by
    rw [magLe_units he (by decide), hu, decide_eq_true_iff]
    exact le_trans (units_strictMono.monotone h) (by decide +kernel)
  constructor <;> refine sfu_of_stated ?_ <;> simp only [sfuStated, hval, hle, if_true] <;> exact ite_self _

theorem sfu_tanh_large {a : Word} (h : 0x4111999A ≤ a.toNat % 2 ^ 31) (h' : a.toNat % 2 ^ 31 ≤ 0x7F800000) :
    sfu 7 a = if a.msb then 0xBF800000 else 0x3F800000 := by
  rcases Nat.lt_or_eq_of_le h' with hlt | heq
  · obtain ⟨m, e, hval, he, hu⟩ := ofF32_units hlt
    have hbig : units 0x4111999A ≤ units (a.toNat % 2 ^ 31) := units_strictMono.monotone h
    have hsmall : magLe m e 1 (-12) = false := by
      rw [magLe_units he (by decide), hu, decide_eq_false_iff_not, Nat.not_le]
      exact lt_of_lt_of_le (by decide +kernel) hbig
    have hlarge : magLe (10 * m) e 91 0 = false := by
      rw [magLe_units he (by decide), Nat.mul_assoc, hu, decide_eq_false_iff_not, Nat.not_le]
      exact lt_of_lt_of_le (by decide +kernel) (Nat.mul_le_mul_left 10 hbig)
    have hm : m ≠ 0 := fun h0 => by
      rw [← hu, h0, Nat.zero_mul] at hbig
      exact absurd hbig (by decide +kernel)
    refine sfu_of_stated ?_
    simp only [sfuStated, hval, if_neg hm, hsmall, hlarge]
    rfl
  · refine sfu_of_stated ?_
    simp only [sfuStated, ofF32_inf heq]
    rfl

/-- Integral powers of two, and their logarithms: each argument from -149 to 127. -/
theorem sfu_integral : ∀ k : Nat, k < 277 → sfu 3 (toF32 .rne (ofInt ((k : Int) - 149))) = toF32 .rne (.fin false 1 ((k : Int) - 149)) ∧
    sfu 4 (toF32 .rne (.fin false 1 ((k : Int) - 149))) = toF32 .rne (ofInt ((k : Int) - 149)) := by
  decide +kernel

/-! #### The words (R144) -/

/-- The beats that a special-function word writes. -/
def beatsOf (s : State) : List Nat := (List.range 3).filter fun n => s.eff &&& beat n != 0

theorem mem_beatsOf {s : State} {l : Nat} (h : s.eff.getLsbD l = true) : l / 32 ∈ beatsOf s := by
  have hl : l < 96 := BitVec.lt_of_getLsbD h
  refine List.mem_filter.2 ⟨List.mem_range.2 (by omega), bne_iff_ne.2 fun hzero => ?_⟩
  have hbit := congrArg (fun m : Mask => m.getLsbD l) hzero
  simp [h, Matrix.beat_getLsbD _ _ hl] at hbit

/-- The results that such a word leaves outstanding, one for each beat. -/
def sfuParts (s : State) (fn : Nat) (d a : RegNum) : List Out :=
  (beatsOf s).map fun n => Out.mk .sfu (.v (s.f.regs.vEnt d)) ((s.eff ||| s.zeroed) &&& beat n) (s.eff ||| s.zeroed)
    (lanesOf fun l => if s.eff.getLsbD l then sfu fn (s.vl a l) else 0) 0 (s.bndOf [.v a s.eff]) 0x0#96

section
variable {i : Instr} {s : State} {fn : Nat} {d a : RegNum} (hexec : exec i s = finish s (sfWord s fn d a)) (hp : s.poisoned [.v a s.eff] = none)
include hexec hp

theorem sfWord_full (h : 32 < (s.core s.f.coreKey).sfuQ.length + (beatsOf s).length) : Holds i s s :=
  holds_of hexec ((State.clean_none _ _ _ hp).trans (if_pos h))

theorem sfWord_room (h : (s.core s.f.coreKey).sfuQ.length + (beatsOf s).length ≤ 32) : ∃ u outs, Goes i s u ∧ SameBut s u ∧
    u.core s.f.coreKey = { s.core s.f.coreKey with sfuQ := (s.core s.f.coreKey).sfuQ ++ (beatsOf s).map fun _ => s.cur } ∧
    u.f = { s.f with outs := s.f.outs ++ outs, regs := u.f.regs } ∧ outs.length = (beatsOf s).length ∧
    ∀ l, l < 96 → s.eff.getLsbD l = true →
      ∃ o ∈ outs, o.kind = .sfu ∧ o.dest = .v (s.f.regs.vEnt d) ∧ o.mask.getLsbD l = true ∧ lane o.vals l = sfu fn (s.vl a l) := by
  refine ⟨_, sfuParts s fn d a, goes_of hexec ((State.clean_none _ _ _ hp).trans (if_neg (Nat.not_lt.2 h)))
    (by simp [State.setCore, State.f, State.setF, State.frag, KMap.get_ins_same, State.modRegs]),
    ⟨rfl, rfl, rfl, rfl, rfl, rfl, rfl, rfl, rfl⟩, State.core_setCore_same .., ?_, List.length_map .., fun l hl he => ?_⟩
  · simp [State.setCore, State.f, State.setF, State.frag, KMap.get_ins_same, State.modRegs]
    rfl
  · refine ⟨_, List.mem_map_of_mem (mem_beatsOf he), rfl, rfl, ?_, ?_⟩
    · simp [he, Matrix.beat_getLsbD _ _ hl]
    · rw [Crossbar.lane_lanesOf _ l hl, if_pos he]
end

/-- R144: the oldest entry of the unit completes with its fragment's first result of the unit. -/
theorem sfuEntryComplete_eq {s : State} {core n k : Nat} {rest : List Nat} (hq : (s.core core).sfuQ = n :: rest)
    (hk : (s.frag n).outs.findIdx? (fun o => o.kind == .sfu) = some k) :
    exec (.sfuEntryComplete core) s = .next (((s.setCore core { s.core core with sfuQ := rest }).count core 6 1).deliver n k) := by
  rw [show exec (.sfuEntryComplete core) s = execSfuEntryComplete core s from rfl, execSfuEntryComplete]
  simp only [hq, hk]

/-- Settles O15: the words by the room in the queue; the stated results by the magnitude of the argument in units of 2^-149. -/
theorem specialFunctionWords : Obligations.SpecialFunctionWords := by
  refine ⟨fun s d a => ?_, fun s core n k rest => sfuEntryComplete_eq, fun a => ⟨fun h n _ => sfu_nan (decide_eq_true h), sfu_negative, sfu_exp2_over, sfu_exp2_under,
    sfu_small, sfu_tanh_large⟩, by decide +kernel, fun n hlo hhi => ?_⟩
  · intro beats c words w hw hp
    have hexec : exec w.1 s = finish s (sfWord s w.2 d a) := by
      simp only [words, List.mem_cons, List.not_mem_nil, or_false] at hw
      rcases hw with rfl | rfl | rfl | rfl | rfl | rfl | rfl | rfl <;> rfl
    exact ⟨sfWord_full hexec hp, sfWord_room hexec hp⟩
  · obtain ⟨k, hk⟩ := Int.eq_ofNat_of_zero_le (show 0 ≤ n + 149 by omega)
    obtain rfl : n = (k : Int) - 149 := by omega
    exact sfu_integral k (by omega)

end Sys2Proof.Proofs.SpecialFns

/-! ### Mask words, shuffles, reductions and scans (R126, R129 to R131) -/

namespace Sys2Proof.Proofs.MaskLane

open Sys2Proof Sys2Proof.Machine Sys2Proof.Claim Sys2Proof.Proofs.Privileged Sys2Proof.Proofs.RegWrites Sys2Proof.Proofs.VectorInt

/-! #### The lowest lane of a mask -/

theorem lowest_eq_find (m : Mask) : lowest m = ((List.range 96).find? fun l => m.getLsbD l).getD 96 := by
  rw [lowest, lanesIn, List.headD_eq_head?_getD, List.head?_filter]

theorem lowest_zero : lowest 0 = 96 := by decide

theorem getLsbD_lowest {m : Mask} (h : m ≠ 0) : m.getLsbD (lowest m) = true := by
  rw [lowest_eq_find]
  cases hf : (List.range 96).find? fun l => m.getLsbD l with
  | none => exact absurd (BitVec.eq_of_getLsbD_eq fun l hl => by simpa using List.find?_eq_none.1 hf l (List.mem_range.2 hl)) h
  | some l => exact List.find?_some hf

theorem getLsbD_below_lowest {m : Mask} {l : Nat} (h : l < lowest m) : m.getLsbD l = false := by
  rw [lowest_eq_find] at h
  cases hf : (List.range 96).find? fun l => m.getLsbD l with
  | none =>
    rw [hf] at h
    simpa using List.find?_eq_none.1 hf l (List.mem_range.2 h)
  | some k =>
    rw [hf] at h
    simpa using (List.find?_range_eq_some.1 hf).2.2 l h

/-! #### Mask words (R99, R126) -/

theorem wrM_mask (s : State) (k : BitVec 3) (x : Mask) : (s.wrM k x).f.regs.mask k = (if k = 0 then x &&& s.f.own else x) ∧
    (∀ j, j ≠ k → (s.wrM k x).f.regs.mask j = s.f.regs.mask j) ∧ s.wrM k x = s.modRegs fun r => { r with m := (s.wrM k x).f.regs.m } := by
  have hregs : (s.wrM k x).f.regs = s.f.regs.writeM s.f.own k x := by simp [State.wrM]
  rw [hregs]
  exact ⟨mask_writeM_same .., fun j hj => mask_writeM_other _ _ _ _ _ hj, rfl⟩

theorem goes_mfirst (s : State) (d : RegNum) (a : BitVec 3) :
    Goes (.mfirst d a) s ((s.wrS d (BitVec.ofNat 64 (lowest (s.mreg a))) false).setE (decide (s.mreg a = 0))) :=
  goes_of rfl rfl (by simp)

theorem popMask_eq (m : Mask) : popMask m = (List.range 96).countP fun l => m.getLsbD l := List.countP_eq_length_filter.symm

/-! #### Shuffles and BCAST (R129, R130) -/

/-- R129: a shuffle whose selected lanes and second source are clean writes the active lanes. -/
theorem goes_shuffle {i : Instr} {s : State} {d a : RegNum} {x : Src} {j : Nat → Int} (hexec : exec i s = finish s (shuffle s d a x j))
    (h : s.poisoned [.v a (maskOf fun k => (lanesIn s.active).any fun l => pick s.active (j l) l == k), x] = none) :
    Goes i s (s.wrLanes d s.active (fun l => s.vl a (pick s.active (j l) l))
      (s.bndOf [.v a (maskOf fun k => (lanesIn s.active).any fun l => pick s.active (j l) l == k), x])) :=
  goes_of hexec (State.clean_none _ _ _ h) (State.wrLanes_pc ..)

section
variable (s : State) (d a b : RegNum)

theorem goes_bcast_active (hj : (s.sv b).toNat < 96) (hact : (s.mreg 0).getLsbD (s.sv b).toNat = true)
    (h : s.poisoned [.v a (BitVec.twoPow 96 (s.sv b).toNat), .s b] = none) :
    Goes (.bcast d a b) s ((s.wrLanes d (s.mreg 0) (fun _ => s.vl a (s.sv b).toNat) (s.bndOf [.v a (BitVec.twoPow 96 (s.sv b).toNat), .s b])).setE false) := by
  have hok : (decide ((s.sv b).toNat ≤ 95) && s.active.getLsbD (s.sv b).toNat) = true := by
    rw [State.active, hact, decide_eq_true (Nat.le_of_lt_succ hj), Bool.and_self]
  refine goes_of (act := .done _) ?_ rfl (by simp)
  simp only [exec, execBcast, hok, if_true, State.clean_none _ _ _ h, Bool.not_true]
  rfl

theorem goes_bcast_inactive (hact : (s.mreg 0).getLsbD (s.sv b).toNat = false) (h : (s.sreg b).poison = false) : Goes (.bcast d a b) s (s.setE true) := by
  have hok : (decide ((s.sv b).toNat ≤ 95) && s.active.getLsbD (s.sv b).toNat) = false := by
    rw [State.active, hact, Bool.and_false]
  have hclean : s.poisoned [.v a 0x0#96, .s b] = none :=
    (poisoned_cons_none (poisonOf_clean_v BitVec.and_zero)).trans (poisoned_single s b h)
  refine goes_of (act := .done _) ?_ rfl (by simp)
  simp only [exec, execBcast, hok, Bool.false_eq_true, if_false, Bool.not_false]
  rw [State.clean_none _ _ _ hclean]
end

/-! #### Reductions and scans (R131) -/

theorem lanesIn_and (act : Mask) (keep : Nat → Bool) : (lanesIn act).filter keep = (List.range 96).filter fun j => act.getLsbD j && keep j := by
  rw [lanesIn, List.filter_filter]
  exact List.filter_congr fun j _ => Bool.and_comm _ _

theorem lanesIn_all (act : Mask) : lanesIn act = (List.range 96).filter fun j => act.getLsbD j && true := by
  simp only [Bool.and_true, lanesIn]

theorem ext_signed {o : BitVec 3} (x : Word) : ext (o == 0x1#3 || o == 0x3#3) 64 x = if o = 1 ∨ o = 3 then x.signExtend 64 else x.setWidth 64 := by
  by_cases h : o = 1 ∨ o = 3
  · rw [if_pos h]
    rcases h with rfl | rfl <;> rfl
  · obtain ⟨h1, h3⟩ := not_or.1 h
    rw [if_neg h, show (o == 0x1#3) = false from beq_false_of_ne h1, show (o == 0x3#3) = false from beq_false_of_ne h3]
    rfl

/-- Folding from the left in words is folding from the right in what the words stand for, with the operation's identity. -/
theorem map_foldl {β : Type} (φ : Word → β) {op : Word → Word → Word} (op' : β → β → β) {e : β} (hom : ∀ x y, φ (op x y) = op' (φ x) (φ y))
    (assoc : ∀ x y z, op' (op' x y) z = op' x (op' y z)) (right : ∀ x, op' (φ x) e = φ x) (f : Nat → Word) (ls : List Nat) (a : Word) :
    φ (ls.foldl (fun x l => op x (f l)) a) = op' (φ a) (ls.foldr (fun l m => op' (φ (f l)) m) e) := by
  induction ls generalizing a with
  | nil => exact (right a).symm
  | cons l ls ih => rw [List.foldl_cons, ih, hom, assoc, List.foldr_cons]

/-- R131: an operation over lanes, in what the words stand for. -/
theorem redOver_foldr {β : Type} (o : BitVec 3) (φ : Word → β) (op' : β → β → β) (hom : ∀ x y, φ (redOp o x y) = op' (φ x) (φ y))
    (assoc : ∀ x y z, op' (op' x y) z = op' x (op' y z)) (right : ∀ x, op' (φ x) (φ (redId o)) = φ x) (left : ∀ x, op' (φ (redId o)) (φ x) = φ x)
    (f : Nat → Word) (ls : List Nat) : φ (redOver o f ls) = ls.foldr (fun l m => op' (φ (f l)) m) (φ (redId o)) := by
  rw [redOver, map_foldl φ op' hom assoc right]
  cases ls with
  | nil => exact right _
  | cons l ls => rw [List.foldr_cons, ← assoc, left]

theorem toInt_minI (x y : Word) : (minI x y).toInt = min x.toInt y.toInt := by
  unfold minI
  rw [BitVec.sle_eq_decide]
  by_cases h : x.toInt ≤ y.toInt <;> simp [h]
  omega

theorem toInt_maxI (x y : Word) : (maxI x y).toInt = max x.toInt y.toInt := by
  unfold maxI
  rw [BitVec.sle_eq_decide]
  by_cases h : x.toInt ≤ y.toInt <;> simp [h]
  omega

theorem toNat_minN (x y : Word) : (minN x y).toNat = min x.toNat y.toNat := by
  rw [minN_eq, BitVec.toNat_ofNat, Nat.mod_eq_of_lt (by omega)]

theorem toNat_maxN (x y : Word) : (maxN x y).toNat = max x.toNat y.toNat := by
  rw [maxN_eq, BitVec.toNat_ofNat, Nat.mod_eq_of_lt (by omega)]

section
variable (f : Nat → Word) (ls : List Nat)

theorem redOver_sum : redOver 0 f ls = BitVec.ofNat 32 (ls.map fun l => (f l).toNat).sum := by
  have hfold : redOver 0 f ls = ls.foldr (fun l m => f l + m) 0 :=
    redOver_foldr 0 id (· + ·) (fun _ _ => rfl) BitVec.add_assoc BitVec.add_zero BitVec.zero_add f ls
  rw [hfold]
  clear hfold
  induction ls with
  | nil => rfl
  | cons l ls ih => rw [List.foldr_cons, ih, List.map_cons, List.sum_cons, BitVec.ofNat_add, BitVec.ofNat_toNat, BitVec.setWidth_eq]

theorem redOver_minI : (redOver 1 f ls).toInt = ls.foldr (fun l m => min (f l).toInt m) (2 ^ 31 - 1) := by
  have hle : ∀ x : Word, x.toInt ≤ 2 ^ 31 - 1 := fun x => by have := BitVec.toInt_lt (x := x); omega
  exact redOver_foldr 1 BitVec.toInt min toInt_minI min_assoc (fun x => min_eq_left (hle x)) (fun x => min_eq_right (hle x)) f ls

theorem redOver_minN : (redOver 2 f ls).toNat = ls.foldr (fun l m => min (f l).toNat m) (2 ^ 32 - 1) := by
  have hle : ∀ x : Word, x.toNat ≤ 2 ^ 32 - 1 := fun x => by omega
  exact redOver_foldr 2 BitVec.toNat min toNat_minN min_assoc (fun x => min_eq_left (hle x)) (fun x => min_eq_right (hle x)) f ls

theorem redOver_maxI : (redOver 3 f ls).toInt = ls.foldr (fun l m => max (f l).toInt m) (-2 ^ 31) := by
  have hle : ∀ x : Word, -2 ^ 31 ≤ x.toInt := fun x => by have := BitVec.le_toInt x; omega
  exact redOver_foldr 3 BitVec.toInt max toInt_maxI max_assoc (fun x => max_eq_left (hle x)) (fun x => max_eq_right (hle x)) f ls

theorem redOver_maxN : (redOver 4 f ls).toNat = ls.foldr (fun l m => max (f l).toNat m) 0 :=
  redOver_foldr 4 BitVec.toNat max toNat_maxN max_assoc (fun _ => max_eq_left (Nat.zero_le _)) (fun _ => max_eq_right (Nat.zero_le _)) f ls

variable (i : Nat) (hi : i < 32)
include hi

theorem redOver_and : (redOver 5 f ls).getLsbD i = ls.all fun l => (f l).getLsbD i := by
  have hid : (redId 5).getLsbD i = true := by
    rw [show redId 5 = BitVec.allOnes 32 by decide, BitVec.getLsbD_allOnes, decide_eq_true hi]
  rw [redOver_foldr 5 (fun x => x.getLsbD i) (· && ·) (fun _ _ => BitVec.getLsbD_and) Bool.and_assoc (fun x => by rw [hid, Bool.and_true])
    (fun x => by rw [hid, Bool.true_and]) f ls, hid]
  induction ls with
  | nil => rfl
  | cons l ls ih => rw [List.foldr_cons, ih, List.all_cons]

omit hi in
theorem redOver_or : (redOver 6 f ls).getLsbD i = ls.any fun l => (f l).getLsbD i := by
  have hid : (redId 6).getLsbD i = false := BitVec.getLsbD_zero
  rw [redOver_foldr 6 (fun x => x.getLsbD i) (· || ·) (fun _ _ => BitVec.getLsbD_or) Bool.or_assoc (fun x => by rw [hid, Bool.or_false])
    (fun x => by rw [hid, Bool.false_or]) f ls, hid]
  induction ls with
  | nil => rfl
  | cons l ls ih => rw [List.foldr_cons, ih, List.any_cons]

omit hi in
theorem redOver_xor : (redOver 7 f ls).getLsbD i = (ls.map fun l => (f l).getLsbD i).foldr xor false := by
  have hid : (redId 7).getLsbD i = false := BitVec.getLsbD_zero
  rw [redOver_foldr 7 (fun x => x.getLsbD i) xor (fun _ _ => BitVec.getLsbD_xor) Bool.xor_assoc (fun x => by rw [hid, Bool.xor_false])
    (fun x => by rw [hid, Bool.false_xor]) f ls, hid, List.foldr_map]
end

section
variable {s : State} {d a : RegNum} {o : BitVec 3} (h : s.poisoned [.v a (s.mreg 0)] = none)
include h

theorem goes_redi : Goes (.redi d a o) s ((s.wrS d (ext (o == 0x1#3 || o == 0x3#3) 64 (redOver o (s.vl a) (lanesIn (s.mreg 0)))) (s.bndOf [.v a (s.mreg 0)])).setE
    (decide (s.mreg 0 = 0))) :=
  goes_of rfl (State.clean_none _ _ _ h) (by simp)

theorem goes_scanI {i : Instr} {keep : Nat → Nat → Bool} (hexec : exec i s = finish s (scanI s d a o keep)) :
    Goes i s ((s.wrLanes d (s.mreg 0) (fun l => redOver o (s.vl a) ((List.range 96).filter fun j => (s.mreg 0).getLsbD j && keep l j)) (s.bndOf [.v a (s.mreg 0)])).setE
      (decide (s.mreg 0 = 0))) := by
  simp only [← lanesIn_and]
  exact goes_of hexec (State.clean_none _ _ _ h) (by simp)
end

/-- Settles O7: words by what they write; the operations by folding over what the words stand for. -/
theorem maskAndLaneWords : Obligations.MaskAndLaneWords := by
  refine ⟨fun s d a md ma mb => ⟨goes_of rfl rfl (State.wrM_pc ..), goes_of rfl rfl (State.wrM_pc ..), goes_of rfl rfl (State.wrM_pc ..),
      goes_of rfl rfl (State.wrM_pc ..), goes_of rfl rfl (State.wrM_pc ..), ?_, ⟨lowest (s.mreg ma), goes_mfirst s d ma, fun h => ?_, getLsbD_lowest,
      fun l => getLsbD_below_lowest⟩, fun h => goes_of rfl (State.clean_none _ _ _ h) (State.wrM_pc ..), wrM_mask s⟩,
    fun s d a b => ⟨goes_of rfl rfl (State.wrLanes_pc ..), goes_shuffle rfl, goes_shuffle rfl, goes_shuffle rfl, goes_shuffle rfl,
      goes_bcast_active s d a b, goes_bcast_inactive s d a b⟩, ?_, fun f ls =>
    ⟨redOver_sum f ls, redOver_minI f ls, redOver_minN f ls, redOver_maxI f ls, redOver_maxN f ls, fun i hi =>
      ⟨redOver_and f ls i hi, redOver_or f ls i, redOver_xor f ls i⟩⟩⟩
  · rw [← popMask_eq]
    exact goes_of rfl rfl (State.wrS_pc ..)
  · rw [h, lowest_zero]
  · intro s d a o act t fold h
    refine ⟨?_, goes_scanI h rfl, goes_scanI h rfl⟩
    rw [← ext_signed]
    simp only [fold, act, ← lanesIn_all]
    exact goes_redi h

end Sys2Proof.Proofs.MaskLane

/-! ### Issue: the fetch, the checks of R71 and the words that come to be executed (R57 to R65, R71, R333) -/

namespace Sys2Proof.Proofs.Issue

open Sys2Proof Sys2Proof.Machine Sys2Proof.Claim

/-! #### What lines, caches and counters change -/

/-- A state that differs at most in its cores, and in the error marks that evicted lines mend. -/
def CoresOnly (s t : State) : Prop := ∃ cs es, t = { s with cores := cs, sramErr := es }

theorem CoresOnly.refl (s : State) : CoresOnly s s := ⟨s.cores, s.sramErr, rfl⟩

theorem CoresOnly.trans {s t u : State} (h : CoresOnly s t) (h' : CoresOnly t u) : CoresOnly s u := by
  obtain ⟨cs, es, rfl⟩ := h
  obtain ⟨cs', es', rfl⟩ := h'
  exact ⟨cs', es', rfl⟩

/-- What no core and no error mark tells is as before. -/
theorem CoresOnly.frame {γ : Type} {s t : State} (h : CoresOnly s t) (p : State → γ) (hp : ∀ (s : State) cs es, p { s with cores := cs, sramErr := es } = p s) :
    p t = p s := by
  obtain ⟨cs, es, rfl⟩ := h
  exact hp s cs es

theorem CoresOnly.setF {s t : State} (h : CoresOnly s t) (f : Frag) : CoresOnly (s.setF f) (t.setF f) := by
  obtain ⟨cs, es, rfl⟩ := h
  exact ⟨cs, es, rfl⟩

theorem coresOnly_setCore (s : State) (n : Nat) (c : Core) : CoresOnly s (s.setCore n c) := ⟨_, s.sramErr, rfl⟩

theorem coresOnly_count (s : State) (core k : Nat) (d : DWord) : CoresOnly s (s.count core k d) := coresOnly_setCore ..

theorem coresOnly_cache (s : State) (core asid : Nat) (vas : List DWord) : CoresOnly s (s.cache core asid vas) := by
  obtain ⟨cs, h⟩ := Privileged.cache_eq s core asid vas
  exact ⟨cs, s.sramErr, h⟩

theorem coresOnly_keepCode (s : State) (core asid : Nat) (pc : DWord) : CoresOnly s (s.keepCode core asid pc) := by
  unfold State.keepCode
  dsimp only
  split_ifs
  · exact .refl s
  · exact coresOnly_setCore ..

theorem coresOnly_addLine (s : State) (core n line : Nat) (dirty : Bool) : CoresOnly s (s.addLine core n line dirty) := by
  unfold State.addLine State.lineRoom
  dsimp only
  refine .trans ?_ (coresOnly_setCore ..)
  split_ifs
  · exact Launch.trimLines_eq ..
  · exact .refl s

theorem coresOnly_foldl {β : Type} (f : State → β → State) (h : ∀ s b, CoresOnly s (f s b)) (l : List β) (s : State) : CoresOnly s (l.foldl f s) := by
  induction l generalizing s with
  | nil => exact .refl s
  | cons b l ih => exact (h s b).trans (ih _)

theorem coresOnly_useLines (s : State) (n : Nat) (reads writes : List RegId) : CoresOnly s (s.useLines n reads writes) :=
  (coresOnly_setCore ..).trans (coresOnly_foldl _ (fun s _ => coresOnly_addLine s ..) _ _)

/-! #### The clocks that pass (R106, R332) -/

/-- The contents of the device's memories. -/
def contents (s : State) : KMap Byte × KMap Byte × KMap Byte × KMap Byte := (s.mem, s.scratch, s.vault, s.opmem)

theorem contents_tick (s : State) (d : Nat) : contents (s.tick d) = contents s :=
  PartControl.foldl_frame contents _ (fun s c => by unfold State.countReady; split_ifs <;> rfl) s.cores.keys s

theorem contents_timed (s : State) (n : Nat) : contents (s.timed n) = contents s := by
  unfold State.timed
  dsimp only
  split_ifs
  · rfl
  · exact contents_tick ..

/-! #### The word at issue (R58) -/

section
variable {s u : State} {n : Nat} (hat : AtIssue s n u)
include hat

theorem atIssue_cur : u.cur = n := by
  rcases hat with ⟨-, rfl⟩ | ⟨-, rest, -, -, rfl⟩ <;> rfl

theorem atIssue_contents : contents u = contents s := by
  rcases hat with ⟨-, rfl⟩ | ⟨-, rest, -, -, rfl⟩
  · rfl
  · exact contents_timed { s with agenda := rest } n

/-- R60: a fragment in the middle of a chain group, or behind a prefix word, goes on without a clock. -/
theorem timed_of_forced (h : s.forced = some n) : s.timed n = s := by
  unfold State.forced at h
  dsimp only at h
  split_ifs at h with hf
  obtain rfl := Option.some.inj h
  simp only [Bool.and_eq_true, Bool.not_eq_true'] at hf
  refine if_pos ?_
  rw [Bool.and_eq_true, Bool.not_eq_true']
  exact ⟨hf.2, hf.1.2⟩

theorem step_atIssue : step s = match u.issue n with | .go t i => exec i t | .did t => .next t := by
  rcases hat with ⟨hforced, rfl⟩ | ⟨hforced, rest, hagenda, hmay, rfl⟩
  · have hstep : step s = s.issueNow n := by simp only [step, hforced]
    rw [hstep, State.issueNow, timed_of_forced (.inl ⟨hforced, rfl⟩) hforced]
    rfl
  · have hstep : step s = State.perform { s with agenda := rest } (.issue n) := by simp only [step, hforced, hagenda]
    rw [hstep, State.perform, State.issueMove, if_pos hmay]
    rfl
end

/-- The state in which a fetched word is examined: its translation and its place are in the caches of the core. -/
def fetched (u : State) : State := (u.cache u.f.coreKey u.g.rights.asid [u.f.pc]).keepCode u.f.coreKey u.g.rights.asid u.f.pc

theorem coresOnly_fetched (u : State) : CoresOnly u (fetched u) := (coresOnly_cache ..).trans (coresOnly_keepCode ..)

theorem f_fetched (u : State) : (fetched u).f = u.f := (coresOnly_fetched u).frame State.f fun _ _ _ => rfl
theorem cur_fetched (u : State) : (fetched u).cur = u.cur := (coresOnly_fetched u).frame State.cur fun _ _ _ => rfl
theorem asking_fetched (u : State) (n : Nat) : (fetched u).asking n = u.asking n := (coresOnly_fetched u).frame (fun s => s.asking n) fun _ _ _ => rfl

/-- The word at issue, taken up afresh. -/
def taken (u : State) (w : Word) : State := (fetched u).setF { u.f with word := w, chain := false, park := false }

theorem taken_f (u : State) (w : Word) : (taken u w).f = { u.f with word := w, chain := false, park := false } := State.f_setF ..
theorem taken_src (u : State) (w : Word) : (taken u w).src = u.src := by
  rw [State.src, taken_f]
  rfl
theorem contents_taken (u : State) (w : Word) : contents (taken u w) = contents u := (coresOnly_fetched u).frame contents fun _ _ _ => rfl
theorem rights_taken (u : State) (w : Word) : (taken u w).g.rights = u.g.rights := by
  rw [State.g, taken_f]
  exact (coresOnly_fetched u).frame (fun s => (s.group u.f.group).rights) fun _ _ _ => rfl

/-- R333: TIMER is due at the first word of a chain group, which awaits nothing. -/
def TimerFirst (u : State) (n : Nat) : Prop := (u.f.grp = none ∧ (u.f.pfx = none ∨ u.f.held = true) ∧ u.asking n = false) ∧ u.f.timerDue = true

section
variable {u : State} {n : Nat} {w : Word} (hcur : u.cur = n) (hw : u.fetch n u.f.pc = .ok w)
include hcur hw

/-- R58, R71, R333: what the issue of a fetched word comes to. -/
theorem issue_fetched : u.issue n =
    if u.f.grp.isNone && u.f.timerDue && (u.f.pfx.isNone || u.f.held) && !(fetched u).asking n then
      .did (if u.f.pfx.isNone then (fetched u).timerFault n u.f.pc ((fetched u).groupTi0 n w) else (fetched u).timerFault n u.f.rpc u.f.ti0)
    else if majorOf w = 0x3F then (fetched u).issuePfx w
    else match (taken u w).check71 n w (decodeWord w), decodeWord w with
      | some r, _ => .did ((taken u w).takeFault r)
      | none, .ok slot => if (taken u w).lacks n w slot.instr = [] ∧ (taken u w).newLines n w slot.instr then .go ((taken u w).latch w slot) slot.instr
          else .did (((taken u w).setF { (taken u w).f with held := true }).endTurnOf n)
      | none, .error _ => .did (taken u w) := by
  subst hcur
  unfold State.issue
  simp only [hw]
  rfl

omit hcur hw in
theorem timer_cond : (u.f.grp.isNone && u.f.timerDue && (u.f.pfx.isNone || u.f.held) && !(fetched u).asking n) = true ↔ TimerFirst u n := by
  rw [asking_fetched]
  simp only [TimerFirst, Bool.and_eq_true, Bool.or_eq_true, Option.isNone_iff_eq_none, Bool.not_eq_true']
  tauto

theorem issue_timer (h : TimerFirst u n) : u.issue n =
    .did (if u.f.pfx = none then (fetched u).timerFault n u.f.pc ((fetched u).groupTi0 n w) else (fetched u).timerFault n u.f.rpc u.f.ti0) := by
  rw [issue_fetched hcur hw, if_pos (timer_cond.2 h)]
  simp only [Option.isNone_iff_eq_none]

theorem issue_prefix (h : ¬TimerFirst u n) (hmaj : majorOf w = 0x3F) : u.issue n = (fetched u).issuePfx w := by
  rw [issue_fetched hcur hw, if_neg (mt timer_cond.1 h), if_pos hmaj]

theorem issue_word (h : ¬TimerFirst u n) (hmaj : majorOf w ≠ 0x3F) : u.issue n =
    match (taken u w).check71 n w (decodeWord w), decodeWord w with
      | some r, _ => .did ((taken u w).takeFault r)
      | none, .ok slot => if (taken u w).lacks n w slot.instr = [] ∧ (taken u w).newLines n w slot.instr then .go ((taken u w).latch w slot) slot.instr
          else .did (((taken u w).setF { (taken u w).f with held := true }).endTurnOf n)
      | none, .error _ => .did (taken u w) := by
  rw [issue_fetched hcur hw, if_neg (mt timer_cond.1 h), if_neg hmaj]
end

/-- R329: a privileged word in an unprivileged group takes fault 6. -/
theorem check71_privileged (v : State) (n : Nat) (w : Word) (slot : Slot) (hpfx : v.f.pfx = none) (hmaj : majorOf w = 0x3B)
    (hslot : w.getLsbD 31 = false ∨ v.slotOf n v.f.pc ≠ 2) (hcur : v.cur = n) (hpriv : v.g.rights.priv = false) :
    v.check71 n w (.ok slot) = some (faultOf 0x06#8) := by
  subst hcur
  have hs : (w.getLsbD 31 && v.slotOf v.cur v.f.pc == 2) = false := by
    rcases hslot with h | h
    · rw [h, Bool.false_and]
    · rw [show (v.slotOf v.cur v.f.pc == 2) = false from beq_false_of_ne h, Bool.and_false]
  unfold State.check71
  rw [show v.frag v.cur = v.f from rfl]
  dsimp only
  rw [hpfx, hs, show (v.group v.f.group).rights.priv = false from hpriv]
  simp [needsPfx, hmaj]

/-! #### A word that is latched (R58, R60, R108, R149) -/

/-- R58, R60: a fragment whose word has been latched. -/
def LatchedFrag (v : State) (w : Word) (slot : Slot) (f : Frag) : Prop :=
  f.regs = v.f.regs ∧ f.src = v.src ∧ f.pc = v.f.pc ∧ f.pfx = v.f.pfx ∧ f.word = w ∧ f.chain = slot.chain ∧ f.park = slot.park

/-- A state in which the word at issue has been latched. -/
def Latched (v : State) (w : Word) (slot : Slot) (t : State) : Prop := t.cur = v.cur ∧ contents t = contents v ∧ LatchedFrag v w slot t.f

section
variable {v t u : State} {w : Word} {slot : Slot}

theorem Latched.coresOnly (h : Latched v w slot t) (h' : CoresOnly t u) : Latched v w slot u := by
  obtain ⟨cs, es, rfl⟩ := h'
  exact h

theorem Latched.setF (hcur : t.cur = v.cur) (hc : contents t = contents v) {f : Frag} (hf : LatchedFrag v w slot f) : Latched v w slot (t.setF f) :=
  ⟨hcur, hc, (State.f_setF t f).symm ▸ hf⟩

theorem Latched.recount (h : Latched v w slot t) {f : Frag} (hf : LatchedFrag v w slot f) : Latched v w slot (t.setF f) := .setF h.1 h.2.1 hf

theorem latched_latch (v : State) (w : Word) (slot : Slot) : Latched v w slot (v.latch w slot) := by
  have hsnap : (v.f.grp.getD v.newGroup).snap = v.src := by
    unfold State.src Frag.src
    cases v.f.grp <;> rfl
  have hlines := fun reads writes => coresOnly_useLines v v.cur reads writes
  have hfirst : ∀ reads writes f, LatchedFrag v w slot f → Latched v w slot ((v.useLines v.cur reads writes).setF f) := fun reads writes f =>
    .setF ((hlines reads writes).frame State.cur fun _ _ _ => rfl) ((hlines reads writes).frame contents fun _ _ _ => rfl)
  unfold State.latch
  dsimp only
  split_ifs
  · exact hfirst _ _ _ ⟨rfl, hsnap, rfl, rfl, rfl, rfl, rfl⟩
  · refine .coresOnly ?_ ((coresOnly_count ..).trans (coresOnly_count ..))
    rw [State.f_setF]
    refine .recount (hfirst _ _ _ ?_) ?_ <;> exact ⟨rfl, hsnap, rfl, rfl, rfl, rfl, rfl⟩
end

/-! #### The prefix word (R64, R65) -/

section
variable {v : State} {n : Nat} {w : Word} (hcur : v.cur = n)
include hcur

theorem issuePfx_misplaced (h : v.f.pfx ≠ none ∨ v.slotOf n v.f.pc = 2 ∨ ∃ x, v.fetch n (v.f.pc + 4) = .ok x ∧ takesPfx (majorOf x) = false) :
    v.issuePfx w = .did (v.faultOn n (w.setWidth 64) v.f.pc v.f.pc (faultOf 0x03#8)) := by
  subst hcur
  refine if_pos ?_
  rcases h with h | h | ⟨x, hx, hx'⟩
  · rw [Option.isSome_iff_ne_none.2 h, Bool.or_true, Bool.true_or]
  · rw [h]
    rfl
  · simp only [hx, hx', Bool.not_false, Bool.or_true]

theorem issuePfx_placed (hpfx : v.f.pfx = none) (hslot : v.slotOf n v.f.pc ≠ 2) (hnext : ∀ x, v.fetch n (v.f.pc + 4) = .ok x → takesPfx (majorOf x) = true) :
    v.issuePfx w = match decodeWord w with
      | .ok slot => .go (v.setF { v.f with word := w }) slot.instr
      | .error _ => .did (v.setF { v.f with pfx := some (pfxOf w), pc := v.f.pc + 4, word := w }) := by
  subst hcur
  refine if_neg ?_
  rw [hpfx, show (v.slotOf v.cur v.f.pc == 2) = false from beq_false_of_ne hslot]
  cases hx : v.fetch v.cur (v.f.pc + 4) with
  | error e => exact Bool.false_ne_true
  | ok x =>
    dsimp only
    rw [hnext x hx]
    exact Bool.false_ne_true
end

/-! #### A fetched word (R58, R207, R392) -/

theorem leNat_bytes4 (b : Nat → Byte) (i : Nat) (hi : i < 4) :
    (BitVec.ofNat 32 (leNat ((List.range 4).map b))).extractLsb' (8 * i) 8 = b i := by
  refine BitVec.eq_of_toNat_eq ?_
  have h0 := (b 0).isLt
  have h1 := (b 1).isLt
  have h2 := (b 2).isLt
  have h3 := (b 3).isLt
  have hval : leNat ((List.range 4).map b) = (b 0).toNat + 256 * ((b 1).toNat + 256 * ((b 2).toNat + 256 * (b 3).toNat)) := by
    simp [leNat, List.range_succ]
  rw [hval, BitVec.extractLsb'_toNat, BitVec.toNat_ofNat, Nat.shiftRight_eq_div_pow]
  rcases (by omega : i = 0 ∨ i = 1 ∨ i = 2 ∨ i = 3) with rfl | rfl | rfl | rfl <;> norm_num <;> omega

section
variable {s : State} {n : Nat} {pc : DWord} {w : Word} (h : s.fetch n pc = .ok w)
include h

/-- R58, R392: what a fetch that succeeds has checked. -/
theorem fetch_ok : fld pc 57 7 = 0 ∧ fld pc 0 2 = 0 ∧
    (s.segOf (s.group (s.frag n).group).rights.part (s.group (s.frag n).group).rights.asid pc).isNone = false ∧
    ∃ x, s.trCore (s.frag n).coreKey (s.group (s.frag n).group).rights.asid pc = .ok x ∧ x.x = true ∧ w = s.codeWord (s.frag n).coreKey (s.cellOf x pc) := by
  unfold State.fetch at h
  dsimp only at h
  split_ifs at h with h1 h2 h3
  refine ⟨not_not.1 h1, not_not.1 h2, Bool.eq_false_iff.2 h3, ?_⟩
  split at h
  · cases h
  · cases h
  · next x hx =>
    split_ifs at h with hexec
    exact ⟨x, hx, Bool.not_eq_false _ ▸ hexec, (Except.ok.inj h).symm⟩
end

theorem codeWord_cached {s : State} {core key : Nat} {y : Nat × Word} (h : ((s.core core).icache.find? fun e => e.1 == key) = some y) :
    s.codeWord core key = y.2 := by
  simp only [State.codeWord, h]

theorem codeWord_memory {s : State} {core key : Nat} (h : ∀ e, e ∈ (s.core core).icache → e.1 ≠ key) (i : Nat) (hi : i < 4) :
    (s.codeWord core key).extractLsb' (8 * i) 8 = s.dramByte (key + i) := by
  have hnone : ((s.core core).icache.find? fun e => e.1 == key) = none := List.find?_eq_none.2 fun e he => by simpa using h e he
  simp only [State.codeWord, hnone]
  exact leNat_bytes4 (fun j => s.dramByte (key + j)) i hi

theorem toNat_of_fld_high {pc : DWord} (h : fld pc 57 7 = 0) : pc.toNat < 2 ^ 57 := by
  have := pc.isLt
  rw [fld, BitVec.extractLsb'_toNat, Nat.shiftRight_eq_div_pow] at h
  omega

theorem toNat_of_fld_low {pc : DWord} (h : fld pc 0 2 = 0) : pc.toNat % 4 = 0 := by
  rwa [fld, BitVec.extractLsb'_toNat, Nat.shiftRight_zero] at h

/-- Settles O55: a step at issue is the issue of the word that is fetched, by the cases of TIMER, of a prefix word and of the checks of R71. -/
theorem stepRunsTheDecodedWord : Obligations.StepRunsTheDecodedWord := by
  refine ⟨fun s u n w hat hw => ?_, fun s n pc w hw => ?_, fun s m rest hforced hagenda => ?_⟩
  · have hcur := atIssue_cur hat
    have hcur' : (fetched u).cur = n := (cur_fetched u).trans hcur
    have hf := f_fetched u
    intro v v' first
    have hv : v = fetched u := rfl
    have hv' : v' = taken u w := rfl
    rw [hv, hv']
    refine ⟨fun hfirst hdue => ?_, fun hno hmaj => ?_, fun hno hmaj hpfx hslot hnext => ?_, fun hno hmaj hbad => ?_⟩
    · rw [step_atIssue hat, issue_timer hcur hw ⟨hfirst, hdue⟩]
    · have hword : step s = _ := (step_atIssue hat).trans (by rw [issue_word hcur hw hno hmaj])
      refine ⟨fun r hr => ?_, fun slot hslot hok hlacks => ?_, fun slot hslot hok hlacks hlines => ?_, fun slot hslot hpfx hpriv hplace hrights => ?_⟩
      · rw [hword, hr]
      · rw [hword, hok, hslot]
        dsimp only
        rw [if_neg (by rintro ⟨hl, hn⟩; rcases hlacks with h | h; exacts [h hl, Bool.false_ne_true (h.symm.trans hn)])]
      · obtain ⟨hlcur, hlc, hregs, hsrc, hpc, hpfx, hwd, hch, hpk⟩ := latched_latch (taken u w) w slot
        refine ⟨by rw [hword, hok, hslot]; dsimp only; rw [if_pos ⟨hlacks, hlines⟩], hlcur.trans hcur', ?_⟩
        rw [hregs, State.src, hsrc, hpc, hpfx, taken_f, taken_src]
        obtain ⟨hm, hs, hv, ho⟩ : _ ∧ _ ∧ _ ∧ _ := by simpa only [contents, Prod.mk.injEq] using hlc.trans ((contents_taken u w).trans (atIssue_contents hat))
        exact ⟨rfl, rfl, rfl, rfl, hwd, hch, hpk, hm, hs, hv, ho⟩
      · rw [hword, hslot, check71_privileged (taken u w) n w slot (by simp [taken, hpfx]) hpriv (by simpa [taken] using hplace) hcur' (rights_taken u w ▸ hrights)]
    · rw [step_atIssue hat, issue_prefix hcur hw hno hmaj, issuePfx_placed hcur' (hf ▸ hpfx) (hf ▸ hslot) (hf ▸ hnext), hf]
      exact ⟨fun slot hs => by rw [hs], fun r hr => by rw [hr]⟩
    · rw [step_atIssue hat, issue_prefix hcur hw hno hmaj, issuePfx_misplaced hcur' (hf ▸ hbad), hf]
  · obtain ⟨hhigh, hlow, hseg, x, htr, hexec, rfl⟩ := fetch_ok hw
    exact ⟨toNat_of_fld_high hhigh, toNat_of_fld_low hlow, Option.isSome_iff_exists.1 (by simpa using hseg), x, htr, hexec, fun y => codeWord_cached, codeWord_memory⟩
  · intro u
    have hstep : step s = u.perform m := by simp only [step, hforced, hagenda, u]
    refine ⟨fun i hi hfields => ?_, fun n hi hmay => ?_⟩
    · rw [hstep, hi]
      exact if_pos (Option.isNone_iff_eq_none.2 hfields)
    · rw [hstep, hi]
      exact if_neg (Bool.eq_false_iff.1 hmay)

end Sys2Proof.Proofs.Issue

/-! ### What scalar, integer, mask and floating-point words leave unchanged (R59 to R62, R99, R101, R105, R116) -/

namespace Sys2Proof.Proofs.Frames

open Sys2Proof Sys2Proof.Machine Sys2Proof.Claim Sys2Proof.Proofs.Privileged Sys2Proof.Proofs.RegWrites

/-- The registers that a word writes, by the window of a fragment. -/
def dests (u : Uses) (r : Regs) : List RegId := (u.writes r).map (·.1)

/-- Nothing but the fragment at issue has changed, and of its registers only the destinations of a word, and CFLAGS where the word sets a flag. -/
structure Frame (u : Uses) (s t : State) : Prop where
  device : t = { s with frags := t.frags }
  others : ∀ n, n ≠ s.cur → t.frag n = s.frag n
  frag : t.f = { s.f with regs := t.f.regs, gtcmp := t.f.gtcmp, grp := t.f.grp }
  wbV : t.f.regs.wbV = s.f.regs.wbV
  wbS : t.f.regs.wbS = s.f.regs.wbS
  vec : ∀ e, RegId.v e ∉ dests u s.f.regs → t.f.regs.v.get VReg.zero e = s.f.regs.v.get VReg.zero e
  scal : ∀ e, RegId.s e ∉ dests u s.f.regs → t.f.regs.s.get SReg.zero e = s.f.regs.s.get SReg.zero e
  mask : ∀ k : BitVec 3, RegId.m k.toNat ∉ dests u s.f.regs → t.f.regs.mask k = s.f.regs.mask k
  flags : u.flags = false → t.f.regs.cflags = s.f.regs.cflags

/-- Neither the modes nor the timer comparison nor the chain group has changed. -/
structure Quiet (s t : State) : Prop where
  grp : t.f.grp = s.f.grp
  fmt : t.f.regs.fmt = s.f.regs.fmt
  nmode : t.f.regs.nmode = s.f.regs.nmode
  nseed : t.f.regs.nseed = s.f.regs.nseed
  nstep : t.f.regs.nstep = s.f.regs.nstep
  gtcmp : t.f.gtcmp = s.f.gtcmp

/-- A chain group but for its count of rounded results. -/
def unrounded (g : GroupCtx) : GroupCtx := { g with rounded := 0 }

/-- What a word may change of the modes (R43, R104, R125, R138, R139), and which words may. -/
structure Modes (i : Instr) (s t : State) : Prop where
  count : t.f.grp.map unrounded = s.f.grp.map unrounded
  grp : ¬Rounds i → (∀ a b, i ≠ .setnm a b) → t.f.grp = s.f.grp
  modes : (∀ a n, i ≠ .swrite a n) → (∀ a, i ≠ .setfmt a) → (∀ a b, i ≠ .setnm a b) →
    t.f.regs.fmt = s.f.regs.fmt ∧ t.f.regs.nmode = s.f.regs.nmode ∧ t.f.regs.nseed = s.f.regs.nseed ∧ (¬Rounds i → t.f.regs.nstep = s.f.regs.nstep)
  nstep : Rounds i → t.f.regs.nstep = s.f.regs.nstep ∨ t.f.regs.nstep = s.f.regs.nstep + 1
  gtcmp : (∀ a n, i ≠ .swrite a n) → (∀ a, i ≠ .gtset a) → t.f.gtcmp = s.f.gtcmp

/-- A word takes a fault and has no other effect, or goes on within its frame. -/
def Framed (i : Instr) (s : State) (third : RegNum) : Prop :=
  (∃ e, Faults i s e) ∨ ∃ t, Goes i s t ∧ Frame (usesOf i third) s t ∧ Modes i s t

/-! #### Composition -/

theorem dests_of_window {u : Uses} {r r' : Regs} (hv : r'.wbV = r.wbV) (hs : r'.wbS = r.wbS) : dests u r' = dests u r := by
  unfold dests Uses.writes Regs.vId Regs.sId Regs.vEnt Regs.sEnt
  rw [hv, hs]

theorem Frame.trans {u : Uses} {a b c : State} (h : Frame u a b) (h' : Frame u b c) : Frame u a c := by
  have hd : dests u b.f.regs = dests u a.f.regs := dests_of_window h.wbV h.wbS
  have hcur : b.cur = a.cur := by rw [h.device]
  exact {
    device := by rw [h'.device, h.device]
    others := fun n hn => (h'.others n (hcur ▸ hn)).trans (h.others n hn)
    frag := by rw [h'.frag, h.frag]
    wbV := h'.wbV.trans h.wbV
    wbS := h'.wbS.trans h.wbS
    vec := fun e he => (h'.vec e (hd ▸ he)).trans (h.vec e he)
    scal := fun e he => (h'.scal e (hd ▸ he)).trans (h.scal e he)
    mask := fun k hk => (h'.mask k (hd ▸ hk)).trans (h.mask k hk)
    flags := fun hf => (h'.flags hf).trans (h.flags hf) }

theorem Quiet.trans {a b c : State} (h : Quiet a b) (h' : Quiet b c) : Quiet a c :=
  ⟨h'.grp.trans h.grp, h'.fmt.trans h.fmt, h'.nmode.trans h.nmode, h'.nseed.trans h.nseed, h'.nstep.trans h.nstep, h'.gtcmp.trans h.gtcmp⟩

theorem Quiet.refl (s : State) : Quiet s s := ⟨rfl, rfl, rfl, rfl, rfl, rfl⟩

theorem Frame.refl (u : Uses) (s : State) : Frame u s s := ⟨rfl, fun _ _ => rfl, rfl, rfl, rfl, fun _ _ => rfl, fun _ _ => rfl, fun _ _ => rfl, fun _ => rfl⟩

/-! #### One register write at a time -/

section
variable (u : Uses) (s : State)

/-- A change of the registers of the fragment at issue that keeps the window and all but the destinations. -/
theorem frame_modRegs (g : Regs → Regs) (hwV : (g s.f.regs).wbV = s.f.regs.wbV) (hwS : (g s.f.regs).wbS = s.f.regs.wbS)
    (hv : ∀ e, RegId.v e ∉ dests u s.f.regs → (g s.f.regs).v.get VReg.zero e = s.f.regs.v.get VReg.zero e)
    (hs : ∀ e, RegId.s e ∉ dests u s.f.regs → (g s.f.regs).s.get SReg.zero e = s.f.regs.s.get SReg.zero e)
    (hm : ∀ k : BitVec 3, RegId.m k.toNat ∉ dests u s.f.regs → (g s.f.regs).mask k = s.f.regs.mask k)
    (hf : u.flags = false → (g s.f.regs).cflags = s.f.regs.cflags) : Frame u s (s.modRegs g) where
  device := rfl
  others := fun n hn => State.frag_setF_other s n _ hn
  frag := by rw [State.f_modRegs]
  wbV := by rw [State.f_modRegs, hwV]
  wbS := by rw [State.f_modRegs, hwS]
  vec := fun e he => by rw [State.f_modRegs, hv e he]
  scal := fun e he => by rw [State.f_modRegs, hs e he]
  mask := fun k hk => by rw [State.f_modRegs, hm k hk]
  flags := fun h => by rw [State.f_modRegs, hf h]

theorem quiet_modRegs (g : Regs → Regs) (hfmt : (g s.f.regs).fmt = s.f.regs.fmt) (hmode : (g s.f.regs).nmode = s.f.regs.nmode)
    (hseed : (g s.f.regs).nseed = s.f.regs.nseed) (hstep : (g s.f.regs).nstep = s.f.regs.nstep) : Quiet s (s.modRegs g) := by
  constructor <;> rw [State.f_modRegs]
  exacts [hfmt, hmode, hseed, hstep]

variable {u} {d : RegNum} {k : BitVec 3}

theorem vEnt_mem (h : d ∈ u.wv) (r : Regs) : RegId.v (r.vEnt d) ∈ dests u r :=
  List.mem_map.2 ⟨_, List.mem_append_left _ (List.mem_append_left _ (List.mem_append_left _ (List.mem_map_of_mem h))), rfl⟩

theorem sId_mem (h : d ∈ u.ws) (r : Regs) : r.sId d ∈ dests u r :=
  List.mem_map.2 ⟨_, List.mem_append_left _ (List.mem_append_left _ (List.mem_append_right _ (List.mem_map_of_mem h))), rfl⟩

theorem mask_mem (h : k ∈ u.wm) (r : Regs) : RegId.m k.toNat ∈ dests u r :=
  List.mem_map.2 ⟨_, List.mem_append_left _ (List.mem_append_right _ (List.mem_map_of_mem h)), rfl⟩

theorem frame_writeV (h : d ∈ u.wv) (own W : Mask) (vals : Lanes) (t : Bool) (p : Mask) :
    Frame u s (s.modRegs fun r => r.writeV own (r.vEnt d) W vals t p) := by
  refine frame_modRegs u s _ rfl rfl (fun e he => ?_) (fun _ _ => rfl) (fun _ _ => rfl) fun _ => rfl
  have hne : e ≠ s.f.regs.vEnt d := fun heq => he (heq ▸ vEnt_mem h _)
  simp [Regs.writeV, KMap.get_put, hne]

theorem frame_wrV (h : d ∈ u.wv) (x : Nat → Word) (t : Bool) : Frame u s (s.wrV d x t) := frame_writeV s h ..
theorem frame_wrLanes (h : d ∈ u.wv) (W : Mask) (x : Nat → Word) (t : Bool) : Frame u s (s.wrLanes d W x t) := frame_writeV s h ..

theorem frame_wrM (h : k ∈ u.wm) (x : Mask) : Frame u s (s.wrM k x) :=
  frame_modRegs u s _ rfl rfl (fun _ _ => rfl) (fun _ _ => rfl)
    (fun _ hj => mask_writeM_other _ _ _ _ _ fun heq => hj (heq ▸ mask_mem h _)) fun _ => rfl

theorem frame_wrS (h : d ∈ u.ws) (x : DWord) (t : Bool) : Frame u s (s.wrS d x t) := by
  have hmem := sId_mem h s.f.regs
  unfold Regs.sId at hmem
  by_cases hd : 61 ≤ d.toNat
  · rw [if_pos hd] at hmem
    refine frame_modRegs u s _ ?_ ?_ (fun _ _ => ?_) (fun _ _ => ?_) (fun _ hj => ?_) fun _ => ?_ <;> rw [if_pos hd]
    any_goals rfl
    exact mask_writeM_other _ _ _ _ _ fun heq => hj (heq ▸ hmem)
  · rw [if_neg hd] at hmem
    refine frame_modRegs u s _ ?_ ?_ (fun _ _ => ?_) (fun e he => ?_) (fun _ _ => ?_) fun _ => ?_ <;> rw [if_neg hd]
    any_goals rfl
    have hne : e ≠ s.f.regs.sEnt d := fun heq => he (heq ▸ hmem)
    simp [Regs.writeS, KMap.get_put, hne]

theorem frame_setFlags (h : u.flags = true) (g : BitVec 16 → BitVec 16) : Frame u s (s.setFlags g) :=
  frame_modRegs u s _ rfl rfl (fun _ _ => rfl) (fun _ _ => rfl) (fun _ _ => rfl) fun hf => absurd (h.symm.trans hf) Bool.true_eq_false.mp

theorem quiet_wrV (x : Nat → Word) (t : Bool) : Quiet s (s.wrV d x t) := quiet_modRegs s _ rfl rfl rfl rfl
theorem quiet_wrLanes (W : Mask) (x : Nat → Word) (t : Bool) : Quiet s (s.wrLanes d W x t) := quiet_modRegs s _ rfl rfl rfl rfl
theorem quiet_wrM (x : Mask) : Quiet s (s.wrM k x) := quiet_modRegs s _ rfl rfl rfl rfl
theorem quiet_setFlags (g : BitVec 16 → BitVec 16) : Quiet s (s.setFlags g) := quiet_modRegs s _ rfl rfl rfl rfl
theorem quiet_wrS (x : DWord) (t : Bool) : Quiet s (s.wrS d x t) := by
  by_cases hd : 61 ≤ d.toNat
  · refine quiet_modRegs s _ ?_ ?_ ?_ ?_ <;> rw [if_pos hd] <;> rfl
  · refine quiet_modRegs s _ ?_ ?_ ?_ ?_ <;> rw [if_neg hd] <;> rfl

/-- R43: a rounded result advances NSTEP, and nothing that the frame holds. -/
theorem frame_advance (u : Uses) (c : BitVec 3) : Frame u s (s.advance c) := by
  rw [FloatWords.advance_eq]
  split_ifs
  · exact .refl u s
  · exact ⟨rfl, fun n hn => State.frag_setF_other s n _ hn, by rw [State.f_setF], by rw [State.f_setF], by rw [State.f_setF],
      fun _ _ => by rw [State.f_setF], fun _ _ => by rw [State.f_setF], fun _ _ => by rw [State.f_setF]; rfl, fun _ => by rw [State.f_setF]⟩
end

/-! #### Modes -/

theorem Modes.of_quiet {i : Instr} {s t : State} (h : Quiet s t) : Modes i s t :=
  ⟨by rw [h.grp], fun _ _ => h.grp, fun _ _ _ => ⟨h.fmt, h.nmode, h.nseed, fun _ => h.nstep⟩, fun _ => .inl h.nstep, fun _ _ => h.gtcmp⟩

theorem Modes.of_advance {i : Instr} (hi : Rounds i) {s t : State} (h : Quiet s t) (c : BitVec 3) : Modes i s (t.advance c) := by
  rw [FloatWords.advance_eq]
  split_ifs
  · exact .of_quiet h
  · have hcount : (t.f.grp.map fun (g : GroupCtx) => { g with rounded := g.rounded + 1 }).map unrounded = t.f.grp.map unrounded := by
      rw [Option.map_map]
      rfl
    constructor <;> rw [State.f_setF]
    · rw [hcount, h.grp]
    · exact fun hn => absurd hi hn
    · exact fun _ _ _ => ⟨h.fmt, h.nmode, h.nseed, fun hn => absurd hi hn⟩
    · exact fun _ => .inr (congrArg (· + 1) h.nstep)
    · exact fun _ _ => h.gtcmp

/-! #### Words -/

section
variable {i : Instr} {s t : State} {third : RegNum} {srcs : List Src}

theorem framed_fault {act : Act} {r : FaultRec} (hexec : exec i s = finish s act) (h : act = .fault r) : Framed i s third :=
  .inl ⟨r, faults_of hexec h⟩

theorem framed_done {act : Act} (hexec : exec i s = finish s act) (h : act = .done t) (hf : Frame (usesOf i third) s t) (hm : Modes i s t) : Framed i s third :=
  .inr ⟨t, goes_of hexec h (by rw [hf.frag]), hf, hm⟩

/-- R103: after the poison check a word does what its action does. -/
theorem framed_clean {act : Act} (hexec : exec i s = finish s (s.clean srcs act)) (h : exec i s = finish s act → Framed i s third) : Framed i s third := by
  cases hp : s.poisoned srcs with
  | none => exact h (hexec.trans (congrArg (finish s) (State.clean_none _ _ _ hp)))
  | some r => exact framed_fault hexec (State.clean_some _ _ _ _ hp)

theorem framed_quiet (hexec : exec i s = finish s (s.clean srcs (.done t))) (hf : Frame (usesOf i third) s t) (hq : Quiet s t) : Framed i s third :=
  framed_clean hexec fun h => framed_done h rfl hf (.of_quiet hq)

theorem framed_rounds (hi : Rounds i) {c : BitVec 3} (hexec : exec i s = finish s (s.clean srcs (.done (t.advance c)))) (hf : Frame (usesOf i third) s t) (hq : Quiet s t) :
    Framed i s third :=
  framed_clean hexec fun h => framed_done h rfl (hf.trans (frame_advance t _ c)) (.of_advance hi hq c)

variable {d : RegNum} {k : BitVec 3}

theorem framed_S {x : DWord} {b : Bool} (hexec : exec i s = finish s (s.clean srcs (.done (s.wrS d x b)))) (hd : d ∈ (usesOf i third).ws) : Framed i s third :=
  framed_quiet hexec (frame_wrS s hd x b) (quiet_wrS s x b)

theorem framed_V {x : Nat → Word} {b : Bool} (hexec : exec i s = finish s (s.clean srcs (.done (s.wrV d x b)))) (hd : d ∈ (usesOf i third).wv) : Framed i s third :=
  framed_quiet hexec (frame_wrV s hd x b) (quiet_wrV s x b)

theorem framed_lanes {W : Mask} {x : Nat → Word} {b : Bool} (hexec : exec i s = finish s (s.clean srcs (.done (s.wrLanes d W x b)))) (hd : d ∈ (usesOf i third).wv) :
    Framed i s third :=
  framed_quiet hexec (frame_wrLanes s hd W x b) (quiet_wrLanes s W x b)

theorem framed_M {x : Mask} (hexec : exec i s = finish s (s.clean srcs (.done (s.wrM k x)))) (hk : k ∈ (usesOf i third).wm) : Framed i s third :=
  framed_quiet hexec (frame_wrM s hk x) (quiet_wrM s x)

theorem framed_S_flags {x : DWord} {b : Bool} {g : BitVec 16 → BitVec 16} (hexec : exec i s = finish s (s.clean srcs (.done ((s.wrS d x b).setFlags g))))
    (hd : d ∈ (usesOf i third).ws) (hf : (usesOf i third).flags = true) : Framed i s third :=
  framed_quiet hexec ((frame_wrS s hd x b).trans (frame_setFlags _ hf g)) ((quiet_wrS s x b).trans (quiet_setFlags _ g))

theorem framed_lanes_flags {W : Mask} {x : Nat → Word} {b : Bool} {g : BitVec 16 → BitVec 16}
    (hexec : exec i s = finish s (s.clean srcs (.done ((s.wrLanes d W x b).setFlags g)))) (hd : d ∈ (usesOf i third).wv) (hf : (usesOf i third).flags = true) :
    Framed i s third :=
  framed_quiet hexec ((frame_wrLanes s hd W x b).trans (frame_setFlags _ hf g)) ((quiet_wrLanes s W x b).trans (quiet_setFlags _ g))

theorem framed_arithV (hi : Rounds i) {op : Rnd → Nat → Word} (hexec : exec i s = finish s (arithV s d srcs op)) (hd : d ∈ (usesOf i third).wv) : Framed i s third :=
  framed_rounds hi hexec (frame_wrV s hd _ _) (quiet_wrV s _ _)

theorem framed_arithS (hi : Rounds i) {srcs : List RegNum} {op : Rnd → Word} (hexec : exec i s = finish s (arithS s d srcs op)) (hd : d ∈ (usesOf i third).ws) :
    Framed i s third :=
  framed_rounds hi hexec (frame_wrS s hd _ _) (quiet_wrS s _ _)

/-- R137: REDF and SCANF refuse the mode rs. -/
theorem framed_unless {c : Prop} [Decidable c] {r : FaultRec} {act : Act} (hexec : exec i s = finish s (if c then .fault r else act))
    (h : exec i s = finish s act → Framed i s third) : Framed i s third := by
  by_cases hc : c
  · exact framed_fault hexec (if_pos hc)
  · exact h (hexec.trans (congrArg (finish s) (if_neg hc)))

theorem framed_scanF {a : RegNum} {o : Nat} {inc : Bool} (hexec : exec i s = finish s (scanF s d a o inc)) (hd : d ∈ (usesOf i third).wv)
    (hf : (usesOf i third).flags = true) : Framed i s third :=
  framed_unless hexec fun h => framed_quiet h ((frame_wrV s hd _ _).trans (frame_setFlags _ hf _)) ((quiet_wrV s _ _).trans (quiet_setFlags _ _))
end

theorem mem_ite_wv {c : Prop} [Decidable c] {u v : Uses} {d : RegNum} (hu : d ∈ u.wv) (hv : d ∈ v.wv) : d ∈ (if c then u else v).wv := by
  split_ifs <;> assumption

theorem mem_ite_wm {c : Prop} [Decidable c] {u v : Uses} {k : BitVec 3} (hu : k ∈ u.wm) (hv : k ∈ v.wm) : k ∈ (if c then u else v).wm := by
  split_ifs <;> assumption

/-! #### Words of a shape of their own -/

section
variable (s : State) (third d a b : RegNum)

theorem framed_movV (w : BitVec 2) : Framed (.movV w d a b) s third := by
  have hd : d ∈ (usesOf (.movV w d a b) third).wv := mem_ite_wv (.head _) (.head _)
  by_cases hw : w = 0x3#2
  · exact framed_V (if_pos hw) hd
  · exact framed_V (if_neg hw) hd

/-- R130: BCAST writes the active lanes or none. -/
theorem framed_bcast : Framed (.bcast d a b) s third := by
  have hd : d ∈ (usesOf (.bcast d a b) third).wv := .head _
  refine framed_quiet rfl (.trans ?_ (frame_setFlags _ rfl _)) (.trans ?_ (quiet_setFlags _ _)) <;> split_ifs
  exacts [frame_wrLanes s hd _ _ _, .refl _ s, quiet_wrLanes s _ _ _, .refl s]

/-- R137: REDF writes its scalar and CFLAGS.E, or refuses its mode. -/
theorem framed_redf (o : BitVec 2) : Framed (.redf d a o) s third :=
  framed_unless rfl fun h => framed_S_flags h (.head _) rfl

/-- R334: PERF writes its scalar, or refuses its number. -/
theorem framed_perf : Framed (.perf d a) s third := by
  refine framed_clean rfl fun h => ?_
  cases hx : s.perfCounter (fld (s.sv a) 0 16) with
  | none =>
    rw [hx] at h
    exact framed_fault h rfl
  | some x =>
    rw [hx] at h
    exact framed_S (srcs := []) h (.head _)

/-- R334: GTSET sets GTCMP alone. -/
theorem framed_gtset : Framed (.gtset a) s third := by
  refine framed_clean rfl fun h => framed_unless h fun h => framed_done h rfl ?_ ?_
  · exact ⟨rfl, fun n hn => State.frag_setF_other s n _ hn, by rw [State.f_setF], by rw [State.f_setF], by rw [State.f_setF],
      fun _ _ => by rw [State.f_setF], fun _ _ => by rw [State.f_setF], fun _ _ => by rw [State.f_setF], fun _ => by rw [State.f_setF]⟩
  · constructor <;> rw [State.f_setF]
    · exact fun _ _ => rfl
    · exact fun _ _ _ => ⟨rfl, rfl, rfl, fun _ => rfl⟩
    · exact fun _ => .inl rfl
    · exact fun _ h => absurd rfl (h a)

/-- A word that changes modes and is no word that rounds. -/
theorem modes_modRegs {i : Instr} (hi : ¬Rounds i) (g : Regs → Regs) (h : (∃ a n, i = .swrite a n) ∨ (∃ a, i = .setfmt a) ∨ ∃ a b, i = .setnm a b) :
    Modes i s (s.modRegs g) := by
  constructor <;> rw [State.f_modRegs]
  · exact fun _ _ => rfl
  · rintro h1 h2 h3
    rcases h with ⟨a, n, rfl⟩ | ⟨a, rfl⟩ | ⟨a, b, rfl⟩
    exacts [absurd rfl (h1 a n), absurd rfl (h2 a), absurd rfl (h3 a b)]
  · exact fun h => absurd h hi
  · exact fun _ _ => rfl

theorem not_rounds_setfmt : ¬Rounds (.setfmt a) := by simp [Rounds]
theorem not_rounds_setnm : ¬Rounds (.setnm a b) := by simp [Rounds]
theorem not_rounds_swrite (n : BitVec 11) : ¬Rounds (.swrite a n) := by simp [Rounds]

theorem framed_setfmt : Framed (.setfmt a) s third :=
  framed_clean rfl fun h => framed_unless h fun h =>
    framed_done h rfl (frame_modRegs _ s _ rfl rfl (fun _ _ => rfl) (fun _ _ => rfl) (fun _ _ => rfl) fun _ => rfl)
      (modes_modRegs s (not_rounds_setfmt a) _ (.inr (.inl ⟨a, rfl⟩)))

theorem framed_setnm : Framed (.setnm a b) s third :=
  framed_clean rfl fun h => framed_unless h fun h => framed_unless h fun h =>
    framed_done h rfl (frame_modRegs _ s _ rfl rfl (fun _ _ => rfl) (fun _ _ => rfl) (fun _ _ => rfl) fun _ => rfl)
      (modes_modRegs s (not_rounds_setnm a b) _ (.inr (.inr ⟨a, b, rfl⟩)))

/-- R124, R125: SWRITE of FMT, NMODE, GTCMP or CFLAGS sets that register; of any other number it does nothing. -/
theorem framed_specialWrite (n : BitVec 11) (x : DWord) : Frame (usesOf (.swrite a n) third) s (s.specialWrite n x) ∧ Modes (.swrite a n) s (s.specialWrite n x) := by
  have hmodes := fun g => modes_modRegs s (not_rounds_swrite a n) g (.inl ⟨a, n, rfl⟩)
  unfold State.specialWrite
  split
  · exact ⟨frame_modRegs _ s _ rfl rfl (fun _ _ => rfl) (fun _ _ => rfl) (fun _ _ => rfl) fun _ => rfl, hmodes _⟩
  · exact ⟨frame_modRegs _ s _ rfl rfl (fun _ _ => rfl) (fun _ _ => rfl) (fun _ _ => rfl) fun _ => rfl, hmodes _⟩
  · refine ⟨⟨rfl, fun n hn => State.frag_setF_other s n _ hn, by rw [State.f_setF], by rw [State.f_setF], by rw [State.f_setF],
      fun _ _ => by rw [State.f_setF], fun _ _ => by rw [State.f_setF], fun _ _ => by rw [State.f_setF], fun _ => by rw [State.f_setF]⟩, ?_⟩
    constructor <;> rw [State.f_setF]
    · exact fun _ _ => rfl
    · exact fun _ _ _ => ⟨rfl, rfl, rfl, fun _ => rfl⟩
    · exact fun _ => .inl rfl
    · exact fun h _ => absurd rfl (h a n)
  · next hn =>
    obtain rfl : n = 0x018#11 := BitVec.eq_of_toNat_eq hn
    exact ⟨frame_modRegs _ s _ rfl rfl (fun _ _ => rfl) (fun _ _ => rfl) (fun _ _ => rfl) fun h => (nomatch h), hmodes _⟩
  · exact ⟨.refl _ s, .of_quiet (.refl s)⟩

theorem framed_swrite (n : BitVec 11) : Framed (.swrite a n) s third := by
  obtain ⟨hf, hm⟩ := framed_specialWrite s third a n (s.sv a)
  exact framed_clean rfl fun h => framed_unless h fun h => framed_done h rfl hf hm
end

/-- Every word of the scalar, vector-integer and vector-float pipes, shape by shape. -/
theorem framed_word (i : Instr) (s : State) (third : RegNum) (h : (usesOf i third).pipe = .sc ∨ (usesOf i third).pipe = .vi ∨ (usesOf i third).pipe = .vf) :
    Framed i s third := by
  cases i
  case iaddS64 | iaddS32 | isubS64 | isubS32 | imulS64 | imulS32 | imulhIS64 | imulhIS32 | imulhNS64 | imulhNS32 | imadS64 | imadS32 | idivIS64
      | idivIS32 | idivNS64 | idivNS32 | iremIS64 | iremIS32 | iremNS64 | iremNS32 | iminIS64 | iminIS32 | iminNS64 | iminNS32 | imaxIS64
      | imaxIS32 | imaxNS64 | imaxNS32 | iabsS64 | iabsS32 | inegS64 | inegS32 | andS64 | andS32 | orS64 | orS32 | xorS64 | xorS32 | andnS64
      | andnS32 | notS64 | notS32 | shlS64 | shlS32 | shrS64 | shrS32 | sarS64 | sarS32 | rotS64 | rotS32 | bfxIS64 | bfxIS32 | bfxNS64 | bfxNS32
      | bfiS64 | bfiS32 | popcS64 | popcS32 | clzS64 | clzS32 | brevS64 | brevS32 | movS64 | movS32 | selS64 | selS32 | leaS64 | leaS32 | iaddImmS
      | movhiS | shlImmS | shrImmS | sarImmS | rotImmS | fminS | fmaxS | fsgnCpyS | fsgnNegS | fsgnXorS | fclassS =>
    exact framed_S rfl (.head _)
  case moviS | sread | getfmt | getnm | mpopc | cyc | gtim => exact framed_S (srcs := []) rfl (.head _)
  case iaddV | isubV | imulV | imulhIV | imulhNV | imadV | idivIV | idivNV | iremIV | iremNV | iminIV | iminNV | imaxIV | imaxNV | andV | orV | xorV
      | andnV | shlV | shrV | sarV | rotV | bfxIV | bfxNV | bfiV | selV | leaV | fminV | fmaxV | fsgnCpyV | fsgnNegV | fsgnXorV =>
    exact framed_V rfl (mem_ite_wv (.head _) (.head _))
  case iabsV | inegV | notV | popcV | clzV | brevV | iaddImmV | movhiV | shlImmV | shrImmV | sarImmV | rotImmV | fclassV | cvtfWiden | unpk4 =>
    exact framed_V rfl (.head _)
  case moviV => exact framed_V (srcs := []) rfl (.head _)
  case movV => exact framed_movV ..
  case icmpS64 | icmpS32 | fcmpS | voteAny | voteAll | voteUni | redi => exact framed_S_flags rfl (.head _) rfl
  case mfirst => exact framed_S_flags (srcs := []) rfl (.head _) rfl
  case icmpV | fcmpV => exact framed_M rfl (mem_ite_wm (.head _) (.head _))
  case ballot => exact framed_M rfl (.head _)
  case mand | mor | mxor | mnot | movMask => exact framed_M (srcs := []) rfl (.head _)
  case laneid => exact framed_lanes (srcs := []) rfl (.head _)
  case shflIdx | shflUp | shflDown | shflXor => exact framed_lanes rfl (.head _)
  case scaniInc | scaniExc => exact framed_lanes_flags rfl (.head _) rfl
  case bcast => exact framed_bcast ..
  case scanfAddInc | scanfAddExc | scanfMinInc | scanfMaxInc | scanfMinExc | scanfMaxExc => exact framed_scanF rfl (.head _) rfl
  case redf => exact framed_redf ..
  case faddV | fsubV | fmulV | ffmaV => exact framed_arithV (by simp [Rounds]) rfl (mem_ite_wv (.head _) (.head _))
  case faddS | fsubS | fmulS | ffmaS => exact framed_arithS (by simp [Rounds]) rfl (.head _)
  case frndV | cvtfNarrow | cvfi | cvti => exact framed_rounds (by simp [Rounds]) rfl (frame_wrV s (.head _) _ _) (quiet_wrV s _ _)
  case frndS => exact framed_rounds (by simp [Rounds]) rfl (frame_wrS s (.head _) _ _) (quiet_wrS s _ _)
  case pack4 => exact framed_rounds (by simp [Rounds]) rfl (frame_wrLanes s (.head _) _ _ _) (quiet_wrLanes s _ _ _)
  case swrite => exact framed_swrite ..
  case setfmt => exact framed_setfmt ..
  case setnm => exact framed_setnm ..
  case gtset => exact framed_gtset ..
  case perf => exact framed_perf ..
  all_goals rcases h with h | h | h <;> cases h

/-- Settles O60: the frame and the modes of a word, read off as the statement lists them. -/
theorem registerWordsChangeOnlyTheirRegisters : Obligations.RegisterWordsChangeOnlyTheirRegisters := by
  intro i s third u out r bare h
  refine (framed_word i s third h).imp id fun ⟨t, hgoes, hf, hm⟩ => ?_
  exact ⟨t, hgoes, hf.device, hf.others, hf.frag, hm.count, hm.grp, hf.wbV, hf.wbS, hf.vec, hf.scal, hf.mask, hf.flags, hm.modes, hm.nstep, hm.gtcmp⟩

end Sys2Proof.Proofs.Frames

/-! ### Control words: NOP, the prefix word, branches, calls and JTAB (R64, R69, R151 to R153) -/

namespace Sys2Proof.Proofs.Control

open Sys2Proof Sys2Proof.Machine Sys2Proof.Claim Sys2Proof.Proofs.Launch Sys2Proof.Proofs.Migration Sys2Proof.Proofs.Privileged
  Sys2Proof.Proofs.RegWrites Sys2Proof.Proofs.VectorInt Sys2Proof.Proofs.MaskLane

/-! #### Branches, calls and returns -/

section
variable {i : Instr} {s : State} {act : Act} (hexec : exec i s = finish s act)
include hexec

theorem jumps_of {t : State} {pc : DWord} (h : act = .jump t pc) : Jumps i s t pc := by
  rw [Jumps, hexec, h, finish_jump]
end

theorem brm_skips (s : State) (m : BitVec 3) (disp : BitVec 18) (h : s.mreg 0 &&& s.mreg m = 0) : Goes (.brm m disp) s s :=
  goes_of rfl (if_pos h) rfl

/-- R151: no active lane is outside a mask that holds them all. -/
theorem without_self (a : Mask) : without a a = 0 := BitVec.eq_of_getLsbD_eq fun l _ => by simp [getLsbD_without]

theorem brm_takes (s : State) (m : BitVec 3) (disp : BitVec 18) (h : s.mreg 0 &&& s.mreg m ≠ 0) (hall : s.mreg 0 &&& s.mreg m = s.mreg 0) :
    Jumps (.brm m disp) s s (s.f.pc + 4 * disp.signExtend 64) := by
  have hU : without s.active (s.active &&& s.mreg m) = 0x0#96 := (congrArg (without s.active) hall).trans (without_self _)
  exact jumps_of rfl ((if_neg h).trans (if_pos hU))

theorem exec_ret (s : State) (h : (s.sreg 60).poison = false) : exec .ret s = finish s
    (if (s.sv 60).getLsbD 63 ∨ fld (s.sv 60) 0 2 ≠ 0 then .fault (faultOf 0x01#8)
     else if s.f.regs.wbV.toNat < 8 * fld (s.sv 60) 57 3 ∨ s.f.regs.wbS.toNat < 8 * fld (s.sv 60) 60 3 then .fault (faultOf 0x23#8 2)
     else .jump (s.modRegs fun r => { r with wbV := r.wbV - BitVec.ofNat 8 (8 * fld (s.sv 60) 57 3), wbS := r.wbS - BitVec.ofNat 7 (8 * fld (s.sv 60) 60 3) })
       (((s.sv 60).extractLsb' 0 57).setWidth 64)) :=
  congrArg (finish s) (State.clean_none _ _ _ (poisoned_single s _ h))

theorem fld_ne_zero_iff (x : DWord) : fld x 0 2 ≠ 0 ↔ x.extractLsb' 0 2 ≠ 0 :=
  not_congr ⟨fun h => BitVec.eq_of_toNat_eq h, fun h => congrArg BitVec.toNat h⟩

theorem ret_malformed (s : State) (h : (s.sreg 60).poison = false) (hbad : (s.sv 60).getLsbD 63 = true ∨ (s.sv 60).extractLsb' 0 2 ≠ 0) :
    Faults .ret s (faultOf 0x01#8) :=
  faults_of (exec_ret s h) (if_pos (hbad.imp id (fld_ne_zero_iff _).2))

section
variable (s : State) (h : (s.sreg 60).poison = false) (h63 : (s.sv 60).getLsbD 63 = false) (hlow : (s.sv 60).extractLsb' 0 2 = 0)
include h h63 hlow

theorem exec_ret_wellFormed : exec .ret s = finish s
    (if s.f.regs.wbV.toNat < 8 * fld (s.sv 60) 57 3 ∨ s.f.regs.wbS.toNat < 8 * fld (s.sv 60) 60 3 then .fault (faultOf 0x23#8 2)
     else .jump (s.modRegs fun r => { r with wbV := r.wbV - BitVec.ofNat 8 (8 * fld (s.sv 60) 57 3), wbS := r.wbS - BitVec.ofNat 7 (8 * fld (s.sv 60) 60 3) })
       (((s.sv 60).extractLsb' 0 57).setWidth 64)) := by
  have hok : ¬((s.sv 60).getLsbD 63 = true ∨ fld (s.sv 60) 0 2 ≠ 0) := by
    rintro (h' | h')
    · exact Bool.noConfusion (h63.symm.trans h')
    · exact (fld_ne_zero_iff _).1 h' hlow
  rw [exec_ret s h, if_neg hok]

theorem ret_below (hbelow : s.f.regs.wbV.toNat < 8 * fld (s.sv 60) 57 3 ∨ s.f.regs.wbS.toNat < 8 * fld (s.sv 60) 60 3) :
    Faults .ret s (faultOf 0x23#8 2) :=
  faults_of (exec_ret_wellFormed s h h63 hlow) (if_pos hbelow)

/-- R153: RET slides both bases back by the link's fields. -/
theorem ret_returns (hV : 8 * fld (s.sv 60) 57 3 ≤ s.f.regs.wbV.toNat) (hS : 8 * fld (s.sv 60) 60 3 ≤ s.f.regs.wbS.toNat) :
    Jumps .ret s (s.modRegs fun r => { r with
      wbV := BitVec.ofNat 8 (s.f.regs.wbV.toNat - 8 * fld (s.sv 60) 57 3), wbS := BitVec.ofNat 7 (s.f.regs.wbS.toNat - 8 * fld (s.sv 60) 60 3) })
      (((s.sv 60).extractLsb' 0 57).setWidth 64) := by
  have slide : ∀ {w : Nat} (b : BitVec w) (n : Nat), n ≤ b.toNat → b - BitVec.ofNat w n = BitVec.ofNat w (b.toNat - n) := by
    intro w b n hn
    apply BitVec.eq_of_toNat_eq
    have hb := b.isLt
    rw [BitVec.toNat_sub_of_le (BitVec.le_def.2 (by rw [BitVec.toNat_ofNat, Nat.mod_eq_of_lt (by omega)]; exact hn)), BitVec.toNat_ofNat, BitVec.toNat_ofNat,
      Nat.mod_eq_of_lt (by omega), Nat.mod_eq_of_lt (by omega)]
  refine jumps_of (exec_ret_wellFormed s h h63 hlow) ((if_neg (by omega)).trans ?_)
  rw [State.modRegs, State.modRegs, slide _ _ hV, slide _ _ hS]
end

theorem call_deep (s : State) (v x : BitVec 3) (disp : BitVec 18) (h : 192 < s.f.regs.wbV.toNat + 8 * v.toNat ∨ 64 < s.f.regs.wbS.toNat + 8 * x.toNat) :
    Faults (.call v x disp) s (faultOf 0x23#8 1) :=
  faults_of rfl (if_pos h)

/-- R102, R153: CALL slides the window, and its link stands in s60 of the slid window. -/
theorem call_calls (s : State) (v x : BitVec 3) (disp : BitVec 18) (hV : s.f.regs.wbV.toNat + 8 * v.toNat ≤ 192) (hS : s.f.regs.wbS.toNat + 8 * x.toNat ≤ 64) :
    Jumps (.call v x disp) s (s.modRegs fun r => { r with
      wbV := s.f.regs.wbV + 8 * v.setWidth 8, wbS := s.f.regs.wbS + 8 * x.setWidth 7,
      s := r.s.put SReg.zero (s.f.regs.wbS.toNat + 8 * x.toNat + 60) ⟨0#1 ++ x ++ v ++ (s.f.pc + 4).extractLsb' 0 57, false, false⟩ })
      (s.f.pc + 4 * disp.signExtend 64) := by
  have hx : x.toNat < 8 := x.isLt
  have hslot : (s.f.regs.wbS + 8 * x.setWidth 7).toNat = s.f.regs.wbS.toNat + 8 * x.toNat := by
    have h8 : BitVec.toNat (8 : BitVec 7) = 8 := rfl
    simp only [BitVec.toNat_add, BitVec.toNat_mul, BitVec.toNat_setWidth, h8]
    omega
  have hlink : (s.f.pc + 4).setWidth 57 = (s.f.pc + 4).extractLsb' 0 57 :=
    BitVec.eq_of_getLsbD_eq fun l hl => by simp [hl]
  refine jumps_of rfl ((if_neg (by omega)).trans ?_)
  rw [← hslot, ← hlink]
  rfl

/-! #### The targets of JTAB (R152) -/

/-- The mask of the part at an address, none where there is no such part. -/
def maskAt (ps : List (DWord × Mask)) (x : DWord) : Mask :=
  match ps with
  | [] => 0
  | p :: r => if p.1 = x then p.2 else maskAt r x

/-- R152: parts in rising order of their addresses. -/
def Rising (ps : List (DWord × Mask)) : Prop := (ps.map (·.1)).Pairwise fun x y => x.ult y = true

theorem ult_iff (x y : DWord) : x.ult y = true ↔ x.toNat < y.toNat := by simp [BitVec.ult]

theorem rising_cons {p : DWord × Mask} {r : List (DWord × Mask)} : Rising (p :: r) ↔ (∀ y ∈ r.map (·.1), p.1.toNat < y.toNat) ∧ Rising r := by
  simp only [Rising, List.map_cons, List.pairwise_cons, ult_iff]

theorem maskAt_above {ps : List (DWord × Mask)} {x : DWord} (h : ∀ y ∈ ps.map (·.1), x.toNat < y.toNat) : maskAt ps x = 0 := by
  induction ps with
  | nil => rfl
  | cons p r ih =>
    have hp := h p.1 (by simp)
    rw [maskAt, if_neg fun he => lt_irrefl _ (he ▸ hp)]
    exact ih fun y hy => h y (List.mem_cons_of_mem _ hy)

theorem maskAt_of_mem {ps : List (DWord × Mask)} (h : Rising ps) {p : DWord × Mask} (hp : p ∈ ps) : maskAt ps p.1 = p.2 := by
  induction ps with
  | nil => exact absurd hp List.not_mem_nil
  | cons q r ih =>
    obtain ⟨hq, hr⟩ := rising_cons.1 h
    rcases List.mem_cons.1 hp with rfl | hp
    · exact if_pos rfl
    · rw [maskAt, if_neg fun he => lt_irrefl _ (he ▸ hq p.1 (List.mem_map_of_mem hp))]
      exact ih hr hp

theorem mem_addPart (ps : List (DWord × Mask)) (t : DWord) (l : Nat) (x : DWord) : x ∈ (addPart ps t l).map (·.1) ↔ x = t ∨ x ∈ ps.map (·.1) := by
  induction ps with
  | nil => simp [addPart]
  | cons p r ih =>
    rw [addPart]
    split_ifs with h h'
    · simp [h]
    · simp
    · rw [List.map_cons, List.mem_cons, ih, List.map_cons, List.mem_cons]
      exact or_left_comm

theorem rising_addPart {ps : List (DWord × Mask)} (h : Rising ps) (t : DWord) (l : Nat) : Rising (addPart ps t l) := by
  induction ps with
  | nil => simp [addPart, Rising]
  | cons p r ih =>
    obtain ⟨hp, hr⟩ := rising_cons.1 h
    rw [addPart]
    split_ifs with he hlt
    · exact rising_cons.2 ⟨fun y hy => he ▸ hp y hy, hr⟩
    · have htp := (ult_iff ..).1 hlt
      exact rising_cons.2 ⟨fun y hy => (List.mem_cons.1 hy).elim (fun e => e ▸ htp) fun hy => htp.trans (hp y hy), h⟩
    · refine rising_cons.2 ⟨fun y hy => ?_, ih hr⟩
      rcases (mem_addPart ..).1 hy with rfl | hy
      · have hne : p.1.toNat ≠ y.toNat := fun hn => he (BitVec.eq_of_toNat_eq hn)
        rw [ult_iff] at hlt
        omega
      · exact hp y hy

/-- R152: a lane joins the part at its address, and no other. -/
theorem maskAt_addPart {ps : List (DWord × Mask)} (h : Rising ps) (t : DWord) (l : Nat) (x : DWord) :
    maskAt (addPart ps t l) x = if x = t then maskAt ps t ||| BitVec.twoPow 96 l else maskAt ps x := by
  induction ps with
  | nil => simp [addPart, maskAt, eq_comm (a := t)]
  | cons p r ih =>
    obtain ⟨hp, hr⟩ := rising_cons.1 h
    rw [addPart]
    by_cases he : p.1 = t
    · rw [if_pos he, maskAt, maskAt, maskAt, if_pos he]
      dsimp only
      by_cases hx : x = t
      · rw [if_pos hx.symm, if_pos hx]
      · rw [if_neg (Ne.symm hx), if_neg hx, if_neg fun h => hx (h.symm.trans he)]
    · rw [if_neg he]
      by_cases hlt : t.ult p.1 = true
      · have habove : maskAt (p :: r) t = 0 :=
          maskAt_above fun y hy => (List.mem_cons.1 hy).elim (fun e => e ▸ (ult_iff ..).1 hlt) fun hy => ((ult_iff ..).1 hlt).trans (hp y hy)
        rw [if_pos hlt, habove]
        simp [maskAt, eq_comm (a := t)]
      · rw [if_neg hlt, maskAt, ih hr]
        by_cases hx : x = t
        · rw [if_pos hx, if_pos hx, if_neg (hx ▸ he), maskAt, if_neg he]
        · rw [if_neg hx, if_neg hx, maskAt]

/-- R152: the parts into which JTAB's targets divide some lanes. -/
def partsOf (t : Nat → DWord) (ls : List Nat) : List (DWord × Mask) := ls.foldl (fun ps l => addPart ps (t l) l) []

theorem foldl_addPart {t t' : Nat → DWord} {ls : List Nat} (h : ∀ l ∈ ls, t l = t' l) : ls.foldl (fun ps l => addPart ps (t l) l) [] = partsOf t' ls :=
  List.foldl_ext _ _ _ fun ps l hl => by rw [h l hl]

section
variable (t : Nat → DWord) (ls : List Nat)

theorem partsOf_append (l : Nat) : partsOf t (ls ++ [l]) = addPart (partsOf t ls) (t l) l := by
  rw [partsOf, List.foldl_append]
  rfl

theorem rising_partsOf : Rising (partsOf t ls) := by
  induction ls using List.reverseRecOn with
  | nil => exact List.Pairwise.nil
  | append_singleton ls l ih => exact partsOf_append t ls l ▸ rising_addPart ih ..

theorem mem_partsOf (x : DWord) : x ∈ (partsOf t ls).map (·.1) ↔ ∃ l ∈ ls, t l = x := by
  induction ls using List.reverseRecOn with
  | nil => simp [partsOf]
  | append_singleton ls l ih =>
    rw [partsOf_append, mem_addPart, ih]
    simp only [List.mem_append, List.mem_singleton, or_and_right, exists_or, exists_eq_left]
    rw [or_comm, eq_comm]

theorem getLsbD_maskAt_partsOf (x : DWord) (j : Nat) : (maskAt (partsOf t ls) x).getLsbD j = true ↔ j < 96 ∧ j ∈ ls ∧ t j = x := by
  induction ls using List.reverseRecOn with
  | nil => simp [partsOf, maskAt]
  | append_singleton ls l ih =>
    rw [partsOf_append, maskAt_addPart (rising_partsOf t ls)]
    by_cases hx : x = t l
    · subst hx
      rw [if_pos rfl, BitVec.getLsbD_or, Bool.or_eq_true, ih, BitVec.getLsbD_twoPow]
      simp only [List.mem_append, List.mem_singleton]
      by_cases hj : j = l
      · subst hj
        simpa using fun h96 _ => h96
      · simp [hj, Ne.symm hj]
    · rw [if_neg hx, ih]
      simp only [List.mem_append, List.mem_singleton]
      constructor
      · rintro ⟨h96, hj, ht⟩
        exact ⟨h96, .inl hj, ht⟩
      · rintro ⟨h96, hj | rfl, ht⟩
        · exact ⟨h96, hj, ht⟩
        · exact absurd ht.symm hx

theorem nodup_of_rising {ps : List (DWord × Mask)} (h : Rising ps) : (ps.map (·.1)).Nodup :=
  List.Pairwise.imp (fun {x y} hlt (he : x = y) => lt_irrefl _ (he ▸ (ult_iff x y).1 hlt)) h

theorem nodup_eraseDups (xs : List DWord) : xs.eraseDups.Nodup := by
  induction hn : xs.length using Nat.strong_induction_on generalizing xs with
  | _ n ih =>
    cases xs with
    | nil => exact List.nodup_nil
    | cons x xs =>
      rw [List.eraseDups_cons]
      have hlen : (xs.filter fun b => !b == x).length < n := hn ▸ Nat.lt_succ_of_le (List.length_filter_le ..)
      exact List.nodup_cons.2 ⟨fun h => by simpa using List.mem_eraseDups.1 h, ih _ hlen _ rfl⟩

/-- R152: there are as many parts as targets. -/
theorem length_partsOf : (partsOf t ls).length = (ls.map t).eraseDups.length := by
  have hperm := (List.perm_ext_iff_of_nodup (nodup_of_rising (rising_partsOf t ls)) (nodup_eraseDups (ls.map t))).2 fun x => by
    rw [mem_partsOf, List.mem_eraseDups, List.mem_map]
  simpa using hperm.length_eq

theorem partsOf_uniform {x : DWord} (hne : ls ≠ []) (h : ∀ l ∈ ls, t l = x) : ∃ m, partsOf t ls = [(x, m)] := by
  have hfst : ∀ y ∈ (partsOf t ls).map (·.1), y = x := fun y hy => by
    obtain ⟨l, hl, rfl⟩ := (mem_partsOf t ls y).1 hy
    exact h l hl
  have hx : x ∈ (partsOf t ls).map (·.1) := by
    obtain ⟨l, hl⟩ := List.exists_mem_of_ne_nil ls hne
    exact (mem_partsOf t ls x).2 ⟨l, hl, h l hl⟩
  match hps : partsOf t ls with
  | [] => simp [hps] at hx
  | [p] =>
    obtain rfl : p.1 = x := hfst _ (by simp [hps])
    exact ⟨p.2, rfl⟩
  | p :: q :: r =>
    have hlt := (rising_cons.1 (hps ▸ rising_partsOf t ls)).1 q.1 (by simp)
    rw [hfst p.1 (by simp [hps]), hfst q.1 (by simp [hps])] at hlt
    exact absurd hlt (lt_irrefl _)
end

/-- R152: the lanes of an address among the active lanes. -/
theorem maskAt_partsOf (t : Nat → DWord) (act : Mask) (x : DWord) : maskAt (partsOf t (lanesIn act)) x = maskOf fun j => act.getLsbD j && t j == x := by
  refine BitVec.eq_of_getLsbD_eq fun j hj => Bool.eq_iff_iff.2 ?_
  rw [getLsbD_maskAt_partsOf, getLsbD_maskOf, Matrix.mem_lanesIn]
  simp [hj]

/-! #### The division (R148, R152) -/

theorem mem_ins {α : Type} (m : KMap α) (k : Nat) (x : α) (e : Nat × α) (h : e ∈ KMap.ins m k x) : e = (k, x) ∨ e ∈ m := by
  induction m with
  | nil => exact (List.mem_cons.1 h).imp id fun h => h
  | cons p r ih =>
    obtain ⟨j, y⟩ := p
    rw [KMap.ins] at h
    split_ifs at h
    · exact (List.mem_cons.1 h)
    · exact (List.mem_cons.1 h).imp id (List.mem_cons_of_mem _)
    · rcases List.mem_cons.1 h with rfl | h
      · exact .inr (List.mem_cons_self ..)
      · exact (ih h).imp id (List.mem_cons_of_mem _)

theorem mem_ins_self {α : Type} (m : KMap α) (k : Nat) (x : α) : (k, x) ∈ KMap.ins m k x := by
  induction m with
  | nil => exact List.mem_cons_self ..
  | cons p r ih =>
    obtain ⟨j, y⟩ := p
    rw [KMap.ins]
    split_ifs
    · exact List.mem_cons_self ..
    · exact List.mem_cons_self ..
    · exact List.mem_cons_of_mem _ ih

/-- Of the entries of a map, listing a key drops at most the one that the key read. -/
theorem mem_ins_of_mem {α : Type} (d : α) (m : KMap α) (k : Nat) (x : α) (e : Nat × α) (h : e ∈ m) : e ∈ KMap.ins m k x ∨ e.2 = KMap.get d m k := by
  induction m with
  | nil => exact absurd h List.not_mem_nil
  | cons p r ih =>
    obtain ⟨j, y⟩ := p
    rw [KMap.ins, KMap.get]
    split_ifs with hlt hk hk
    · exact .inl (List.mem_cons_of_mem _ h)
    · exact .inl (List.mem_cons_of_mem _ h)
    · rcases List.mem_cons.1 h with rfl | h
      · exact .inr rfl
      · exact .inl (List.mem_cons_of_mem _ h)
    · rcases List.mem_cons.1 h with rfl | h
      · exact .inl (List.mem_cons_self ..)
      · exact (ih h).imp (List.mem_cons_of_mem _) id

theorem mem_of_get {α : Type} (d : α) (m : KMap α) (k : Nat) (h : KMap.get d m k ≠ d) : (k, KMap.get d m k) ∈ m := by
  induction m with
  | nil => exact absurd rfl h
  | cons p r ih =>
    obtain ⟨j, y⟩ := p
    rw [KMap.get] at h ⊢
    split_ifs at h ⊢ with hk
    · exact hk ▸ List.mem_cons_self ..
    · exact List.mem_cons_of_mem _ (ih h)

theorem mem_fragsOf {s : State} {g : Nat} {e : Nat × Frag} : e ∈ s.fragsOf g ↔ e ∈ s.frags ∧ e.2.alive = true ∧ e.2.group = g := by
  simp [State.fragsOf]

theorem self_mem_fragsOf {s : State} {n : Nat} (h : (s.frag n).alive = true) : (n, s.frag n) ∈ s.fragsOf (s.frag n).group :=
  mem_fragsOf.2 ⟨mem_of_get _ _ _ fun hf => by rw [State.frag, hf] at h; exact Bool.noConfusion h, h, rfl⟩

theorem mem_freeEntries {s : State} {g i : Nat} :
    i ∈ s.freeEntries g ↔ i < 96 ∧ (s.frag (fragNo g i)).alive = false ∧ ∀ e ∈ s.fragsOf g, i ∉ e.2.promised := by
  simp [State.freeEntries]

theorem nodup_freeEntries (s : State) (g : Nat) : (s.freeEntries g).Nodup := List.nodup_range.filter _

/-- R146: a child that takes a free entry, and is promised nothing that its divider is not, leaves the other entries as they were. -/
theorem freeEntries_setFrag {s : State} {n i : Nat} {c : Frag} (halive : (s.frag n).alive = true)
    (hfree : (s.frag (fragNo (s.frag n).group i)).alive = false)
    (hc : c.alive = true) (hprom : ∀ j ∈ c.promised, j ∈ (s.frag n).promised) :
    (s.setFrag (fragNo (s.frag n).group i) c).freeEntries (s.frag n).group = (s.freeEntries (s.frag n).group).filter fun j => decide (j ≠ i) := by
  have hdue : ∀ j, (∀ e ∈ (s.setFrag (fragNo (s.frag n).group i) c).fragsOf (s.frag n).group, j ∉ e.2.promised) ↔
      ∀ e ∈ s.fragsOf (s.frag n).group, j ∉ e.2.promised := by
    refine fun j => ⟨fun h e he => ?_, fun h e he => ?_⟩
    · obtain ⟨hmem, hal, hgr⟩ := mem_fragsOf.1 he
      rcases mem_ins_of_mem Frag.free s.frags (fragNo (s.frag n).group i) c e hmem with hin | hold
      · exact h e (mem_fragsOf.2 ⟨hin, hal, hgr⟩)
      · rw [hold] at hal
        exact absurd (hal.symm.trans hfree) (by decide)
    · obtain ⟨hmem, hal, hgr⟩ := mem_fragsOf.1 he
      rcases mem_ins _ _ _ _ hmem with rfl | hin
      · exact fun hj => h _ (self_mem_fragsOf halive) (hprom j hj)
      · exact h e (mem_fragsOf.2 ⟨hin, hal, hgr⟩)
  rw [State.freeEntries, State.freeEntries, List.filter_filter]
  refine List.filter_congr fun j hj => ?_
  rw [Bool.eq_iff_iff]
  simp only [Bool.and_eq_true, Bool.not_eq_true', decide_eq_true_eq, List.contains_eq_mem, decide_eq_false_iff_not, List.mem_flatMap,
    not_exists, not_and, hdue]
  by_cases hji : j = i
  · subst hji
    simp [State.frag_setFrag_same, hc]
  · rw [State.frag_setFrag_other _ _ _ _ fun h => hji ((fragNo_inj _ _ _).1 h)]
    simp [hji]

/-- R148: the part `p` of a division at the core, in entry `i`. -/
def childAt (f : Frag) (i : Nat) (p : DWord × Mask) : Frag := { f.childOf i p.2 p.2 p.1 with resident := false }

/-- R148: the next part of a division takes the lowest free entry, but that the first part keeps the divider's. -/
def seatPart (n : Nat) (f : Frag) (a : State × List Nat × Nat) (p : DWord × Mask) : State × List Nat × Nat :=
  if a.2.2 = 0 then (a.1, a.2.1 ++ [n], a.2.2 + 1)
  else
    match a.1.entriesOf n with
    | i :: _ => ((a.1.useEntry n i).setFrag (fragNo f.group i) (childAt f i p), a.2.1 ++ [fragNo f.group i], a.2.2 + 1)
    | [] => (a.1, a.2.1, a.2.2 + 1)

section
variable (n : Nat) (f : Frag)

theorem seatPart_next (s : State) (ks : List Nat) (k i : Nat) (is : List Nat) (p : DWord × Mask) (hn : s.frag n = f) (hkeeps : s.keeps (s.group f.group) = true)
    (h : s.freeEntries f.group = i :: is) :
    seatPart n f (s, ks, k + 1) p = (s.setFrag (fragNo f.group i) (childAt f i p), ks ++ [fragNo f.group i], k + 1 + 1) := by
  have hents : s.entriesOf n = i :: is := by
    rw [State.entriesOf, hn, if_pos hkeeps, h]
  have huse : s.useEntry n i = s := by
    rw [State.useEntry, hn, if_pos hkeeps]
  rw [seatPart, if_neg (Nat.succ_ne_zero k)]
  simp only [hents, huse]

theorem childAt_promised (i : Nat) (p : DWord × Mask) : ∀ j ∈ (childAt f i p).promised, j ∈ f.promised := by
  intro j hj
  rw [Frag.promised] at hj ⊢
  exact List.mem_append_left _ (by simpa [childAt, Frag.childOf] using hj)

variable (halive : f.alive = true)
include halive

/-- R146, R148: the further parts take free entries of the group, and every other fragment and the rest of the device stay. -/
theorem foldl_seatPart (rest : List (DWord × Mask)) (s : State) (ks : List Nat) (k : Nat) (hn : s.frag n = f) (hkeeps : s.keeps (s.group f.group) = true)
    (hlen : rest.length ≤ (s.freeEntries f.group).length) (hself : ∀ i ∈ s.freeEntries f.group, fragNo f.group i ≠ n) :
    let t := (rest.foldl (seatPart n f) (s, ks, k + 1)).1
    SameGround s t ∧ (∀ m, (∀ i ∈ s.freeEntries f.group, m ≠ fragNo f.group i) → t.frag m = s.frag m) ∧
      ∀ p ∈ rest, ∃ i ∈ s.freeEntries f.group, t.frag (fragNo f.group i) = childAt f i p := by
  induction rest generalizing s ks k with
  | nil => exact ⟨.refl s, fun _ _ => rfl, fun _ h => absurd h List.not_mem_nil⟩
  | cons p rest ih =>
    match h : s.freeEntries f.group with
    | [] => simp [h] at hlen
    | i :: is =>
      have hi : i ∈ s.freeEntries f.group := h ▸ List.mem_cons_self ..
      have hnotin : i ∉ is := (List.nodup_cons.1 (h ▸ nodup_freeEntries s f.group)).1
      have hfree : (s.frag (fragNo f.group i)).alive = false := (mem_freeEntries.1 hi).2.1
      have hrest : (s.setFrag (fragNo f.group i) (childAt f i p)).freeEntries f.group = is := by
        subst hn
        rw [freeEntries_setFrag (c := childAt (s.frag n) i p) halive hfree halive (childAt_promised _ i p), h, List.filter_cons_of_neg (by simp)]
        exact List.filter_eq_self.2 fun j hj => decide_eq_true fun he => hnotin (he ▸ hj)
      have hn' : (s.setFrag (fragNo f.group i) (childAt f i p)).frag n = f := (State.frag_setFrag_other _ _ _ _ (hself i hi).symm).trans hn
      rw [List.foldl_cons, seatPart_next n f s ks k i is p hn hkeeps h]
      obtain ⟨hground, hother, hparts⟩ := ih (s.setFrag (fragNo f.group i) (childAt f i p)) (ks ++ [fragNo f.group i]) (k + 1) hn'
        (((sameGround_setFrag ..).keeps _).trans hkeeps) (by rw [hrest]; simpa [h] using hlen) (by
          rw [hrest]
          exact fun j hj => hself j (h ▸ List.mem_cons_of_mem _ hj))
      rw [hrest] at hother hparts
      refine ⟨(sameGround_setFrag ..).trans hground, fun m hm => ?_, fun q hq => ?_⟩
      · rw [hother m fun j hj => hm j (List.mem_cons_of_mem _ hj)]
        exact State.frag_setFrag_other _ _ _ _ (hm i (List.mem_cons_self ..))
      · rcases List.mem_cons.1 hq with rfl | hq
        · have hsep : ∀ j ∈ is, fragNo f.group i ≠ fragNo f.group j := fun j hj he => hnotin ((fragNo_inj f.group i j).1 he ▸ hj)
          refine ⟨i, List.mem_cons_self .., ?_⟩
          rw [hother _ hsep]
          exact State.frag_setFrag_same ..
        · obtain ⟨j, hj, hfrag⟩ := hparts q hq
          exact ⟨j, List.mem_cons_of_mem _ hj, hfrag⟩
end

/-- A fragment but for its context-state entry (R109). -/
def unseated (f : Frag) : Frag := { f with resident := false, since := 0 }

theorem unseated_acquire (s : State) (k m : Nat) : unseated ((s.acquire k).frag m) = unseated (s.frag m) := by
  obtain ⟨cs, es, h | h⟩ := acquire_eq s k
  · rw [h]
    rfl
  · rw [h]
    refine (congrArg unseated (KMap.get_ins ..)).trans ?_
    split_ifs with hm
    · rw [hm]
      rfl
    · rfl

theorem unseated_foldl_acquire (ks : List Nat) (s : State) (m : Nat) : unseated ((ks.foldl (fun s k => s.acquire k) s).frag m) = unseated (s.frag m) := by
  induction ks generalizing s with
  | nil => rfl
  | cons k ks ih => exact (ih _).trans (unseated_acquire s k m)

/-- R148: the parts of a division placed, and the fragments that they stand in. -/
def placedParts (s : State) (rest : List (DWord × Mask)) : State × List Nat × Nat := rest.foldl (seatPart s.cur s.f) (s, [s.cur], 0 + 1)
/-- R148: the part that keeps the divider's entry. -/
def keptPart (s : State) (p : DWord × Mask) (rest : List (DWord × Mask)) : Frag :=
  s.f.childOf s.f.idx (without s.f.own (rest.foldl (fun m p => m ||| p.2) 0x0#96)) p.2 p.1
/-- R148: the parts placed, with what they inherit. -/
def heirsPlaced (s : State) (p : DWord × Mask) (rest : List (DWord × Mask)) : State :=
  ((placedParts s rest).1.setFrag s.cur (keptPart s p rest)).inherit s.cur (placedParts s rest).2.1

theorem divideHere_eq (s : State) (p : DWord × Mask) (rest : List (DWord × Mask)) : ∃ k c, s.divideHere (p :: rest) 0 =
    ((((placedParts s rest).2.1.filter (· != s.cur)).foldl (fun s k => s.acquire k)
      ((heirsPlaced s p rest).reportParts s.cur ((placedParts s rest).1.reserved s.cur)))).setCore k c := ⟨_, _, rfl⟩

section
variable (s : State) (p : DWord × Mask) (rest : List (DWord × Mask)) (halive : s.f.alive = true) (hkeeps : s.keeps s.g = true)
  (hlen : rest.length ≤ (s.freeEntries s.f.group).length) (hself : ∀ i ∈ s.freeEntries s.f.group, fragNo s.f.group i ≠ s.cur)
include halive hkeeps hlen hself

/-- R148: after the parts have been placed, a division at the core changes no fragment but for its context-state entry. -/
theorem divideHere_frag (m : Nat) : unseated ((s.divideHere (p :: rest) 0).frag m) =
    unseated (((placedParts s rest).1.setFrag s.cur (keptPart s p rest)).frag m) := by
  obtain ⟨hground, -, -⟩ := foldl_seatPart s.cur s.f halive rest s [s.cur] 0 rfl hkeeps hlen hself
  have hgroup : ((heirsPlaced s p rest).frag s.cur).group = s.f.group := by
    change (((placedParts s rest).1.setFrag s.cur (keptPart s p rest)).frag s.cur).group = _
    rw [State.frag_setFrag_same]
    rfl
  have hkept : (heirsPlaced s p rest).keeps ((heirsPlaced s p rest).group ((heirsPlaced s p rest).frag s.cur).group) = true := by
    rw [hgroup]
    exact ((hground.trans ((sameGround_setFrag ..).trans (sameGround_inherit ..))).keeps _).trans hkeeps
  obtain ⟨k, c, h⟩ := divideHere_eq s p rest
  rw [h, State.reportParts, if_pos hkept]
  exact unseated_foldl_acquire _ (heirsPlaced s p rest) m

/-- R148: what a division at the core makes of the fragments, when the first part keeps the divider's entry: each further part stands in a free
entry. -/
theorem divideHere_first : unseated ((s.divideHere (p :: rest) 0).frag s.cur) = unseated (keptPart s p rest) ∧
    ∀ q ∈ rest, ∃ i ∈ s.freeEntries s.f.group, unseated ((s.divideHere (p :: rest) 0).frag (fragNo s.f.group i)) = unseated (childAt s.f i q) := by
  obtain ⟨hground, hother, hparts⟩ := foldl_seatPart s.cur s.f halive rest s [s.cur] 0 rfl hkeeps hlen hself
  refine ⟨(divideHere_frag s p rest halive hkeeps hlen hself _).trans (congrArg unseated (State.frag_setFrag_same ..)), fun q hq => ?_⟩
  obtain ⟨i, hi, hfrag⟩ := hparts q hq
  refine ⟨i, hi, (divideHere_frag s p rest halive hkeeps hlen hself _).trans (congrArg unseated ?_)⟩
  exact (State.frag_setFrag_other _ _ _ _ (hself i hi)).trans hfrag
end

/-! #### JTAB (R152) -/

theorem lanesIn_ne_nil {m : Mask} (h : m ≠ 0) : lanesIn m ≠ [] := fun hnil => h (BitVec.eq_of_getLsbD_eq fun l _ => by
  have hl : l ∉ lanesIn m := hnil ▸ List.not_mem_nil
  rw [Matrix.mem_lanesIn] at hl
  simpa using hl)

/-- The lanes of a filter begin at the lowest that passes. -/
theorem filter_range_first {n l : Nat} {p : Nat → Bool} (hl : l < n) (hp : p l = true) (hlow : ∀ j, j < l → p j = false) :
    ∃ ls, (List.range n).filter p = l :: ls := by
  have hhead : ((List.range n).filter p).head? = some l := by
    rw [List.head?_filter, List.find?_range_eq_some]
    exact ⟨hp, List.mem_range.2 hl, fun j hj => by rw [hlow j hj]; rfl⟩
  match hf : (List.range n).filter p with
  | [] => simp [hf] at hhead
  | j :: ls =>
    obtain rfl : j = l := by simpa [hf] using hhead
    exact ⟨ls, rfl⟩

/-- R152: JTAB goes to the one target, or divides. -/
def goTo (s : State) (ps : List (DWord × Mask)) : Act :=
  match ps with
  | [p] => .jump s p.1
  | ps => divideAct s ps 0

theorem goTo_several (s : State) (ps : List (DWord × Mask)) (h : 0 < ps.length - 1) : goTo s ps = divideAct s ps 0 := by
  match ps with
  | [] => exact absurd h (lt_irrefl _)
  | [_] => exact absurd h (lt_irrefl _)
  | _ :: _ :: _ => rfl

/-- R63: a word that parks goes on at once in a fragment that may. -/
theorem parkThen_still (s : State) (h : Still s) (k : State → Act) : parkThen s k = k s := by
  obtain ⟨houts, hleave⟩ := h
  unfold parkThen
  dsimp only
  rw [if_neg (not_not.2 houts)]
  split
  · next g hg =>
    rw [hleave g hg]
  · rfl

/-- R148, R151: a fragment of a group of this device that may park at once divides, where entries are free and nothing bars it. -/
theorem divideAct_here (s : State) (ps : List (DWord × Mask)) (hm0 : s.f.written.contains (.m 0) = false) (htrap : s.f.trap = none) (hstill : Still s)
    (hkeeps : s.keeps s.g = true) (hbar : s.divideBar (ps.length - 1) = none) (hents : ps.length - 1 ≤ (s.freeEntries s.f.group).length) :
    divideAct s ps 0 = .away (s.divideHere ps 0) := by
  have hentries : s.entriesOf s.cur = s.freeEntries s.f.group := if_pos hkeeps
  rw [divideAct, hm0, htrap, if_neg Bool.false_ne_true, if_neg (by simp), if_pos hkeeps, hbar]
  dsimp only
  rw [parkThen_still s hstill, hentries, if_neg (by omega)]

/-- R152: the report of a lane and its index. -/
theorem laneReport_eq (l : Nat) (x : Word) (hl : l < 96) : BitVec.ofNat 64 (l * 2 ^ 32) ||| x.setWidth 64 = BitVec.ofNat 64 (l * 2 ^ 32 + x.toNat) := by
  apply BitVec.eq_of_toNat_eq
  have hx := x.isLt
  have hor : l * 2 ^ 32 ||| x.toNat = l * 2 ^ 32 + x.toNat := by
    have h := Nat.shiftLeft_add_eq_or_of_lt hx l
    rw [Nat.shiftLeft_eq] at h
    exact h.symm
  rw [BitVec.toNat_or, BitVec.toNat_ofNat, BitVec.toNat_ofNat, BitVec.toNat_setWidth, Nat.mod_eq_of_lt (a := l * 2 ^ 32) (by omega),
    Nat.mod_eq_of_lt (a := x.toNat) (by omega), Nat.mod_eq_of_lt (a := l * 2 ^ 32 + x.toNat) (by omega), hor]

section
variable (s : State) (d a b : RegNum)

/-- R152: where JTAB finds a lane's table word. -/
def tableAt (l : Nat) : DWord := s.sv a + 4 * (s.vl d l).setWidth 64
/-- R152: an active lane whose index is out of the table. -/
def outside (l : Nat) : Bool := (s.mreg 0).getLsbD l && decide ((s.sv b).toNat ≤ (s.vl d l).toNat)

theorem jtab_idle (h : s.mreg 0 = 0) : Goes (.jtab d a b) s s := by
  have hno : lanesIn s.active = [] := by
    rw [show s.active = 0 from h]
    decide
  exact goes_of rfl (if_pos hno) rfl

section
variable (hact : s.mreg 0 ≠ 0) (hclean : s.poisoned [.v d (s.mreg 0), .s a, .s b] = none)
include hact hclean

/-- R152: a lane out of the table. -/
theorem jtab_outside (l : Nat) (hl : l < 96) (hbad : outside s d b l = true) (hlow : ∀ j, j < l → outside s d b j = false) :
    Faults (.jtab d a b) s (faultOf 0x22#8 ((maskOf (outside s d b)).extractLsb' 0 64) (((maskOf (outside s d b)).extractLsb' 64 32).setWidth 64)
      (BitVec.ofNat 64 (l * 2 ^ 32 + (s.vl d l).toNat))) := by
  obtain ⟨ls, hls⟩ := filter_range_first hl hbad hlow
  have hbads : ((lanesIn s.active).filter fun l => decide ((s.sv b).toNat ≤ (s.vl d l).toNat)) = l :: ls := (lanesIn_and ..).trans hls
  have hmask : (maskOf fun j => (l :: ls).contains j) = maskOf (outside s d b) := BitVec.eq_of_getLsbD_eq fun j hj => by
    rw [getLsbD_maskOf, getLsbD_maskOf, ← hls, Bool.eq_iff_iff]
    simp [hj]
  refine faults_of rfl ((if_neg (lanesIn_ne_nil hact)).trans ((State.clean_none _ _ _ hclean).trans ?_))
  simp only [hbads, hmask, lanesLo_eq, lanesHi_eq, laneReport_eq l _ hl]

omit hact hclean in
theorem lanes_inside (hin : ∀ l, l < 96 → outside s d b l = false) : ((lanesIn s.active).filter fun l => decide ((s.sv b).toNat ≤ (s.vl d l).toNat)) = [] :=
  (lanesIn_and ..).trans (List.filter_eq_nil_iff.2 fun l hl h => Bool.noConfusion ((hin l (List.mem_range.1 hl)).symm.trans h))

variable (hin : ∀ l, l < 96 → outside s d b l = false)
include hin

theorem jtab_misaligned (h : (s.sv a).extractLsb' 0 2 ≠ 0) : Faults (.jtab d a b) s (faultOf 0x13#8 (s.sv a)) := by
  refine faults_of rfl ((if_neg (lanesIn_ne_nil hact)).trans ((State.clean_none _ _ _ hclean).trans ?_))
  simp only [lanes_inside s d b hin]
  exact if_pos ((fld_ne_zero_iff _).2 h)

/-- R152: where the table words can be fetched, the targets decide. -/
theorem exec_jtab_inside (h : (s.sv a).extractLsb' 0 2 = 0) (W : Nat → Word)
    (hW : ∀ l, l < 96 → (s.mreg 0).getLsbD l = true → s.fetch s.cur (tableAt s d a l) = .ok (W l)) :
    exec (.jtab d a b) s = finish s (goTo s (partsOf (fun l => s.sv a + 4 * (W l).signExtend 64) (lanesIn s.active))) := by
  have hlanes : ∀ l ∈ lanesIn s.active, s.fetch s.cur (s.sv a + 4 * (s.vl d l).setWidth 64) = .ok (W l) := fun l hl =>
    hW l (List.mem_range.1 (List.mem_of_mem_filter hl)) (Matrix.mem_lanesIn.1 hl)
  refine congrArg (finish s) ((if_neg (lanesIn_ne_nil hact)).trans ((State.clean_none _ _ _ hclean).trans ?_))
  simp only [lanes_inside s d b hin]
  rw [if_neg fun hne => (fld_ne_zero_iff _).1 hne h, List.findSome?_eq_none_iff.2]
  · dsimp only
    rw [foldl_addPart (t' := fun l => s.sv a + 4 * (W l).signExtend 64)]
    · rfl
    · intro l hl
      rw [hlanes l hl]
  · intro l hl
    rw [hlanes l hl]

end

theorem getLsbD_foldl_or (rest : List (DWord × Mask)) (m : Mask) (j : Nat) :
    (rest.foldl (fun m p => m ||| p.2) m).getLsbD j = true ↔ m.getLsbD j = true ∨ ∃ q ∈ rest, q.2.getLsbD j = true := by
  induction rest generalizing m with
  | nil => simp
  | cons q rest ih =>
    rw [List.foldl_cons, ih, BitVec.getLsbD_or, Bool.or_eq_true, or_assoc]
    simp only [List.mem_cons, or_and_right, exists_or, exists_eq_left]

/-- R148: the further parts hold the active lanes outside the first. -/
theorem further_lanes {act : Mask} {tgt : Nat → DWord} {p : DWord × Mask} {rest : List (DWord × Mask)} (h : partsOf tgt (lanesIn act) = p :: rest) :
    rest.foldl (fun m p => m ||| p.2) 0x0#96 = act &&& ~~~p.2 := by
  have hmask : ∀ q ∈ p :: rest, ∀ j, j < 96 → (q.2.getLsbD j = true ↔ act.getLsbD j = true ∧ tgt j = q.1) := fun q hq j hj => by
    rw [← maskAt_of_mem (h ▸ rising_partsOf tgt (lanesIn act)) hq, ← h, maskAt_partsOf, getLsbD_maskOf]
    simp [hj]
  have hmin := (rising_cons.1 (h ▸ rising_partsOf tgt (lanesIn act))).1
  refine BitVec.eq_of_getLsbD_eq fun j hj => Bool.eq_iff_iff.2 ?_
  rw [getLsbD_foldl_or, BitVec.getLsbD_and, BitVec.getLsbD_not, Bool.and_eq_true, Bool.and_eq_true, Bool.not_eq_true', ← Bool.not_eq_true,
    hmask p (List.mem_cons_self ..) j hj]
  constructor
  · rintro (h0 | ⟨q, hq, hqj⟩)
    · simp at h0
    · obtain ⟨hact, ht⟩ := (hmask q (List.mem_cons_of_mem _ hq) j hj).1 hqj
      exact ⟨hact, by simpa using hj, fun hp => lt_irrefl _ (hp.2 ▸ ht ▸ hmin q.1 (List.mem_map_of_mem hq))⟩
  · rintro ⟨hact, -, hnot⟩
    have hj' : tgt j ∈ (p :: rest).map (·.1) := h ▸ (mem_partsOf tgt (lanesIn act) (tgt j)).2 ⟨j, Matrix.mem_lanesIn.2 hact, rfl⟩
    obtain ⟨q, hq, hqt⟩ := List.mem_map.1 hj'
    rcases List.mem_cons.1 hq with rfl | hr
    · exact absurd ⟨hact, hqt.symm⟩ hnot
    · exact .inr ⟨q, hr, (hmask q hq j hj).2 ⟨hact, hqt.symm⟩⟩

/-- R152: the lanes of the lowest target keep the divider's entry, and those of each other target stand in a free one. -/
theorem divideHere_targets (act : Mask) (tgt : Nat → DWord) (halive : s.f.alive = true) (hkeeps : s.keeps s.g = true)
    (hlen : (partsOf tgt (lanesIn act)).length - 1 ≤ (s.freeEntries s.f.group).length) (hself : ∀ i ∈ s.freeEntries s.f.group, fragNo s.f.group i ≠ s.cur)
    (l : Nat) (hl : act.getLsbD l = true) :
    let t := s.divideHere (partsOf tgt (lanesIn act)) 0
    let part := maskOf fun j => act.getLsbD j && tgt j == tgt l
    let lower := ∃ j, j < 96 ∧ act.getLsbD j = true ∧ (tgt j).ult (tgt l) = true
    (¬lower → unseated (t.frag s.cur) = unseated (s.f.childOf s.f.idx (s.f.own &&& ~~~(act &&& ~~~part)) part (tgt l))) ∧
    (lower → ∃ i ∈ s.freeEntries s.f.group, unseated (t.frag (fragNo s.f.group i)) = unseated (childAt s.f i (tgt l, part))) := by
  intro t part lower
  have hmask : ∀ q ∈ partsOf tgt (lanesIn act), q.2 = maskOf fun j => act.getLsbD j && tgt j == q.1 := fun q hq =>
    (maskAt_of_mem (rising_partsOf ..) hq).symm.trans (maskAt_partsOf ..)
  have htgt : tgt l ∈ (partsOf tgt (lanesIn act)).map (·.1) := (mem_partsOf ..).2 ⟨l, Matrix.mem_lanesIn.2 hl, rfl⟩
  have hsource : ∀ q ∈ partsOf tgt (lanesIn act), ∃ j, j < 96 ∧ act.getLsbD j = true ∧ tgt j = q.1 := fun q hq => by
    obtain ⟨j, hj, hjq⟩ := (mem_partsOf tgt (lanesIn act) q.1).1 (List.mem_map_of_mem hq)
    exact ⟨j, List.mem_range.1 (List.mem_of_mem_filter hj), Matrix.mem_lanesIn.1 hj, hjq⟩
  have hrising := rising_partsOf tgt (lanesIn act)
  match hps : partsOf tgt (lanesIn act) with
  | [] => simp [hps] at htgt
  | p :: rest =>
    have ht : t = s.divideHere (p :: rest) 0 := congrArg (fun ps => s.divideHere ps 0) hps
    rw [hps] at hmask htgt hsource hrising hlen
    have hmin := (rising_cons.1 hrising).1
    obtain ⟨hkept, hchild⟩ := divideHere_first s p rest halive hkeeps (by simpa using hlen) hself
    obtain ⟨q, hq, hqt⟩ := List.mem_map.1 htgt
    have hpart : q.2 = part := (hmask q hq).trans (by rw [hqt])
    refine ⟨fun hnot => ?_, fun hlow => ?_⟩
    · have hqp : q = p := (List.mem_cons.1 hq).resolve_right fun hq => by
        obtain ⟨j, hj, hja, hjt⟩ := hsource p (List.mem_cons_self ..)
        exact hnot ⟨j, hj, hja, (ult_iff ..).2 (by rw [hjt, ← hqt]; exact hmin _ (List.mem_map_of_mem hq))⟩
      subst hqp
      rw [ht, hkept, keptPart, further_lanes hps, hpart, hqt]
      rfl
    · obtain ⟨j, hj, hja, hjt⟩ := hlow
      have hqr : q ∈ rest := (List.mem_cons.1 hq).resolve_left fun hqp => by
        have hjm : tgt j ∈ (partsOf tgt (lanesIn act)).map (·.1) := (mem_partsOf ..).2 ⟨j, Matrix.mem_lanesIn.2 hja, rfl⟩
        rw [hps, List.map_cons, ← hqp, hqt] at hjm
        have hlt := (ult_iff ..).1 hjt
        rcases List.mem_cons.1 hjm with he | hr
        · exact lt_irrefl _ (he ▸ hlt)
        · have := hmin _ hr
          rw [← hqp, hqt] at this
          omega
      obtain ⟨i, hi, hfrag⟩ := hchild q hqr
      exact ⟨i, hi, by rw [ht, hfrag, ← hpart, ← hqt]⟩
end

/-- Settles O16: each word by its own lemma; JTAB's division by the parts that its targets make of the active lanes. -/
theorem controlWords : Obligations.ControlWords := by
  unfold Obligations.ControlWords
  refine ⟨fun s => ⟨goes_of rfl rfl rfl, fun hcalm => congrArg Host.Outcome.next (State.retire_calm s _ hcalm)⟩, ?_, ?_⟩
  · intro s i24 i18 k m v x r z t pc to18 T f link vs ss
    refine ⟨jumps_of rfl rfl, fun h => jumps_of rfl (if_pos h), fun h => goes_of rfl (if_neg (by simp [h])) rfl, brm_skips s m i18, brm_takes s m i18,
      call_calls s v x i18, call_deep s v x i18, fun hclean => ⟨ret_malformed s hclean, fun h63 hlow => ⟨ret_below s hclean h63 hlow,
        ret_returns s hclean h63 hlow⟩⟩, rfl⟩
  · intro s d a b w act idx bad B
    refine ⟨jtab_idle s d a b, fun hact hclean => ⟨jtab_outside s d a b hact hclean, fun hin => ⟨jtab_misaligned s d a b hact hclean hin,
      fun halign hw => ?_, fun halign W hW => ?_⟩⟩⟩
    · obtain ⟨m, hm⟩ := partsOf_uniform (fun _ => s.sv a + 4 * w.signExtend 64) (lanesIn s.active) (lanesIn_ne_nil hact) fun _ _ => rfl
      exact jumps_of (exec_jtab_inside s d a b hact hclean hin halign (fun _ => w) hw) (by rw [hm]; rfl)
    · intro tgt part lower kids hkids hm0 htrap halive hstill hdev hbar hents hself
      have hkeeps : s.keeps s.g = true := beq_iff_eq.2 hdev
      have hcount : (partsOf tgt (lanesIn act)).length - 1 = kids := by rw [length_partsOf]
      refine ⟨s.divideHere (partsOf tgt (lanesIn act)) 0, ?_, fun l hl hal => ?_⟩
      · have hgo := (goTo_several s _ (hcount ▸ hkids)).trans (divideAct_here s _ hm0 htrap hstill hkeeps (hcount ▸ hbar) (hcount ▸ hents))
        exact (exec_jtab_inside s d a b hact hclean hin halign W hW).trans (congrArg (finish s) hgo)
      · obtain ⟨hstays, hleaves⟩ := divideHere_targets s act tgt halive hkeeps (hcount ▸ hents) hself l hal
        refine ⟨fun hnot => ?_, fun hlow => ?_⟩
        · have h := hstays hnot
          exact ⟨congrArg Frag.pc h, (congrArg (fun f => f.regs.mask 0) h).trans (mask_setM0 ..), congrArg Frag.own h, congrArg (fun f => f.regs.v) h,
            congrArg (fun f => f.regs.s) h⟩
        · obtain ⟨i, hi, h⟩ := hleaves hlow
          exact ⟨i, hi, (congrArg Frag.alive h).trans halive, (congrArg Frag.group h :), congrArg Frag.pc h, congrArg Frag.own h,
            (congrArg (fun f => f.regs.mask 0) h).trans (mask_setM0 ..), congrArg (fun f => f.regs.v) h, congrArg (fun f => f.regs.s) h⟩

end Sys2Proof.Proofs.Control

/-! ### Accumulator words and BSKIP (R179, R182, R183) -/

namespace Sys2Proof.Proofs.Accumulator

open Sys2Proof Sys2Proof.Machine Sys2Proof.Claim Sys2Proof.Proofs.Privileged Sys2Proof.Proofs.Matrix Sys2Proof.Proofs.RegWrites
  Sys2Proof.Proofs.VectorInt

/-! #### What replacing elements leaves of a tile -/

theorem foldl_kept {α β : Type} (p : Tile → β) (g : Tile → α → Tile) (h : ∀ t x, p (g t x) = p t) (xs : List α) (t : Tile) : p (xs.foldl g t) = p t := by
  induction xs generalizing t with
  | nil => rfl
  | cons x xs ih => exact (ih _).trans (h t x)

/-- R179: a column of a tile with the given rows replaced. -/
def withColumn (x : Nat → Word) (n : Nat) (rows : List Nat) (t : Tile) : Tile := rows.foldl (fun t r => t.setElem r n (x r)) t

section
variable (x : Nat → Word) (n : Nat) (rows : List Nat) (t : Tile)

theorem elem_withColumn (hn : n < 32) (r j : Nat) (hj : j < 32) : (withColumn x n rows t).elem r j = if r ∈ rows ∧ j = n then x r else t.elem r j := by
  induction rows generalizing t with
  | nil => simp [withColumn]
  | cons k rows ih =>
    rw [withColumn, List.foldl_cons, ← withColumn, ih, elem_setElem _ _ _ _ _ _ hn hj]
    by_cases hk : r = k
    · subst hk
      by_cases hr : r ∈ rows <;> by_cases hjn : j = n <;> simp [hr, hjn]
    · simp [hk]

theorem withColumn_poison : (withColumn x n rows t).poison = t.poison := foldl_kept Tile.poison (fun t r => t.setElem r n (x r)) (fun _ _ => rfl) rows t
end

theorem mapRow_empty (F : Nat → Nat → Word → Word) (r : Nat) (cols : List Nat) (t : Tile) : (mapRow F r cols t).empty = t.empty :=
  foldl_kept Tile.empty (fun t i => t.setElem r i (F r i (t.elem r i))) (fun _ _ => rfl) cols t

theorem mapRows_empty (F : Nat → Nat → Word → Word) (rows : List Nat) (t : Tile) : (mapRows F rows t).empty = t.empty :=
  foldl_kept Tile.empty (fun t r => mapRow F r (List.range 32) t) (fun u r => mapRow_empty F r _ u) rows t

/-! #### The words -/

section
variable (s : State) (t : BitVec 3) (d a b : RegNum)

/-- The state with a tile of the fragment's group replaced. -/
def withTile (c : Tile) : State := s.setG (s.g.setTile t.toNat c)

theorem withTile_tile (c : Tile) (j : Nat) : (withTile s t c).g.tile j = if j = t.toNat then c else s.g.tile j := by
  rw [withTile, g_setG, tile_setTile]

/-- R179: replacing a tile changes nothing else. -/
theorem withTile_others (c : Tile) : SameBut s (withTile s t c) ∧ (withTile s t c).f = s.f ∧ ∀ j, j ≠ t.toNat → (withTile s t c).g.tile j = s.g.tile j :=
  ⟨⟨rfl, rfl, rfl, rfl, rfl, rfl, rfl, rfl, rfl⟩, rfl, fun j hj => (withTile_tile s t c j).trans (if_neg hj)⟩

theorem goes_czero (h : s.tileCheck false t = none) : Goes (.czero t) s (withTile s t Tile.fresh) := goes_of rfl (by rw [h]; rfl) rfl

theorem colCheck_in (h : (s.sv b).toNat < 32) : s.colCheck b = none := if_neg (by omega)

theorem addOut_pc (x : Out) : (s.addOut s.cur x).f.pc = s.f.pc := by
  change ((s.setFrag s.cur _).frag s.cur).pc = _
  rw [State.frag_setFrag_same]
  rfl

/-- R179: the result that CRD leaves outstanding. -/
def columnOut : Out :=
  ⟨.unit, .v (s.src.vEnt d), s.active, s.active, lanesOf fun l => (s.g.tile t.toNat).elem l (s.sv b).toNat, 0, (s.g.tile t.toNat).bnd, 0x0#96⟩

theorem columnOut_lane (l : Nat) (hl : l < 96) : lane (columnOut s t d b).vals l = (s.g.tile t.toNat).elem l (s.sv b).toNat :=
  Crossbar.lane_lanesOf (fun l => (s.g.tile t.toNat).elem l (s.sv b).toNat) l hl

theorem exec_crd (h : s.tileCheck false t = none) (hb : (s.sreg b).poison = false) (hn : (s.sv b).toNat < 32)
    (hp : (s.g.tile t.toNat).poisonFault t (s.mreg 0) = none) :
    exec (.crd d t b) s = finish s (if s.active = 0x0#96 then .done s else .done (s.addOut s.cur (columnOut s t d b))) := by
  show execCrd d t b s = _
  have hp' : (s.g.tile t.toNat).poisonFault t s.active = none := hp
  simp only [execCrd, h, State.clean_none _ _ _ (poisoned_single s b hb), colCheck_in s b hn, hp', orFault]
  rfl

section
variable (h : s.tileCheck false t = none) (hb : (s.sreg b).poison = false) (hn : (s.sv b).toNat < 32)
  (hp : (s.g.tile t.toNat).poisonFault t (s.mreg 0) = none)
include h hb hn hp

theorem crd_idle (hact : s.mreg 0 = 0) : Goes (.crd d t b) s s := goes_of (exec_crd s t d b h hb hn hp) (if_pos hact) rfl

theorem crd_reads (hact : s.mreg 0 ≠ 0) : Goes (.crd d t b) s (s.addOut s.cur (columnOut s t d b)) :=
  goes_of (exec_crd s t d b h hb hn hp) (if_neg hact) (addOut_pc ..)
end

/-- R179: the tile that CWR leaves. -/
def columnWritten : Tile :=
  { withColumn (s.vl a) (s.sv b).toNat (lanesIn s.active) (s.g.tile t.toNat) with empty := false, bnd := (s.g.tile t.toNat).bnd || (s.vreg a).bnd }

theorem goes_cwr (h : s.tileCheck true t = none) (hclean : s.poisoned [.v a (s.mreg 0), .s b] = none) (hn : (s.sv b).toNat < 32) :
    Goes (.cwr t a b) s (withTile s t (columnWritten s t a b)) :=
  goes_of rfl (by rw [h, State.clean_none s [.v a s.active, .s b] _ hclean, colCheck_in s b hn]; rfl) rfl

/-- R179: the tile that CSCL leaves. -/
def scaledTile : Tile :=
  { mapRows (fun r _ x => fmul .rne x (s.vl a r)) (lanesIn s.active) (s.g.tile t.toNat) with bnd := (s.g.tile t.toNat).bnd || (s.vreg a).bnd }

theorem exec_cscl (h : s.tileCheck false t = none) (hclean : s.poisoned [.v a (s.mreg 0)] = none)
    (hp : (s.g.tile t.toNat).poisonFault t (s.mreg 0) = none) :
    exec (.cscl t a) s = finish s (if (s.g.tile t.toNat).empty = true then .done s else .done (withTile s t (scaledTile s t a))) := by
  show execCscl t a s = _
  have hp' : (s.g.tile t.toNat).poisonFault t s.active = none := hp
  simp only [execCscl, h, State.clean_none s [.v a s.active] _ hclean, hp', orFault]
  rfl

theorem cscl_empty (h : s.tileCheck false t = none) (hclean : s.poisoned [.v a (s.mreg 0)] = none)
    (hp : (s.g.tile t.toNat).poisonFault t (s.mreg 0) = none) (hempty : (s.g.tile t.toNat).empty = true) : Goes (.cscl t a) s s :=
  goes_of (exec_cscl s t a h hclean hp) (if_pos hempty) rfl

theorem cscl_scales (h : s.tileCheck false t = none) (hclean : s.poisoned [.v a (s.mreg 0)] = none)
    (hp : (s.g.tile t.toNat).poisonFault t (s.mreg 0) = none) (hempty : (s.g.tile t.toNat).empty = false) :
    Goes (.cscl t a) s (withTile s t (scaledTile s t a)) :=
  goes_of (exec_cscl s t a h hclean hp) (if_neg (Bool.eq_false_iff.1 hempty)) rfl

/-- R182: no active lane keeps its block exactly when none is kept among all lanes. -/
theorem none_kept (act : Mask) (keep : Nat → Bool) : (!(lanesIn act).any keep) = (List.range 96).all fun l => !act.getLsbD l || !keep l := by
  rw [lanesIn, List.any_filter, List.not_any_eq_all_not]
  simp only [Bool.not_and]

end

/-- Settles O26: the words replace one tile of the group, element by element. -/
theorem accumulatorAndBlockSkipWords : Obligations.AccumulatorAndBlockSkipWords := by
  unfold Obligations.AccumulatorAndBlockSkipWords
  refine ⟨fun s t d a b => ?_, fun s m a b => ?_⟩
  · intro c n act tileOf others
    refine ⟨fun h => ⟨_, goes_czero s t h, (withTile_tile ..).trans (if_pos rfl), withTile_others s t _⟩,
      fun h hb hn hp => ⟨crd_idle s t d b h hb hn hp, fun hact => ?_⟩, fun h hclean hn => ?_,
      fun h hclean hp => ⟨cscl_empty s t a h hclean hp, fun hempty => ?_⟩⟩
    · exact ⟨columnOut s t d b, crd_reads s t d b h hb hn hp hact, rfl, rfl, rfl, rfl,
        columnOut_lane s t d b⟩
    · have htile : tileOf (withTile s t (columnWritten s t a b)) = columnWritten s t a b := (withTile_tile ..).trans (if_pos rfl)
      refine ⟨_, goes_cwr s t a b h hclean hn, withTile_others s t _, ?_, ?_, ?_, fun r j hj => ?_⟩
      · rw [htile]; rfl
      · rw [htile]; rfl
      · rw [htile]
        exact withColumn_poison ..
      · rw [htile]
        exact (elem_withColumn _ _ _ _ hn r j hj).trans (if_congr (and_congr mem_lanesIn Iff.rfl) rfl rfl)
    · have htile : tileOf (withTile s t (scaledTile s t a)) = scaledTile s t a := (withTile_tile ..).trans (if_pos rfl)
      refine ⟨_, cscl_scales s t a h hclean hp hempty, withTile_others s t _, ?_, ?_, fun r j hj => ?_⟩
      · rw [htile]
        exact (mapRows_empty ..).trans hempty
      · rw [htile]; rfl
      · rw [htile]
        exact (elem_mapRows _ _ _ (lanesIn_nodup _) r j hj).trans (if_congr mem_lanesIn rfl rfl)
  · intro keep
    refine ⟨fun ha => faults_of rfl (if_pos ha), fun ha hclean => goes_of rfl ((if_neg ha).trans ((State.clean_none _ _ _ hclean).trans ?_)) (by simp)⟩
    rw [none_kept]
    rfl

end Sys2Proof.Proofs.Accumulator

/-! ### Trap entry, and the ends of fragments and grids (R161, R237, R339 to R341, R347) -/

namespace Sys2Proof.Proofs.Traps

open Sys2Proof Sys2Proof.Machine Sys2Proof.Claim Sys2Proof.Proofs.PartControl Sys2Proof.Proofs.Privileged Sys2Proof.Proofs.Launch
  Sys2Proof.Proofs.Migration Sys2Proof.Proofs.Control

/-! #### What draining lines leaves (R247, R315) -/

/-- A part of the state that sending a request to another device leaves. -/
def Unsent {γ : Type} (p : State → γ) : Prop :=
  ∀ (s : State) cores remote fabIn fabOut id, p { s with cores := cores, remote := remote, fabIn := fabIn, fabOut := fabOut, nextId := id } = p s

section
variable {γ : Type} {p : State → γ} (hp : Unsent p)
include hp

theorem pathFor_frame (s : State) (core : Nat) (r : Rights) (dev : Nat) : p (s.pathFor core r dev) = p s := by
  unfold State.pathFor
  dsimp only
  split
  · rfl
  · split
    · split_ifs
      · exact hp s _ s.remote s.fabIn s.fabOut s.nextId
      · exact hp s _ s.remote s.fabIn _ s.nextId
    · exact hp s _ s.remote s.fabIn s.fabOut s.nextId

theorem onPath_frame (s : State) (core dev : Nat) (g : PathRec → PathRec) : p (s.onPath core dev g) = p s := hp s _ s.remote s.fabIn s.fabOut s.nextId

theorem closePath_frame (s : State) (core : Nat) (r : Rights) (q : PathRec) : p (s.closePath core r q) = p s := hp s s.cores s.remote s.fabIn _ s.nextId

theorem countPath_frame (s : State) (core : Nat) (r : Rights) (dev path : Nat) : p (s.countPath core r dev path) = p s := by
  unfold State.countPath
  split
  · dsimp only
    rw [onPath_frame hp]
    split_ifs
    · rw [onPath_frame hp, closePath_frame hp, pathFor_frame hp]
    · exact pathFor_frame hp ..
  · rfl

theorem toPort_frame (s : State) (home dev : Nat) (m refused : FabMsg) : p (s.toPort home dev m refused) = p s := by
  unfold State.toPort
  split_ifs
  · exact hp s s.cores s.remote _ s.fabOut s.nextId
  · exact hp s s.cores s.remote s.fabIn _ s.nextId

theorem fabSend_frame (s : State) (core : Nat) (r : Rights) (dev : Nat) (kind : BitVec 5) (es : List Elem) (owners : List Nat) (wc so : Bool) (line : Nat)
    (asker : Option Asker) (bnd : Bool) : p (s.fabSend core r dev kind es owners wc so line asker bnd) = p s := by
  unfold State.fabSend
  dsimp only
  rw [toPort_frame hp]
  have hcount := countPath_frame hp s.newId.2 core r dev (s.pathNo (core / 256) s.newId.1)
  refine (hp (s.newId.2.countPath core r dev (s.pathNo (core / 256) s.newId.1)) _ _ _ _ _).trans (hcount.trans ?_)
  exact hp s s.cores s.remote s.fabIn s.fabOut _

theorem drainLine_frame (s : State) (core : Nat) (l : WcLine) : p (s.drainLine core l) = p s := by
  unfold State.drainLine
  split
  · exact hp s _ s.remote s.fabIn s.fabOut s.nextId
  · exact (fabSend_frame hp ..).trans (hp s _ s.remote s.fabIn s.fabOut s.nextId)

theorem drainFrag_frame (s : State) (n : Nat) : p (s.drainFrag n) = p s :=  by
  unfold State.drainFrag
  exact foldl_frame p (fun (s : State) (l : Nat × WcLine) => s.drainLine l.1 l.2) (fun s l => drainLine_frame hp s l.1 l.2) (s.wcLinesOf n) s
end

/-! #### What an update of a group's records leaves (R146) -/

/-- A part of the state that an update of a group's records leaves. -/
def Unrecorded {γ : Type} (p : State → γ) : Prop := ∀ (s : State) groups net, p { s with groups := groups, net := net } = p s

section
variable {γ : Type} {p : State → γ} (hp : Unrecorded p)
include hp

theorem splitUpdate_frame (s : State) (n : Nat) (u : SplitUpd) : p (s.splitUpdate n u) = p s := by
  unfold State.splitUpdate
  dsimp only
  split_ifs
  · exact hp s _ s.net
  · exact hp s s.groups _

theorem giveBack_frame (s : State) (n : Nat) (es : List Nat) : p (s.giveBack n es) = p s := by
  unfold State.giveBack
  split_ifs
  · rfl
  · exact splitUpdate_frame hp ..
end

/-! #### What an event record leaves (R348) -/

/-- A part of the state that an event record leaves. -/
def Unreported {γ : Type} (p : State → γ) : Prop :=
  ∀ (s : State) mem keys err frags watches parts out,
    p { s with mem := mem, memKeys := keys, memErr := err, frags := frags, awayWatches := watches, parts := parts, hostOut := out } = p s

section
variable {γ : Type} {p : State → γ} (hp : Unreported p)
include hp

theorem writeMem_frame (s : State) (cells : List (Nat × Byte)) : p (s.writeMem cells) = p s := hp s _ _ _ _ _ s.parts s.hostOut

theorem setPart_frame (s : State) (n : Nat) (x : Part) : p (s.setPart n x) = p s := hp s s.mem s.memKeys s.memErr s.frags s.awayWatches _ s.hostOut

theorem msix_frame (s : State) (part vector : Nat) : p (s.msix part vector) = p s := hp s s.mem s.memKeys s.memErr s.frags s.awayWatches s.parts _

theorem writeRecord_frame (s : State) (part : Nat) (r : Nat → BitVec 256) : p (s.writeRecord part r) = p s := by
  unfold State.writeRecord
  dsimp only
  split_ifs
  · rw [msix_frame hp, setPart_frame hp, writeMem_frame hp]
  · rw [setPart_frame hp, writeMem_frame hp]

theorem reportLost_frame (s : State) (part : Nat) : p (s.reportLost part) = p s := by
  unfold State.reportLost
  dsimp only
  split_ifs
  · rw [setPart_frame hp, writeRecord_frame hp]
  · rfl

theorem groupEvent_frame (s : State) (group : Nat) (code cause cause2 : BitVec 8) (home : Nat) (addr info : DWord) :
    p (s.groupEvent group code cause cause2 home addr info) = p s := by
  unfold State.groupEvent State.raiseEvent
  dsimp only
  split_ifs
  · rw [writeRecord_frame hp, reportLost_frame hp]
  · rw [setPart_frame hp, reportLost_frame hp]
end

theorem woken_writeMem (s : State) (cells : List (Nat × Byte)) (m : Nat) : Woken (s.frag m) ((s.writeMem cells).frag m) := woken_setMem s _ m

theorem frag_setPart (s : State) (n : Nat) (x : Part) (m : Nat) : (s.setPart n x).frag m = s.frag m := rfl

theorem frag_msix (s : State) (part vector m : Nat) : (s.msix part vector).frag m = s.frag m := rfl

theorem woken_writeRecord (s : State) (part : Nat) (r : Nat → BitVec 256) (m : Nat) : Woken (s.frag m) ((s.writeRecord part r).frag m) := by
  unfold State.writeRecord
  dsimp only
  split_ifs
  · rw [frag_msix, frag_setPart]
    exact woken_writeMem ..
  · rw [frag_setPart]
    exact woken_writeMem ..

theorem woken_reportLost (s : State) (part m : Nat) : Woken (s.frag m) ((s.reportLost part).frag m) := by
  unfold State.reportLost
  dsimp only
  split_ifs
  · rw [frag_setPart]
    exact woken_writeRecord ..
  · exact .refl _

/-- R163, R348: an event record wakes watches, and changes no fragment else. -/
theorem woken_groupEvent (s : State) (group : Nat) (code cause cause2 : BitVec 8) (home : Nat) (addr info : DWord) (m : Nat) :
    Woken (s.frag m) ((s.groupEvent group code cause cause2 home addr info).frag m) := by
  unfold State.groupEvent State.raiseEvent
  dsimp only
  split_ifs
  · exact (woken_reportLost ..).trans (woken_writeRecord ..)
  · rw [frag_setPart]
    exact woken_reportLost ..

/-! #### The end of a fragment (R161, R237) -/

/-- A fragment that has ended: its entry is free, or is held until its releases are complete. -/
def Ended (f : Frag) : Prop := f = Frag.free ∨ (f.state = .ended ∧ f.own = 0 ∧ f.leave = none ∧ f.due = none)

theorem Ended.woken {f g : Frag} (h : Ended f) (hg : Woken f g) : Ended g := by
  have hw : waits f = false := by
    rcases h with rfl | ⟨hst, -⟩
    · rfl
    · simp [waits, hst]
  rw [hg.2 hw]
  exact h

theorem Ended.released {f : Frag} (h : f.state = .ended ∧ f.own = 0 ∧ f.leave = none ∧ f.due = none) : Ended { f with resident := false, turn := 0 } := .inr h

theorem Ended.undue {f : Frag} (h : Ended f) : f.leave = none ∧ f.due = none := by
  rcases h with rfl | ⟨-, -, hl, hd⟩
  · exact ⟨rfl, rfl⟩
  · exact ⟨hl, hd⟩

section
variable (s : State) (n : Nat)

theorem dropGrant_frag_other (m : Nat) (h : m ≠ n) : (s.dropGrant n).frag m = s.frag m := by
  unfold State.dropGrant
  split_ifs
  · rfl
  · rw [giveBack_frame (p := fun u => u.frag m) fun _ _ _ => rfl]
    exact State.frag_setFrag_other _ _ _ _ h

theorem dropGrant_frag : ∃ g, (s.dropGrant n).frag n = { s.frag n with grant := g } := by
  unfold State.dropGrant
  split_ifs
  · exact ⟨(s.frag n).grant, rfl⟩
  · rw [giveBack_frame (p := fun u => u.frag n) fun _ _ _ => rfl, State.frag_setFrag_same]
    exact ⟨_, rfl⟩

theorem dropSfu_frags : (s.dropSfu n).frags = s.frags := by
  unfold State.dropSfu
  dsimp only
  split_ifs <;> rfl

theorem drainFrag_frags : (s.drainFrag n).frags = s.frags := drainFrag_frame (fun _ _ _ _ _ _ => rfl) s n

/-- R161: a fragment all of whose lanes retire, before it ends. -/
def retiring : State :=
  (((((s.setFrag n { s.frag n with own := without (s.frag n).own (s.frag n).own, regs := { (s.frag n).regs with m := (s.frag n).regs.m.setIfInBounds 0 0x0#96 } }).splitUpdate n
    (.retire (s.frag n).own)).dropGrant n).unask n).dropSfu n).drainFrag n
/-- R161: such a fragment once it has ended. -/
def endedFrag : Frag :=
  { (retiring s n).frag n with
    state := .ended, trap := none, due := none, msync := none, stopping := false, leave := none, grp := none, pfx := none, held := false, counted := false, outs := [] }

theorem retireLanes_all : s.retireLanes n (s.frag n).own = (((retiring s n).setFrag n (endedFrag s n)).release n).freeEnded n := if_pos (without_self _)

theorem retiring_frag (m : Nat) : (retiring s n).frag m =
    ((((s.setFrag n { s.frag n with own := without (s.frag n).own (s.frag n).own, regs := { (s.frag n).regs with m := (s.frag n).regs.m.setIfInBounds 0 0x0#96 } }).splitUpdate n
      (.retire (s.frag n).own)).dropGrant n)).frag m := by
  rw [retiring, State.frag, drainFrag_frags, dropSfu_frags]
  rfl

theorem retiring_other (m : Nat) (h : m ≠ n) : (retiring s n).frag m = s.frag m := by
  rw [retiring_frag, dropGrant_frag_other _ _ _ h, splitUpdate_frame (p := fun u => u.frag m) fun _ _ _ => rfl]
  exact State.frag_setFrag_other _ _ _ _ h

theorem retiring_own : ((retiring s n).frag n).own = 0 := by
  rw [retiring_frag]
  obtain ⟨g, hg⟩ := dropGrant_frag ((s.setFrag n _).splitUpdate n (.retire (s.frag n).own)) n
  rw [hg, splitUpdate_frame (p := fun u => u.frag n) fun _ _ _ => rfl, State.frag_setFrag_same]
  exact without_self _

theorem freeEnded_frag : (s.freeEnded n).frag n = Frag.free ∨ (s.freeEnded n).frag n = s.frag n := by
  unfold State.freeEnded
  dsimp only
  split_ifs
  · exact .inl (State.frag_setFrag_same ..)
  · exact .inl (State.frag_setFrag_same ..)
  · exact .inr rfl

theorem freeEnded_frag_other (m : Nat) (h : m ≠ n) : (s.freeEnded n).frag m = s.frag m := by
  unfold State.freeEnded
  dsimp only
  split_ifs
  · exact State.frag_setFrag_other _ _ _ _ h
  · rw [State.frag_setFrag_other _ _ _ _ h, splitUpdate_frame (p := fun u => u.frag m) fun _ _ _ => rfl]
  · rfl

theorem endedFrag_ended : (endedFrag s n).state = .ended ∧ (endedFrag s n).own = 0 ∧ (endedFrag s n).leave = none ∧ (endedFrag s n).due = none := by
  have hown := retiring_own s n
  unfold endedFrag
  generalize (retiring s n).frag n = f at hown
  exact ⟨rfl, hown, rfl, rfl⟩

theorem release_frag : (s.release n).frag n = { s.frag n with resident := false, turn := 0 } := KMap.get_ins_same Frag.free s.frags n _

theorem release_frag_other (m : Nat) (h : m ≠ n) : (s.release n).frag m = s.frag m := KMap.get_ins_other Frag.free s.frags n m _ h

/-- R161, R347: a fragment whose lanes all retire ends. -/
theorem ended_retireLanes : Ended ((s.retireLanes n (s.frag n).own).frag n) := by
  rw [retireLanes_all]
  rcases freeEnded_frag (((retiring s n).setFrag n (endedFrag s n)).release n) n with h | h
  · exact .inl h
  · rw [h, release_frag, State.frag_setFrag_same]
    exact Ended.released (endedFrag_ended s n)

theorem retireLanes_other (m : Nat) (h : m ≠ n) : (s.retireLanes n (s.frag n).own).frag m = s.frag m := by
  rw [retireLanes_all, freeEnded_frag_other _ _ _ h]
  rw [release_frag_other _ _ _ h, State.frag_setFrag_other _ _ _ _ h, retiring_other s n m h]

/-- The fragment at issue and the grids. -/
def curGrids (s : State) : Nat × KMap Grid := (s.cur, s.grids)

theorem curGrids_release : curGrids (s.release n) = curGrids s := rfl

theorem curGrids_setFrag (f : Frag) : curGrids (s.setFrag n f) = curGrids s := rfl

theorem curGrids_dropGrant : curGrids (s.dropGrant n) = curGrids s := by
  unfold State.dropGrant
  split_ifs
  · rfl
  · exact giveBack_frame (p := curGrids) (fun _ _ _ => rfl) ..

theorem curGrids_freeEnded : curGrids (s.freeEnded n) = curGrids s := by
  unfold State.freeEnded
  dsimp only
  split_ifs
  · rfl
  · exact splitUpdate_frame (p := curGrids) (fun _ _ _ => rfl) ..
  · rfl

theorem curGrids_retiring : curGrids (retiring s n) = curGrids s := by
  have hsfu : ∀ u : State, curGrids (u.dropSfu n) = curGrids u := fun u => by
    unfold State.dropSfu
    dsimp only
    split_ifs <;> rfl
  rw [retiring, drainFrag_frame (p := curGrids) fun _ _ _ _ _ _ => rfl, hsfu]
  exact (curGrids_dropGrant ..).trans (splitUpdate_frame (p := curGrids) (fun _ _ _ => rfl) ..)

theorem curGrids_retireLanes : curGrids (s.retireLanes n (s.frag n).own) = curGrids s := by
  rw [retireLanes_all, curGrids_freeEnded, curGrids_release, curGrids_setFrag, curGrids_retiring]
end

/-! #### Taking a fault (R339, R340) -/

section
variable (s : State) (ti0 rpc pc : DWord) (r : FaultRec)

/-- R339: the fragment at issue with TRAPINFO set and its chain group at an end. -/
def faulted : Frag :=
  { s.f with
    ti := #v[ti0, r.ti1, r.ti2, r.ti3], grp := none, pfx := none, chain := false, park := false, held := false, counted := false, sent := 0, kept := []
    leave := none }
/-- R339: the state once what the word awaited is given up. -/
def givenUp : State := ((s.setFrag s.cur (faulted s ti0 r)).unask s.cur).dropGrant s.cur
/-- R339: what the trap is to report. -/
def dueOf : TrapDue := ⟨rpc, r.code, r.swcode, r.ti3.getLsbD 63, pc, r.addr⟩
/-- R339: the fragment parks, its trap due. -/
def trapDue : Frag := { faulted s ti0 r with due := some (dueOf rpc pc r), parked := true }

theorem unask_frag (n m : Nat) : (s.unask n).frag m = s.frag m := rfl

section
variable (hgrant : s.g.dev = s.fabric.toNat ∨ s.f.grant = .none)
include hgrant

theorem givenUp_eq : ∃ fs rem ans, givenUp s ti0 r = { s with frags := fs, remote := rem, answers := ans } ∧ (givenUp s ti0 r).f = faulted s ti0 r := by
  have hfrag : ((s.setFrag s.cur (faulted s ti0 r)).unask s.cur).frag s.cur = faulted s ti0 r := KMap.get_ins_same ..
  by_cases hk : s.keeps s.g = true
  · have hkeep : givenUp s ti0 r = (s.setFrag s.cur (faulted s ti0 r)).unask s.cur := if_pos (by rw [hfrag]; exact hk)
    rw [hkeep]
    exact ⟨_, _, _, rfl, hfrag⟩
  · have hnone : s.f.grant = .none := hgrant.resolve_left fun h => hk (beq_iff_eq.2 h)
    have hgone : givenUp s ti0 r = ((s.setFrag s.cur (faulted s ti0 r)).unask s.cur).setFrag s.cur { faulted s ti0 r with grant := .none } := by
      have hres : ((s.setFrag s.cur (faulted s ti0 r)).unask s.cur).reserved s.cur = [] := by
        rw [State.reserved, hfrag]
        refine (if_neg hk).trans ?_
        rw [show (faulted s ti0 r).grant = .none from hnone]
      rw [givenUp, State.dropGrant, hfrag, hres]
      exact if_neg hk
    rw [hgone]
    refine ⟨_, _, _, rfl, (KMap.get_ins_same ..).trans ?_⟩
    rw [← show (faulted s ti0 r).grant = .none from hnone]

omit hgrant in
/-- R339: a fault of a fragment that may park at once, with no division due. -/
theorem raise_eq (hleave : s.f.leave = none) (hstill : Still s) : ∃ inTrap : BitVec 8, s.raise s.cur ti0 rpc pc r =
    if r.code = 0x10#8 then
      if (givenUp s ti0 r).keeps ((givenUp s ti0 r).group s.f.group) then
        (givenUp s ti0 r).gridEnd ((givenUp s ti0 r).team ((givenUp s ti0 r).group s.f.group).team).grid s.f.home s.f.group inTrap r.addr pc
      else ((givenUp s ti0 r).splitUpdate s.cur (.lease inTrap s.f.home r.addr pc)).retireLanes s.cur s.f.own
    else (givenUp s ti0 r).setFrag s.cur { trapDue s ti0 rpc pc r with grant := ((givenUp s ti0 r).frag s.cur).grant } := by
  have hleave' : (s.frag s.cur).leave = none := hleave
  unfold State.raise
  cases hg : (s.frag s.cur).grp with
  | none =>
    simp only [hleave', hg, Option.isNone_none, if_true]
    exact ⟨_, rfl⟩
  | some g =>
    simp only [hleave', hg, hstill.2 g hg, Option.isNone_none, if_true]
    exact ⟨_, rfl⟩

/-- R339, R340: the fragment parks for a trap. -/
theorem raise_traps (hleave : s.f.leave = none) (hstill : Still s) (hcode : r.code ≠ 0x10#8) :
    s.raise s.cur ti0 rpc pc r = (givenUp s ti0 r).setFrag s.cur (trapDue s ti0 rpc pc r) := by
  have hf : (givenUp s ti0 r).frag s.cur = faulted s ti0 r := by
    obtain ⟨fs, rem, ans, he, hf⟩ := givenUp_eq s ti0 r hgrant
    rw [← hf, State.f, he]
  obtain ⟨_, h⟩ := raise_eq s ti0 rpc pc r hleave hstill
  rw [h, if_neg hcode, hf]
  rfl
end
end

/-! #### Trap entry (R341, R343) -/

section
variable (u : State) (n : Nat) (d : TrapDue)

theorem settle_due (houts : (u.frag n).outs = []) (halive : (u.frag n).alive = true) (hleave : (u.frag n).leave = none) (hdue : (u.frag n).due = some d) :
    u.settle n = u.enterTrap n d := by
  have hlive : ¬((u.frag n).outs ≠ [] ∨ (u.frag n).alive = false) := by simp [houts, halive]
  rw [State.settle, if_neg hlive, hleave, hdue]

/-- R341: a fragment at the trap entry. -/
def atEntry (f : Frag) (ent : DWord) : Frag :=
  let r' := { f.regs with wbV := f.regs.wbV + 8, wbS := f.regs.wbS + 8 }
  { f with
    due := none, gtcmp := BitVec.allOnes 64, pc := ent, parked := false
    trap := some ⟨d.rpc, f.regs.wbV, f.regs.wbS, f.regs.mask 0, f.regs.cflags, d.code, d.swcode, d.mig⟩
    regs := r'.writeS (r'.sEnt 60#6) ⟨d.swcode.setWidth 64 * 256 + d.code.setWidth 64, false, false⟩ }

theorem enterTrap_enters (htrap : (u.frag n).trap = none) (hent : (u.part (u.group (u.frag n).group).rights.part).trapent ≠ 0)
    (hwindow : (u.frag n).regs.wbV.toNat ≤ 184 ∧ (u.frag n).regs.wbS.toNat ≤ 56) :
    u.enterTrap n d = u.setFrag n (atEntry d (u.frag n) (u.part (u.group (u.frag n).group).rights.part).trapent) := by
  rw [State.enterTrap, htrap]
  exact (if_neg hent).trans (if_neg (by omega))

theorem enterTrap_ends (h : (u.frag n).trap ≠ none ∨ (u.part (u.group (u.frag n).group).rights.part).trapent = 0 ∨
    184 < (u.frag n).regs.wbV.toNat ∨ 56 < (u.frag n).regs.wbS.toNat) : ∃ c c2 addr rpc, u.enterTrap n d = u.fragmentEnd n c c2 addr rpc := by
  cases htrap : (u.frag n).trap with
  | some tr => exact ⟨tr.code, d.code, d.addr, tr.rpc, by rw [State.enterTrap, htrap]⟩
  | none =>
    rw [State.enterTrap, htrap]
    dsimp only
    by_cases hent : (u.part (u.group (u.frag n).group).rights.part).trapent = 0
    · exact ⟨_, _, _, _, if_pos hent⟩
    · have hwindow := (h.resolve_left (not_not.2 htrap)).resolve_left hent
      exact ⟨_, _, _, _, (if_neg hent).trans (if_pos hwindow)⟩

theorem ended_fragmentEnd (c c2 : BitVec 8) (addr rpc : DWord) : Ended ((u.fragmentEnd n c c2 addr rpc).frag n) ∧
    curGrids (u.fragmentEnd n c c2 addr rpc) = curGrids u :=
  ⟨(ended_retireLanes u n).woken (woken_groupEvent ..), (groupEvent_frame (p := curGrids) (fun _ _ _ _ _ _ _ _ => rfl) ..).trans (curGrids_retireLanes u n)⟩

theorem curGrids_endTurnOf : curGrids (u.endTurnOf n) = curGrids u := by
  unfold State.endTurnOf
  dsimp only
  split_ifs <;> rfl

theorem endTurnOf_frag : (u.endTurnOf n).frag n = { u.frag n with turn :=
    if (u.frag n).parked || (u.frag n).held || (u.frag n).grp.isNone && (u.frag n).pfx.isNone && decide (max 1 (u.group (u.frag n).group).weight ≤ (u.frag n).turn)
    then 0 else (u.frag n).turn } := by
  unfold State.endTurnOf
  dsimp only
  by_cases hturn : (u.frag n).turn = 0
  · rw [if_neg (by simp [hturn]), ite_eq_left_iff.2 fun _ => hturn]
    generalize u.frag n = f at hturn
    rw [← hturn]
  · by_cases hspent : ((u.frag n).parked || (u.frag n).held || (u.frag n).grp.isNone && (u.frag n).pfx.isNone &&
        decide (max 1 (u.group (u.frag n).group).weight ≤ (u.frag n).turn)) = true
    · rw [if_pos (by rw [hspent]; simpa using hturn), if_pos hspent]
      exact KMap.get_ins_same ..
    · rw [if_neg (by rw [Bool.eq_false_iff.2 hspent]; exact Bool.false_ne_true), if_neg hspent]

theorem ended_endTurnOf (h : Ended (u.frag n)) : Ended ((u.endTurnOf n).frag n) := by
  rw [endTurnOf_frag]
  rcases h with h | h
  · rw [h]
    exact .inl (congrArg (fun x => { Frag.free with turn := x }) (ite_self 0))
  · exact .inr h

/-- R63: a fragment with nothing due is as it was once it has settled, but that its park ends. -/
theorem settle_undue (h : (u.frag n).leave = none ∧ (u.frag n).due = none) : curGrids (u.settle n) = curGrids u ∧
    ((u.settle n).frag n = u.frag n ∨ (u.settle n).frag n = { u.frag n with parked := false }) := by
  rcases settle_undivided u n (.inr h) with hs | hs
  · rw [hs]
    exact ⟨rfl, .inl rfl⟩
  · rw [hs]
    exact ⟨rfl, .inr (State.frag_setFrag_same ..)⟩

theorem ended_settle (h : Ended (u.frag n)) : Ended ((u.settle n).frag n) ∧ curGrids (u.settle n) = curGrids u := by
  obtain ⟨hcur, hs⟩ := settle_undue u n h.undue
  refine ⟨?_, hcur⟩
  rcases hs with hs | hs
  · rw [hs]
    exact h
  · rw [hs]
    rcases h with h | h
    · rw [h]
      exact .inl rfl
    · exact .inr h
end

/-! #### The end of a grid (R347) -/

/-- R347: the live grids that descend from a grid, stopped. -/
def withStopped (u : State) (top : Nat) : State :=
  { u with grids := u.grids.map fun (e : Nat × Grid) => (e.1, if e.2.alive && u.descends 11 e.1 top then { e.2 with stopped := true } else e.2) }

/-- Neither a division nor a trap is due of a fragment. -/
def Undue (f : Frag) : Prop := f.leave = none ∧ f.due = none

theorem Undue.woken {f g : Frag} (h : Undue f) (hg : Woken f g) : Undue g := by
  obtain ⟨st, rfl⟩ := hg.1
  exact h

section
variable (u : State) (n m : Nat) (h : Undue (u.frag n))
include h

theorem undue_stopFrag : Undue ((u.stopFrag m).frag n) ∧ curGrids (u.stopFrag m) = curGrids u := by
  unfold State.stopFrag
  dsimp only
  split_ifs
  · refine ⟨?_, rfl⟩
    by_cases hm : n = m
    · subst hm
      rw [State.frag_setFrag_same]
      exact h
    · rw [State.frag_setFrag_other _ _ _ _ hm]
      exact h
  · refine ⟨?_, curGrids_retireLanes u m⟩
    by_cases hm : n = m
    · subst hm
      exact (ended_retireLanes u n).undue
    · rw [retireLanes_other u m n hm]
      exact h

theorem undue_tell (upd : SplitUpd) : Undue ((u.tell m upd).frag n) ∧ curGrids (u.tell m upd) = curGrids u := by
  unfold State.tell State.splitOut
  dsimp only
  split_ifs
  · exact ⟨h, rfl⟩
  · exact ⟨h, rfl⟩

omit h in
theorem undue_foldl_stop (xs : List (Nat × Frag)) (u : State) (h : Undue (u.frag n)) :
    let v := xs.foldl (fun s e => if s.elsewhere (s.frag e.1) then s.tell e.1 .stop else s.stopFrag e.1) u
    Undue (v.frag n) ∧ curGrids v = curGrids u := by
  induction xs generalizing u with
  | nil => exact ⟨h, rfl⟩
  | cons e xs ih =>
    have hstep : Undue ((if u.elsewhere (u.frag e.1) then u.tell e.1 .stop else u.stopFrag e.1).frag n) ∧
        curGrids (if u.elsewhere (u.frag e.1) then u.tell e.1 .stop else u.stopFrag e.1) = curGrids u := by
      split_ifs
      · exact undue_tell u n e.1 h _
      · exact undue_stopFrag u n e.1 h
    obtain ⟨hv, hc⟩ := ih _ hstep.1
    exact ⟨hv, hc.trans hstep.2⟩

/-- R347: the grid that ends is stopped. -/
theorem gridEnd_stops (top home group : Nat) (cause2 : BitVec 8) (addr pc : DWord) (halive : (u.grid top).alive = true) :
    let v := u.gridEnd top home group cause2 addr pc
    Undue (v.frag n) ∧ v.cur = u.cur ∧ (v.grids.get Grid.none top).stopped = true := by
  intro v
  obtain ⟨hundue, hgrids⟩ :=
    undue_foldl_stop n (u.frags.filter fun e => e.2.alive && u.descends 11 (u.team (u.group e.2.group).team).grid top) (withStopped u top) h
  have hv : curGrids v = curGrids (withStopped u top) := (groupEvent_frame (p := curGrids) (fun _ _ _ _ _ _ _ _ => rfl) ..).trans hgrids
  refine ⟨hundue.woken (woken_groupEvent ..), congrArg Prod.fst hv, ?_⟩
  rw [show v.grids = (withStopped u top).grids from congrArg Prod.snd hv]
  have hget := get_map_values Grid.none (fun k (g : Grid) => if g.alive && u.descends 11 k top then { g with stopped := true } else g) (fun _ => rfl) u.grids top
  have hself : u.descends 11 top top = true := by simp [State.descends]
  refine (congrArg Grid.stopped hget).trans ?_
  have hlive : (u.grids.get Grid.none top).alive = true := halive
  simp only [hlive, hself, Bool.and_self, if_true]
end

/-! #### The fault of the word at issue -/

section
variable (s : State) (r : FaultRec)

/-- R339: where the fragment resumes. -/
def resumeAt : DWord := if r.next then s.f.pc + 4 else s.f.rpc
/-- R339: the state once the trap is due. -/
def parkedForTrap : State := (givenUp s s.f.ti0 r).setFrag s.cur (trapDue s s.f.ti0 (resumeAt s r) s.f.pc r)

/-- R343: the fragment at the trap entry. -/
def entered : Frag := atEntry (dueOf (resumeAt s r) s.f.pc r) (trapDue s s.f.ti0 (resumeAt s r) s.f.pc r) (s.part s.g.rights.part).trapent

variable (halive : s.f.alive = true) (hstill : Still s) (hleave : s.f.leave = none)
include halive hstill hleave

section
variable (hgrant : s.g.dev = s.fabric.toNat ∨ s.f.grant = .none) (hcode : r.code ≠ 0x10#8)
include hgrant hcode

omit halive hstill hleave hgrant hcode in
theorem with_regs {e : Frag} {g : Regs} {x : Nat} (h : e.regs = g) : { e with turn := x } = { e with regs := g, turn := x } := by rw [← h]

theorem takeFault_traps : s.takeFault r =
    ((parkedForTrap s r).enterTrap s.cur (dueOf (resumeAt s r) s.f.pc r)).endTurnOf s.cur := by
  have hf : (parkedForTrap s r).frag s.cur = trapDue s s.f.ti0 (resumeAt s r) s.f.pc r := State.frag_setFrag_same ..
  rw [State.takeFault, State.faultOn, raise_traps s s.f.ti0 _ s.f.pc r hgrant hleave hstill hcode]
  exact congrArg (State.endTurnOf · s.cur) (settle_due (parkedForTrap s r) s.cur _ (by rw [hf]; exact hstill.1) (by rw [hf]; exact halive) (by rw [hf]; rfl) (by rw [hf]; rfl))

omit halive hstill hleave hcode in
theorem parkedForTrap_eq : ∃ fs rem ans, parkedForTrap s r = { s with frags := fs, remote := rem, answers := ans } := by
  obtain ⟨fs, rem, ans, h, -⟩ := givenUp_eq s s.f.ti0 r hgrant
  rw [parkedForTrap, h]
  exact ⟨_, _, _, rfl⟩

/-- R340: a fault that cannot be taken ends the fragment. -/
theorem takeFault_ends (h : s.f.trap ≠ none ∨ (s.part s.g.rights.part).trapent = 0 ∨ 184 < s.f.regs.wbV.toNat ∨ 56 < s.f.regs.wbS.toNat) :
    Ended (s.takeFault r).f := by
  have hf : (parkedForTrap s r).frag s.cur = trapDue s s.f.ti0 (resumeAt s r) s.f.pc r := State.frag_setFrag_same ..
  obtain ⟨fs, rem, ans, heq⟩ := parkedForTrap_eq s r hgrant
  have hpart : (parkedForTrap s r).part ((parkedForTrap s r).group s.f.group).rights.part = s.part s.g.rights.part := by
    rw [heq]
    rfl
  obtain ⟨c, c2, addr, rpc, hend⟩ := enterTrap_ends (parkedForTrap s r) s.cur (dueOf (resumeAt s r) s.f.pc r) (by
    rw [hf]
    exact h.imp id (Or.imp (fun he => (congrArg Part.trapent hpart).trans he) id))
  obtain ⟨hended, hcur⟩ := ended_fragmentEnd (parkedForTrap s r) s.cur c c2 addr rpc
  have hcur' : (s.takeFault r).cur = s.cur := by
    rw [takeFault_traps s r halive hstill hleave hgrant hcode, hend]
    refine (congrArg Prod.fst ((curGrids_endTurnOf ..).trans hcur)).trans ?_
    rw [heq]
    rfl
  rw [State.f, hcur', takeFault_traps s r halive hstill hleave hgrant hcode, hend]
  exact ended_endTurnOf _ _ hended

/-- R341, R343: trap entry. -/
theorem takeFault_enters (htrap : s.f.trap = none) (hent : (s.part s.g.rights.part).trapent ≠ 0)
    (hwindow : s.f.regs.wbV.toNat ≤ 184 ∧ s.f.regs.wbS.toNat ≤ 56) :
    s.takeFault r = ((parkedForTrap s r).setFrag s.cur
      (atEntry (dueOf (resumeAt s r) s.f.pc r) (trapDue s s.f.ti0 (resumeAt s r) s.f.pc r) (s.part s.g.rights.part).trapent)).endTurnOf s.cur := by
  have hf : (parkedForTrap s r).frag s.cur = trapDue s s.f.ti0 (resumeAt s r) s.f.pc r := State.frag_setFrag_same ..
  obtain ⟨fs, rem, ans, heq⟩ := parkedForTrap_eq s r hgrant
  have hpart : (parkedForTrap s r).part ((parkedForTrap s r).group s.f.group).rights.part = s.part s.g.rights.part := by
    rw [heq]
    rfl
  have hgroup : (trapDue s s.f.ti0 (resumeAt s r) s.f.pc r).group = s.f.group := rfl
  rw [takeFault_traps s r halive hstill hleave hgrant hcode, enterTrap_enters _ _ _ (by rw [hf]; exact htrap)
    (by rw [hf, hgroup, hpart]; exact hent) (by rw [hf]; exact hwindow), hf, hgroup, hpart]
end

variable (hdue : s.f.due = none) (hcode : r.code = 0x10#8)
include hdue hcode

omit halive in
/-- R347: LEASE in a group of this device stops the grid. -/
theorem lease_stops (hdev : s.g.dev = s.fabric.toNat) (hgrid : (s.grid (s.team s.g.team).grid).alive = true) :
    ((s.takeFault r).grid (s.team s.g.team).grid).stopped = true := by
  obtain ⟨fs, rem, ans, heq, hf⟩ := givenUp_eq s s.f.ti0 r (.inl hdev)
  obtain ⟨inTrap, hraise⟩ := raise_eq s s.f.ti0 (resumeAt s r) s.f.pc r hleave hstill
  have hkeeps : (givenUp s s.f.ti0 r).keeps ((givenUp s s.f.ti0 r).group s.f.group) = true := by
    rw [heq]
    exact beq_iff_eq.2 hdev
  have htop : ((givenUp s s.f.ti0 r).team ((givenUp s s.f.ti0 r).group s.f.group).team).grid = (s.team s.g.team).grid := by
    rw [heq]
    rfl
  rw [if_pos hcode, if_pos hkeeps, htop] at hraise
  have hundue : Undue ((givenUp s s.f.ti0 r).frag s.cur) := by
    have hcur : (givenUp s s.f.ti0 r).cur = s.cur := by rw [heq]
    rw [← hcur]
    exact (congrArg Undue hf).mpr ⟨rfl, hdue⟩
  obtain ⟨hv, hcur, hstopped⟩ := gridEnd_stops (givenUp s s.f.ti0 r) s.cur hundue (s.team s.g.team).grid s.f.home s.f.group inTrap r.addr s.f.pc (by
    rw [heq]
    exact hgrid)
  rw [← hraise] at hv hstopped
  have hgrids : curGrids (s.takeFault r) = curGrids (s.raise s.cur s.f.ti0 (resumeAt s r) s.f.pc r) :=
    (curGrids_endTurnOf ..).trans (settle_undue _ s.cur hv).1
  rw [State.grid, show (s.takeFault r).grids = _ from congrArg Prod.snd hgrids]
  exact hstopped

omit halive hdue in
/-- R347: LEASE in a group of another device ends the fragment. -/
theorem lease_ends (hdev : s.g.dev ≠ s.fabric.toNat) (hgrant : s.f.grant = .none) : Ended (s.takeFault r).f := by
  obtain ⟨fs, rem, ans, heq, hf⟩ := givenUp_eq s s.f.ti0 r (.inr hgrant)
  obtain ⟨inTrap, hraise⟩ := raise_eq s s.f.ti0 (resumeAt s r) s.f.pc r hleave hstill
  have hkeeps : ¬(givenUp s s.f.ti0 r).keeps ((givenUp s s.f.ti0 r).group s.f.group) = true := by
    rw [heq]
    exact fun h => hdev (beq_iff_eq.1 h)
  have hcur : (givenUp s s.f.ti0 r).cur = s.cur := by rw [heq]
  have hown : (((givenUp s s.f.ti0 r).splitUpdate s.cur (.lease inTrap s.f.home r.addr s.f.pc)).frag s.cur).own = s.f.own := by
    rw [splitUpdate_frame (p := fun u => u.frag s.cur) fun _ _ _ => rfl, ← hcur]
    exact (congrArg Frag.own hf :)
  rw [if_pos hcode, if_neg hkeeps, ← hown] at hraise
  have hended := ended_retireLanes ((givenUp s s.f.ti0 r).splitUpdate s.cur (.lease inTrap s.f.home r.addr s.f.pc)) s.cur
  have hkept := curGrids_retireLanes ((givenUp s s.f.ti0 r).splitUpdate s.cur (.lease inTrap s.f.home r.addr s.f.pc)) s.cur
  rw [← hraise] at hended hkept
  obtain ⟨hsettled, hcur'⟩ := ended_settle _ _ hended
  have hback : (s.takeFault r).cur = s.cur := by
    have hsame : curGrids (s.takeFault r) = curGrids (givenUp s s.f.ti0 r) :=
      (curGrids_endTurnOf ..).trans (hcur'.trans (hkept.trans (splitUpdate_frame (p := curGrids) (fun _ _ _ => rfl) ..)))
    exact (congrArg Prod.fst hsame).trans hcur
  rw [State.f, hback]
  exact ended_endTurnOf _ _ hsettled
end

theorem rpc_eq (f : Frag) : f.rpc = if f.pfx = none then f.pc else f.pc - 4 := by
  unfold Frag.rpc
  cases f.pfx <;> rfl

theorem zero_append (w : Word) : (0x00000000#32 : Word) ++ w = w.setWidth 64 := by
  refine BitVec.eq_of_toNat_eq ?_
  rw [BitVec.toNat_append, BitVec.toNat_setWidth, Nat.mod_eq_of_lt (by have := w.isLt; omega)]
  simp

/-- R343: s60 of the trap's window. -/
theorem trapCode_eq (sw : BitVec 12) (code : BitVec 8) :
    (sw.setWidth 64 * 256 + code.setWidth 64 : DWord) = BitVec.ofNat 64 (256 * sw.toNat + code.toNat) := by
  have hsw := sw.isLt
  have hcode := code.isLt
  apply BitVec.eq_of_toNat_eq
  have h256 : BitVec.toNat (256 : DWord) = 256 := rfl
  rw [BitVec.toNat_add, BitVec.toNat_mul, BitVec.toNat_setWidth, BitVec.toNat_setWidth, h256, BitVec.toNat_ofNat]
  omega

theorem sameBut_endTurnOf {s u : State} (h : SameBut s u) (n : Nat) : SameBut s (u.endTurnOf n) := by
  unfold State.endTurnOf
  dsimp only
  split_ifs
  · exact h
  · exact h

/-- R343: the window that a trap slides, with its s60. -/
theorem atEntry_regs (d : TrapDue) (f : Frag) (ent : DWord) (h : f.regs.wbS.toNat ≤ 56) : (atEntry d f ent).regs = { f.regs with
    wbV := f.regs.wbV + 8, wbS := f.regs.wbS + 8,
    s := f.regs.s.put SReg.zero (f.regs.wbS.toNat + 68) ⟨BitVec.ofNat 64 (256 * d.swcode.toNat + d.code.toNat), false, false⟩ } := by
  have hslot : (f.regs.wbS + 8).toNat + BitVec.toNat (60#6) = f.regs.wbS.toNat + 68 := by
    have h8 : BitVec.toNat (8 : BitVec 7) = 8 := rfl
    rw [BitVec.toNat_add, h8]
    simp
    omega
  unfold atEntry
  rw [← hslot, ← trapCode_eq]
  rfl

/-- R63, R343: a fragment at the trap entry ends its turn where its beat slots are used. -/
theorem atEntry_turn (f : Frag) (d : TrapDue) (ent : DWord) (w : Nat) (hheld : f.held = false) (hgrp : f.grp = none) (hpfx : f.pfx = none) :
    (if (atEntry d f ent).parked || (atEntry d f ent).held || (atEntry d f ent).grp.isNone && (atEntry d f ent).pfx.isNone && decide (max 1 w ≤ (atEntry d f ent).turn)
      then 0 else (atEntry d f ent).turn) = if max 1 w ≤ f.turn then 0 else f.turn := by
  simp [atEntry, hheld, hgrp, hpfx]

theorem entered_regs (s : State) (r : FaultRec) (h : s.f.regs.wbS.toNat ≤ 56) : (entered s r).regs = { s.f.regs with
    wbV := s.f.regs.wbV + 8, wbS := s.f.regs.wbS + 8,
    s := s.f.regs.s.put SReg.zero (s.f.regs.wbS.toNat + 68) ⟨BitVec.ofNat 64 (256 * r.swcode.toNat + r.code.toNat), false, false⟩ } :=
  atEntry_regs (dueOf (resumeAt s r) s.f.pc r) (trapDue s s.f.ti0 (resumeAt s r) s.f.pc r) _ h

theorem entered_turn (s : State) (r : FaultRec) (w : Nat) :
    (if (entered s r).parked || (entered s r).held || (entered s r).grp.isNone && (entered s r).pfx.isNone && decide (max 1 w ≤ (entered s r).turn)
      then 0 else (entered s r).turn) = if max 1 w ≤ s.f.turn then 0 else s.f.turn :=
  atEntry_turn (trapDue s s.f.ti0 (resumeAt s r) s.f.pc r) (dueOf (resumeAt s r) s.f.pc r) _ w rfl rfl rfl

/-- Settles O34: a fault parks the fragment, and the trap that is then due is entered or ends it; LEASE ends its grid, or the fragment. -/
theorem trapEntry : Obligations.TrapEntry := by
  intro s r t p old rpc ti0 halive hstill hleave hdue hgrant
  refine ⟨fun hcode htrap hent hV hS => ?_, fun hcode h => ?_, fun hcode => ⟨fun hdev hgrid => ?_, fun hdev => ?_⟩⟩
  · have henter := takeFault_enters s r halive hstill hleave hgrant hcode htrap hent ⟨hV, hS⟩
    obtain ⟨fs, rem, ans, heq⟩ := parkedForTrap_eq s r hgrant
    have hcur : (s.takeFault r).cur = s.cur := by
      rw [henter]
      exact (congrArg Prod.fst (curGrids_endTurnOf ..)).trans (by rw [heq]; rfl)
    refine ⟨?_, ?_⟩
    · rw [show t = _ from henter]
      refine sameBut_endTurnOf ?_ s.cur
      rw [heq]
      exact ⟨rfl, rfl, rfl, rfl, rfl, rfl, rfl, rfl, rfl⟩
    · have hresume : resumeAt s r = rpc := by rw [resumeAt, rpc_eq]
      have hti0 : s.f.ti0 = ti0 := by
        unfold ti0 Frag.ti0
        cases s.f.pfx with
        | none => exact zero_append _
        | some x => rfl
      have hweight : ((parkedForTrap s r).setFrag s.cur (entered s r)).group (entered s r).group = s.g := by
        rw [heq]
        rfl
      have hf : t.f = { entered s r with turn := if max 1 s.g.weight ≤ s.f.turn then 0 else s.f.turn } := by
        rw [State.f, show t.cur = s.cur from hcur, show t = _ from henter, ← entered, endTurnOf_frag, State.frag_setFrag_same, hweight]
        exact congrArg (fun x => { entered s r with turn := x }) (entered_turn s r _)
      refine hf.trans ((with_regs (entered_regs s r hS)).trans ?_)
      simp only [hleave, hdue, ← hresume, ← hti0]
      rfl
  · exact (takeFault_ends s r halive hstill hleave hgrant hcode h).imp id fun ⟨hst, hown, _⟩ => ⟨hst, hown⟩
  · exact lease_stops s r hstill hleave hdue hcode hdev hgrid
  · exact (lease_ends s r hstill hleave hcode hdev (hgrant.resolve_left hdev)).imp id fun ⟨hst, hown, _⟩ => ⟨hst, hown⟩

end Sys2Proof.Proofs.Traps

/-! ### The words of the crossbar arrays (R70, R251 to R260, R374) -/

namespace Sys2Proof.Proofs.ArrayWords

open Sys2Proof Sys2Proof.Machine Sys2Proof.Claim Sys2Proof.Proofs.Privileged Sys2Proof.Proofs.Crossbar Sys2Proof.Proofs.Launch
  Sys2Proof.Proofs.VectorInt

/-! #### Records in a scratchpad (R212, R255, R268) -/

/-- R212: a place of more than 8 bytes in a team's reservation is where its address says. -/
theorem scrBytes_key {s : State} {team asid : Nat} {a : DWord} {n : Nat} {store : Bool} {key : Nat} (hn : 8 < n)
    (h : s.scrBytes team asid a n store = .ok key) : key = scrKey (s.team team).coreKey ((s.team team).base + a.toNat) := by
  unfold State.scrBytes at h
  split_ifs at h with hfar
  have h63 : a.getLsbD 63 = false := by
    rw [BitVec.getLsbD, Nat.testBit_lt_two_pow (by omega)]
  rw [State.scrAt, if_pos h63] at h
  by_cases hin : a.toNat + n ≤ (s.team team).size
  · rw [if_pos hin] at h
    simpa using h.symm
  · rw [if_neg hin, if_neg (by omega)] at h
    simp at h

section
variable (s : State) (a : RegNum) (key : Nat)

/-- R255: bytes of a record that can be read, none of them in error. -/
theorem recordBytes_here {n : Nat} (off m : Nat) (hle : off + m ≤ 64 + n) (hdev : s.g.dev = s.fabric.toNat) (hnb : NothingBefore s)
    (hkey : s.scrBytes s.g.team s.g.rights.asid (s.sv a) (off + m) false = .ok key) (herr : ∀ i, i < 64 + n → s.errIn .scratch (key + i) 1 = false)
    (k : List Byte → Act) : recordBytes s (s.sv a) off m k = k (s.bytesIn .scratch (key + off) m) := by
  have hclean : ((List.range m).filter fun i => s.errIn .scratch (key + off + i) 1) = [] := List.filter_eq_nil_iff.2 fun i hi => by
    rw [Nat.add_assoc, herr (off + i) (by have := List.mem_range.1 hi; omega)]
    exact Bool.false_ne_true
  have hkeeps : s.keeps s.g = true := beq_iff_eq.2 hdev
  rw [recordBytes, if_pos hkeeps, hkey]
  dsimp only
  rw [afterStores_nothingBefore s hnb, hclean]
  rfl

theorem recordHeader_here {n : Nat} (h : RecordAt s a key n) (k : BitVec 512 → Act) :
    recordHeader s a k = k (BitVec.ofNat 512 (s.valIn .scratch key 64)) := by
  obtain ⟨hdev, hnb, hclean, halign, hkey, -, herr⟩ := h
  rw [recordHeader, State.clean_none _ _ _ (poisoned_single s a hclean), if_neg (not_not.2 halign),
    recordBytes_here s a key 0 64 (by omega) hdev hnb (by simpa using hkey) herr]
  rfl

theorem recordData_here {n : Nat} (h : RecordAt s a key n) (k : List Byte → Act) : recordData s a n k = k (s.bytesIn .scratch (key + 64) n) := by
  obtain ⟨hdev, hnb, hclean, halign, hkey, ⟨key', hkey'⟩, herr⟩ := h
  have hsame : key' = key := (scrBytes_key (by omega) hkey').trans (scrBytes_key (by omega) hkey).symm
  exact recordBytes_here s a key 64 n le_rfl hdev hnb (hsame ▸ hkey') herr k

/-- R213, R255: away from the team's device the header is asked for. -/
theorem recordHeader_away (h : RecordAway s a) (k : BitVec 512 → Act) : recordHeader s a k = .hold (recordAsked s a) := by
  obtain ⟨hdev, hclean, halign, hlow, hans, hrem⟩ := h
  have hkeeps : ¬s.keeps s.g = true := fun h => hdev (beq_iff_eq.1 h)
  have hany : (s.remote.any fun x => x.asker == some (Asker.frag s.cur)) = false := List.any_eq_false.2 fun x hx => by simpa using hrem x hx
  rw [recordHeader, State.clean_none _ _ _ (poisoned_single s a hclean), if_neg (not_not.2 halign), recordBytes, if_neg hkeeps, if_neg (by omega)]
  simp only [State.recordAway, hans, hany]
  rfl
end

/-! #### The words -/

section
variable (s : State) (d a : RegNum) (x : BitVec 4) (y : BitVec 5)

/-- R326: the state once the fragment at issue has been told its group's OVT. -/
def told (s : State) (v : DWord) : State :=
  (s.setF { s.f with grant := .none }).setG { (s.setF { s.f with grant := .none }).g with ovt := v.setWidth 16 }

theorem told_group (s : State) (v : DWord) : (told s v).group s.f.group = { s.g with ovt := v.setWidth 16 } := by
  have hg : (s.setF { s.f with grant := .none }).f.group = s.f.group := (congrArg Frag.group (State.f_setF s { s.f with grant := .none }) :)
  rw [told, State.setG, hg, State.group_setGroup_same, State.g, hg]
  rfl

section
variable (s : State) (k : State → Act)

theorem withOvt_here (h : s.g.dev = s.fabric.toNat) : s.withOvt k = k s := if_pos (beq_iff_eq.2 h)

theorem withOvt_away (h : s.g.dev ≠ s.fabric.toNat) :
    s.withOvt k = s.wordAway .ovt (onDone fun v s => k (s.setG { s.g with ovt := v.setWidth 16 })) := if_neg fun hk => h (beq_iff_eq.1 hk)

theorem withOvt_asks (h : s.g.dev ≠ s.fabric.toNat) (hgrant : s.f.grant = .none) : s.withOvt k = .hold (s.sendWord s.cur .ovt) := by
  simp only [withOvt_away s k h, State.wordAway, hgrant]

theorem withOvt_told (h : s.g.dev ≠ s.fabric.toNat) (v : DWord) (hgrant : s.f.grant = .word (.done v)) : s.withOvt k = k (told s v) := by
  rw [withOvt_away s k h, State.wordAway_word _ _ _ _ hgrant, onDone_done]
  rfl
end

/-- R256: the outstanding result of a product for an entry. -/
def productOut (id e : Nat) (m : Mask) : Out := ⟨.array id, .v e, m, m, lanesOf fun _ => 0, 0, true, 0x0#96⟩
/-- R256: the state `u` with a product's results outstanding. -/
def awaitingProduct (u : State) : State :=
  let u1 := u.newId.2.addOut u.cur (productOut u.nextId (u.newId.2.src.vEnt d) s.active)
  u1.addOut u.cur (productOut u.nextId (u.newId.2.src.vEnt d + 1) (s.active &&& 0xFFFFFFFF#96))
/-- R256: a product is accepted in the state `u`, in which the OVT is known. -/
def productFormed (u : State) : State :=
  (awaitingProduct s d u).setXar (s.xarKey x y) { s.xar (s.xarKey x y) with
    queue := (s.xar (s.xarKey x y)).queue ++
      [.product u.cur u.nextId ((awaitingProduct s d u).vreg a).lanes s.active (awaitingProduct s d u).g.ovt] }

theorem awaitingProduct_f (u : State) : (awaitingProduct s d u).f = { u.f with outs := u.f.outs ++
    [productOut u.nextId (u.src.vEnt d) s.active, productOut u.nextId (u.src.vEnt d + 1) (s.active &&& 0xFFFFFFFF#96)] } := by
  have hfirst : (u.newId.2.addOut u.cur (productOut u.nextId (u.src.vEnt d) s.active)).frag u.cur =
      { u.f with outs := u.f.outs ++ [productOut u.nextId (u.src.vEnt d) s.active] } := State.frag_setFrag_same ..
  refine (State.frag_setFrag_same ..).trans ?_
  rw [show u.newId.2.src = u.src from rfl, hfirst]
  exact congrArg (fun os => { u.f with outs := os }) (List.append_assoc ..)

theorem awaitingProduct_reads (u : State) : ((awaitingProduct s d u).vreg a).lanes = (u.vreg a).lanes ∧ (awaitingProduct s d u).g.ovt = u.g.ovt := by
  have hf := awaitingProduct_f s d u
  refine ⟨?_, ?_⟩
  · rw [State.vreg, State.src, hf]
    rfl
  · rw [State.g, hf]
    rfl

/-- R256: a product that is accepted changes the fragment's results and the array's queue. -/
theorem productFormed_eq (u : State) (ovt : BitVec 16) (hcur : u.cur = s.cur) (hid : u.nextId = s.nextId) (hsrc : u.src = s.src) (hx : u.xars = s.xars)
    (hovt : u.g.ovt = ovt) (hsame : SameBut s u) : SameBut s (productFormed s d a x y u) ∧
    (productFormed s d a x y u).f = { u.f with outs := u.f.outs ++
      [productOut s.nextId (s.src.vEnt d) (s.mreg 0), productOut s.nextId (s.src.vEnt d + 1) (s.mreg 0 &&& 0xFFFFFFFF#96)] } ∧
    (productFormed s d a x y u).xar (s.xarKey x y) = { s.xar (s.xarKey x y) with
      queue := (s.xar (s.xarKey x y)).queue ++ [.product s.cur s.nextId (s.vreg a).lanes (s.mreg 0) ovt] } ∧
    ∀ j, j ≠ s.xarKey x y → (productFormed s d a x y u).xar j = s.xar j := by
  obtain ⟨hv, ho⟩ := awaitingProduct_reads s d a u
  have hlanes : ((awaitingProduct s d u).vreg a).lanes = (s.vreg a).lanes := by rw [hv, State.vreg, hsrc, State.vreg]
  refine ⟨hsame, ?_, (xar_setXar_same ..).trans ?_, fun j hj => (xar_setXar_other _ _ _ _ hj).trans (congrArg (fun m => KMap.get Xar.fresh m j) hx)⟩
  · rw [← hid, ← hsrc]
    exact awaitingProduct_f s d u
  · rw [hlanes, ho, hovt, hcur, hid]
    rfl

theorem fused (h : (s.fuseOf s.f.home).arrays.getLsbD (arrayNo x y) = false) : arrayFused s x y = some (faultOf 0x01#8 (BitVec.ofNat 64 (arrayNo x y))) :=
  if_neg (Bool.eq_false_iff.1 h)

/-- R374: every word of an array that is fused off. -/
theorem faults_fused (h : (s.fuseOf s.f.home).arrays.getLsbD (arrayNo x y) = false) :
    ∀ i ∈ [Instr.xbld d a x y, .xbmv d a x y, .xbcal d x y, .xbst d x y, .accept d a x y], Faults i s (faultOf 0x01#8 (BitVec.ofNat 64 (arrayNo x y))) := by
  intro i hi
  simp only [List.mem_cons, List.not_mem_nil, or_false] at hi
  have hf := fused s x y h
  rcases hi with rfl | rfl | rfl | rfl | rfl
  all_goals exact faults_of rfl (by rw [hf]; rfl)

section
variable (hfuse : (s.fuseOf s.f.home).arrays.getLsbD (arrayNo x y) = true)
include hfuse

theorem unfused : arrayFused s x y = none := if_pos hfuse

/-- R255: what XBLD does with the header of its record. -/
def loadAct (h : BitVec 512) : Act :=
  match xblBad h with
  | some o => .fault (faultOf 0x01#8 (BitVec.ofNat 64 (256 + o)))
  | none =>
    if (s.xar (s.xarKey x y)).busy then .hold s
    else recordData s a (fld h 0 16 * fld h 16 16) fun bs =>
      .done ((s.setXar (s.xarKey x y) { s.xar (s.xarKey x y) with
        lgen := (s.xar (s.xarKey x y)).lgen + 1, state := .loading, reason := 0, lastb := 0xFF#8
        queue := (s.xar (s.xarKey x y)).queue ++ [.load (fld h 0 16) (fld h 16 16) (h.extractLsb' 40 8).toInt (h.extractLsb' 32 4) bs] }).wrS d
          (((s.xar (s.xarKey x y)).lgen + 1).setWidth 64) false)

theorem exec_xbld : exec (.xbld d a x y) s = finish s (recordHeader s a (loadAct s d a x y)) := by
  show execXbld d a x y s = _
  rw [execXbld, unfused s x y hfuse]
  rfl

theorem xbld_away (h : RecordAway s a) : Holds (.xbld d a x y) s (recordAsked s a) :=
  holds_of (exec_xbld s d a x y hfuse) (recordHeader_away s a h _)

theorem exec_xbld_here {key n : Nat} (h : RecordAt s a key n) :
    exec (.xbld d a x y) s = finish s (loadAct s d a x y (BitVec.ofNat 512 (s.valIn .scratch key 64))) := by
  rw [exec_xbld s d a x y hfuse, recordHeader_here s a key h]

theorem xbld_malformed {key n o : Nat} (h : RecordAt s a key n) (hbad : xblBad (BitVec.ofNat 512 (s.valIn .scratch key 64)) = some o) :
    Faults (.xbld d a x y) s (faultOf 0x01#8 (BitVec.ofNat 64 (256 + o))) :=
  faults_of (exec_xbld_here s d a x y hfuse h) (by rw [loadAct, hbad])

theorem xbld_busy {key n : Nat} (h : RecordAt s a key n) (hbad : xblBad (BitVec.ofNat 512 (s.valIn .scratch key 64)) = none)
    (hbusy : (s.xar (s.xarKey x y)).busy = true) : Holds (.xbld d a x y) s s :=
  holds_of (exec_xbld_here s d a x y hfuse h) (by rw [loadAct, hbad]; exact if_pos hbusy)

/-- R255: XBLD queues its load. -/
theorem xbld_queues {key rows cols : Nat} {h : BitVec 512} (hh : h = BitVec.ofNat 512 (s.valIn .scratch key 64)) (hrows : rows = fld h 0 16)
    (hcols : cols = fld h 16 16) (hrec : RecordAt s a key (rows * cols)) (hbad : xblBad h = none) (hbusy : (s.xar (s.xarKey x y)).busy = false) :
    Goes (.xbld d a x y) s ((s.setXar (s.xarKey x y) { s.xar (s.xarKey x y) with
      lgen := (s.xar (s.xarKey x y)).lgen + 1, state := .loading, reason := 0, lastb := 0xFF#8
      queue := (s.xar (s.xarKey x y)).queue ++ [.load rows cols (h.extractLsb' 40 8).toInt (h.extractLsb' 32 4) (s.bytesIn .scratch (key + 64) (rows * cols))] }).wrS d
        (((s.xar (s.xarKey x y)).lgen + 1).setWidth 64) false) := by
  subst hrows hcols
  refine goes_of (exec_xbld_here s d a x y hfuse hrec) ?_ (State.wrS_pc ..)
  rw [loadAct, ← hh, hbad]
  refine (if_neg (Bool.eq_false_iff.1 hbusy)).trans ?_
  rw [recordData_here s a key hrec]

theorem xbmv_last (h : d = 63) : Faults (.xbmv d a x y) s (faultOf 0x01#8) :=
  faults_of rfl (by rw [unfused s x y hfuse, h]; rfl)

/-- R256: XBMV of a register that has another after it. -/
theorem exec_xbmv (h : d ≠ 63) : exec (.xbmv d a x y) s = finish s
    (if s.active = 0x0#96 then .done s
     else s.clean [.v a (s.active &&& 0xFFFFFFFFFFFFFFFF#96)]
      (if (s.xar (s.xarKey x y)).busy ∨ 5 ≤ (s.xar (s.xarKey x y)).queue.length then .hold s
       else if (s.xar (s.xarKey x y)).state ≠ .ready then .fault (xbCal x y (s.xar (s.xarKey x y)))
       else s.withOvt fun u => .done (productFormed s d a x y u))) := by
  have h63 : ¬d.toNat = 63 := fun he => h (BitVec.eq_of_toNat_eq he)
  show execXbmv d a x y s = _
  rw [execXbmv, unfused s x y hfuse]
  exact congrArg (finish s) (if_neg h63)

theorem xbmv_idle (h : d ≠ 63) (hact : s.mreg 0 = 0) : Goes (.xbmv d a x y) s s := goes_of (exec_xbmv s d a x y hfuse h) (if_pos hact) rfl

section
variable (h63 : d ≠ 63) (hact : s.mreg 0 ≠ 0) (hclean : s.poisoned [.v a (s.mreg 0 &&& 0xFFFFFFFFFFFFFFFF#96)] = none)
include h63 hact hclean

theorem exec_xbmv_clean : exec (.xbmv d a x y) s = finish s
    (if (s.xar (s.xarKey x y)).busy ∨ 5 ≤ (s.xar (s.xarKey x y)).queue.length then .hold s
     else if (s.xar (s.xarKey x y)).state ≠ .ready then .fault (xbCal x y (s.xar (s.xarKey x y)))
     else s.withOvt fun u => .done (productFormed s d a x y u)) :=
  (exec_xbmv s d a x y hfuse h63).trans (congrArg (finish s) ((if_neg hact).trans (State.clean_none _ _ _ hclean)))

theorem xbmv_waits (h : (s.xar (s.xarKey x y)).busy = true ∨ 5 ≤ (s.xar (s.xarKey x y)).queue.length) : Holds (.xbmv d a x y) s s :=
  holds_of (exec_xbmv_clean s d a x y hfuse h63 hact hclean) (if_pos h)

variable (hbusy : (s.xar (s.xarKey x y)).busy = false) (hroom : (s.xar (s.xarKey x y)).queue.length < 5)
include hbusy hroom

theorem exec_xbmv_free : exec (.xbmv d a x y) s = finish s
    (if (s.xar (s.xarKey x y)).state ≠ .ready then .fault (xbCal x y (s.xar (s.xarKey x y)))
     else s.withOvt fun u => .done (productFormed s d a x y u)) := by
  rw [exec_xbmv_clean s d a x y hfuse h63 hact hclean, if_neg (by rw [hbusy]; simp; omega)]

theorem xbmv_uncalibrated (h : (s.xar (s.xarKey x y)).state ≠ .ready) : Faults (.xbmv d a x y) s (xbCal x y (s.xar (s.xarKey x y))) :=
  faults_of (exec_xbmv_free s d a x y hfuse h63 hact hclean hbusy hroom) (if_pos h)

variable (hready : (s.xar (s.xarKey x y)).state = .ready)
include hready

theorem exec_xbmv_ready : exec (.xbmv d a x y) s = finish s (s.withOvt fun u => .done (productFormed s d a x y u)) := by
  rw [exec_xbmv_free s d a x y hfuse h63 hact hclean hbusy hroom, if_neg (not_not.2 hready)]

/-- R326: away from the group's device the OVT is asked for. -/
theorem xbmv_asksOvt : AsksOvt (.xbmv d a x y) s := fun hdev hgrant =>
  holds_of (exec_xbmv_ready s d a x y hfuse h63 hact hclean hbusy hroom hready) (withOvt_asks s _ hdev hgrant)

/-- R256: XBMV is queued under the OVT in force. -/
theorem xbmv_queues (ovt : BitVec 16) (hovt : TakesOvt s ovt) : ∃ u, Goes (.xbmv d a x y) s u ∧ SameBut s u ∧
    u.f = tookOvt s [productOut s.nextId (s.src.vEnt d) (s.mreg 0), productOut s.nextId (s.src.vEnt d + 1) (s.mreg 0 &&& 0xFFFFFFFF#96)] ∧
    u.xar (s.xarKey x y) = { s.xar (s.xarKey x y) with
      queue := (s.xar (s.xarKey x y)).queue ++ [.product s.cur s.nextId (s.vreg a).lanes (s.mreg 0) ovt] } ∧
    ∀ j, j ≠ s.xarKey x y → u.xar j = s.xar j := by
  have hexec := exec_xbmv_ready s d a x y hfuse h63 hact hclean hbusy hroom hready
  rcases hovt with ⟨hdev, rfl⟩ | ⟨hdev, v, hgrant, rfl⟩
  · obtain ⟨hsame, hf, hq, hothers⟩ := productFormed_eq s d a x y s s.g.ovt rfl rfl rfl rfl rfl ⟨rfl, rfl, rfl, rfl, rfl, rfl, rfl, rfl, rfl⟩
    refine ⟨productFormed s d a x y s, goes_of hexec (withOvt_here s _ hdev) (congrArg Frag.pc hf :), hsame, hf.trans ?_, hq, hothers⟩
    rw [tookOvt, if_pos hdev]
  · have hf1 : (told s v).f = { s.f with grant := .none } := State.f_setF ..
    obtain ⟨hsame, hf, hq, hothers⟩ := productFormed_eq s d a x y (told s v) (v.setWidth 16) rfl rfl (congrArg Frag.src hf1 :) rfl
      (by rw [State.g, hf1]; exact congrArg Group.ovt (told_group s v)) ⟨rfl, rfl, rfl, rfl, rfl, rfl, rfl, rfl, rfl⟩
    refine ⟨productFormed s d a x y (told s v), goes_of hexec (withOvt_told s _ hdev v hgrant) ?_, hsame, hf.trans ?_, hq, hothers⟩
    · rw [hf, hf1]
    · rw [hf1, tookOvt, if_neg hdev]
end

theorem exec_xbcal : exec (.xbcal d x y) s = finish s
    (if (s.xar (s.xarKey x y)).state = .empty then .done ((s.wrS d 0 false).setE true)
     else if (s.xar (s.xarKey x y)).busy then .hold s
     else .done (((s.setXar (s.xarKey x y) { s.xar (s.xarKey x y) with queue := (s.xar (s.xarKey x y)).queue ++ [.calibrate] }).wrS d
      (((s.xar (s.xarKey x y)).cgen + 1).setWidth 64) false).setE false)) := by
  show execXbcal d x y s = _
  rw [execXbcal, unfused s x y hfuse]
  rfl

theorem goes_xbst : Goes (.xbst d x y) s (s.wrS d (s.xar (s.xarKey x y)).status false) :=
  goes_of rfl (by rw [unfused s x y hfuse]; rfl) (State.wrS_pc ..)

theorem goes_accept (hclean : s.poisoned [.v a (s.mreg 0)] = none) : Goes (.accept d a x y) s ((s.wrLanes d (s.mreg 0) (fun l => s.vl a l) false).setFlags fun c =>
    setFlag ((c &&& 0x00FF#16) ||| ((s.xar (s.xarKey x y)).lastb.setWidth 16 <<< 8)) 4 ((s.xar (s.xarKey x y)).lastb == 0xFF#8)) :=
  goes_of rfl (by rw [unfused s x y hfuse]; exact State.clean_none _ _ _ hclean) (by simp)
end
end

theorem getLsbD_setFlag (c : BitVec 16) (k : Nat) (b : Bool) (i : Nat) (hi : i < 16) : (setFlag c k b).getLsbD i = if i = k then b else c.getLsbD i := by
  have htwo : (BitVec.twoPow 16 k).getLsbD i = decide (i = k) := by
    rw [BitVec.getLsbD_twoPow, Bool.eq_iff_iff]
    simp only [Bool.and_eq_true, decide_eq_true_eq]
    omega
  cases b with
  | true =>
    rw [setFlag, if_pos rfl, BitVec.getLsbD_or, htwo]
    by_cases h : i = k <;> simp [h]
  | false =>
    rw [setFlag, if_neg Bool.false_ne_true, BitVec.getLsbD_and, BitVec.getLsbD_not, htwo]
    by_cases h : i = k <;> simp [h, hi]

/-- R260: CFLAGS with the bound of the array's last product. -/
theorem flags_lastb (b : BitVec 8) (c : BitVec 16) : setFlag ((c &&& 0x00FF#16) ||| (b.setWidth 16 <<< 8)) 4 (b == 0xFF#8) =
    b ++ c.extractLsb' 5 3 ++ BitVec.ofBool (b == 0xFF) ++ c.extractLsb' 0 4 := by
  refine BitVec.eq_of_getLsbD_eq fun i hi => ?_
  have hlow : BitVec.getLsbD (0x00FF#16) i = decide (i < 8) := by
    revert i
    decide
  have hbase : ((c &&& 0x00FF#16) ||| (b.setWidth 16 <<< 8)).getLsbD i = ((c.getLsbD i && decide (i < 8)) || (decide (8 ≤ i) && b.getLsbD (i - 8))) := by
    rw [BitVec.getLsbD_or, BitVec.getLsbD_and, hlow, BitVec.getLsbD_shiftLeft, BitVec.getLsbD_setWidth]
    simp only [hi, show i - 8 < 16 by omega, decide_true, Bool.true_and, ← decide_not, Nat.not_lt]
  rw [getLsbD_setFlag _ _ _ _ hi, hbase]
  simp only [BitVec.getLsbD_append, BitVec.getLsbD_extractLsb', BitVec.getLsbD_ofBool]
  have hplace : i < 4 ∨ i = 4 ∨ (5 ≤ i ∧ i < 8) ∨ 8 ≤ i := by omega
  rcases hplace with h | rfl | ⟨h, h'⟩ | h
  · simp [h, show i ≠ 4 by omega, show i < 8 by omega, show ¬8 ≤ i by omega]
  · simp
  · simp [show i ≠ 4 by omega, h', show ¬8 ≤ i by omega, show ¬i < 4 by omega, show ¬i - 4 < 1 by omega, show i - 4 - 1 < 3 by omega, show 5 + (i - 4 - 1) = i by omega]
  · simp [show i ≠ 4 by omega, h, show ¬i < 8 by omega, show ¬i < 4 by omega, show ¬i - 4 < 1 by omega, show ¬i - 4 - 1 < 3 by omega, show i - 4 - 1 - 3 = i - 8 by omega]

theorem or_shift {a b n : Nat} (h : a < 2 ^ n) : a ||| b <<< n = a + 2 ^ n * b := by
  rw [Nat.or_comm, ← Nat.shiftLeft_add_eq_or_of_lt h, Nat.shiftLeft_eq, Nat.mul_comm, Nat.add_comm]

/-- R257: the report of XB_CAL. -/
theorem xbCal_ti1 (x : BitVec 4) (y : BitVec 5) (X : Xar) : (xbCal x y X).ti1 =
    BitVec.ofNat 64 (arrayNo x y) ||| (((X.reason ++ X.state.code : BitVec 6).setWidth 64) <<< 16) := by
  have hx := x.isLt
  have hy := y.isLt
  have hr := X.reason.isLt
  have hc := X.state.code.isLt
  have hcode : (X.reason ++ X.state.code : BitVec 6).toNat = X.state.code.toNat + 2 ^ 3 * X.reason.toNat := by
    rw [BitVec.toNat_append, Nat.or_comm, or_shift hc]
  apply BitVec.eq_of_toNat_eq
  rw [BitVec.toNat_or, BitVec.toNat_shiftLeft, BitVec.toNat_setWidth, hcode, BitVec.toNat_ofNat]
  unfold arrayNo
  rw [Nat.mod_eq_of_lt (b := 2 ^ 64) (a := 32 * x.toNat + y.toNat) (by omega), Nat.mod_eq_of_lt (b := 2 ^ 64) (a := X.state.code.toNat + 2 ^ 3 * X.reason.toNat) (by omega),
    Nat.mod_eq_of_lt (by rw [Nat.shiftLeft_eq]; omega), or_shift (by omega)]
  refine (BitVec.toNat_ofNat ..).trans ((Nat.mod_eq_of_lt ?_).trans ?_)
  all_goals unfold arrayNo; omega

/-- Settles O35: each word by its own lemma. -/
theorem crossbarWords : Obligations.CrossbarWords := by
  intro s d a x y key n q X busy act h rows cols lgen load flags
  refine ⟨fun hf => faults_fused s d a x y hf, fun hfuse => ⟨xbld_away s d a x y hfuse, fun hrec o hbad => xbld_malformed s d a x y hfuse hrec hbad,
    fun hrec hbad => ⟨fun hbusy => xbld_busy s d a x y hfuse hrec hbad hbusy, fun hbusy => xbld_queues s d a x y hfuse rfl rfl rfl hrec hbad hbusy⟩,
    xbmv_last s d a x y hfuse, fun h63 hact => xbmv_idle s d a x y hfuse h63 hact, fun h63 hact hclean => ⟨fun hw => xbmv_waits s d a x y hfuse h63 hact hclean hw,
      fun hbusy hroom => ⟨fun hst => ⟨_, xbmv_uncalibrated s d a x y hfuse h63 hact hclean hbusy hroom hst, rfl, xbCal_ti1 x y X⟩,
        fun hst => ⟨xbmv_asksOvt s d a x y hfuse h63 hact hclean hbusy hroom hst, fun ovt hovt => ?_⟩⟩⟩,
    fun hst => goes_of (exec_xbcal s d x y hfuse) (if_pos hst) (by simp),
    fun hst hbusy => holds_of (exec_xbcal s d x y hfuse) ((if_neg hst).trans (if_pos hbusy)),
    fun hst hbusy => goes_of (exec_xbcal s d x y hfuse) ((if_neg hst).trans (if_neg (Bool.eq_false_iff.1 hbusy))) (by simp; rfl), goes_xbst s d x y hfuse,
    fun hclean => ?_⟩⟩
  · obtain ⟨u, hgoes, hsame, hf, hq, hothers⟩ := xbmv_queues s d a x y hfuse h63 hact hclean hbusy hroom hst ovt hovt
    exact ⟨u, _, _, hgoes, hsame, hf, rfl, rfl, rfl, rfl, rfl, rfl, hq, hothers⟩
  · have hflags : flags = _ := funext fun c => (flags_lastb X.lastb c).symm
    rw [hflags]
    exact goes_accept s d a x y hfuse hclean

end Sys2Proof.Proofs.ArrayWords

/-! ### Barrier words and WAITW (R146, R154 to R158, R163) -/

namespace Sys2Proof.Proofs.Waits

open Sys2Proof Sys2Proof.Machine Sys2Proof.Claim Sys2Proof.Proofs.Privileged Sys2Proof.Proofs.Migration Sys2Proof.Proofs.Control Sys2Proof.Proofs.Traps
  Sys2Proof.Proofs.VectorInt

/-! #### BSET (R154, R155) -/

section
variable (s : State)

theorem splitUpdate_f (n : Nat) (u : SplitUpd) : (s.splitUpdate n u).f = s.f := splitUpdate_frame (p := State.f) (fun _ _ _ => rfl) s n u

theorem bset_arms (k : BitVec 4) (h : s.g.dev ≠ s.fabric.toNat ∨ (s.barView s.cur k.toNat).armed = false) :
    Goes (.bset k) s (s.splitUpdate s.cur (.bset k.toNat s.f.own)) := by
  have hok : ¬(s.keeps s.g && (s.barView s.cur k.toNat).armed) = true := by
    rw [Bool.and_eq_true]
    rintro ⟨hk, ha⟩
    exact h.elim (fun hdev => hdev (beq_iff_eq.1 hk)) fun hb => Bool.noConfusion (hb.symm.trans ha)
  exact goes_of rfl (if_neg hok) (congrArg Frag.pc (splitUpdate_f ..))

theorem bset_clashes (k : BitVec 4) (hdev : s.g.dev = s.fabric.toNat) (h : (s.barView s.cur k.toNat).armed = true) :
    Faults (.bset k) s (faultOf 0x24#8 1) :=
  faults_of rfl (if_pos (by rw [h, Bool.and_true]; exact beq_iff_eq.2 hdev))

/-- R154: what BSET makes of a barrier record. -/
theorem applyUpd_bset (g : Group) (k : Nat) (own : Mask) :
    ((g.bar k).armed = false → (g.applyUpd (.bset k own)).bar k = ⟨true, lowest own, own, 0⟩) ∧
    ((g.bar k).armed = true → g.applyUpd (.bset k own) = g) ∧ ∀ j, j ≠ k → (g.applyUpd (.bset k own)).bar j = g.bar j := by
  have hbar : ∀ (b : Bar) (j : Nat), (g.setBar k b).bar j = if j = k then b else g.bar j := fun b j => KMap.get_put ..
  refine ⟨fun h => ?_, fun h => if_pos h, fun j hj => ?_⟩
  · rw [Group.applyUpd, if_neg (Bool.eq_false_iff.1 h), hbar, if_pos rfl]
    rfl
  · rw [Group.applyUpd]
    split_ifs
    · rfl
    · rw [hbar, if_neg hj]

/-! #### Words that ask the primary home for its records (R146) -/

theorem tableAct_here (kids : Nat) (k : State → Act) (h : s.keeps s.g = true) : s.tableAct kids k = k s := if_pos h

/-- R146: the request for a group's records. -/
def recordsAsked (s : State) : State := (s.setF { s.f with grant := .asked }).splitUpdate s.cur (.ask 0)

/-- R146, R156, R161: away from the group's device a word asks for the records, is held until the answer, and takes KEY where it is refused. -/
theorem asks_records {i : Instr} {k : State → Act} (hexec : exec i s = finish s (s.tableAct 0 k)) (hdev : s.g.dev ≠ s.fabric.toNat) :
    (s.f.grant = .none → Holds i s (recordsAsked s)) ∧ (s.f.grant = .asked → Holds i s s) ∧
    (s.f.grant = .refused → Faults i s (keyFault s.f.own s.g.dev s.g.home)) := by
  have hkeeps : ¬s.keeps s.g = true := fun h => hdev (beq_iff_eq.1 h)
  refine ⟨fun hg => holds_of hexec ?_, fun hg => holds_of hexec ?_, fun hg => faults_of hexec ?_⟩
  · simp only [State.tableAct, if_neg hkeeps, hg]
    rfl
  · simp only [State.tableAct, if_neg hkeeps, hg]
  · simp only [State.tableAct, if_neg hkeeps, hg]

theorem keyFault_eq (own : Mask) (dev home : Nat) : keyFault own dev home = faultOf 0x16#8 0 (own.extractLsb' 0 64) ((own.extractLsb' 64 32).setWidth 64 |||
    BitVec.ofNat 64 (lowest own * 2 ^ 32) ||| BitVec.ofNat 64 (2 ^ 63) ||| BitVec.ofNat 64 (home * 2 ^ 44) ||| BitVec.ofNat 64 (dev * 2 ^ 48)) := by
  rw [keyFault, lanesLo_eq, lanesHi_eq]
  rfl

/-! #### JOIN and BARRT (R156 to R158, R342) -/

theorem noTrapMode_out (k : Act) (h : s.f.trap = none) : noTrapMode s k = k := by
  rw [noTrapMode, h]
  rfl

theorem noTrapMode_in (k : Act) (h : s.f.trap ≠ none) : noTrapMode s k = .fault (faultOf 0x01#8 3) :=
  if_pos (Option.isSome_iff_ne_none.2 h)

theorem trapMode_faults (k : BitVec 4) (h : s.f.trap ≠ none) : ∀ i ∈ [Instr.join k, .barrt, .barrtPub], Faults i s (faultOf 0x01#8 3) := by
  intro i hi
  simp only [List.mem_cons, List.not_mem_nil, or_false] at hi
  rcases hi with rfl | rfl | rfl
  all_goals exact faults_of rfl (noTrapMode_in s _ h)

theorem beginWait_f (st : FState) : (s.beginWait st).f = { s.f with state := st, grp := none, pfx := none, held := false, counted := false, resident := false, turn := 0 } := by
  rw [State.beginWait]
  refine (release_frag _ _).trans ?_
  rw [State.frag_setF_cur]

theorem report_here (n : Nat) (h : s.keeps (s.group (s.frag n).group) = true) : s.report n = s := if_pos h

theorem barrt_waits (pub : Bool) (htrap : s.f.trap = none) (hstill : Still s) (hdev : s.g.dev = s.fabric.toNat)
    (hrel : pub = true → s.released s.cur false = true) :
    barrtAct s pub = .away ((s.beginWait (.barrt pub)).setF { (s.beginWait (.barrt pub)).f with pc := s.f.pc + 4 }) := by
  have hkeeps : s.keeps s.g = true := beq_iff_eq.2 hdev
  have hgo : ¬((pub || !s.keeps s.g) && !s.released s.cur false) = true := by
    cases pub with
    | false => simp [hkeeps]
    | true => simp [hrel rfl]
  have hf := beginWait_f s (.barrt pub)
  have hreport : (s.beginWait (.barrt pub)).report s.cur = s.beginWait (.barrt pub) := by
    refine report_here _ _ ?_
    rw [show (s.beginWait (.barrt pub)).frag s.cur = _ from hf]
    exact hkeeps
  rw [barrtAct, noTrapMode_out s _ htrap, parkThen_still s hstill, if_neg hgo, hreport]
  dsimp only
  rw [hf]

/-- R156: a fragment that may wait at JOIN, with its records at hand. -/
def joinAct (k : BitVec 4) : Act :=
  if s.released s.cur false = false then .hold s
  else if (s.barView s.cur k.toNat).armed = false then .fault (faultOf 0x24#8 2)
  else if without s.f.own (s.barView s.cur k.toNat).expect ≠ 0x0#96 then
    .fault (faultOf 0x24#8 3 (lanesLo (without s.f.own (s.barView s.cur k.toNat).expect)) (lanesHi (without s.f.own (s.barView s.cur k.toNat).expect)))
  else .away ((((s.splitUpdate s.cur (.arrive k.toNat s.f.own)).beginWait (.join k.toNat)).report s.cur).joinArrive s.cur k.toNat)

theorem exec_join (k : BitVec 4) (htrap : s.f.trap = none) (hstill : Still s) : exec (.join k) s = finish s (s.tableAct 0 (joinAct · k)) := by
  show execJoin k s = _
  rw [execJoin, noTrapMode_out s _ htrap, parkThen_still s hstill]
  simp only [joinAct, Bool.not_eq_true']

theorem exec_exit (hstill : Still s) : ∃ k, exec .exit s = finish s (s.tableAct 0 k) := ⟨_, congrArg (finish s) (parkThen_still s hstill _)⟩

omit s in
theorem applyUpd_dev (g : Group) (u : SplitUpd) : (g.applyUpd u).dev = g.dev := by
  unfold Group.applyUpd
  split
  · split_ifs <;> rfl
  · rfl
  · rfl
  · rfl

/-- R146: an update keeps a group on its device. -/
theorem keeps_splitUpdate (n : Nat) (u : SplitUpd) (k : Nat) : (s.splitUpdate n u).keeps ((s.splitUpdate n u).group k) = s.keeps (s.group k) := by
  unfold State.splitUpdate
  dsimp only
  split_ifs
  · exact congrArg (· == s.fabric.toNat) (group_setGroup_frame Group.dev s _ _ (applyUpd_dev ..) k)
  · rfl

/-- R156: the state of a fragment that waits at JOIN. -/
def joined (k : BitVec 4) : State := (s.splitUpdate s.cur (.arrive k.toNat s.f.own)).beginWait (.join k.toNat)

theorem joined_group (k : BitVec 4) : ((joined s k).frag s.cur).group = s.f.group := by
  have hcur : (s.splitUpdate s.cur (.arrive k.toNat s.f.own)).cur = s.cur := splitUpdate_frame (p := State.cur) (fun _ _ _ => rfl) ..
  have hj : (joined s k).frag (s.splitUpdate s.cur (.arrive k.toNat s.f.own)).cur = _ := beginWait_f (s.splitUpdate s.cur (.arrive k.toNat s.f.own)) (.join k.toNat)
  rw [hcur, splitUpdate_f s s.cur (.arrive k.toNat s.f.own)] at hj
  exact (congrArg Frag.group hj :)

theorem joined_report (k : BitVec 4) (hdev : s.g.dev = s.fabric.toNat) : (joined s k).report s.cur = joined s k := by
  refine report_here _ _ ?_
  rw [joined_group]
  exact (keeps_splitUpdate s s.cur (.arrive k.toNat s.f.own) s.f.group).trans (beq_iff_eq.2 hdev)

/-- R156: a waiter whose anchor, if it waits, is itself stays where it is. -/
theorem joinArrive_stays (n k : Nat) (h : ∀ w ∈ s.waiters (s.frag n).group k, w.2.own.getLsbD (s.barView n k).alane = true → w.1 = n) :
    s.joinArrive n k = s := by
  unfold State.joinArrive
  dsimp only
  split
  · next a A hfind =>
    have ha : a = n := h _ (List.mem_of_find?_eq_some hfind) (List.find?_some hfind :)
    exact if_pos (.inr (.inl ha))
  · rfl

section
variable (k : BitVec 4) (htrap : s.f.trap = none) (hstill : Still s) (hdev : s.g.dev = s.fabric.toNat) (hrel : s.released s.cur false = true)
include htrap hstill hdev hrel

theorem exec_join_here : exec (.join k) s = finish s
    (if (s.barView s.cur k.toNat).armed = false then .fault (faultOf 0x24#8 2)
     else if without s.f.own (s.barView s.cur k.toNat).expect ≠ 0x0#96 then
      .fault (faultOf 0x24#8 3 (lanesLo (without s.f.own (s.barView s.cur k.toNat).expect)) (lanesHi (without s.f.own (s.barView s.cur k.toNat).expect)))
     else .away ((joined s k).joinArrive s.cur k.toNat)) := by
  rw [exec_join s k htrap hstill, tableAct_here s 0 _ (beq_iff_eq.2 hdev), joinAct, if_neg (by rw [hrel]; exact Bool.noConfusion), ← joined,
    joined_report s k hdev]

theorem join_idle (h : (s.barView s.cur k.toNat).armed = false) : Faults (.join k) s (faultOf 0x24#8 2) :=
  faults_of (exec_join_here s k htrap hstill hdev hrel) (if_pos h)

variable (harmed : (s.barView s.cur k.toNat).armed = true)
include harmed

theorem join_unexpected (h : without s.f.own (s.barView s.cur k.toNat).expect ≠ 0) :
    Faults (.join k) s (faultOf 0x24#8 3 ((without s.f.own (s.barView s.cur k.toNat).expect).extractLsb' 0 64)
      (((without s.f.own (s.barView s.cur k.toNat).expect).extractLsb' 64 32).setWidth 64)) := by
  rw [← lanesLo_eq, ← lanesHi_eq]
  exact faults_of (exec_join_here s k htrap hstill hdev hrel) ((if_neg (by rw [harmed]; exact Bool.noConfusion)).trans (if_pos h))

theorem join_waits (h : without s.f.own (s.barView s.cur k.toNat).expect = 0) : exec (.join k) s = .next ((joined s k).joinArrive s.cur k.toNat) := by
  rw [exec_join_here s k htrap hstill hdev hrel, if_neg (by rw [harmed]; exact Bool.noConfusion)]
  exact congrArg (finish s) (if_neg (not_not.2 h))
end
end

/-! #### WAITW (R163) -/

section
variable (s : State) (a b : RegNum)

/-- R163: WAITW once its address has been translated, in the state `u`. -/
def waitAct (u : State) : Act :=
  if (leafAt u (s.sv a)).dev ≠ s.fabric.toNat then watchAway u (leafAt u (s.sv a)).dev (s.sv a) ((s.sv b).setWidth 32)
  else if u.valIn .dram (u.cellOf (leafAt u (s.sv a)) (s.sv a)) 4 ≠ fld (s.sv b) 0 32 then .done (u.setE true)
  else if 4096 ≤ u.watches (leafAt u (s.sv a)).home then .done (u.setE false)
  else .away (u.beginWait (.waitw (u.cellOf (leafAt u (s.sv a)) (s.sv a)) ((s.sv b).setWidth 32) (s.sv a) (leafAt u (s.sv a)).gen false))

theorem exec_waitw (htrap : s.f.trap = none) (hclean : s.poisoned [.s a, .s b] = none) (hstill : Still s)
    (hcheck : s.checkGlobal s.f.coreKey s.g.rights .read 4 false [⟨0, s.sv a, 4⟩] = none) (hfree : Free (translated s [s.sv a]) (s.sv a)) :
    exec (.waitw a b) s = finish s (waitAct s a b (translated s [s.sv a])) := by
  show execWaitw a b s = _
  rw [execWaitw, noTrapMode_out s _ htrap, State.clean_none _ _ _ hclean, parkThen_still s hstill]
  have hg : (translated s [s.sv a]).g = s.g := translated_frame State.g (fun _ _ => rfl) ..
  have hb : (translated s [s.sv a]).sv b = s.sv b := translated_frame (fun u => u.sv b) (fun _ _ => rfl) ..
  have hleaf : (translated s [s.sv a]).leafOf (translated s [s.sv a]).f.coreKey s.g.rights.asid (s.sv a) = leafAt (translated s [s.sv a]) (s.sv a) := by
    rw [leafAt, hg]
  obtain ⟨hacc, hord⟩ := hfree
  have hgo : ¬((translated s [s.sv a]).accessHeld (translated s [s.sv a]).cur ||
      ((leafAt (translated s [s.sv a]) (s.sv a)).ord == 0 && !(translated s [s.sv a]).released (translated s [s.sv a]).cur true)) = true := by
    rw [hacc]
    simp [hord]
  dsimp only
  rw [hcheck]
  dsimp only
  rw [← translated, hleaf, hb, show (translated s [s.sv a]).fabric = s.fabric from translated_frame State.fabric (fun _ _ => rfl) ..]
  exact congrArg (finish s) (if_neg hgo)
end

/-- Settles O18: BSET by the record it sees, JOIN and BARRT by what they wait for, WAITW by the word it compares. -/
theorem barrierAndWaitWords : Obligations.BarrierAndWaitWords := by
  refine ⟨fun s k => ?_, fun s a b => ?_⟩
  · intro bar out ours
    refine ⟨bset_clashes s k, fun _ h => bset_arms s k (.inr h), fun h => bset_arms s k (.inl h), fun hdev htrap hstill i hi => ?_,
      fun g => applyUpd_bset g k.toNat s.f.own, trapMode_faults s k, fun hdev htrap hstill => ⟨fun pub hrel => ?_, fun hrel => ⟨join_idle s k htrap hstill hdev hrel,
        join_unexpected s k htrap hstill hdev hrel, fun harmed hout => ⟨join_waits s k htrap hstill hdev hrel harmed hout, fun hw => ?_⟩⟩⟩⟩
    · obtain ⟨x, hexec⟩ : ∃ x, exec i s = finish s (s.tableAct 0 x) := by
        simp only [List.mem_cons, List.not_mem_nil, or_false] at hi
        rcases hi with rfl | rfl
        · exact ⟨_, exec_join s k htrap hstill⟩
        · exact exec_exit s hstill
      obtain ⟨hnone, hasked, hrefused⟩ := asks_records s hexec hdev
      exact ⟨hnone, hasked, fun hg => keyFault_eq s.f.own s.g.dev s.g.home ▸ hrefused hg⟩
    · have hact := congrArg (finish s) (barrt_waits s pub htrap hstill hdev hrel)
      cases pub with
      | false => exact hact
      | true => exact hact
    · rw [join_waits s k htrap hstill hdev hrel harmed hout, joinArrive_stays (joined s k) s.cur k.toNat]
      · rfl
      · rw [joined_group]
        exact hw
  · intro va u x key want htrap hclean hstill hcheck hfree
    have hexec := exec_waitw s a b htrap hclean hstill hcheck hfree
    have hpc : u.f.pc = s.f.pc := translated_frame (fun u => u.f.pc) (fun _ _ => rfl) ..
    have hwant : want.toNat = fld (s.sv b) 0 32 := by simp [want, fld]
    refine ⟨fun hdev => ⟨fun hans hrem => ?_, fun e es hans => ?_⟩, fun hdev => ⟨fun hne => ?_, fun heq => ⟨fun hroom => ?_, fun hfull => ?_⟩⟩⟩
    · have hany : (u.remote.any fun x => x.asker == some (Asker.frag u.cur)) = false := List.any_eq_false.2 fun r hr => by simpa using hrem r hr
      have hact : watchAway u x.dev va want = .hold (u.askWatch x.dev va want) := by
        simp only [watchAway, hans, hany]
        rfl
      exact holds_of hexec ((if_pos hdev).trans hact)
    · have hact : waitAct s a b u = watchAway u x.dev va want := if_pos hdev
      rw [watchAway, hans] at hact
      dsimp only at hact
      refine ⟨fun hcode => faults_of hexec (hact.trans (if_pos hcode)), fun hcode hne => ?_, fun hcode heq => ?_⟩
      · exact goes_of hexec (hact.trans ((if_neg (not_not.2 hcode)).trans (if_neg hne))) ((State.setE_pc ..).trans hpc)
      · exact hexec.trans (congrArg (finish s) (hact.trans ((if_neg (not_not.2 hcode)).trans (if_pos heq))))
    · refine goes_of hexec ((if_neg (not_not.2 hdev)).trans (if_pos (hwant ▸ hne))) (by simp [hpc])
    · exact hexec.trans (congrArg (finish s) ((if_neg (not_not.2 hdev)).trans ((if_neg (not_not.2 (hwant ▸ heq))).trans (if_neg (Nat.not_le.2 hroom)))))
    · exact goes_of hexec ((if_neg (not_not.2 hdev)).trans ((if_neg (not_not.2 (hwant ▸ heq))).trans (if_pos hfull))) (by simp [hpc])

end Sys2Proof.Proofs.Waits

/-! ### Loads of a fragment at its own home (R62, R103, R207, R217, R218, R221, R225) -/

namespace Sys2Proof.Proofs.Loads

open Sys2Proof Sys2Proof.Machine Sys2Proof.Claim Sys2Proof.Proofs.Privileged Sys2Proof.Proofs.Matrix Sys2Proof.Proofs.Launch Sys2Proof.Proofs.Stores
  Sys2Proof.Proofs.RegWrites

/-! #### Values by lane -/

section
variable {α : Type} (m : KMap α) (k : Nat)

theorem find_agreed (x : α) (hx : ∀ c ∈ m, c.1 = k → c.2 = x) (hk : ∃ c ∈ m, c.1 = k) : KMap.find m k = some x := by
  induction m with
  | nil => simp at hk
  | cons c r ih =>
    rw [List.forall_mem_cons] at hx
    rw [KMap.find]
    by_cases hc : k = c.1
    · rw [if_pos hc, hx.1 hc.symm]
    · rw [if_neg hc]
      exact ih hx.2 (by simpa [Ne.symm hc] using hk)

theorem find_absent (h : ∀ c ∈ m, c.1 ≠ k) : KMap.find m k = none := by
  induction m with
  | nil => rfl
  | cons c r ih =>
    rw [List.forall_mem_cons] at h
    rw [KMap.find, if_neg h.1.symm]
    exact ih h.2
end

/-! #### Results by sector (R62, R103, R221) -/

/-- R62: the octets that hold a lane. -/
def octets (lanes : Mask) : List Nat := (List.range 12).filter fun q => lanes &&& octet q != 0x0#96

theorem mem_octets {lanes : Mask} {l : Nat} (h : lanes.getLsbD l = true) : l / 8 ∈ octets lanes := by
  have hl : l < 96 := Matrix.lt_of_getLsbD h
  refine List.mem_filter.2 ⟨List.mem_range.2 (by omega), bne_iff_ne.2 fun h0 => ?_⟩
  have hbit : (lanes &&& octet (l / 8)).getLsbD l = true := by
    rw [BitVec.getLsbD_and, h, octet_getLsbD _ _ hl]
    simp
  rw [h0] at hbit
  simp at hbit

/-- R62, R221: the result that a sector of a vector word brings. -/
def sectorOut (e : Nat) (kind : OutKind) (lanes zero : Mask) (vals : List (Nat × DWord)) (bnd : Bool) (pois : Mask) (q : Nat) : Out :=
  Out.mk kind (.v e) ((lanes ||| zero) &&& octet q) (lanes ||| zero) (lanesOf fun l => ((KMap.find vals l).getD 0).setWidth 32) 0 bnd (pois &&& octet q)

theorem onlyFrag_f {s t : State} {f : Frag} (h : OnlyFrag s t f) : t.f = { f with state := t.f.state } := by
  have hf := h.2 s.cur
  rw [if_pos rfl] at hf
  rwa [← h.1] at hf

theorem leavesOut_pc {s t : State} {outs : List Out} {e : Nat} {Z : Mask} (h : LeavesOut s t outs e Z) : t.f.pc = s.f.pc :=
  (congrArg Frag.pc (onlyFrag_f h.1) :)

section
variable (s u : State) (e : Nat) (kind : OutKind) (lanes zero : Mask) (vals : List (Nat × DWord)) (bnd : Bool) (pois : Mask)

theorem sectorOuts_eq : u.sectorOuts u.cur e kind lanes zero (lanes ||| zero) vals bnd pois = u.setF { u.f with
    outs := u.f.outs ++ (octets lanes).map (sectorOut e kind lanes zero vals bnd pois)
    regs := u.f.regs.writeV u.f.own e (maskOf fun l => zero.getLsbD l && !(octets lanes).contains (l / 8)) (lanesOf fun _ => 0) bnd 0x0#96 } := rfl

theorem leavesOut_setF (h : OnlyFrag s u s.f) (outs : List Out) (alone Z : Mask) (hal : ∀ l, alone.getLsbD l = true → Z.getLsbD l = true) (vs : Lanes) :
    LeavesOut s (u.setF { u.f with outs := u.f.outs ++ outs, regs := u.f.regs.writeV u.f.own e alone vs bnd 0x0#96 }) outs e Z := by
  have hf := onlyFrag_f h
  obtain ⟨hcur, hfrag⟩ := h
  have hregs : u.f.regs = s.f.regs := (congrArg Frag.regs hf :)
  refine ⟨⟨hcur, fun n => ?_⟩, fun j hj => ?_, fun l hl hZ => ?_⟩
  · by_cases hn : n = s.cur
    · subst hn
      have hset : ∀ g, (u.setF g).frag s.cur = g := fun g => hcur ▸ State.f_setF u g
      rw [if_pos rfl, hset, State.f_setF, hf]
      rfl
    · rw [if_neg hn, State.frag_setF_other _ _ _ (hcur ▸ hn), hfrag n, if_neg hn]
  · rw [State.f_setF, hregs]
    simp only [Regs.writeV, KMap.get_put]
    by_cases hje : j = e
    · subst hje
      have halone : alone = 0#96 := BitVec.eq_of_getLsbD_eq fun l hl => by
        have := hal l
        rw [hj.resolve_left (· rfl)] at this
        simpa using this
      rw [if_pos rfl, halone]
      rfl
    · rw [if_neg hje]
  · rw [State.f_setF, hregs]
    simp only [Regs.writeV, KMap.get_put, if_true]
    rw [lane_write _ _ _ _ _ _ _ hl, if_neg fun hb => by rw [hal l hb] at hZ; cases hZ]

/-- R62: the sectors' results are left outstanding, and of a sector that brings none only zero is written. -/
theorem sectorOuts_leaves (h : OnlyFrag s u s.f) : LeavesOut s (u.sectorOuts s.cur e kind lanes zero (lanes ||| zero) vals bnd pois)
    ((octets lanes).map (sectorOut e kind lanes zero vals bnd pois)) e zero := by
  rw [← h.1, sectorOuts_eq]
  refine leavesOut_setF s u e bnd h _ _ _ (fun l hl => ?_) _
  rw [getLsbD_maskOf, Bool.and_eq_true, Bool.and_eq_true] at hl
  exact hl.2.1

variable {e kind lanes zero vals bnd pois}

theorem of_mem_sectors {x : Out} (hx : x ∈ (octets lanes).map (sectorOut e kind lanes zero vals bnd pois)) :
    x.kind = kind ∧ x.dest = .v e ∧ x.whole = lanes ||| zero ∧ x.bnd = bnd ∧ x.mask &&& ~~~(lanes ||| zero) = 0 ∧
      ∀ l, x.mask.getLsbD l = true → l < 96 ∧ lane x.vals l = ((KMap.find vals l).getD 0).setWidth 32 ∧ (lanes ||| zero).getLsbD l = true ∧
        x.poison.getLsbD l = pois.getLsbD l := by
  obtain ⟨q, -, rfl⟩ := List.mem_map.1 hx
  refine ⟨rfl, rfl, rfl, rfl, BitVec.eq_of_getLsbD_eq fun l hl => ?_, fun l hl => ?_⟩
  · simp only [sectorOut, BitVec.getLsbD_and, BitVec.getLsbD_not, hl, decide_true, Bool.true_and]
    cases (lanes ||| zero).getLsbD l <;> simp
  · have hl96 : l < 96 := Matrix.lt_of_getLsbD hl
    simp only [sectorOut, BitVec.getLsbD_and, Bool.and_eq_true] at hl ⊢
    refine ⟨hl96, Crossbar.lane_lanesOf _ l hl96, hl.1, ?_⟩
    rw [hl.2, Bool.and_true]

theorem exists_sector {l : Nat} (hl : lanes.getLsbD l = true) :
    ∃ x ∈ (octets lanes).map (sectorOut e kind lanes zero vals bnd pois), x.mask.getLsbD l = true := by
  refine ⟨_, List.mem_map_of_mem (mem_octets hl), ?_⟩
  simp [sectorOut, hl, octet_getLsbD _ _ (Matrix.lt_of_getLsbD hl)]
end

/-! #### An access at the fragment's own home (R217, R225, R235, R238, R275) -/

/-- R217: the element of an access. -/
def elemOf (a : Addr) : Elem := ⟨a.lane, .dram, 0, a.size, 0, a.va, none, 0⟩

/-- R218: a word's pages are bounded when a page of an address is. -/
theorem pagesBnd_pagesOf (s : State) (es : List Elem) : pagesBnd (pagesOf s es) = es.any fun e => (leafAt s e.va).bnd := by
  have hadd : ∀ (ps : List PageReq) (p : PageReq), pagesBnd (addPage ps p) = (pagesBnd ps || p.bnd) := fun ps p => by
    induction ps with
    | nil => simp [addPage, pagesBnd]
    | cons q ps ih =>
      have hcons : ∀ (x : PageReq) (l : List PageReq), pagesBnd (x :: l) = (x.bnd || pagesBnd l) := fun x l => List.any_cons ..
      rw [addPage]
      split_ifs with hjoin hlt
      · rw [hcons, hcons, hjoin.2.2.2]
        cases q.bnd <;> simp
      · rw [hcons, Bool.or_comm]
      · rw [hcons, ih, hcons, Bool.or_assoc]
  induction es using List.reverseRecOn with
  | nil => rfl
  | append_singleton es x ih =>
    rw [pagesOf, State.pages, List.foldl_append, List.foldl_cons, List.foldl_nil, hadd, ← State.pages, ← pagesOf, ih, List.any_append]
    simp [leafAt]

section
variable {s : State} {need : Need} {size : Nat} {bnd : Bool} {as : List Addr} (h : LocalAccess s need size bnd as) {es : List Elem}
  (hes : ∀ e ∈ es, e.space = .dram ∧ ∃ a ∈ as, a.va = e.va)
include h hes

theorem pages_home : ∀ p ∈ pagesOf s es, p.dev = s.fabric.toNat ∧ p.home = s.f.home ∧ p.ord ≠ 0 := by
  obtain ⟨-, -, -, -, -, hhere⟩ := h
  refine forall_pagesOf s _ (fun d x o => d = s.fabric.toNat ∧ x = s.f.home ∧ o ≠ 0) fun e he => ?_
  obtain ⟨-, a, ha, hva⟩ := hes e he
  exact hva ▸ hhere a ha

theorem mayAccess_home : s.mayAccess s.cur (pagesOf s es) = true := by
  refine List.all_eq_true.2 fun p hp => ?_
  obtain ⟨-, -, hord⟩ := pages_home h hes p hp
  obtain ⟨-, hbefore, hserved, -⟩ := h
  have hserv : s.served p.elems = true := by
    refine (congrArg s.served (List.map_id p.elems).symm).trans (served_map s id p.elems fun e he => ?_)
    obtain ⟨x, hx, rfl⟩ := (mem_pagesOf s _ e).1 (List.mem_flatMap.2 ⟨p, hp, he⟩)
    obtain ⟨hdram, a, ha, hva⟩ := hes x hx
    exact (served_congr s (placed s x) ⟨a.lane, .dram, placeOf s a.va, a.size, 0, a.va, none, 0⟩ hdram (congrArg (placeOf s) hva.symm)).trans (hserved a ha)
  rw [mayArrive_nothingBefore s hbefore _ rfl hord, hserv]
  simp

theorem ordered_home : ((pagesOf s es).any fun p => p.ord == 0) = false :=
  List.any_eq_false.2 fun p hp => by simpa using (pages_home h hes p hp).2.2
end

theorem elemOf_home (as : List Addr) : ∀ e ∈ as.map elemOf, e.space = .dram ∧ ∃ a ∈ as, a.va = e.va :=
  List.forall_mem_map.2 fun a ha => ⟨rfl, a, ha, rfl⟩

theorem acquires_home {s : State} {need : Need} {size : Nat} {bnd : Bool} {as : List Addr} (h : LocalAccess s need size bnd as) (o : BitVec 3) :
    (isAcq o || (pagesOf s (as.map elemOf)).any fun p => p.ord == 0) = isAcq o := by
  rw [ordered_home h (elemOf_home as), Bool.or_false]

/-- R225: the release that an order code asks for keeps nothing waiting once it is met. -/
theorem release_met {s : State} {o : BitVec 3} (h : ReleaseMet s o) : (isRel o && !s.released s.cur (isRel o && isSys o)) = false := by
  cases hr : isRel o with
  | false => rfl
  | true =>
    rw [Bool.true_and, Bool.true_and, h hr]
    rfl

/-- R217, R225: a word whose accesses lie at the fragment's own home performs them there. -/
theorem migrateWord_home {s : State} {a : MigAcc} {lanes : Mask} (hneed : a.need ≠ .move)
    (h : LocalAccess s a.need a.size (a.writesBnd s.src) (a.addrs s.src lanes)) (hrel : ReleaseMet s a.order) :
    s.migrateWord a lanes = .done ((translated s ((a.addrs s.src lanes).map (·.va))).performAcc s.cur a s.src lanes
      (pagesOf s ((a.addrs s.src lanes).map elemOf))) := by
  have hmay := mayAccess_home h (elemOf_home _)
  obtain ⟨hne, -, -, hcheck, hfree, hhere⟩ := h
  have hempty : (a.addrs s.src lanes).isEmpty = false := List.isEmpty_eq_false_iff.2 hne
  have hmove : (a.need != .move) = true := bne_iff_ne.2 hneed
  have hso : (((a.addrs s.src lanes).head?.map fun x => (s.leafOf s.f.coreKey s.g.rights.asid x.va).ord == 0).getD false) = false := by
    obtain ⟨x, xs, hx⟩ := List.exists_cons_of_ne_nil hne
    rw [hx]
    exact beq_false_of_ne (hhere x (by simp [hx])).2.2
  have haway : ((a.addrs s.src lanes).filter fun x => s.destOf s.f.coreKey s.g.rights x.va != (s.fabric.toNat, s.f.home)) = [] :=
    List.filter_eq_nil_iff.2 fun x hx => by
      obtain ⟨hdev, hhome, -⟩ := hhere x hx
      have hdest : s.destOf s.f.coreKey s.g.rights x.va = (s.fabric.toNat, s.f.home) := Prod.ext hdev hhome
      simp [hdest]
  have hps : s.accPages s.cur a s.src lanes = pagesOf s ((a.addrs s.src lanes).map elemOf) := rfl
  unfold State.migrateWord
  simp only [hcheck, hempty, Bool.false_and, Bool.false_eq_true, if_false, hmove, Bool.true_and, hfree, hso, Bool.or_false, release_met hrel, hps, hmay, Bool.not_true,
    haway, List.isEmpty_nil, if_true]
  rfl

theorem onlyFrag_translated (s : State) (vas : List DWord) : OnlyFrag s (translated s vas) s.f := by
  refine ⟨translated_frame State.cur (fun _ _ => rfl) s vas, fun n => ?_⟩
  rw [translated_frame (fun t => t.frag n) (fun _ _ => rfl) s vas]
  by_cases hn : n = s.cur
  · subst hn
    rw [if_pos rfl, State.frag_cur]
  · rw [if_neg hn]

/-! #### LD (R115, R217, R218, R221) -/

section
variable (s : State) (d b i : RegNum) (w o : BitVec 3)

/-- R115, R221: the value that LD finds at an address. -/
def loaded (va : DWord) : DWord := widen w (BitVec.ofNat 64 (s.valIn .dram (placeOf s va) (widthOf w)))

/-- R217: the accesses of a vector load. -/
def loadAddrs : List Addr := (lanesIn s.eff).map fun l => ⟨l, s.src.addr b i (widthOf w) l, widthOf w⟩

/-- R217: the elements of a vector load, in ascending page order. -/
def loadElems : List Elem := (pagesOf s ((loadAddrs s b i w).map elemOf)).flatMap PageReq.elems

/-- R115, R221: the values of a vector load by lane, as a state holds them. -/
def loadVals (u : State) : List (Nat × DWord) := (u.readElems (loadElems s b i w)).1.map fun v => (v.1, widen w v.2)

theorem mem_loadElems (e : Elem) : e ∈ loadElems s b i w ↔
    ∃ l ∈ lanesIn s.eff, e = ⟨l, .dram, placeOf s (s.src.addr b i (widthOf w) l), widthOf w, 0, s.src.addr b i (widthOf w) l, none, 0⟩ := by
  rw [loadElems, mem_pagesOf]
  simp only [loadAddrs, List.mem_map, exists_exists_and_eq_and]
  rfl

theorem mem_loadVals (u : State) (c : Nat × DWord) : c ∈ loadVals s b i w u ↔
    ∃ l ∈ lanesIn s.eff, c = (l, widen w (BitVec.ofNat 64 (u.valIn .dram (placeOf s (s.src.addr b i (widthOf w) l)) (widthOf w)))) := by
  simp only [loadVals, State.readElems, State.readElem, List.map_map, List.mem_map, mem_loadElems]
  constructor
  · rintro ⟨_, ⟨l, hl, rfl⟩, rfl⟩
    exact ⟨l, hl, rfl⟩
  · rintro ⟨l, hl, rfl⟩
    exact ⟨_, ⟨l, hl, rfl⟩, rfl⟩

/-- R221: each lane of the effective mask finds its own value, and another lane none. -/
theorem find_loadVals (u : State) (hu : u.valIn = s.valIn) (l : Nat) :
    KMap.find (loadVals s b i w u) l = if s.eff.getLsbD l = true then some (loaded s w (s.src.addr b i (widthOf w) l)) else none := by
  by_cases hl : s.eff.getLsbD l = true
  · rw [if_pos hl]
    refine find_agreed _ _ _ (fun c hc hk => ?_) ⟨_, (mem_loadVals s b i w u _).2 ⟨l, mem_lanesIn.2 hl, rfl⟩, rfl⟩
    obtain ⟨l', -, rfl⟩ := (mem_loadVals s b i w u c).1 hc
    obtain rfl : l' = l := hk
    rw [hu]
    rfl
  · rw [if_neg hl]
    refine find_absent _ _ fun c hc hk => hl ?_
    obtain ⟨l', hl', rfl⟩ := (mem_loadVals s b i w u c).1 hc
    obtain rfl : l' = l := hk
    exact mem_lanesIn.1 hl'

/-- R218: the lanes of a vector load that meet an error. -/
theorem getLsbD_readElems (u : State) (hu : u.readErr = s.readErr) (l : Nat) (hl : l < 96) : ((u.readElems (loadElems s b i w)).2.getLsbD l = true) ↔
    s.eff.getLsbD l = true ∧ s.readErr (placeOf s (s.src.addr b i (widthOf w) l)) (widthOf w) = true := by
  simp only [State.readElems, getLsbD_maskOf, hl, decide_true, Bool.true_and, List.any_eq_true, mem_loadElems, Bool.and_eq_true, beq_iff_eq, ← hu]
  constructor
  · rintro ⟨_, ⟨l', hl', rfl⟩, hlane, herr⟩
    obtain rfl : l' = l := hlane
    exact ⟨mem_lanesIn.1 hl', herr⟩
  · rintro ⟨heff, herr⟩
    exact ⟨_, ⟨l, mem_lanesIn.2 heff, rfl⟩, rfl, herr⟩

theorem ldV_home (hclean : s.poisoned (addrSrcs b i s.eff) = none) (hrel : ReleaseMet s o) (h : LocalAccess s .read (widthOf w) false (loadAddrs s b i w)) :
    ∃ u bnd pois, Goes (.ldV d b i w o) s (u.sectorOuts s.cur (s.src.vEnt d) (.sector (isAcq o)) s.eff (s.zeroed &&& s.f.own)
        (s.eff ||| (s.zeroed &&& s.f.own)) (loadVals s b i w u) bnd pois) ∧
      u = translated s ((loadAddrs s b i w).map (·.va)) ∧ bnd = pagesBnd (pagesOf s ((loadAddrs s b i w).map elemOf)) ∧
      pois = (u.readElems (loadElems s b i w)).2 := by
  refine ⟨_, _, _, ?_, rfl, rfl, rfl⟩
  have hown : ((translated s ((loadAddrs s b i w).map (·.va))).frag s.cur).own = s.f.own :=
    congrArg Frag.own (translated_frame (fun t => t.frag s.cur) (fun _ _ => rfl) s _)
  have hact := migrateWord_home (a := .loadV d b i w o s.zeroed) (lanes := s.eff) (by simp [MigAcc.need]) h hrel
  refine goes_of (i := .ldV d b i w o) (s := s) (act := s.migrateWord (.loadV d b i w o s.zeroed) s.eff) (congrArg (finish s) (State.clean_none _ _ _ hclean)) (hact.trans ?_)
    (leavesOut_pc (sectorOuts_leaves s _ _ _ _ _ _ _ _ (onlyFrag_translated s _)))
  rw [← acquires_home h o, ← hown]
  rfl

/-- The sectors' results bring each lane's value, and zero to the lanes that the word zeroes. -/
theorem sectors_read (u : State) (hu : u.valIn = s.valIn) (e : Nat) (kind : OutKind) (bnd : Bool) (pois : Mask) :
    ReadsLanes ((octets s.eff).map (sectorOut e kind s.eff (s.zeroed &&& s.f.own) (loadVals s b i w u) bnd pois)) e s.eff (s.zeroed &&& s.f.own)
      fun l => (loaded s w (s.src.addr b i (widthOf w) l)).setWidth 32 := by
  refine ⟨fun x hx => ?_, fun l hl => exists_sector (mem_lanesIn.1 hl)⟩
  obtain ⟨-, hdest, hwhole, -, hmask, hlanes⟩ := of_mem_sectors hx
  refine ⟨hdest, hwhole, hmask, fun l hl => ?_⟩
  rw [(hlanes l hl).2.1, find_loadVals s b i w u hu]
  split_ifs <;> rfl

theorem addOut_translated (s : State) (vas : List DWord) (x : Out) : ((translated s vas).addOut s.cur x).f = { s.f with outs := s.f.outs ++ [x] } := by
  obtain ⟨cs, hcs⟩ := cache_eq s s.f.coreKey s.g.rights.asid vas
  rw [translated, hcs]
  exact State.f_setF ..

/-- R221: scalar LD at the fragment's own home does not move the fragment, whether or not lanes are active. -/
theorem ldS_home (hclean : (s.sreg b).poison = false) (hrel : ReleaseMet s o) (h : LocalAccess s .read (widthOf w) false [⟨0, s.sv b, widthOf w⟩]) :
    Goes (.ldS d b w o) s ((translated s [s.sv b]).addOut s.cur (s.src.scalarOut (.sector (isAcq o)) d
      (widen w ((translated s [s.sv b]).readElem ⟨0, .dram, placeOf s (s.sv b), widthOf w, 0, s.sv b, none, 0⟩).1) (leafAt s (s.sv b)).bnd
      ((translated s [s.sv b]).readElem ⟨0, .dram, placeOf s (s.sv b), widthOf w, 0, s.sv b, none, 0⟩).2)) := by
  have hact : s.migrateWord (.loadS d b w o) s.eff = .done _ := migrateWord_home (by simp [MigAcc.need]) h hrel
  have hbnd : pagesBnd (pagesOf s [elemOf ⟨0, s.sv b, widthOf w⟩]) = (leafAt s (s.sv b)).bnd := by
    rw [pagesBnd_pagesOf]
    simp [elemOf]
  have hdone : s.migrateWord (.loadS d b w o) s.eff = .done ((translated s [s.sv b]).addOut s.cur (s.src.scalarOut (.sector (isAcq o)) d
      (widen w ((translated s [s.sv b]).readElem ⟨0, .dram, placeOf s (s.sv b), widthOf w, 0, s.sv b, none, 0⟩).1) (leafAt s (s.sv b)).bnd
      ((translated s [s.sv b]).readElem ⟨0, .dram, placeOf s (s.sv b), widthOf w, 0, s.sv b, none, 0⟩).2)) := by
    refine hact.trans ?_
    rw [← hbnd, ← acquires_home h o]
    rfl
  obtain ⟨-, -, -, hcheck, -, hhere⟩ := h
  obtain ⟨hdev, hhome, -⟩ := hhere _ (List.mem_singleton_self _)
  have hstay : loadStay d b w o s = s.migrateWord (.loadS d b w o) s.eff := by
    unfold loadStay
    simp only [hcheck]
    exact if_pos ⟨hdev, hhome⟩
  refine goes_of (act := s.migrateWord (.loadS d b w o) s.eff) ?_ hdone ?_
  · refine congrArg (finish s) ((State.clean_none _ _ _ (poisoned_single s b hclean)).trans ?_)
    rw [hstay, ite_self]
  · exact (congrArg Frag.pc (addOut_translated s [s.sv b] _) :)
end

/-- Settles O21: the word's pages all lie at the fragment's own home, where the access is performed at issue and its results are left to be delivered by
sector; translating changes only what the core caches. -/
theorem globalLoadsAtHome : Obligations.GlobalLoadsAtHome := by
  intro s d b i w o size value same
  refine ⟨fun hclean hrel h => ?_, fun hclean hrel h => ?_⟩
  · obtain ⟨u, bnd, pois, hgoes, rfl, rfl, rfl⟩ := ldV_home s d b i w o hclean hrel h
    have hval := translated_frame (fun t => t.valIn) (fun _ _ => rfl) s ((loadAddrs s b i w).map (·.va))
    have herr := translated_frame (fun t => t.readErr) (fun _ _ => rfl) s ((loadAddrs s b i w).map (·.va))
    have hkept : ∀ {γ : Type} (p : State → γ), (∀ (s : State) cs, p { s with cores := cs } = p s) → p (translated s ((loadAddrs s b i w).map (·.va))) = p s :=
      fun p hp => translated_frame p hp s _
    refine ⟨_, _, hgoes, ⟨hkept State.mem fun _ _ => rfl, hkept State.scratch fun _ _ => rfl, hkept State.vault fun _ _ => rfl,
      hkept State.opmem fun _ _ => rfl⟩, sectorOuts_leaves s _ _ _ _ _ _ _ _ (onlyFrag_translated s _), sectors_read s b i w _ hval _ _ _ _, fun x hx => ?_⟩
    obtain ⟨hkind, -, -, hbnd, -, hlanes⟩ := of_mem_sectors hx
    refine ⟨hkind, ?_, fun l hl => ?_⟩
    · rw [hbnd, pagesBnd_pagesOf]
      simp [loadAddrs, elemOf, size]
    · obtain ⟨hl96, -, -, hpois⟩ := hlanes l hl
      rw [hpois]
      exact getLsbD_readElems s b i w _ herr l hl96
  · have hval := translated_frame (fun t => t.valIn) (fun _ _ => rfl) s [s.sv b]
    have hkept : ∀ {γ : Type} (p : State → γ), (∀ (s : State) cs, p { s with cores := cs } = p s) → p (translated s [s.sv b]) = p s :=
      fun p hp => translated_frame p hp s _
    refine ⟨_, _, ldS_home s d b w o hclean hrel h, ⟨hkept State.mem fun _ _ => rfl, hkept State.scratch fun _ _ => rfl, hkept State.vault fun _ _ => rfl,
      hkept State.opmem fun _ _ => rfl⟩, addOut_translated s _ _, ?_, ?_, ?_, fun hd => ?_⟩
    all_goals unfold Regs.scalarOut
    · split_ifs <;> rfl
    · rw [State.readElem, hval]
      split_ifs <;> rfl
    · split_ifs <;> rfl
    · rw [if_neg (by omega)]

end Sys2Proof.Proofs.Loads

/-! ### Atomics of a fragment at its own home (R79, R217, R218, R227, R228) -/

namespace Sys2Proof.Proofs.Atomics

open Sys2Proof Sys2Proof.Machine Sys2Proof.Claim Sys2Proof.Proofs.Privileged Sys2Proof.Proofs.Bytes Sys2Proof.Proofs.Matrix Sys2Proof.Proofs.Launch
  Sys2Proof.Proofs.Stores Sys2Proof.Proofs.Loads

/-! #### Sorted lists -/

section
variable {α : Type} (le : α → α → Bool)

theorem perm_insertBy (x : α) (l : List α) : List.Perm (insertBy le x l) (x :: l) := by
  induction l with
  | nil => exact .refl _
  | cons y r ih =>
    rw [insertBy]
    split_ifs
    · exact .refl _
    · exact (ih.cons y).trans (.swap x y r)

theorem perm_sortBy (l : List α) : List.Perm (sortBy le l) l := by
  induction l with
  | nil => exact .refl _
  | cons x r ih => exact (perm_insertBy le x _).trans (ih.cons x)
end

/-! #### Atomic elements one after another (R218, R227) -/

/-- R218: an atomic element of device memory that meets no error, within the homes' memory. -/
def Sound (s : State) (e : Elem) : Prop := e.space = .dram ∧ e.key % 2 ^ 40 + 4 ≤ 2 ^ 40 ∧ s.readErr e.key 4 = false

theorem Sound.of_wrote {s u : State} {cells : List (Nat × Byte)} {e : Elem} (h : Sound s e) (hw : Wrote s u cells) : Sound u e := by
  obtain ⟨hdram, hlt, hgood⟩ := h
  refine ⟨hdram, hlt, List.any_eq_false.2 fun x hx => List.any_eq_false.1 hgood x (hw.errs x hx)⟩

/-- R227: the word that an element finds, and the word that it leaves. -/
def oldWord (s : State) (e : Elem) : Word := BitVec.ofNat 32 (s.valIn .dram e.key 4)
def newWord (s : State) (e : Elem) : Word := atomNew (e.op.getD .add) (oldWord s e) (e.data.setWidth 32) e.cmp

/-- The bytes that an element writes. -/
def newCells (s : State) (e : Elem) : List (Nat × Byte) := cellsAt e.key (leBytes 4 (newWord s e).toNat)

theorem mem_newCells {s : State} {e : Elem} {c : Nat × Byte} : c ∈ newCells s e ↔ ∃ j, j < 4 ∧ c = (e.key + j, BitVec.ofNat 8 ((newWord s e).toNat / 256 ^ j)) := by
  refine mem_cellsAt.trans (exists_congr fun j => ?_)
  by_cases hj : j < 4
  · simp only [leBytes, List.getElem?_map, List.getElem?_range hj, hj, true_and, Option.map_some, Option.some.injEq, Prod.ext_iff]
    exact ⟨fun h => ⟨h.2, h.1.symm⟩, fun h => ⟨h.2.symm, h.1⟩⟩
  · have hnone : (leBytes 4 (newWord s e).toNat)[j]? = none := List.getElem?_eq_none (by rw [length_leBytes]; omega)
    simp only [hnone, hj, false_and, reduceCtorEq]

theorem Sound.atomElem {s : State} {e : Elem} (h : Sound s e) : s.atomElem e = (s.writeMem (newCells s e), oldWord s e, false) := by
  obtain ⟨hdram, -, hgood⟩ := h
  unfold State.atomElem
  rw [hdram, hgood]
  rfl

theorem Sound.wrote {s : State} {e : Elem} (h : Sound s e) : Wrote s (s.writeMem (newCells s e)) (newCells s e) := by
  obtain ⟨-, hlt, hgood⟩ := h
  refine wrote_writeMem s _ (badUnits_eq_nil s _ fun c hc v hv hin => ?_)
  obtain ⟨j, hj, rfl⟩ := mem_newCells.1 hc
  have herr := List.any_eq_false.1 hgood v hv
  simp only [decide_eq_true_eq] at herr hin
  omega

/-- The words of two elements share no byte. -/
def NoOverlap (x e : Elem) : Prop := ∀ i, i < 4 → ∀ j, j < 4 → (x.key + i) % 2 ^ 40 ≠ (e.key + j) % 2 ^ 40

/-- R207: an element whose word no other of `es` touches, and whose bytes were written under the memory key that it reaches them under, or under none. -/
def Alone (s : State) (es : List Elem) (e : Elem) : Prop :=
  (∀ j, j < 4 → s.memKeys.get 0 ((e.key + j) % 2 ^ 40) = 0 ∨ s.memKeys.get 0 ((e.key + j) % 2 ^ 40) = s.keyAt (e.key + j)) ∧ ∀ x ∈ es, x ≠ e → NoOverlap x e

/-- Cells that write no byte of an element's word. -/
def Misses (cells : List (Nat × Byte)) (e : Elem) : Prop := ∀ c ∈ cells, ∀ j, j < 4 → c.1 % 2 ^ 40 ≠ (e.key + j) % 2 ^ 40

theorem misses_newCells {s : State} {x e : Elem} (h : NoOverlap x e) : Misses (newCells s x) e := by
  intro c hc j hj
  obtain ⟨i, hi, rfl⟩ := mem_newCells.1 hc
  exact h i hi j hj

/-- R207: a word that no cell touches, and whose bytes are under its own memory key, is found as it was. -/
theorem oldWord_wrote {s u : State} {cells : List (Nat × Byte)} {es : List Elem} {e : Elem} (hw : Wrote s u cells) (ha : Alone s es e) (hm : Misses cells e) :
    oldWord u e = oldWord s e := by
  have hbyte : ∀ j, j < 4 → u.dramByte (e.key + j) = s.dramByte (e.key + j) := fun j hj => by
    obtain ⟨hb, hkey⟩ := hw.other (k := e.key + j) fun c hc => hm c hc j hj
    obtain ⟨hb', -⟩ := hw.other (k := (e.key + j) % 2 ^ 40) fun c hc => by
      rw [Nat.mod_mod]
      exact hm c hc j hj
    have hplain := ha.1 j hj
    have hslots := keyAt_congr hw.same.2.1 (e.key + j)
    simp only [State.dramByte, hb, hb', hkey, hslots, if_pos hplain]
  have hbytes : u.bytesIn .dram e.key 4 = s.bytesIn .dram e.key 4 := List.map_congr_left fun j hj => hbyte j (List.mem_range.1 hj)
  rw [oldWord, oldWord, State.valIn, State.valIn, hbytes]

/-- R218, R227: `u` is `s` once the atomic elements `es` have been performed, writing `cells`: an element that is alone writes its new word, and
no other cell touches that word. -/
structure Ran (s u : State) (es : List Elem) (cells : List (Nat × Byte)) : Prop where
  wrote : Wrote s u cells
  within : ∀ c ∈ cells, ∃ e ∈ es, ∃ j, j < 4 ∧ c.1 = e.key + j
  alone : ∀ e ∈ es, Alone s es e → (∀ c ∈ newCells s e, c ∈ cells) ∧ ∀ c ∈ cells, (∃ j, j < 4 ∧ c.1 % 2 ^ 40 = (e.key + j) % 2 ^ 40) → c ∈ newCells s e

/-- Elements performed before one that is alone do not touch its word. -/
theorem Ran.misses {s u : State} {es : List Elem} {cells : List (Nat × Byte)} (h : Ran s u es cells) {e : Elem} (hd : ∀ x ∈ es, NoOverlap x e) : Misses cells e := by
  intro c hc j hj
  obtain ⟨x, hx, i, hi, he⟩ := h.within c hc
  rw [he]
  exact hd x hx i hi j hj

theorem Ran.append {s u : State} {es : List Elem} {cells : List (Nat × Byte)} (h : Ran s u es cells) {x : Elem} (hx : x ∉ es) (hsound : Sound u x) :
    Ran s (u.writeMem (newCells u x)) (es ++ [x]) (cells ++ newCells u x) := by
  refine ⟨h.wrote.trans hsound.wrote, fun c hc => ?_, fun e he ha => ?_⟩
  · obtain hc | hc := List.mem_append.1 hc
    · obtain ⟨e, he, hj⟩ := h.within c hc
      exact ⟨e, List.mem_append_left _ he, hj⟩
    · obtain ⟨j, hj, rfl⟩ := mem_newCells.1 hc
      exact ⟨x, by simp, j, hj, rfl⟩
  · obtain ⟨hplain, hdis⟩ := ha
    obtain he | he := List.mem_append.1 he
    · obtain ⟨hin, hone⟩ := h.alone e he ⟨hplain, fun y hy => hdis y (List.mem_append_left _ hy)⟩
      have hmiss := misses_newCells (s := u) (hdis x (by simp) fun hxe => hx (hxe ▸ he))
      refine ⟨fun c hc => List.mem_append_left _ (hin c hc), fun c hc hj => ?_⟩
      obtain hc | hc := List.mem_append.1 hc
      · exact hone c hc hj
      · obtain ⟨j, hj, hk⟩ := hj
        exact absurd hk (hmiss c hc j hj)
    · obtain rfl : e = x := List.mem_singleton.1 he
      have hmiss : Misses cells e := h.misses fun y hy => hdis y (List.mem_append_left _ hy) fun hye => hx (hye ▸ hy)
      have hnew : newCells u e = newCells s e := by
        rw [newCells, newCells, newWord, newWord, oldWord_wrote h.wrote ⟨hplain, hdis⟩ hmiss]
      refine ⟨fun c hc => List.mem_append_right _ (hnew ▸ hc), fun c hc hj => ?_⟩
      obtain hc | hc := List.mem_append.1 hc
      · obtain ⟨j, hj, hk⟩ := hj
        exact absurd hk (hmiss c hc j hj)
      · exact hnew ▸ hc

/-- R227: elements in one step of the whole, with the values that they find. -/
theorem atomElems_append (u : State) (es : List Elem) (x : Elem) (h : Sound (u.atomElems es).1 x) :
    u.atomElems (es ++ [x]) = ((u.atomElems es).1.writeMem (newCells (u.atomElems es).1 x),
      (u.atomElems es).2.1 ++ [(x.lane, (oldWord (u.atomElems es).1 x).setWidth 64)], (u.atomElems es).2.2) := by
  rw [State.atomElems, List.foldl_append, List.foldl_cons, List.foldl_nil, ← State.atomElems]
  simp only [h.atomElem, Bool.false_eq_true, if_false]

theorem ran_atomElems {s u : State} (h0 : Wrote s u []) (es : List Elem) (hnodup : es.Nodup) (hs : ∀ e ∈ es, Sound s e) :
    (∃ cells, Ran s (u.atomElems es).1 es cells) ∧ (u.atomElems es).2.2 = 0x0#96 ∧ (u.atomElems es).2.1.map Prod.fst = es.map Elem.lane ∧
      ∀ e ∈ es, Alone s es e → (e.lane, (oldWord s e).setWidth 64) ∈ (u.atomElems es).2.1 := by
  induction es using List.reverseRecOn with
  | nil => exact ⟨⟨[], h0, by simp, by simp⟩, rfl, rfl, by simp⟩
  | append_singleton es x ih =>
    obtain ⟨hes, -, hx⟩ := List.nodup_append.1 hnodup
    have hx : x ∉ es := fun hin => hx x hin x (by simp) rfl
    obtain ⟨⟨cells, hran⟩, hbad, hlanes, holds⟩ := ih hes fun e he => hs e (List.mem_append_left _ he)
    have hsound : Sound (u.atomElems es).1 x := (hs x (by simp)).of_wrote hran.wrote
    rw [atomElems_append u es x hsound]
    refine ⟨⟨_, hran.append hx hsound⟩, hbad, by simp [hlanes], fun e he ha => ?_⟩
    obtain ⟨hplain, hdis⟩ := ha
    obtain he | he := List.mem_append.1 he
    · exact List.mem_append_left _ (holds e he ⟨hplain, fun y hy => hdis y (List.mem_append_left _ hy)⟩)
    · obtain rfl : e = x := List.mem_singleton.1 he
      have hmiss : Misses cells e := hran.misses fun y hy => hdis y (List.mem_append_left _ hy) fun hye => hx (hye ▸ hy)
      rw [oldWord_wrote hran.wrote ⟨hplain, hdis⟩ hmiss]
      simp

/-- R227: the word that an element which is alone leaves. -/
theorem Ran.leaves {s u : State} {es : List Elem} {cells : List (Nat × Byte)} (h : Ran s u es cells) {e : Elem} (he : e ∈ es) (hs : Sound s e)
    (ha : Alone s es e) : u.valIn .dram e.key 4 = (newWord s e).toNat := by
  obtain ⟨hin, hone⟩ := h.alone e he ha
  have hmod : e.key % 2 ^ 40 + 4 ≤ 2 ^ 40 := hs.2.1
  have hbytes : u.bytesIn .dram e.key 4 = leBytes 4 (newWord s e).toNat := by
    refine List.map_congr_left fun j hj => ?_
    have hj : j < 4 := List.mem_range.1 hj
    refine h.wrote.dramByte (hin _ (mem_newCells.2 ⟨j, hj, rfl⟩)) fun c hc hk => ?_
    obtain ⟨i, hi, rfl⟩ := mem_newCells.1 (hone c hc ⟨j, hj, hk⟩)
    obtain rfl : i = j := by
      have hk : (e.key + i) % 2 ^ 40 = (e.key + j) % 2 ^ 40 := hk
      omega
    rfl
  rw [State.valIn, hbytes, leNat_leBytes, Nat.mod_eq_of_lt]
  have := (newWord s e).isLt
  omega

/-! #### Posted atomics page by page (R228, R238) -/

theorem atomElems_fst (u : State) (xs ys : List Elem) : (u.atomElems (xs ++ ys)).1 = ((u.atomElems xs).1.atomElems ys).1 := by
  have hstate : ∀ (l : List Elem) (a : State × List (Nat × DWord) × Mask), (l.foldl (fun a e =>
      ((a.1.atomElem e).1, a.2.1 ++ [(e.lane, (a.1.atomElem e).2.1.setWidth 64)], if (a.1.atomElem e).2.2 then a.2.2 ||| BitVec.twoPow 96 e.lane else a.2.2)) a).1 =
      (a.1.atomElems l).1 := fun l => by
    induction l with
    | nil => exact fun _ => rfl
    | cons x l ih =>
      intro a
      rw [State.atomElems, List.foldl_cons, List.foldl_cons, ih, ih]
  rw [State.atomElems, List.foldl_append]
  exact hstate ys _

theorem postedAtoms_sound {u : State} {es : List Elem} (h : (u.atomElems es).2.2 = 0x0#96) (group home : Nat) (pc : DWord) :
    u.postedAtoms group home pc es = (u.atomElems es).1 := by
  unfold State.postedAtoms
  simp [h]

theorem sendPage_atoms (u : State) (posted sysrel bnd : Bool) (p : PageReq) (hdev : p.dev = u.fabric.toNat) (hhome : p.home = u.f.home)
    (hne : p.elems ≠ []) (hop : ∀ e ∈ p.elems, e.op.isSome = true) : u.sendPage posted sysrel bnd p = u.postedAtoms u.f.group u.f.home u.f.pc p.elems := by
  have hany : (p.elems.any fun e => e.op.isSome) = true := by
    obtain ⟨e, he⟩ := List.exists_mem_of_ne_nil _ hne
    exact List.any_eq_true.2 ⟨e, he, hop e he⟩
  unfold State.sendPage
  exact (if_pos hdev).trans ((if_pos hhome).trans (if_pos hany))

/-- R228, R238: the pages of a posted atomic at the fragment's own home are performed one after another. -/
theorem sendPages_atoms {s u : State} (posted sysrel bnd : Bool) (ps : List PageReq) (hps : ∀ p ∈ ps, p.dev = s.fabric.toNat ∧ p.home = s.f.home)
    (hne : ∀ p ∈ ps, p.elems ≠ []) (done : List Elem) (hnodup : (done ++ ps.flatMap PageReq.elems).Nodup)
    (hs : ∀ e ∈ done ++ ps.flatMap PageReq.elems, Sound s e) (hop : ∀ e ∈ ps.flatMap PageReq.elems, e.op.isSome = true) (h0 : Wrote s u []) :
    ps.foldl (fun t p => t.sendPage posted sysrel bnd p) (u.atomElems done).1 = (u.atomElems (done ++ ps.flatMap PageReq.elems)).1 := by
  induction ps generalizing done with
  | nil => simp
  | cons p ps ih =>
    obtain ⟨⟨hdev, hhome⟩, hps⟩ := List.forall_mem_cons.1 hps
    obtain ⟨hnep, hne⟩ := List.forall_mem_cons.1 hne
    rw [List.flatMap_cons, ← List.append_assoc] at hnodup hs
    rw [List.flatMap_cons, List.forall_mem_append] at hop
    obtain ⟨hopp, hop⟩ := hop
    have hdone := (List.nodup_append.1 hnodup).1
    obtain ⟨⟨cells, hran⟩, -⟩ := ran_atomElems h0 done (List.nodup_append.1 hdone).1 fun e he => hs e (by simp [he])
    have hpage : ((u.atomElems done).1.atomElems p.elems).2.2 = 0x0#96 := by
      have hown : Wrote (u.atomElems done).1 (u.atomElems done).1 [] := ⟨rfl, rfl, fun _ he => he, fun _ => .refl _, rfl, rfl, rfl, rfl, rfl, rfl⟩
      exact (ran_atomElems hown p.elems (List.nodup_append.1 hdone).2.1 fun e he => (hs e (by simp [he])).of_wrote hran.wrote).2.1
    obtain ⟨hcur, -, hfab, -⟩ := hran.wrote.same
    obtain ⟨⟨st, hst⟩, -⟩ := hran.wrote.frags s.cur
    have hf : (u.atomElems done).1.f = { s.f with state := st } := (congrArg (u.atomElems done).1.frag hcur).trans hst
    have hsend := sendPage_atoms (u.atomElems done).1 posted sysrel bnd p (hdev.trans (congrArg _ hfab.symm)) (by rw [hf]; exact hhome) hnep hopp
    rw [List.foldl_cons, hsend, postedAtoms_sound hpage, ← atomElems_fst, List.flatMap_cons, ← List.append_assoc]
    exact ih hps hne (done ++ p.elems) hnodup hs hop

/-! #### A word's pages hold its elements (R217) -/

theorem perm_addPage (ps : List PageReq) (p : PageReq) : List.Perm ((addPage ps p).flatMap PageReq.elems) (ps.flatMap PageReq.elems ++ p.elems) := by
  induction ps with
  | nil => simp [addPage]
  | cons q ps ih =>
    rw [addPage]
    split_ifs
    · simp only [List.flatMap_cons, List.append_assoc]
      exact List.perm_append_comm.append_left _
    · rw [List.flatMap_cons]
      exact List.perm_append_comm
    · rw [List.flatMap_cons, List.flatMap_cons, List.append_assoc]
      exact ih.append_left _

theorem perm_pagesOf (s : State) (es : List Elem) : List.Perm ((pagesOf s es).flatMap PageReq.elems) (es.map (placed s)) := by
  induction es using List.reverseRecOn with
  | nil => exact .refl _
  | append_singleton es x ih =>
    rw [pagesOf, State.pages, List.foldl_append, List.foldl_cons, List.foldl_nil, ← State.pages, ← pagesOf, List.map_append]
    exact (perm_addPage _ _).trans (ih.append_right _)

theorem pagesOf_nonempty (s : State) (es : List Elem) : ∀ p ∈ pagesOf s es, p.elems ≠ [] := by
  have hadd : ∀ (ps : List PageReq) (p : PageReq), (∀ q ∈ ps, q.elems ≠ []) → p.elems ≠ [] → ∀ q ∈ addPage ps p, q.elems ≠ [] := fun ps p hps hp => by
    induction ps with
    | nil => simpa [addPage] using hp
    | cons q ps ih =>
      obtain ⟨hq, hps⟩ := List.forall_mem_cons.1 hps
      rw [addPage]
      split_ifs
      · exact List.forall_mem_cons.2 ⟨List.append_ne_nil_of_left_ne_nil hq _, hps⟩
      · exact List.forall_mem_cons.2 ⟨hp, List.forall_mem_cons.2 ⟨hq, hps⟩⟩
      · exact List.forall_mem_cons.2 ⟨hq, ih hps⟩
  exact List.foldlRecOn es _ (motive := fun ps : List PageReq => ∀ p ∈ ps, p.elems ≠ []) (fun _ hp => nomatch hp) fun ps hps e he =>
    hadd ps _ hps (List.cons_ne_nil _ _)

/-! #### A posted operation at the fragment's own home (R217, R225, R228) -/

theorem storeWord_home {s : State} {need : Need} {o : BitVec 3} {size : Nat} {bnd : Bool} {es : List Elem} (posted : Bool) (adv : State → State)
    (hsent : s.f.sent = 0) (hdram : ∀ e ∈ es, e.space = .dram) (h : LocalAccess s need size bnd (es.map fun e => ⟨e.lane, e.va, e.size⟩)) (hrel : ReleaseMet s o) :
    s.storeWord posted need o size bnd es adv =
      .done (adv ((pagesOf s es).foldl (fun t p => t.sendPage posted (isRel o && isSys o) bnd p) (translated s (es.map (·.va))))) := by
  have hes : ∀ e ∈ es, e.space = .dram ∧ ∃ a ∈ es.map (fun e => (⟨e.lane, e.va, e.size⟩ : Addr)), a.va = e.va := fun e he =>
    ⟨hdram e he, _, List.mem_map_of_mem he, rfl⟩
  have hpages := pages_home h hes
  have hso := ordered_home h hes
  have hempty : es.isEmpty = false := List.isEmpty_eq_false_iff.2 fun hnil => h.1 (by simp [hnil])
  have hfree : (translated s (es.map (·.va))).accessHeld s.cur = false :=
    (translated_frame (fun t => t.accessHeld s.cur) (fun _ _ => rfl) s _).trans h.2.2.2.2.1
  have hrel' : (isRel o && !(translated s (es.map (·.va))).released s.cur (isRel o && isSys o)) = false := by
    rw [released_translated]
    exact release_met hrel
  have hmay : (translated s (es.map (·.va))).mayAccess s.cur (pagesOf s es) = true :=
    (translated_frame (fun t => t.mayAccess s.cur (pagesOf s es)) (fun _ _ => rfl) s _).trans (mayAccess_home h hes)
  have hfab : (translated s (es.map (·.va))).fabric = s.fabric := translated_frame State.fabric (fun _ _ => rfl) s _
  have hwc : (translated s (es.map (·.va))).wcHeld s.f.coreKey s.cur s.g.rights bnd (pagesOf s es) = false :=
    wcHeld_here _ _ _ _ _ _ fun p hp => by rw [hfab]; exact (hpages p hp).1
  have hclash : (translated s (es.map (·.va))).linesClash s.f.coreKey s.g.rights (pagesOf s es) = false := List.any_eq_false.2 fun p hp => by
    rw [hfab, (hpages p hp).1]
    simp
  have hhead : ((pagesOf s es).head?.map (·.dev)).getD 0 = s.fabric.toNat := by
    obtain ⟨e, he⟩ := List.exists_mem_of_ne_nil es (List.isEmpty_eq_false_iff.1 hempty)
    obtain ⟨p, hp, -⟩ := List.mem_flatMap.1 ((mem_pagesOf s es _).2 ⟨e, he, rfl⟩)
    obtain ⟨q, qs, hq⟩ := List.exists_cons_of_ne_nil (List.ne_nil_of_mem hp)
    rw [hq]
    exact (hpages q (by simp [hq])).1
  have hps : s.pages s.f.coreKey s.g.rights es = pagesOf s es := rfl
  have htr : s.cache s.f.coreKey s.g.rights.asid (es.map (·.va)) = translated s (es.map (·.va)) := rfl
  unfold State.storeWord
  simp only [hsent, if_true, h.2.2.2.1, hps, htr, hempty, Bool.false_and, Bool.false_eq_true, if_false, hfree, hso, Bool.or_false, hhead, hfab, bne_self_eq_false,
    Bool.and_false, Bool.not_false, Bool.and_true, hrel', hmay, Bool.not_true, hwc, hclash, State.byPage]

/-! #### The words of a word's lanes (R206, R207, R227) -/

/-- One element for each lane, at the lane's address. -/
def OfLanes (s : State) (addr : Nat → DWord) (E : Nat → Elem) : Prop :=
  ∀ l, (E l).lane = l ∧ (E l).space = .dram ∧ (E l).key = placeOf s (addr l)

section
variable {s : State} {addr : Nat → DWord} {E : Nat → Elem} (hE : OfLanes s addr E)
include hE

theorem nodup_lanes {lanes : List Nat} (h : lanes.Nodup) : (lanes.map E).Nodup :=
  h.map fun l k he => by rw [← (hE l).1, he, (hE k).1]

theorem sound_lanes {lanes : List Nat} {bnd : Bool} (h : LocalAccess s .atom 4 bnd (lanes.map fun l => ⟨l, addr l, 4⟩))
    (hgood : ∀ l ∈ lanes, s.readErr (placeOf s (addr l)) 4 = false) : ∀ e ∈ lanes.map E, Sound s e := by
  obtain ⟨-, -, hserved, -⟩ := h
  refine List.forall_mem_map.2 fun l hl => ?_
  obtain ⟨-, hdram, hkey⟩ := hE l
  have hlane : Served s ⟨l, addr l, 4⟩ := hserved _ (List.mem_map_of_mem hl)
  have hlt := served_lt s _ rfl hlane
  dsimp only at hlt
  rw [Sound, hkey]
  exact ⟨hdram, by omega, hgood l hl⟩

variable {v : State} {es : List Elem} {cells : List (Nat × Byte)} {lanes : List Nat} (hran : Ran s v es cells) (hes : ∀ e, e ∈ es ↔ ∃ l ∈ lanes, E l = e)
  (hs : ∀ e ∈ es, Sound s e)
include hes

theorem keepsOthers_ran (hran : Ran s v es cells) (hs : ∀ e ∈ es, Sound s e) : KeepsOthers s v (lanes.map fun l => placeOf s (addr l)) 4 := by
  refine fun k hk => hran.wrote.other fun c hc => ?_
  obtain ⟨e, he, j, hj, hce⟩ := hran.within c hc
  have hlt := (hs e he).2.1
  obtain ⟨l, hl, rfl⟩ := (hes e).1 he
  have hout := hk (placeOf s (addr l)) (List.mem_map_of_mem hl)
  rw [hce]
  rw [(hE l).2.2] at hlt ⊢
  omega

theorem alone_lane (hs : ∀ e ∈ es, Sound s e) {l : Nat} (hl : l ∈ lanes) (hplain : Plain s (addr l) 4)
    (hout : ∀ j, j < 4 → Outside ((lanes.filter (· != l)).map fun l => placeOf s (addr l)) 4 (placeOf s (addr l) + j)) : Alone s es (E l) := by
  have hkey := (hE l).2.2
  have hlt := (hs (E l) ((hes _).2 ⟨l, hl, rfl⟩)).2.1
  refine ⟨fun j hj => ?_, fun x hx hne i hi j hj he => ?_⟩
  · rw [hkey] at hlt ⊢
    have hslot : s.keyAt (placeOf s (addr l) + j) = s.keyAt (placeOf s (addr l)) := by
      have hdiv : (placeOf s (addr l) + j) / 2 ^ 40 = placeOf s (addr l) / 2 ^ 40 := by omega
      have hcmp : placeOf s (addr l) + j < 2 ^ 40 ↔ placeOf s (addr l) < 2 ^ 40 := by omega
      simp only [State.keyAt, hdiv, hcmp]
    rw [hslot]
    exact hplain j hj
  · have hltx := (hs x hx).2.1
    obtain ⟨k, hk, rfl⟩ := (hes x).1 hx
    have hkl : k ≠ l := fun hkl => hne (congrArg E hkl)
    have := hout j hj (placeOf s (addr k)) (List.mem_map_of_mem (List.mem_filter.2 ⟨hk, bne_iff_ne.2 hkl⟩))
    rw [hkey, (hE k).2.2] at he
    rw [(hE k).2.2] at hltx
    omega
end

/-! #### ATOM (R79, R103, R218, R227) -/

theorem find_of_mem {α : Type} {m : KMap α} {k : Nat} {x : α} (hnodup : (m.map Prod.fst).Nodup) (h : (k, x) ∈ m) : KMap.find m k = some x :=
  find_agreed m k x (fun _ hc he => congrArg Prod.snd (List.inj_on_of_nodup_map hnodup hc h he)) ⟨_, h, rfl⟩

section
variable (s : State) (d b i : RegNum) (second : Bool) (op o : BitVec 3)

/-- R217: the accesses of an atomic word. -/
def atomAddrs : List Addr := (lanesIn s.eff).map fun l => ⟨l, s.src.addr b i 4 l, 4⟩

/-- R227: the element of a lane of ATOM. -/
def atomElemOf (l : Nat) : Elem :=
  ⟨l, .dram, placeOf s (s.src.addr b i 4 l), 4, (s.vl d l).setWidth 64, s.src.addr b i 4 l, some (atomOf second op), s.vl (s.third d) l⟩

/-- R227: ATOM's elements, in ascending lane order. -/
def atomList : List Elem :=
  sortBy (fun e e' => decide (e.lane ≤ e'.lane)) (((pagesOf s ((atomAddrs s b i).map elemOf)).flatMap PageReq.elems).map fun e =>
    { e with op := some (atomOf second op), data := (s.vl d e.lane).setWidth 64, cmp := s.vl (s.third d) e.lane })

theorem perm_atomList : List.Perm (atomList s d b i second op) ((lanesIn s.eff).map (atomElemOf s d b i second op)) := by
  refine (perm_sortBy _ _).trans (((perm_pagesOf s _).map _).trans (List.Perm.of_eq ?_))
  simp [atomAddrs, elemOf, placed, atomElemOf, Function.comp_def]

theorem atomAct_home (hclean : s.poisoned (addrSrcs b i s.eff ++ [.v d s.eff] ++ (if !second && op == 0x7#3 then [.v (s.third d) s.eff] else [])) = none)
    (hrel : ReleaseMet s o) (h : LocalAccess s .atom 4 ((s.vreg d).bnd || (!second && op == 0x7#3 && (s.vreg (s.third d)).bnd)) (atomAddrs s b i)) :
    ∃ bnd, atomAct d b i second op o s = .done
      (((translated s ((atomAddrs s b i).map (·.va))).atomElems (atomList s d b i second op)).1.sectorOuts s.cur (s.src.vEnt d) (.sector (isAcq o)) s.eff
        (s.zeroed &&& s.f.own) (s.eff ||| (s.zeroed &&& s.f.own)) ((translated s ((atomAddrs s b i).map (·.va))).atomElems (atomList s d b i second op)).2.1 bnd
        ((translated s ((atomAddrs s b i).map (·.va))).atomElems (atomList s d b i second op)).2.2) := by
  refine ⟨pagesBnd (pagesOf s ((atomAddrs s b i).map elemOf)), ?_⟩
  have hown : ((translated s ((atomAddrs s b i).map (·.va))).frag s.cur).own = s.f.own :=
    congrArg Frag.own (translated_frame (fun t => t.frag s.cur) (fun _ _ => rfl) s _)
  refine (State.clean_none _ _ _ hclean).trans ((migrateWord_home (a := .atom d b i second op o (s.third d) s.zeroed) (lanes := s.eff) (by simp [MigAcc.need]) h hrel).trans ?_)
  rw [← acquires_home h o, ← hown]
  rfl
end

/-- R227: ATOM at the fragment's own home, from what its elements come to. -/
theorem atom_done {s : State} {d b i : RegNum} {second : Bool} {op o : BitVec 3} {t : Instr} (hexec : exec t s = finish s (atomAct d b i second op o s))
    (hclean : s.poisoned (addrSrcs b i s.eff ++ [.v d s.eff] ++ (if !second && op == 0x7#3 then [.v (s.third d) s.eff] else [])) = none)
    (hrel : ReleaseMet s o) (hgood : ∀ l ∈ lanesIn s.eff, s.readErr (placeOf s (s.src.addr b i 4 l)) 4 = false)
    (h : LocalAccess s .atom 4 ((s.vreg d).bnd || (!second && op == 0x7#3 && (s.vreg (s.third d)).bnd)) (atomAddrs s b i)) :
    ∃ u outs, Goes t s u ∧ LeavesOut s u outs (s.src.vEnt d) (s.zeroed &&& s.f.own) ∧
      (∀ x ∈ outs, x.dest = .v (s.src.vEnt d) ∧ x.whole = s.eff ||| (s.zeroed &&& s.f.own) ∧ x.mask &&& ~~~x.whole = 0 ∧
        ∀ l, x.mask.getLsbD l = true → s.eff.getLsbD l = false → lane x.vals l = 0) ∧
      u.scratch = s.scratch ∧ u.vault = s.vault ∧ u.opmem = s.opmem ∧ KeepsOthers s u ((lanesIn s.eff).map fun l => placeOf s (s.src.addr b i 4 l)) 4 ∧
      ∀ l ∈ lanesIn s.eff, Plain s (s.src.addr b i 4 l) 4 →
        (∀ j, j < 4 → Outside (((lanesIn s.eff).filter (· != l)).map fun l => placeOf s (s.src.addr b i 4 l)) 4 (placeOf s (s.src.addr b i 4 l) + j)) →
        u.valIn .dram (placeOf s (s.src.addr b i 4 l)) 4 =
          (atomNew (atomOf second op) (BitVec.ofNat 32 (valueAt s (s.src.addr b i 4 l) 4)) (s.vl d l) (s.vl (s.third d) l)).toNat ∧
        ∃ x ∈ outs, x.mask.getLsbD l = true ∧ lane x.vals l = BitVec.ofNat 32 (valueAt s (s.src.addr b i 4 l) 4) := by
  obtain ⟨bnd, hact⟩ := atomAct_home s d b i second op o hclean hrel h
  have hE : OfLanes s (s.src.addr b i 4) (atomElemOf s d b i second op) := fun l => ⟨rfl, rfl, rfl⟩
  have hperm := perm_atomList s d b i second op
  have hs : ∀ e ∈ atomList s d b i second op, Sound s e := fun e he => sound_lanes hE h hgood e (hperm.mem_iff.1 he)
  have hnodup := nodup_lanes hE (lanesIn_nodup s.eff)
  have hes : ∀ e, e ∈ atomList s d b i second op ↔ ∃ l ∈ lanesIn s.eff, atomElemOf s d b i second op l = e := fun e => by
    rw [hperm.mem_iff, List.mem_map]
  obtain ⟨cs, hcs⟩ := cache_eq s s.f.coreKey s.g.rights.asid ((atomAddrs s b i).map (·.va))
  have h0 : Wrote s (translated s ((atomAddrs s b i).map (·.va))) [] := by
    rw [translated, hcs]
    exact wrote_cores s cs
  obtain ⟨⟨cells, hran⟩, -, hlanes, holds⟩ := ran_atomElems h0 _ (hperm.nodup_iff.2 hnodup) hs
  generalize (translated s ((atomAddrs s b i).map (·.va))).atomElems (atomList s d b i second op) = r at hact hran hlanes holds
  have honly : OnlyFrag s r.1 s.f := onlyFrag_advance hran.wrote 0
  have hvals : (r.2.1.map Prod.fst).Perm (lanesIn s.eff) := by
    rw [hlanes]
    refine (hperm.map _).trans (List.Perm.of_eq ?_)
    simp [atomElemOf, Function.comp_def]
  have hleaves := sectorOuts_leaves s r.1 (s.src.vEnt d) (.sector (isAcq o)) s.eff (s.zeroed &&& s.f.own) r.2.1 bnd r.2.2 honly
  obtain ⟨-, -, -, hscr, hvault, hop⟩ := hran.wrote.same
  have hkeeps := keepsOthers_ran hE hes hran hs
  refine ⟨_, _, goes_of hexec hact (leavesOut_pc hleaves), hleaves, fun x hx => ?_, hscr, hvault, hop, hkeeps, fun l hl hplain hout => ?_⟩
  · obtain ⟨-, hdest, hwhole, -, hmask, hat⟩ := of_mem_sectors hx
    refine ⟨hdest, hwhole, hwhole ▸ hmask, fun l hl heff => ?_⟩
    have hnone : KMap.find r.2.1 l = none := find_absent _ _ fun c hc hcl => by
      have := mem_lanesIn.1 (hvals.mem_iff.1 (List.mem_map_of_mem hc))
      rw [hcl, heff] at this
      cases this
    rw [(hat l hl).2.1, hnone]
    rfl
  · have he : atomElemOf s d b i second op l ∈ atomList s d b i second op := (hes _).2 ⟨l, hl, rfl⟩
    have halone := alone_lane hE hes hs hl hplain hout
    refine ⟨(hran.leaves he (hs _ he) halone).trans ?_, ?_⟩
    · simp [newWord, oldWord, atomElemOf, valueAt]
    · obtain ⟨x, hx, hxl⟩ := exists_sector (e := s.src.vEnt d) (kind := .sector (isAcq o)) (lanes := s.eff) (zero := s.zeroed &&& s.f.own) (vals := r.2.1) (bnd := bnd)
        (pois := r.2.2) (mem_lanesIn.1 hl)
      obtain ⟨-, -, -, -, -, hat⟩ := of_mem_sectors hx
      have hfind : KMap.find r.2.1 l = some ((oldWord s (atomElemOf s d b i second op l)).setWidth 64) :=
        find_of_mem (hvals.nodup_iff.2 (lanesIn_nodup s.eff)) (holds _ he halone)
      refine ⟨x, hx, hxl, ?_⟩
      rw [(hat l hxl).2.1, hfind]
      simp [oldWord, atomElemOf, valueAt]

/-! #### ATP (R79, R228) -/

/-- R228: the element of a lane of ATP. -/
def postElemOf (s : State) (d b i : RegNum) (op : BitVec 3) (l : Nat) : Elem :=
  ⟨l, .dram, 0, 4, BitVec.ofNat 64 (s.vl d l).toNat, s.src.addr b i 4 l, some (atpOf op), 0⟩

/-- R79: no operation of ATP compares. -/
theorem atomNew_atp (op : BitVec 3) (old x c c' : Word) : atomNew (atpOf op) old x c = atomNew (atpOf op) old x c' := by
  unfold atpOf
  split <;> rfl

/-- R228: ATP at the fragment's own home, from what its elements come to. -/
theorem atp_done {s : State} {d b i : RegNum} {op o : BitVec 3} (hclean : s.poisoned (addrSrcs b i s.eff ++ [.v d s.eff]) = none) (hsent : s.f.sent = 0)
    (hrel : ReleaseMet s o) (hgood : ∀ l ∈ lanesIn s.eff, s.readErr (placeOf s (s.src.addr b i 4 l)) 4 = false)
    (h : LocalAccess s .atom 4 (s.vreg d).bnd (atomAddrs s b i)) (c : Nat → Word) :
    ∃ u, Goes (.atp d b i op o) s u ∧ OnlyFrag s u s.f ∧
      u.scratch = s.scratch ∧ u.vault = s.vault ∧ u.opmem = s.opmem ∧ KeepsOthers s u ((lanesIn s.eff).map fun l => placeOf s (s.src.addr b i 4 l)) 4 ∧
      ∀ l ∈ lanesIn s.eff, Plain s (s.src.addr b i 4 l) 4 →
        (∀ j, j < 4 → Outside (((lanesIn s.eff).filter (· != l)).map fun l => placeOf s (s.src.addr b i 4 l)) 4 (placeOf s (s.src.addr b i 4 l) + j)) →
        u.valIn .dram (placeOf s (s.src.addr b i 4 l)) 4 =
          (atomNew (atpOf op) (BitVec.ofNat 32 (valueAt s (s.src.addr b i 4 l) 4)) (s.vl d l) (c l)).toNat := by
  have hE : OfLanes s (s.src.addr b i 4) (fun l => placed s (postElemOf s d b i op l)) := fun l => ⟨rfl, rfl, rfl⟩
  have hperm := perm_pagesOf s ((lanesIn s.eff).map (postElemOf s d b i op))
  rw [List.map_map] at hperm
  have hes : ∀ e, e ∈ (pagesOf s ((lanesIn s.eff).map (postElemOf s d b i op))).flatMap PageReq.elems ↔ ∃ l ∈ lanesIn s.eff, placed s (postElemOf s d b i op l) = e :=
    fun e => by
      rw [hperm.mem_iff, List.mem_map]
      rfl
  have hs : ∀ e ∈ (pagesOf s ((lanesIn s.eff).map (postElemOf s d b i op))).flatMap PageReq.elems, Sound s e := fun e he =>
    sound_lanes hE h hgood e (hperm.mem_iff.1 he)
  have hnodup := hperm.nodup_iff.2 (nodup_lanes hE (lanesIn_nodup s.eff))
  have haddrs : (((lanesIn s.eff).map (postElemOf s d b i op)).map fun e => (⟨e.lane, e.va, e.size⟩ : Addr)) = atomAddrs s b i := by
    simp [atomAddrs, postElemOf, Function.comp_def]
  have hdram : ∀ e ∈ (lanesIn s.eff).map (postElemOf s d b i op), e.space = .dram := by simp [postElemOf]
  have hpages := pages_home h (es := (lanesIn s.eff).map (postElemOf s d b i op)) fun e he => ⟨hdram e he, by
    obtain ⟨l, hl, rfl⟩ := List.mem_map.1 he
    exact ⟨⟨l, s.src.addr b i 4 l, 4⟩, List.mem_map_of_mem hl, rfl⟩⟩
  obtain ⟨cs, hcs⟩ := cache_eq s s.f.coreKey s.g.rights.asid (((lanesIn s.eff).map (postElemOf s d b i op)).map (·.va))
  have h0 : Wrote s (translated s (((lanesIn s.eff).map (postElemOf s d b i op)).map (·.va))) [] := by
    rw [translated, hcs]
    exact wrote_cores s cs
  have hword := storeWord_home true id hsent hdram (haddrs.symm ▸ h) hrel
  have hsends := sendPages_atoms true (isRel o && isSys o) (s.vreg d).bnd _ (fun p hp => ⟨(hpages p hp).1, (hpages p hp).2.1⟩) (pagesOf_nonempty s _) [] hnodup hs
    (fun e he => by
      obtain ⟨l, -, rfl⟩ := (hes e).1 he
      rfl) h0
  obtain ⟨⟨cells, hran⟩, -⟩ := ran_atomElems h0 _ hnodup hs
  have hact := hword.trans (congrArg Act.done hsends)
  rw [List.nil_append] at hact
  generalize ((translated s (((lanesIn s.eff).map (postElemOf s d b i op)).map (·.va))).atomElems
    ((pagesOf s ((lanesIn s.eff).map (postElemOf s d b i op))).flatMap PageReq.elems)).1 = u at hact hran
  have honly : OnlyFrag s u s.f := onlyFrag_advance hran.wrote 0
  obtain ⟨-, -, -, hscr, hvault, hop⟩ := hran.wrote.same
  have helems : (vecElems s b i 4 fun l => (s.vl d l).toNat).map (fun e => { e with op := some (atpOf op) }) = (lanesIn s.eff).map (postElemOf s d b i op) := by
    simp [vecElems, postElemOf, Function.comp_def]
  have hexec : exec (.atp d b i op o) s = finish s (s.storeWord true .atom o 4 (s.vreg d).bnd ((lanesIn s.eff).map (postElemOf s d b i op)) id) := by
    rw [← helems]
    exact congrArg (finish s) (State.clean_none _ _ _ hclean)
  refine ⟨u, goes_of hexec hact ((congrArg Frag.pc (onlyFrag_f honly) :)), honly, hscr, hvault, hop, keepsOthers_ran hE hes hran hs, fun l hl hplain hout => ?_⟩
  have he := (hes _).2 ⟨l, hl, rfl⟩
  refine (hran.leaves he (hs _ he) (alone_lane hE hes hs hl hplain hout)).trans ?_
  rw [atomNew_atp op _ _ (c l) 0]
  simp [newWord, oldWord, placed, postElemOf, valueAt]

/-- Settles O22: the word's elements are performed one after another, and an element whose word no other touches finds the word as it was. -/
theorem atomicsAtHome : Obligations.AtomicsAtHome := by
  intro s d b i op o lanes addr as key old c cas done hrel hclean hgood
  refine ⟨fun hclean h => ?_, fun h => ⟨?_, fun hsent => ?_⟩⟩
  · obtain ⟨u, outs, hgoes, hleaves, houts, hscr, hvault, hop, hkeeps, hlanes⟩ := atom_done (second := false) (t := .atom d b i op o) rfl hclean hrel hgood h
    exact ⟨u, outs, hgoes, (fun h => nomatch h), fun _ => ⟨hleaves, houts⟩, hscr, hvault, hop, hkeeps, fun l hl hplain hout =>
      ⟨(hlanes l hl hplain hout).1, fun _ => (hlanes l hl hplain hout).2⟩⟩
  · obtain ⟨u, outs, hgoes, hleaves, houts, hscr, hvault, hop, hkeeps, hlanes⟩ := atom_done (second := true) (t := .atomF d b i op o) rfl
      (by simpa using hclean) hrel hgood ((congrArg (fun x => LocalAccess s .atom 4 x (atomAddrs s b i)) (Bool.or_false _)).mpr h)
    exact ⟨u, outs, hgoes, (fun h => nomatch h), fun _ => ⟨hleaves, houts⟩, hscr, hvault, hop, hkeeps, fun l hl hplain hout =>
      ⟨(hlanes l hl hplain hout).1, fun _ => (hlanes l hl hplain hout).2⟩⟩
  · obtain ⟨u, hgoes, honly, hscr, hvault, hop, hkeeps, hlanes⟩ := atp_done (o := o) (op := op) hclean hsent hrel hgood h fun l => s.vl c l
    exact ⟨u, [], hgoes, fun _ => ⟨rfl, honly⟩, (fun h => nomatch h), hscr, hvault, hop, hkeeps, fun l hl hplain hout =>
      ⟨hlanes l hl hplain hout, (fun h => nomatch h)⟩⟩

end Sys2Proof.Proofs.Atomics

/-! ### Words of fragments away that their keys refuse (R146, R323) -/

namespace Sys2Proof.Proofs.Messages

open Sys2Proof Sys2Proof.Machine Sys2Proof.Claim

/-- The header that an update for another device names its group by. -/
def gridNamed (m : FabMsg) : Option (BitVec 28) :=
  match m with
  | .split _ _ _ gridid _ _ _ _ _ => some gridid
  | _ => none

/-- The groups that the messages which an outcome sends over the fabric are for. -/
def gridsSent (x : Host.Outcome State Fault Refusal) : List (Option (BitVec 28)) :=
  match x with
  | .next u => u.fabOut.map gridNamed
  | _ => []

/-- A word of a fragment away, for a group of grid 1. -/
def wordIn : FabMsg := .split 1 0 0 1 0 0 0 (.word .lstat) ⟨0, 0, 0⟩

/-- A state whose map lists group 0 twice, first of grid 0 and then of grid 1: the port finds the second by its header, and reads the first by its
number. -/
def listedTwice : State := { State.reset with
  groups := [(0, { Group.none with alive := true }), (0, { Group.none with alive := true, gridid := 1 })]
  fabIn := [wordIn] }

theorem listedTwice_sends : gridsSent (exec (.splitUpdateApply 0) listedTwice) = [some 0] := by
  decide +kernel

/-- Refutes O49: the statement says of every state, also of one whose map lists a group number twice, that the refusal of a fragment's word bears the
header of the word; the model writes the header of the group record that the number names. -/
theorem not_messageSteps : ¬Obligations.MessageSteps := by
  intro h
  obtain ⟨-, -, -, -, -, -, -, hword, -⟩ := h listedTwice 0 0 0 ⟨0, 0, 0, Group.none.rights, 0, [], 0, []⟩
  obtain ⟨-, hrefused⟩ := hword 1 0 0 1 0 0 0 .lstat ⟨0, 0, 0⟩ 0 rfl rfl rfl (by decide +kernel)
  have hsent := congrArg gridsSent (hrefused (by decide +kernel) (by decide +kernel))
  rw [listedTwice_sends] at hsent
  exact absurd hsent (by decide +kernel)

end Sys2Proof.Proofs.Messages

/-! ### Batches and sync words (R245, R246, R309, R310) -/

namespace Sys2Proof.Proofs.Batches

open Sys2Proof Sys2Proof.Machine Sys2Proof.Claim Sys2Proof.Proofs.PartControl Sys2Proof.Proofs.Privileged Sys2Proof.Proofs.Bytes Sys2Proof.Proofs.Launch Sys2Proof.Proofs.Control
  Sys2Proof.Proofs.Waits

/-! #### Words in the scratchpads (R6) -/

section
variable {s u : State} {sp : Space} {k n : Nat}

theorem valIn_congr (h : ∀ j, j < n → u.byteIn sp (k + j) = s.byteIn sp (k + j)) : u.valIn sp k n = s.valIn sp k n := by
  have hbytes : u.bytesIn sp k n = s.bytesIn sp k n := List.map_congr_left fun j hj => h j (List.mem_range.1 hj)
  rw [State.valIn, State.valIn, hbytes]

theorem valIn_leBytes (x : Nat) (h : ∀ j, j < n → u.byteIn sp (k + j) = BitVec.ofNat 8 (x / 256 ^ j)) : u.valIn sp k n = x % 256 ^ n := by
  have hbytes : u.bytesIn sp k n = leBytes n x := List.map_congr_left fun j hj => h j (List.mem_range.1 hj)
  rw [State.valIn, hbytes, leNat_leBytes]
end

section
variable (s : State) (p q x y : Nat)

/-- Two words of the scratchpads written one after another. -/
def twoWords : State := s.writeScr (cellsAt p (leBytes 4 x) ++ cellsAt q (leBytes 4 y))

theorem byteIn_twoWords (j : Nat) : (twoWords s p q x y).byteIn .scratch j =
    (putCells (putCells s.scratch (cellsAt p (leBytes 4 x))) (cellsAt q (leBytes 4 y))).get 0x00#8 j :=
  congrArg (fun m => KMap.get 0x00#8 m j) (List.foldl_append ..)

theorem twoWords_other (j : Nat) (hp : j < p ∨ p + 4 ≤ j) (hq : j < q ∨ q + 4 ≤ j) : (twoWords s p q x y).byteIn .scratch j = s.byteIn .scratch j := by
  rw [byteIn_twoWords, putCells_cellsAt_outside _ _ _ _ (by rwa [length_leBytes]), putCells_cellsAt_outside _ _ _ _ (by rwa [length_leBytes])]
  rfl

theorem leBytes_get (n j : Nat) (hj : j < n) : (leBytes n x)[j]? = some (BitVec.ofNat 8 (x / 256 ^ j)) := by
  simp [leBytes, List.getElem?_range hj]

theorem twoWords_second : (twoWords s p q x y).valIn .scratch q 4 = y % 2 ^ 32 :=
  valIn_leBytes y fun j hj => (byteIn_twoWords s p q x y _).trans (putCells_cellsAt_inside _ _ _ _ _ (leBytes_get y 4 j hj))

theorem twoWords_first (h : p + 4 ≤ q ∨ q + 4 ≤ p) : (twoWords s p q x y).valIn .scratch p 4 = x % 2 ^ 32 :=
  valIn_leBytes x fun j hj => by
    rw [byteIn_twoWords, putCells_cellsAt_outside _ _ _ _ (by rw [length_leBytes]; omega)]
    exact putCells_cellsAt_inside _ _ _ _ _ (leBytes_get x 4 j hj)
end

theorem valIn_lt (s : State) (sp : Space) (k n : Nat) : s.valIn sp k n < 256 ^ n := by
  have hlen : (s.bytesIn sp k n).length = n := by simp [State.bytesIn]
  have := leNat_lt (s.bytesIn sp k n)
  rwa [hlen] at this

/-! #### Named sync words (R310) -/

section
variable (s : State) (n o : Nat)

theorem nameSync_of_mem (h : o ∈ (s.team n).syncs) : s.nameSync n o = s := if_pos (List.contains_iff_mem.2 h)

theorem nameSync_of_not_mem (h : o ∉ (s.team n).syncs) : s.nameSync n o = s.setTeam n { s.team n with syncs := (s.team n).syncs ++ [o] } :=
  if_neg fun hin => h (List.contains_iff_mem.1 hin)

/-- R310: naming a sync word keeps the rest of its team's record, and names it. -/
theorem team_nameSync : ∃ xs, (s.nameSync n o).team n = { s.team n with syncs := xs } ∧ o ∈ xs := by
  by_cases h : o ∈ (s.team n).syncs
  · exact ⟨(s.team n).syncs, by rw [nameSync_of_mem s n o h], h⟩
  · refine ⟨(s.team n).syncs ++ [o], ?_, by simp⟩
    rw [nameSync_of_not_mem s n o h]
    exact KMap.get_ins_same ..

theorem nameSync_frame {γ : Type} (p : State → γ) (hp : ∀ (s : State) ts, p { s with teams := ts } = p s) : p (s.nameSync n o) = p s := by
  by_cases h : o ∈ (s.team n).syncs
  · rw [nameSync_of_mem s n o h]
  · rw [nameSync_of_not_mem s n o h]
    exact hp ..

theorem syncStep_frame {γ : Type} (p : State → γ) (hp : ∀ (s : State) m e, p { s with scratch := m, sramErr := e } = p s) : p (s.syncStep n) = p s := by
  unfold State.syncStep
  refine foldl_frame p _ (fun (t : State) (x : Nat) => ?_) _ _
  dsimp only
  split_ifs
  · rfl
  · exact hp ..

theorem useSync_of_mem (h : o ∈ (s.team n).syncs) : s.useSync n o = s := if_pos (List.contains_iff_mem.2 h)

theorem useSync_of_not_mem (h : o ∉ (s.team n).syncs) : s.useSync n o = (s.nameSync n o).syncStep n :=
  if_neg fun hin => h (List.contains_iff_mem.1 hin)

theorem useSync_frame {γ : Type} (p : State → γ) (hp : ∀ (s : State) ts, p { s with teams := ts } = p s)
    (hp' : ∀ (s : State) m e, p { s with scratch := m, sramErr := e } = p s) : p (s.useSync n o) = p s := by
  by_cases h : o ∈ (s.team n).syncs
  · rw [useSync_of_mem s n o h]
  · rw [useSync_of_not_mem s n o h, syncStep_frame _ _ p hp', nameSync_frame s n o p hp]

theorem mem_useSync : o ∈ ((s.useSync n o).team n).syncs := by
  by_cases h : o ∈ (s.team n).syncs
  · rwa [useSync_of_mem s n o h]
  · obtain ⟨xs, hxs, ho⟩ := team_nameSync s n o
    rw [useSync_of_not_mem s n o h, syncStep_frame _ _ (fun t => t.team n) fun _ _ _ => rfl, hxs]
    exact ho

/-- R310: a sync word whose count has met its target advances; another stays. -/
def advancedSync (s : State) (k : Nat) : State :=
  if s.valIn .scratch (k + 12) 4 = 0 ∨ s.valIn .scratch (k + 8) 4 < s.valIn .scratch (k + 12) 4 then s
  else twoWords s (k + 8) (k + 4) (s.valIn .scratch (k + 8) 4 % s.valIn .scratch (k + 12) 4)
    (s.valIn .scratch (k + 4) 4 + s.valIn .scratch (k + 8) 4 / s.valIn .scratch (k + 12) 4)

theorem useSync_first (h : (s.team n).syncs = []) :
    s.useSync n o = advancedSync (s.setTeam n { s.team n with syncs := [o] }) (scrKey (s.team n).coreKey ((s.team n).base + o)) := by
  have hnot : o ∉ (s.team n).syncs := by simp [h]
  have hteam : (s.setTeam n { s.team n with syncs := [o] }).team n = { s.team n with syncs := [o] } := KMap.get_ins_same ..
  rw [useSync_of_not_mem s n o hnot, nameSync_of_not_mem s n o hnot, h, List.nil_append, State.syncStep, hteam]
  rfl
end

section
variable (s : State) (k : Nat)

theorem advancedSync_waits (h : s.valIn .scratch (k + 12) 4 = 0 ∨ s.valIn .scratch (k + 8) 4 < s.valIn .scratch (k + 12) 4) : advancedSync s k = s := if_pos h

theorem advancedSync_frame {γ : Type} (p : State → γ) (hp : ∀ (s : State) m e, p { s with scratch := m, sramErr := e } = p s) : p (advancedSync s k) = p s := by
  unfold advancedSync
  split_ifs
  · rfl
  · exact hp ..

theorem advancedSync_other (j : Nat) (h : j < k + 4 ∨ k + 12 ≤ j) : (advancedSync s k).byteIn .scratch j = s.byteIn .scratch j := by
  unfold advancedSync
  split_ifs
  · rfl
  · exact twoWords_other s _ _ _ _ j (by omega) (by omega)

theorem advancedSync_met (h0 : 0 < s.valIn .scratch (k + 12) 4) (h : s.valIn .scratch (k + 12) 4 ≤ s.valIn .scratch (k + 8) 4) :
    (advancedSync s k).valIn .scratch (k + 8) 4 = s.valIn .scratch (k + 8) 4 % s.valIn .scratch (k + 12) 4 ∧
      (advancedSync s k).valIn .scratch (k + 4) 4 = (s.valIn .scratch (k + 4) 4 + s.valIn .scratch (k + 8) 4 / s.valIn .scratch (k + 12) 4) % 2 ^ 32 := by
  have hlt := valIn_lt s .scratch (k + 12) 4
  rw [advancedSync, if_neg (by omega)]
  refine ⟨(twoWords_first s _ _ _ _ (by omega)).trans (Nat.mod_eq_of_lt ?_), twoWords_second s _ _ _ _⟩
  have := Nat.mod_lt (s.valIn .scratch (k + 8) 4) h0
  omega
end

/-! #### Batches (R245, R308, R309) -/

/-- R309: the commands of a batch are numbered as the next one. -/
theorem cmd_foldl_batch (n : BitVec 8) (ks : List Nat) (s : State) (c : Nat) :
    (ks.foldl (fun (s : State) k => s.setCmd k { s.cmd k with batch := some n }) s).cmd c = if c ∈ ks then { s.cmd c with batch := some n } else s.cmd c := by
  induction ks generalizing s with
  | nil => rfl
  | cons k ks ih =>
    have hset : ∀ x : Cmd, (s.setCmd k x).cmd c = if c = k then x else s.cmd c := fun x => KMap.get_ins ..
    rw [List.foldl_cons, ih, hset]
    by_cases hck : c = k
    · subst hck
      simp
    · simp [hck]

section
variable (s : State) (gn : Nat)

theorem sealBatch_frame {γ : Type} (p : State → γ) (hp : ∀ (s : State) cs gs, p { s with cmds := cs, groups := gs } = p s) : p (s.sealBatch gn) = p s := by
  have hfold : ∀ ks : List Nat, p (ks.foldl (fun (t : State) k => t.setCmd k { t.cmd k with batch := some (s.group gn).batchNo }) s) = p s := fun ks =>
    foldl_frame p (fun (t : State) (k : Nat) => t.setCmd k { t.cmd k with batch := some (s.group gn).batchNo }) (fun t k => hp t _ t.groups) ks s
  exact (hp _ _ _).trans (hfold _)

theorem group_sealBatch : (s.sealBatch gn).group gn = { s.group gn with
    batchNo := (s.group gn).batchNo + 1
    unsealed := []
    batches := if (s.group gn).unsealed = [] then (s.group gn).batches else (s.group gn).batches ++ [⟨(s.group gn).batchNo, (s.group gn).unsealed⟩] } :=
  State.group_setGroup_same ..

theorem cmd_sealBatch (c : Nat) : (s.sealBatch gn).cmd c = if c ∈ (s.group gn).unsealed then { s.cmd c with batch := some (s.group gn).batchNo } else s.cmd c :=
  cmd_foldl_batch _ _ s c
end

section
variable {s : State} {d a : RegNum}

theorem bseal_away (h : s.g.dev ≠ s.fabric.toNat) : AsksTeam (.bseal d) s .bseal (fun v u => u.wrS d v false) :=
  asksTeam_of rfl (fun _ => if_pos ((keeps_false_iff ..).2 h)) (fun _ _ => rfl) (fun _ _ => rfl) fun _ _ => State.wrS_pc ..

theorem exec_bseal_here (h : s.g.dev = s.fabric.toNat) : exec (.bseal d) s =
    finish s (if s.g.sealedFull then .hold s else .done ((s.sealBatch s.f.group).wrS d (s.g.batchNo.setWidth 64) false)) :=
  congrArg (finish s) (if_neg (by rw [(keeps_iff ..).2 h]; exact Bool.noConfusion))

theorem exec_bwait (hclean : (s.sreg a).poison = false) (htrap : s.f.trap = none) (hstill : Still s) : exec (.bwait a) s =
    finish s (if s.keeps s.g = false then s.wordAway (.bwait ((s.sv a).setWidth 8)) (onWait (.bwait ((s.sv a).setWidth 8)) fun _ s => .done (s.setE false))
      else if s.g.incomplete ((s.sv a).setWidth 8) then .away (s.beginWait (.bwait ((s.sv a).setWidth 8))) else bwaitEnd ((s.sv a).setWidth 8) s) :=
  congrArg (finish s) (((noTrapMode_out s _ htrap).trans (State.clean_none _ _ _ (poisoned_single s a hclean))).trans (parkThen_still s hstill _))

/-- R308, R310: a word that its team's core answers that it waits begins to wait. -/
theorem wordAway_waits {i : Instr} {w : TeamWord} {st : FState} {k : DWord → State → Act} (hexec : exec i s = finish s (s.wordAway w (onWait st k)))
    (h : s.f.grant = .word .wait) : exec i s = .next ((s.setF { s.f with grant := .none }).beginWait st) := by
  rw [hexec, State.wordAway_word s w _ _ h]
  rfl

theorem exec_bwait_away (hclean : (s.sreg a).poison = false) (htrap : s.f.trap = none) (hstill : Still s) (h : s.g.dev ≠ s.fabric.toNat) : exec (.bwait a) s =
    finish s (s.wordAway (.bwait ((s.sv a).setWidth 8)) (onWait (.bwait ((s.sv a).setWidth 8)) fun _ s => .done (s.setE false))) :=
  (exec_bwait hclean htrap hstill).trans (congrArg (finish s) (if_pos ((keeps_false_iff ..).2 h)))

theorem exec_bwait_here (hclean : (s.sreg a).poison = false) (htrap : s.f.trap = none) (hstill : Still s) (h : s.g.dev = s.fabric.toNat) : exec (.bwait a) s =
    finish s (if s.g.incomplete ((s.sv a).setWidth 8) then .away (s.beginWait (.bwait ((s.sv a).setWidth 8))) else bwaitEnd ((s.sv a).setWidth 8) s) :=
  (exec_bwait hclean htrap hstill).trans (congrArg (finish s) (if_neg (by rw [(keeps_iff ..).2 h]; exact Bool.noConfusion)))

/-- R308: a wait whose batch is complete delivers a fault that is owed, or goes on. -/
theorem bwaitEnd_clear {n : BitVec 8} (h : s.batchOwed s.f.group n = none) : bwaitEnd n s = .done (s.setE false) := by
  rw [bwaitEnd, h]

theorem bwaitEnd_owed {n : BitVec 8} {x : Nat × Cmd} (h : s.batchOwed s.f.group n = some x) : bwaitEnd n s = s.giveFault x := by
  rw [bwaitEnd, h]

/-! #### SYNCW and SWAIT (R310) -/

theorem syncFault_none {t : Team} {o : Nat} (h : o % 16 = 0) (hsize : o + 16 ≤ t.size) : t.syncFault o = none :=
  (if_neg (not_not.2 h)).trans (if_neg (by omega))

theorem syncw_away (hclean : (s.sreg a).poison = false) (h : s.g.dev ≠ s.fabric.toNat) :
    AsksTeam (.syncw d a) s (.syncw (fld (s.sv a) 0 18) (fld (s.sv a) 32 32)) (fun v u => u.wrS d v false) :=
  asksTeam_of (congrArg (finish s) (State.clean_none _ _ _ (poisoned_single s a hclean))) (fun _ => if_pos ((keeps_false_iff ..).2 h)) (fun _ _ => rfl)
    (fun _ _ => rfl) fun _ _ => State.wrS_pc ..

theorem exec_syncw_here (hclean : (s.sreg a).poison = false) (h : s.g.dev = s.fabric.toNat) (hal : fld (s.sv a) 0 18 % 16 = 0)
    (hsize : fld (s.sv a) 0 18 + 16 ≤ s.t.size) (hbefore : NothingBefore s) : exec (.syncw d a) s =
      finish s (.done ((s.setSync s.g.team (fld (s.sv a) 0 18) (fld (s.sv a) 32 32)).wrS d ((s.genAt s.g.team (fld (s.sv a) 0 18)).setWidth 64) false)) := by
  refine congrArg (finish s) ((State.clean_none _ _ _ (poisoned_single s a hclean)).trans ((if_neg (by rw [(keeps_iff ..).2 h]; exact Bool.noConfusion)).trans ?_))
  rw [syncFault_none hal hsize]
  exact afterStores_nothingBefore s hbefore _ _ _

/-- R310: SYNCW writes its target and a count of 0, in the record's second half. -/
theorem setSync_eq (s : State) (n o target : Nat) : s.setSync n o target =
    twoWords (s.nameSync n o) (scrKey (s.team n).coreKey ((s.team n).base + o) + 12) (scrKey (s.team n).coreKey ((s.team n).base + o) + 8) target 0 := rfl

theorem setSync_frame (s : State) (n o target : Nat) {γ : Type} (p : State → γ) (hp : ∀ (s : State) ts, p { s with teams := ts } = p s)
    (hp' : ∀ (s : State) m e, p { s with scratch := m, sramErr := e } = p s) : p (s.setSync n o target) = p s :=
  (hp' _ _ _).trans (nameSync_frame s n o p hp)

theorem genAt_setWidth (s : State) (n o : Nat) :
    (s.genAt n o).setWidth 64 = BitVec.ofNat 64 (s.valIn .scratch (scrKey (s.team n).coreKey ((s.team n).base + o) + 4) 4) := by
  have hlt := valIn_lt s .scratch (scrKey (s.team n).coreKey ((s.team n).base + o) + 4) 4
  refine BitVec.eq_of_toNat_eq ?_
  rw [State.genAt, BitVec.toNat_setWidth, BitVec.toNat_ofNat, BitVec.toNat_ofNat, Nat.mod_eq_of_lt (a := s.valIn ..) (by omega)]

/-- R310: what SWAIT does here once the fragment may park. -/
def swaitAct (s : State) (d a : RegNum) (t : State) : Act :=
  if genMet (t.genAt t.g.team (fld (s.sv a) 0 18)) ((s.sv d).setWidth 32) || (t.syncOwed t.f.group (fld (s.sv a) 0 18)).isSome then swaitEnd d (fld (s.sv a) 0 18) t
  else .away (t.beginWait (.swait (fld (s.sv a) 0 18) ((s.sv d).setWidth 32) d))

theorem exec_swait_here (hclean : s.poisoned [.s a, .s d] = none) (htrap : s.f.trap = none) (hstill : Still s) (h : s.g.dev = s.fabric.toNat)
    (hal : fld (s.sv a) 0 18 % 16 = 0) (hsize : fld (s.sv a) 0 18 + 16 ≤ s.t.size) (hbefore : NothingBefore s) :
    exec (.swait d a) s = finish s (swaitAct s d a (s.useSync s.g.team (fld (s.sv a) 0 18))) := by
  refine congrArg (finish s) (((noTrapMode_out s _ htrap).trans (State.clean_none _ _ _ hclean)).trans ((if_neg (by rw [(keeps_iff ..).2 h]; exact Bool.noConfusion)).trans ?_))
  have hf := useSync_frame s s.g.team (fld (s.sv a) 0 18) State.f (fun _ _ => rfl) fun _ _ _ => rfl
  rw [syncFault_none hal hsize]
  refine (afterStores_nothingBefore s hbefore _ _ _).trans (parkThen_still _ ?_ _)
  rw [Still, hf]
  exact hstill

theorem exec_swait_away (hclean : s.poisoned [.s a, .s d] = none) (htrap : s.f.trap = none) (hstill : Still s) (h : s.g.dev ≠ s.fabric.toNat) :
    exec (.swait d a) s = finish s (s.wordAway (.swait (fld (s.sv a) 0 18) ((s.sv d).setWidth 32))
      (onWait (.swait (fld (s.sv a) 0 18) ((s.sv d).setWidth 32) d) fun x s => .done (s.wrS d x false))) :=
  congrArg (finish s) (((noTrapMode_out s _ htrap).trans (State.clean_none _ _ _ hclean)).trans ((if_pos ((keeps_false_iff ..).2 h)).trans (parkThen_still s hstill _)))

theorem swaitEnd_clear {o : Nat} (h : s.syncOwed s.f.group o = none) : swaitEnd d o s = .done (s.wrS d ((s.genAt s.g.team o).setWidth 64) false) := by
  rw [swaitEnd, h]

theorem swaitEnd_owed {o : Nat} {x : Nat × Cmd} (h : s.syncOwed s.f.group o = some x) : swaitEnd d o s = s.giveFault x := by
  rw [swaitEnd, h]
end

/-! #### Wakes (R308 to R310, R342) -/

section
variable (s : State) (m : Nat)

theorem wake_frame {γ : Type} (p : State → γ) (hp : ∀ (s : State) c cs es fs, p { s with cur := c, cores := cs, sramErr := es, frags := fs } = p s) :
    p (s.wake m) = p s :=
  (acquire_frame p (fun s cs es fs => hp s s.cur cs es fs) _ m).trans (hp s m s.cores s.sramErr _)

theorem wake_group : (s.wake m).f.group = (s.frag m).group := by
  have hcur : (s.wake m).cur = m := acquire_frame State.cur (fun _ _ _ _ => rfl) _ m
  have hgroup : ((s.wake m).frag m).group = (s.frag m).group :=
    (acquire_frag Frag.group (fun _ _ => rfl) _ m).trans (congrArg Frag.group (State.frag_setFrag_same ({ s with cur := m }) m { s.frag m with state := .ready }) :)
  rw [← hgroup, ← State.frag_cur, hcur]

theorem wake_g : (s.wake m).g = s.group (s.frag m).group := by
  have hg : (s.wake m).g = (s.wake m).group (s.frag m).group := congrArg (s.wake m).group (wake_group s m)
  rw [hg]
  exact wake_frame s m (fun t => t.group (s.frag m).group) fun _ _ _ _ _ => rfl

/-- R310: the generation of a sync word of the fragment's team, once it is woken. -/
theorem genAt_wake (o : Nat) : (s.wake m).genAt (s.wake m).g.team o = s.genAt (s.group (s.frag m).group).team o := by
  rw [wake_g]
  exact wake_frame s m (fun t => t.genAt (s.group (s.frag m).group).team o) fun _ _ _ _ _ => rfl

theorem syncOwed_wake (o : Nat) : (s.wake m).syncOwed (s.wake m).f.group o = s.syncOwed (s.frag m).group o := by
  rw [wake_group]
  exact wake_frame s m (fun t => t.syncOwed (s.frag m).group o) fun _ _ _ _ _ => rfl

theorem batchOwed_wake (n : BitVec 8) : (s.wake m).batchOwed (s.wake m).f.group n = s.batchOwed (s.frag m).group n := by
  rw [wake_group]
  exact wake_frame s m (fun t => t.batchOwed (s.frag m).group n) fun _ _ _ _ _ => rfl

variable {s m} {w : TeamWord} {k : DWord → State → Act} (hs : s.asleep m = false)
include hs

/-- R308: a wait away from its team's device asks, and asks again where it is to wait on. -/
theorem wakeWord_asks (h : (s.frag m).grant = .none ∨ (s.frag m).grant = .word .wait) : s.wakeWord m w k = .next (s.sendWord m w) := by
  unfold State.wakeWord
  dsimp only
  rw [if_neg (by rw [hs]; exact Bool.noConfusion)]
  obtain h | h := h <;> rw [h]

theorem wakeWord_asked (h : (s.frag m).grant = .asked) : s.wakeWord m w k = .next s := by
  unfold State.wakeWord
  dsimp only
  rw [if_neg (by rw [hs]; exact Bool.noConfusion), h]

theorem wakeWord_done {x : DWord} (h : (s.frag m).grant = .word (.done x)) : s.wakeWord m w k =
    finish ((s.wake m).setF { (s.wake m).f with grant := .none }) (k x ((s.wake m).setF { (s.wake m).f with grant := .none })) := by
  unfold State.wakeWord
  dsimp only
  rw [if_neg (by rw [hs]; exact Bool.noConfusion), h]
  rfl
end

theorem finish_next_pc (s t u : State) (h : t.f.pc = u.f.pc) : finish s (.done t) = .next (t.retire (u.f.pc + 4)) := by
  rw [finish_done, h]

section
variable {s : State} {m : Nat} {B : BitVec 8} (hstate : (s.frag m).state = .bwait B)
include hstate

theorem exec_bwaitWake_away (h : (s.group (s.frag m).group).dev ≠ s.fabric.toNat) :
    exec (.bwaitWake m) s = s.wakeWord m (.bwait B) fun _ s => .done (s.setE false) := by
  change execBwaitWake m s = _
  unfold execBwaitWake
  rw [hstate]
  exact if_pos ((keeps_false_iff ..).2 h)

theorem exec_bwaitWake_here (h : (s.group (s.frag m).group).dev = s.fabric.toNat) (hs : s.asleep m = false) : exec (.bwaitWake m) s =
    if (s.group (s.frag m).group).incomplete B = true then .next s else finish (s.wake m) (bwaitEnd B (s.wake m)) := by
  change execBwaitWake m s = _
  unfold execBwaitWake
  rw [hstate]
  refine (if_neg (by rw [(keeps_iff ..).2 h]; exact Bool.noConfusion)).trans ?_
  simp only [hs, Bool.false_eq_true, false_or]
end

section
variable {s : State} {m o : Nat} {v : Word} {d : RegNum} (hstate : (s.frag m).state = .swait o v d)
include hstate

theorem exec_swaitWake_away (h : (s.group (s.frag m).group).dev ≠ s.fabric.toNat) :
    exec (.swaitWake m) s = s.wakeWord m (.swait o v) fun x s => .done (s.wrS d x false) := by
  change execSwaitWake m s = _
  unfold execSwaitWake
  dsimp only
  rw [hstate]
  exact if_pos ((keeps_false_iff ..).2 h)

theorem exec_swaitWake_here (h : (s.group (s.frag m).group).dev = s.fabric.toNat) (hs : s.asleep m = false)
    (howed : s.syncOwed (s.frag m).group o = none) : exec (.swaitWake m) s =
      if genMet (s.genAt (s.group (s.frag m).group).team o) v = true then finish (s.wake m) (swaitEnd d o (s.wake m)) else .next s := by
  change execSwaitWake m s = _
  unfold execSwaitWake
  dsimp only
  rw [hstate]
  refine (if_neg (by rw [(keeps_iff ..).2 h]; exact Bool.noConfusion)).trans ?_
  simp only [hs, howed, Bool.not_false, Bool.true_and, Option.isSome_none, Bool.or_false]
end

end Sys2Proof.Proofs.Batches

/-! ### Circular buffers (R311, R312), and what O38 says of them and of batches and sync words -/

namespace Sys2Proof.Proofs.Buffers

open Sys2Proof Sys2Proof.Machine Sys2Proof.Claim Sys2Proof.Proofs.Privileged Sys2Proof.Proofs.Launch Sys2Proof.Proofs.Control Sys2Proof.Proofs.Accumulator
  Sys2Proof.Proofs.Waits Sys2Proof.Proofs.Batches

/-! #### Descriptors (R311) -/

section
variable {s : State} {t : Nat} {n : BitVec 6} {b : Cb}

theorem cbOn_other (h : s.cbAt t n = some b) (ht : b.team ≠ t) : s.cbOn t n = .error (cbFault 1 n) := by
  rw [State.cbOn, h]
  exact if_pos ht

theorem cbOn_none (h : s.cbAt t n = none) : s.cbOn t n = .error (cbFault 7 n) := by
  rw [State.cbOn, h]

theorem cbOn_own (h : s.cbAt t n = some b) (ht : b.team = t) : s.cbOn t n = .ok b := by
  rw [State.cbOn, h]
  exact if_neg (not_not.2 ht)

variable {x : DWord}

/-- R311: a descriptor that another team holds is not taken. -/
theorem cbConfig_other (h : s.cbAt t n = some b) (ht : b.team ≠ t) : s.cbConfig t x n = .error (cbFault 1 n) := by
  unfold State.cbConfig
  rw [h]
  exact if_pos (bne_iff_ne.2 ht)

/-- R311: on a descriptor that no other team holds, what CBCFG does. -/
def configured (s : State) (t : Nat) (x : DWord) (n : BitVec 6) : Except FaultRec State :=
  if x.getLsbD 22 = false ∧ (s.team t).size < fld x 0 18 + (fld x 48 16 + 1) * (4 * (fld x 23 9 + 1)) then .error (cbFault 2 n)
  else if x.getLsbD 22 = false ∧ (fld x 48 16 + 1 < fld x 32 16 + 1 ∨ fld x 18 4 ≠ 0) then .error (cbFault 3 n)
  else if s.cbNamed t n.toNat then .error (cbFault 4 n)
  else if x.getLsbD 22 then .ok (s.setCore (s.team t).coreKey { s.core (s.team t).coreKey with cbs := (s.core (s.team t).coreKey).cbs.del n.toNat })
  else .ok (s.putCb t n ⟨t, fld x 48 16 + 1, fld x 32 16 + 1, 4 * (fld x 23 9 + 1), fld x 0 18, 0, 0, []⟩)

theorem cbConfig_free (h : ∀ c, s.cbAt t n = some c → c.team = t) : s.cbConfig t x n = configured s t x n := by
  unfold State.cbConfig
  refine if_neg ?_
  cases hat : s.cbAt t n with
  | none => exact Bool.false_ne_true
  | some c => simp [h c hat]
end

section
variable {b : Cb} {x : DWord} {n : BitVec 6}

/-- R312: CBPUT moves the producer pointer by at most the room, or the consumer pointer by at most the occupancy. -/
theorem advance_producer (h : x.getLsbD 63 = false) : b.advance x n =
    if b.n - (b.p - b.c).toNat < (x.extractLsb' 0 32).toNat then .error (cbFault 5 n) else .ok { b with p := b.p + BitVec.ofNat 32 (x.extractLsb' 0 32).toNat } := by
  have hx : x.setWidth 32 = x.extractLsb' 0 32 := by simp [BitVec.extractLsb']
  unfold Cb.advance
  rw [hx]
  simp only [BitVec.ofNat_toNat, BitVec.setWidth_eq]
  exact if_pos h

theorem advance_consumer (h : x.getLsbD 63 = true) : b.advance x n =
    if (b.p - b.c).toNat < (x.extractLsb' 0 32).toNat then .error (cbFault 5 n) else .ok { b with c := b.c + BitVec.ofNat 32 (x.extractLsb' 0 32).toNat } := by
  have hx : x.setWidth 32 = x.extractLsb' 0 32 := by simp [BitVec.extractLsb']
  unfold Cb.advance
  rw [hx]
  simp only [BitVec.ofNat_toNat, BitVec.setWidth_eq]
  exact if_neg (by rw [h]; exact Bool.noConfusion)

theorem met_iff (k : Nat) (room : Bool) : b.met k room = true ↔ (if room = true then k ≤ b.n - (b.p - b.c).toNat else k ≤ (b.p - b.c).toNat) := by
  cases room <;> exact decide_eq_true_iff
end

/-! #### The words (R312) -/

section
variable {s : State} {d a n : BitVec 6}

theorem exec_cbcfg (hclean : (s.sreg a).poison = false) : exec (.cbcfg a n) s = finish s
    (if s.keeps s.g then orElse (s.cbConfig s.g.team (s.sv a) n) .done else s.wordAway (.cbcfg (s.sv a) n) (onDone fun _ s => .done s)) :=
  congrArg (finish s) (State.clean_none _ _ _ (poisoned_single s a hclean))

theorem exec_cbput (hclean : (s.sreg a).poison = false) : exec (.cbput a n) s = finish s
    (if s.keeps s.g = false then (if !s.fenceMet s.cur false true false then .hold s else s.wordAway (.cbput (s.sv a) n) (onDone fun _ s => .done s))
     else orElse (s.cbOn s.g.team n) fun b =>
      if !s.fenceMet s.cur false true false then .hold s else orElse (b.advance (s.sv a) n) fun b => .done (s.putCb s.g.team n b)) :=
  congrArg (finish s) (State.clean_none _ _ _ (poisoned_single s a hclean))

theorem exec_cbget : exec (.cbget d n) s = finish s
    (if s.keeps s.g then orElse (s.cbOn s.g.team n) fun b => .done (s.later d (b.c ++ b.p) false)
    else s.wordAway (.cbget n) (onDone fun v s => .done (s.later d v false))) := rfl

/-- R312: what CBWAIT does on its own team's descriptor. -/
def cbwaitOn (s : State) (a n : BitVec 6) (b : Cb) : Act :=
  if b.n < fld (s.sv a) 0 32 then .fault (cbFault 6 n)
  else parkThen s fun t =>
    if b.met (fld (s.sv a) 0 32) ((s.sv a).getLsbD 63) || (t.cbOwed t.f.group b).isSome then cbwaitEnd b t
    else .away (t.beginWait (.cbwait n.toNat (fld (s.sv a) 0 32) ((s.sv a).getLsbD 63)))

theorem exec_cbwait (hclean : (s.sreg a).poison = false) (htrap : s.f.trap = none) : exec (.cbwait a n) s = finish s
    (if s.keeps s.g = false then parkThen s fun t => t.wordAway (.cbwait (fld (s.sv a) 0 32) ((s.sv a).getLsbD 63) n false)
        (onWait (.cbwait n.toNat (fld (s.sv a) 0 32) ((s.sv a).getLsbD 63)) fun _ t => .done t)
      else orElse (s.cbOn s.g.team n) (cbwaitOn s a n)) :=
  congrArg (finish s) ((noTrapMode_out s _ htrap).trans (State.clean_none _ _ _ (poisoned_single s a hclean)))
end

/-! #### The wake of CBWAIT (R312) -/

section
variable {s : State} {m n k : Nat} {room : Bool} (hstate : (s.frag m).state = .cbwait n k room)
include hstate

theorem exec_cbwaitWake_away (h : (s.group (s.frag m).group).dev ≠ s.fabric.toNat) :
    exec (.cbwaitWake m) s = s.wakeWord m (.cbwait k room (BitVec.ofNat 6 n) true) fun _ s => .done s := by
  change execCbwaitWake m s = _
  unfold execCbwaitWake
  dsimp only
  rw [hstate]
  exact if_pos ((keeps_false_iff ..).2 h)

theorem exec_cbwaitWake_here {b : Cb} (h : (s.group (s.frag m).group).dev = s.fabric.toNat) (hs : s.asleep m = false)
    (hat : (s.core (s.team (s.group (s.frag m).group).team).coreKey).cbs.find n = some b) (howed : s.cbOwed (s.frag m).group b = none) :
    exec (.cbwaitWake m) s = if b.met k room = true then finish (s.wake m) (cbwaitEnd b (s.wake m)) else .next s := by
  change execCbwaitWake m s = _
  unfold execCbwaitWake
  dsimp only
  rw [hstate]
  refine (if_neg (by rw [(keeps_iff ..).2 h]; exact Bool.noConfusion)).trans ?_
  rw [hat]
  simp only [hs, howed, Bool.not_false, Bool.true_and, Option.isSome_none, Bool.or_false]
end

theorem cbOwed_wake (s : State) (m : Nat) (b : Cb) : (s.wake m).cbOwed (s.wake m).f.group b = s.cbOwed (s.frag m).group b := by
  rw [wake_group]
  exact wake_frame s m (fun t => t.cbOwed (s.frag m).group b) fun _ _ _ _ _ => rfl

theorem cbwaitEnd_clear {s : State} {b : Cb} (h : s.cbOwed s.f.group b = none) : cbwaitEnd b s = .done s := by
  rw [cbwaitEnd, h]

theorem cbwaitEnd_owed {s : State} {b : Cb} {x : Nat × Cmd} (h : s.cbOwed s.f.group b = some x) : cbwaitEnd b s = s.giveFault x := by
  rw [cbwaitEnd, h]

/-! #### O38, clause by clause -/

section
variable {s : State} {d a : RegNum}

/-- The clauses of O38 on BSEAL. -/
theorem bseal_goes (h : s.g.dev = s.fabric.toNat) (hfull : s.g.batches.length < 16) :
    ∃ u : State, Goes (.bseal d) s (u.wrS d (s.g.batchNo.setWidth 64) false) ∧ u.frags = s.frags ∧ u.cur = s.cur ∧ u.mem = s.mem ∧
      u.g = { s.g with
        batchNo := s.g.batchNo + 1
        unsealed := []
        batches := if s.g.unsealed = [] then s.g.batches else s.g.batches ++ [⟨s.g.batchNo, s.g.unsealed⟩] } ∧
      ∀ c, u.cmd c = if c ∈ s.g.unsealed then { s.cmd c with batch := some s.g.batchNo } else s.cmd c := by
  have hkept : ∀ {γ : Type} (p : State → γ), (∀ (s : State) cs gs, p { s with cmds := cs, groups := gs } = p s) → p (s.sealBatch s.f.group) = p s :=
    fun p hp => sealBatch_frame s s.f.group p hp
  have hf := hkept State.f fun _ _ _ => rfl
  have hfree : s.g.sealedFull ≠ true := by simpa [Group.sealedFull] using hfull
  refine ⟨s.sealBatch s.f.group, goes_of (exec_bseal_here h) (if_neg hfree) ?_, hkept State.frags fun _ _ _ => rfl, hkept State.cur fun _ _ _ => rfl,
    hkept State.mem fun _ _ _ => rfl, ?_, cmd_sealBatch s s.f.group⟩
  · rw [State.wrS_pc, hf]
  · rw [State.g, hf]
    exact group_sealBatch s s.f.group

theorem bseal_holds (h : s.g.dev = s.fabric.toNat) (hfull : 16 ≤ s.g.batches.length) : Holds (.bseal d) s s :=
  holds_of (exec_bseal_here h) (if_pos (decide_eq_true hfull))

/-- A wait word that ends in a fault which it owes. -/
theorem gives_of {i : Instr} {act : Act} {u : State} {x : Nat × Cmd} (hexec : exec i s = finish s act) (hact : act = u.giveFault x) :
    exec i s = .next ((u.setCmd x.1 { x.2 with delivered := true }).takeFault x.2.faultRec) := by
  rw [hexec, hact]
  rfl

/-- The clause of O38 on SYNCW. -/
theorem syncw_goes (hclean : (s.sreg a).poison = false) (hal : fld (s.sv a) 0 18 % 16 = 0) (hsize : fld (s.sv a) 0 18 + 16 ≤ s.t.size)
    (h : s.g.dev = s.fabric.toNat) (hbefore : NothingBefore s) (k : Nat) (hk : k = scrKey s.t.coreKey (s.t.base + fld (s.sv a) 0 18)) :
    ∃ u : State, Goes (.syncw d a) s (u.wrS d (BitVec.ofNat 64 (s.valIn .scratch (k + 4) 4)) false) ∧ u.frags = s.frags ∧ u.cur = s.cur ∧ u.mem = s.mem ∧
      u.valIn .scratch (k + 12) 4 = ((s.sv a).extractLsb' 32 32).toNat ∧ u.valIn .scratch (k + 8) 4 = 0 ∧
      ∀ j, j < k + 8 ∨ k + 16 ≤ j → u.byteIn .scratch j = s.byteIn .scratch j := by
  have hkept : ∀ {γ : Type} (p : State → γ), (∀ (s : State) ts, p { s with teams := ts } = p s) → (∀ (s : State) m e, p { s with scratch := m, sramErr := e } = p s) →
      p (s.setSync s.g.team (fld (s.sv a) 0 18) (fld (s.sv a) 32 32)) = p s := fun p hp hp' => setSync_frame s _ _ _ p hp hp'
  have hgen : (s.genAt s.g.team (fld (s.sv a) 0 18)).setWidth 64 = BitVec.ofNat 64 (s.valIn .scratch (k + 4) 4) := by
    rw [genAt_setWidth, hk]
    rfl
  have hset := setSync_eq s s.g.team (fld (s.sv a) 0 18) (fld (s.sv a) 32 32)
  rw [show scrKey (s.team s.g.team).coreKey ((s.team s.g.team).base + fld (s.sv a) 0 18) = k from hk.symm] at hset
  have hother : ∀ j, (s.nameSync s.g.team (fld (s.sv a) 0 18)).byteIn .scratch j = s.byteIn .scratch j := fun j =>
    nameSync_frame s _ _ (fun t => t.byteIn .scratch j) fun _ _ => rfl
  refine ⟨_, goes_of (exec_syncw_here hclean h hal hsize hbefore) (by rw [hgen]) ?_, hkept State.frags (fun _ _ => rfl) fun _ _ _ => rfl,
    hkept State.cur (fun _ _ => rfl) fun _ _ _ => rfl, hkept State.mem (fun _ _ => rfl) fun _ _ _ => rfl, ?_, ?_, fun j hj => ?_⟩
  · rw [State.wrS_pc, hkept State.f (fun _ _ => rfl) fun _ _ _ => rfl]
  · rw [hset, twoWords_first _ _ _ _ _ (by omega)]
    exact Nat.mod_eq_of_lt (BitVec.isLt _)
  · rw [hset, twoWords_second, Nat.zero_mod]
  · rw [hset, twoWords_other _ _ _ _ _ j (by omega) (by omega), hother]

/-- The clauses of O38 on SWAIT at home. -/
theorem swait_here (hclean : s.poisoned [.s a, .s d] = none) (htrap : s.f.trap = none) (hal : fld (s.sv a) 0 18 % 16 = 0)
    (hsize : fld (s.sv a) 0 18 + 16 ≤ s.t.size) (hstill : Still s) (h : s.g.dev = s.fabric.toNat) (hbefore : NothingBefore s) (named : State)
    (hnamed : named = s.useSync s.g.team (fld (s.sv a) 0 18)) :
    (2 ^ 31 ≤ (named.genAt s.g.team (fld (s.sv a) 0 18) - (s.sv d).setWidth 32).toNat → s.syncOwed s.f.group (fld (s.sv a) 0 18) = none →
      exec (.swait d a) s = .next (named.beginWait (.swait (fld (s.sv a) 0 18) ((s.sv d).setWidth 32) d))) ∧
    ((named.genAt s.g.team (fld (s.sv a) 0 18) - (s.sv d).setWidth 32).toNat < 2 ^ 31 → s.syncOwed s.f.group (fld (s.sv a) 0 18) = none →
      Goes (.swait d a) s (named.wrS d ((named.genAt s.g.team (fld (s.sv a) 0 18)).setWidth 64) false)) ∧
    ∀ x, s.syncOwed s.f.group (fld (s.sv a) 0 18) = some x →
      exec (.swait d a) s = .next ((named.setCmd x.1 { x.2 with delivered := true }).takeFault x.2.faultRec) := by
  have hkept : ∀ {γ : Type} (p : State → γ), (∀ (s : State) ts, p { s with teams := ts } = p s) → (∀ (s : State) m e, p { s with scratch := m, sramErr := e } = p s) →
      p named = p s := fun p hp hp' => hnamed ▸ useSync_frame s _ _ p hp hp'
  have hf : named.f = s.f := hkept State.f (fun _ _ => rfl) fun _ _ _ => rfl
  have hg : named.g = s.g := hkept State.g (fun _ _ => rfl) fun _ _ _ => rfl
  have howed : named.syncOwed named.f.group (fld (s.sv a) 0 18) = s.syncOwed s.f.group (fld (s.sv a) 0 18) := by
    rw [hf]
    exact hkept (fun t => t.syncOwed s.f.group (fld (s.sv a) 0 18)) (fun _ _ => rfl) fun _ _ _ => rfl
  have hexec := exec_swait_here hclean htrap hstill h hal hsize hbefore
  rw [← hnamed] at hexec
  have hgen : named.genAt named.g.team (fld (s.sv a) 0 18) = named.genAt s.g.team (fld (s.sv a) 0 18) := by rw [hg]
  refine ⟨fun hlate hclear => ?_, fun hmet hclear => ?_, fun x hx => ?_⟩
  · have hwait : genMet (named.genAt s.g.team (fld (s.sv a) 0 18)) ((s.sv d).setWidth 32) = false := decide_eq_false (by omega)
    rw [hexec, swaitAct, howed, hclear, hgen, hwait]
    rfl
  · have hgo : genMet (named.genAt s.g.team (fld (s.sv a) 0 18)) ((s.sv d).setWidth 32) = true := decide_eq_true hmet
    refine goes_of hexec (act := swaitAct s d a named) ?_ (by rw [State.wrS_pc, hf])
    rw [swaitAct, howed, hclear, hgen, hgo]
    exact (swaitEnd_clear (howed.trans hclear)).trans (by rw [hgen])
  · refine gives_of hexec ?_
    rw [swaitAct, howed, hx, Option.isSome_some, Bool.or_true]
    exact swaitEnd_owed (howed.trans hx)
end

/-- The clause of O38 on a sync word whose team names none yet. -/
theorem useSync_values (s : State) (n o : Nat) (h : (s.team n).syncs = []) :
    let k := scrKey (s.team n).coreKey ((s.team n).base + o)
    let target := s.valIn .scratch (k + 12) 4
    let count := s.valIn .scratch (k + 8) 4
    let gen := s.valIn .scratch (k + 4) 4
    let u := s.useSync n o
    u.mem = s.mem ∧ u.frags = s.frags ∧ u.valIn .scratch (k + 12) 4 = target ∧ (∀ j, j < k + 4 ∨ k + 12 ≤ j → u.byteIn .scratch j = s.byteIn .scratch j) ∧
      (target = 0 ∨ count < target → u.valIn .scratch (k + 8) 4 = count ∧ u.valIn .scratch (k + 4) 4 = gen) ∧
      (0 < target → target ≤ count → u.valIn .scratch (k + 8) 4 = count % target ∧ u.valIn .scratch (k + 4) 4 = (gen + count / target) % 2 ^ 32) := by
  intro k target count gen u
  have hu : u = advancedSync (s.setTeam n { s.team n with syncs := [o] }) k := useSync_first s n o h
  have hother : ∀ j, j < k + 4 ∨ k + 12 ≤ j → u.byteIn .scratch j = s.byteIn .scratch j := fun j hj => by
    rw [hu]
    exact advancedSync_other _ k j hj
  refine ⟨useSync_frame s n o State.mem (fun _ _ => rfl) fun _ _ _ => rfl, useSync_frame s n o State.frags (fun _ _ => rfl) fun _ _ _ => rfl,
    valIn_congr fun j _ => hother _ (by omega), hother, fun hwait => ?_, fun h0 hmet => ?_⟩
  · rw [hu, advancedSync_waits (s.setTeam n { s.team n with syncs := [o] }) k hwait]
    exact ⟨rfl, rfl⟩
  · rw [hu]
    exact advancedSync_met _ k h0 hmet

section
variable {s : State} {m : Nat} {B : BitVec 8} {o : Nat} {v : Word} {d : RegNum}

/-- The clauses of O38 on the wakes away from the team's device. -/
theorem wakes_away (hs : s.asleep m = false) {i : Instr} {w : TeamWord} {k : DWord → State → State}
    (hexec : exec i s = s.wakeWord m w fun x t => .done (k x t)) (hpc : ∀ x t, (k x t).f.pc = t.f.pc) :
    (((s.frag m).grant = .none ∨ (s.frag m).grant = .word .wait → exec i s = .next (s.sendWord m w)) ∧ ((s.frag m).grant = .asked → exec i s = .next s)) ∧
      ∀ x, (s.frag m).grant = .word (.done x) →
        exec i s = .next ((k x ((s.wake m).setF { (s.wake m).f with grant := .none })).retire ((s.wake m).f.pc + 4)) := by
  rw [hexec]
  refine ⟨⟨fun h => wakeWord_asks hs h, fun h => wakeWord_asked hs h⟩, fun x h => (wakeWord_done hs h).trans (finish_next_pc _ _ _ ?_)⟩
  rw [hpc, State.f_setF]

/-- The clauses of O38 on the wake of BWAIT at home. -/
theorem bwaitWake_here (h : (s.group (s.frag m).group).dev = s.fabric.toNat) (hs : s.asleep m = false) (hstate : (s.frag m).state = .bwait B) :
    ((s.group (s.frag m).group).incomplete B = true → exec (.bwaitWake m) s = .next s) ∧
      ((s.group (s.frag m).group).incomplete B = false → s.batchOwed (s.frag m).group B = none →
        exec (.bwaitWake m) s = .next (((s.wake m).setE false).retire ((s.wake m).f.pc + 4))) := by
  rw [exec_bwaitWake_here hstate h hs]
  refine ⟨fun hi => if_pos hi, fun hi hclear => (if_neg (by rw [hi]; exact Bool.noConfusion)).trans ?_⟩
  rw [bwaitEnd_clear ((batchOwed_wake s m B).trans hclear)]
  exact finish_next_pc _ _ _ (State.setE_pc ..)

/-- The clauses of O38 on the wake of SWAIT at home. -/
theorem swaitWake_here (h : (s.group (s.frag m).group).dev = s.fabric.toNat) (hs : s.asleep m = false) (hstate : (s.frag m).state = .swait o v d)
    (hclear : s.syncOwed (s.frag m).group o = none) :
    (2 ^ 31 ≤ (s.genAt (s.group (s.frag m).group).team o - v).toNat → exec (.swaitWake m) s = .next s) ∧
      ((s.genAt (s.group (s.frag m).group).team o - v).toNat < 2 ^ 31 → exec (.swaitWake m) s =
        .next (((s.wake m).wrS d ((s.genAt (s.group (s.frag m).group).team o).setWidth 64) false).retire ((s.wake m).f.pc + 4))) := by
  rw [exec_swaitWake_here hstate h hs hclear]
  refine ⟨fun hlate => if_neg ?_, fun hmet => (if_pos (decide_eq_true hmet)).trans ?_⟩
  · rw [genMet, decide_eq_true_eq]
    omega
  · rw [swaitEnd_clear ((syncOwed_wake s m o).trans hclear), genAt_wake]
    exact finish_next_pc _ _ _ (State.wrS_pc ..)
end

section
variable {s : State} {a n d : BitVec 6} {b : Cb}

/-- R312: a word on a descriptor that is not its team's is refused. -/
theorem cb_refused (hclean : (s.sreg a).poison = false) (h : s.g.dev = s.fabric.toNat) {x : FaultRec} (hon : s.cbOn s.g.team n = .error x) :
    Faults (.cbput a n) s x ∧ Faults (.cbget d n) s x := by
  have hkeep := (keeps_iff s s.g).2 h
  refine ⟨faults_of (exec_cbput hclean) ((if_neg (by rw [hkeep]; exact Bool.noConfusion)).trans ?_), faults_of exec_cbget ((if_pos hkeep).trans ?_)⟩
  · rw [hon]
    rfl
  · rw [hon]
    rfl

theorem exec_cbcfg_here (hclean : (s.sreg a).poison = false) (h : s.g.dev = s.fabric.toNat) :
    exec (.cbcfg a n) s = finish s (orElse (s.cbConfig s.g.team (s.sv a) n) .done) :=
  (exec_cbcfg hclean).trans (congrArg (finish s) (if_pos ((keeps_iff s s.g).2 h)))

theorem exec_cbput_here (hclean : (s.sreg a).poison = false) (h : s.g.dev = s.fabric.toNat) (hat : s.cbAt s.g.team n = some b) (ht : b.team = s.g.team)
    (hfence : s.fenceMet s.cur false true false = true) :
    exec (.cbput a n) s = finish s (orElse (b.advance (s.sv a) n) fun b => .done (s.putCb s.g.team n b)) := by
  refine (exec_cbput hclean).trans (congrArg (finish s) ((if_neg (by rw [(keeps_iff s s.g).2 h]; exact Bool.noConfusion)).trans ?_))
  rw [cbOn_own hat ht]
  exact if_neg (by rw [hfence]; exact Bool.noConfusion)

theorem cbget_here (h : s.g.dev = s.fabric.toNat) (hat : s.cbAt s.g.team n = some b) (ht : b.team = s.g.team) :
    Goes (.cbget d n) s (s.addOut s.cur (s.src.scalarOut .unit d (b.c ++ b.p) false false)) := by
  refine goes_of exec_cbget ((if_pos ((keeps_iff s s.g).2 h)).trans ?_) (addOut_pc _ _)
  rw [cbOn_own hat ht]
  rfl

theorem exec_cbwait_here (hclean : (s.sreg a).poison = false) (h : s.g.dev = s.fabric.toNat) (htrap : s.f.trap = none) (hat : s.cbAt s.g.team n = some b)
    (ht : b.team = s.g.team) : exec (.cbwait a n) s = finish s (cbwaitOn s a n b) := by
  refine (exec_cbwait hclean htrap).trans (congrArg (finish s) ((if_neg (by rw [(keeps_iff s s.g).2 h]; exact Bool.noConfusion)).trans ?_))
  rw [cbOn_own hat ht]
  rfl

/-- The clauses of O38 on CBWAIT of its own team's descriptor. -/
theorem cbwait_here (hclean : (s.sreg a).poison = false) (h : s.g.dev = s.fabric.toNat) (htrap : s.f.trap = none) (hat : s.cbAt s.g.team n = some b)
    (ht : b.team = s.g.team) (k : Nat) (hk : k = fld (s.sv a) 0 32) :
    (b.n < k → Faults (.cbwait a n) s (cbFault 6 n)) ∧
      (k ≤ b.n → Still s →
        (∀ y, s.cbOwed s.f.group b = some y → exec (.cbwait a n) s = .next ((s.setCmd y.1 { y.2 with delivered := true }).takeFault y.2.faultRec)) ∧
        (s.cbOwed s.f.group b = none → (b.met k ((s.sv a).getLsbD 63) = true → Goes (.cbwait a n) s s) ∧
          (¬b.met k ((s.sv a).getLsbD 63) = true → exec (.cbwait a n) s = .next (s.beginWait (.cbwait n.toNat k ((s.sv a).getLsbD 63)))))) := by
  subst hk
  have hexec := exec_cbwait_here hclean h htrap hat ht
  refine ⟨fun hlt => faults_of hexec (if_pos hlt), fun hle hstill => ?_⟩
  rw [cbwaitOn, if_neg (by omega), parkThen_still s hstill] at hexec
  refine ⟨fun y hy => gives_of hexec ?_, fun hclear => ⟨fun hmet => goes_of hexec ?_ rfl, fun hmet => ?_⟩⟩
  · rw [hy, Option.isSome_some, Bool.or_true, cbwaitEnd_owed hy]
    rfl
  · rw [hclear, hmet, cbwaitEnd_clear hclear]
    rfl
  · rw [hexec, hclear, Bool.eq_false_iff.2 hmet]
    rfl
end

section
variable {s : State} {a n : BitVec 6}

theorem exec_cbcfg_free (hclean : (s.sreg a).poison = false) (h : s.g.dev = s.fabric.toNat) (hfree : ∀ c, s.cbAt s.g.team n = some c → c.team = s.g.team) :
    exec (.cbcfg a n) s = finish s (orElse (configured s s.g.team (s.sv a) n) .done) := by
  rw [exec_cbcfg_here hclean h, cbConfig_free hfree]

/-- R311: the reservation holds the buffer's elements. -/
def Fits (s : State) (x : DWord) : Prop := fld x 0 18 + (fld x 48 16 + 1) * (4 * (fld x 23 9 + 1)) ≤ s.t.size

variable (hexec : exec (.cbcfg a n) s = finish s (orElse (configured s s.g.team (s.sv a) n) .done))
include hexec

theorem cbcfg_outside (h22 : (s.sv a).getLsbD 22 = false) (hsize : ¬Fits s (s.sv a)) : Faults (.cbcfg a n) s (cbFault 2 n) :=
  faults_of hexec (by rw [configured, if_pos ⟨h22, Nat.lt_of_not_le hsize⟩]; rfl)

theorem cbcfg_misfired (h22 : (s.sv a).getLsbD 22 = false) (hsize : Fits s (s.sv a)) (h : fld (s.sv a) 48 16 + 1 < fld (s.sv a) 32 16 + 1 ∨ fld (s.sv a) 18 4 ≠ 0) :
    Faults (.cbcfg a n) s (cbFault 3 n) :=
  faults_of hexec (by rw [configured, if_neg fun hout => absurd hsize (Nat.not_le.2 hout.2), if_pos ⟨h22, h⟩]; rfl)

theorem cbcfg_frees (h22 : (s.sv a).getLsbD 22 = true) (hnamed : s.cbNamed s.g.team n.toNat = false) :
    Goes (.cbcfg a n) s (s.setCore s.t.coreKey { s.core s.t.coreKey with cbs := (s.core s.t.coreKey).cbs.del n.toNat }) := by
  refine goes_of hexec ?_ rfl
  rw [configured, h22, hnamed]
  rfl

variable (h22 : (s.sv a).getLsbD 22 = false) (hsize : Fits s (s.sv a)) (hfire : fld (s.sv a) 32 16 + 1 ≤ fld (s.sv a) 48 16 + 1) (hres : fld (s.sv a) 18 4 = 0)
include h22 hsize hfire hres

theorem exec_cbcfg_formed : exec (.cbcfg a n) s = finish s (orElse (if s.cbNamed s.g.team n.toNat then .error (cbFault 4 n)
    else .ok (s.putCb s.g.team n ⟨s.g.team, fld (s.sv a) 48 16 + 1, fld (s.sv a) 32 16 + 1, 4 * (fld (s.sv a) 23 9 + 1), fld (s.sv a) 0 18, 0, 0, []⟩)) .done) := by
  rw [hexec, configured, if_neg fun hout => absurd hsize (Nat.not_le.2 hout.2), if_neg fun hbad => hbad.2.elim (by omega) fun hne => hne hres, h22]
  rfl

theorem cbcfg_named (hnamed : s.cbNamed s.g.team n.toNat = true) : Faults (.cbcfg a n) s (cbFault 4 n) :=
  faults_of (exec_cbcfg_formed hexec h22 hsize hfire hres) (by rw [hnamed]; rfl)

theorem cbcfg_takes (hnamed : s.cbNamed s.g.team n.toNat = false) : Goes (.cbcfg a n) s
    (s.putCb s.g.team n ⟨s.g.team, fld (s.sv a) 48 16 + 1, fld (s.sv a) 32 16 + 1, 4 * (fld (s.sv a) 23 9 + 1), fld (s.sv a) 0 18, 0, 0, []⟩) :=
  goes_of (exec_cbcfg_formed hexec h22 hsize hfire hres) (by rw [hnamed]; rfl) rfl
end

/-- The clauses of O38 on CBPUT of its own team's descriptor. -/
theorem cbput_here {s : State} {a n : BitVec 6} {b : Cb}
    (hexec : exec (.cbput a n) s = finish s (orElse (b.advance (s.sv a) n) fun b => .done (s.putCb s.g.team n b))) (k : Nat)
    (hk : k = ((s.sv a).extractLsb' 0 32).toNat) :
    ((s.sv a).getLsbD 63 = false → (b.n - (b.p - b.c).toNat < k → Faults (.cbput a n) s (cbFault 5 n)) ∧
      (k ≤ b.n - (b.p - b.c).toNat → Goes (.cbput a n) s (s.putCb s.g.team n { b with p := b.p + BitVec.ofNat 32 k }))) ∧
    ((s.sv a).getLsbD 63 = true → ((b.p - b.c).toNat < k → Faults (.cbput a n) s (cbFault 5 n)) ∧
      (k ≤ (b.p - b.c).toNat → Goes (.cbput a n) s (s.putCb s.g.team n { b with c := b.c + BitVec.ofNat 32 k }))) := by
  subst hk
  refine ⟨fun h63 => ?_, fun h63 => ?_⟩
  · rw [advance_producer h63] at hexec
    exact ⟨fun hlt => faults_of hexec (by rw [if_pos hlt]; rfl), fun hle => goes_of hexec (by rw [if_neg (Nat.not_lt.2 hle)]; rfl) rfl⟩
  · rw [advance_consumer h63] at hexec
    exact ⟨fun hlt => faults_of hexec (by rw [if_pos hlt]; rfl), fun hle => goes_of hexec (by rw [if_neg (Nat.not_lt.2 hle)]; rfl) rfl⟩

/-- Settles O38, word by word and wake by wake: at home each acts on its group or its team's core, and away from it asks that core. -/
theorem batchSyncAndBufferWords : Obligations.BatchSyncAndBufferWords := by
  refine ⟨⟨fun s d a => ?_, fun s n o => ?_, fun s n o => ?_, useSync_of_mem, useSync_values, fun s m B o v d => ?_⟩, fun s d a n b => ?_, fun s m n k room b => ?_⟩
  · intro g num B o k v owedB gives named now here waits
    refine ⟨fun haway => ⟨bseal_away haway, fun hclean => ⟨syncw_away hclean haway, fun htrap hstill => ⟨?_, fun hd => ?_⟩⟩⟩, bseal_holds, bseal_goes, fun _ _ => rfl,
      fun hclean htrap hstill hhere => ⟨fun hi => ?_, fun hi => ⟨fun hclear => ?_, fun x hx => ?_⟩⟩,
      fun hclean hal hsize hhere hbefore => syncw_goes hclean hal hsize hhere hbefore k rfl,
      fun hclean htrap hal hsize hstill hhere hbefore => swait_here hclean htrap hal hsize hstill hhere hbefore named rfl⟩
    · have hexec := exec_bwait_away hclean htrap hstill haway
      exact ⟨asksTeam_of hexec (fun _ => rfl) (fun _ _ => rfl) (fun _ _ => rfl) fun _ _ => State.setE_pc .., wordAway_waits hexec⟩
    · have hexec := exec_swait_away (s := s) (d := d) (a := a) (by simp [State.poisoned, State.poisonOf, hclean, hd]) htrap hstill haway
      exact ⟨asksTeam_of hexec (fun _ => rfl) (fun _ _ => rfl) (fun _ _ => rfl) fun _ _ => State.wrS_pc .., wordAway_waits hexec⟩
    · rw [exec_bwait_here hclean htrap hstill hhere]
      exact congrArg (finish s) (if_pos hi)
    · exact goes_of (exec_bwait_here hclean htrap hstill hhere) ((if_neg (by rw [hi]; exact Bool.noConfusion)).trans (bwaitEnd_clear hclear)) (State.setE_pc ..)
    · exact gives_of (exec_bwait_here hclean htrap hstill hhere) ((if_neg (by rw [hi]; exact Bool.noConfusion)).trans (bwaitEnd_owed hx))
  · by_cases h : o ∈ (s.team n).syncs
    · exact .inl (nameSync_of_mem s n o h)
    · exact .inr (nameSync_of_not_mem s n o h)
  · obtain ⟨xs, hxs, ho⟩ := team_nameSync s n o
    exact ⟨by rw [hxs]; exact ho, mem_useSync s n o⟩
  · intro w g gen asks w'
    refine ⟨fun hs haway => ⟨fun hstate => ?_, fun hstate => ?_⟩, fun _ hs hhere => ⟨fun hstate => ?_, fun hstate hclear => ?_⟩⟩
    · exact wakes_away hs (exec_bwaitWake_away hstate haway) fun _ _ => State.setE_pc ..
    · exact wakes_away hs (exec_swaitWake_away hstate haway) fun _ _ => State.wrS_pc ..
    · exact bwaitWake_here hhere hs hstate
    · exact swaitWake_here hhere hs hstate hclear
  · intro x k N fire size base at' no put used present
    have hno : ∀ {i : Instr} {r : Nat}, Faults i s (cbFault r n) → no i r := fun h => h
    refine ⟨fun hclean haway => ?_, fun hclean hhere => ⟨fun hat ht i hi => ?_, fun hat i hi => ?_, fun hfree => ?_, fun hat ht => ?_⟩⟩
    · have hkeep := (keeps_false_iff s s.g).2 haway
      refine ⟨asksTeam_of (exec_cbcfg hclean) (fun _ => if_neg (by rw [hkeep]; exact Bool.noConfusion)) (fun _ _ => rfl) (fun _ _ => rfl) fun _ _ => rfl, fun hfence => ?_,
        asksTeam_of exec_cbget (fun _ => if_neg (by rw [hkeep]; exact Bool.noConfusion)) (fun _ _ => rfl) (fun _ _ => rfl) fun _ _ => addOut_pc _ _,
        fun htrap hstill => ?_⟩
      · exact asksTeam_of (exec_cbput hclean) (fun _ => (if_pos hkeep).trans (if_neg (by rw [hfence]; exact Bool.noConfusion))) (fun _ _ => rfl) (fun _ _ => rfl)
          fun _ _ => rfl
      · have hexec := (exec_cbwait (n := n) hclean htrap).trans (congrArg (finish s) ((if_pos hkeep).trans (parkThen_still s hstill _)))
        exact ⟨asksTeam_of hexec (fun _ => rfl) (fun _ _ => rfl) (fun _ _ => rfl) fun _ _ => rfl, wordAway_waits hexec⟩
    · obtain ⟨hput, hget⟩ := cb_refused (d := d) hclean hhere (cbOn_other hat ht)
      simp only [List.mem_cons, List.not_mem_nil, or_false] at hi
      obtain rfl | rfl | rfl := hi
      · exact faults_of (exec_cbcfg_here hclean hhere) (by rw [cbConfig_other hat ht]; rfl)
      · exact hput
      · exact hget
    · obtain ⟨hput, hget⟩ := cb_refused (d := d) hclean hhere (cbOn_none hat)
      simp only [List.mem_cons, List.not_mem_nil, or_false] at hi
      obtain rfl | rfl := hi
      · exact hput
      · exact hget
    · have hexec := exec_cbcfg_free hclean hhere hfree
      have hres : x.extractLsb' 18 4 = 0 ↔ fld x 18 4 = 0 := (BitVec.toNat_inj (y := 0)).symm
      refine ⟨fun h22 hout => cbcfg_outside hexec h22 (Nat.not_le.2 hout), fun h22 hfits hbad => cbcfg_misfired hexec h22 hfits (hbad.imp_right fun h => mt hres.2 h),
        cbcfg_frees hexec, fun h22 hfits hfire h18 => ?_⟩
      exact ⟨cbcfg_named hexec h22 hfits hfire (hres.1 h18), cbcfg_takes hexec h22 hfits hfire (hres.1 h18)⟩
    · refine ⟨cbget_here hhere hat ht, fun hfence => cbput_here (exec_cbput_here hclean hhere hat ht hfence) k rfl, fun htrap => ?_⟩
      obtain ⟨hover, hwait⟩ := cbwait_here hclean hhere htrap hat ht k rfl
      rw [met_iff] at hwait
      exact ⟨hover, hwait⟩
  · intro g used present
    refine ⟨fun hstate hs haway => ?_, fun hstate hhere hat hs hclear => ?_⟩
    · obtain ⟨⟨hasks, -⟩, hdone⟩ := wakes_away hs (k := fun _ t => t) (exec_cbwaitWake_away hstate haway) fun _ _ => rfl
      exact ⟨hasks, hdone⟩
    · rw [exec_cbwaitWake_here hstate hhere hs hat hclear]
      refine ⟨fun habsent => if_neg fun hmet => habsent ((met_iff k room).1 hmet), fun hmet => (if_pos ((met_iff k room).2 hmet)).trans ?_⟩
      rw [cbwaitEnd_clear ((cbOwed_wake s m b).trans hclear)]
      rfl

end Sys2Proof.Proofs.Buffers

/-! ### The way of a parcel (R111, R112, R219, R220, R236, R299 to R301) -/

namespace Sys2Proof.Proofs.Parcels

open Sys2Proof Sys2Proof.Machine Sys2Proof.Claim Sys2Proof.Proofs.PartControl Sys2Proof.Proofs.Privileged Sys2Proof.Proofs.Launch
  Sys2Proof.Proofs.Migration Sys2Proof.Proofs.Traps

/-! #### A fault that a fragment takes where it stands (R339, R340) -/

/-- R339: a fragment that is still alive has TRAPINFO as given. -/
def Told (ti : Vector DWord 4) (f : Frag) : Prop := f.alive = true → f.ti = ti

theorem Told.woken {ti : Vector DWord 4} {f g : Frag} (h : Told ti f) (hg : Woken f g) : Told ti g := by
  obtain ⟨st, rfl⟩ := hg.1
  exact h

theorem Told.released {ti : Vector DWord 4} {f : Frag} (h : Told ti f) : Told ti { f with resident := false, turn := 0 } := h

section
variable (u : State) (n : Nat) {ti : Vector DWord 4}

theorem told_endedFrag (h : Told ti ((retiring u n).frag n)) : Told ti (endedFrag u n) := by
  unfold endedFrag
  generalize (retiring u n).frag n = f at h
  exact h

theorem told_retireLanes (h : Told ti (u.frag n)) : Told ti ((u.retireLanes n (u.frag n).own).frag n) := by
  rw [retireLanes_all]
  rcases freeEnded_frag (((retiring u n).setFrag n (endedFrag u n)).release n) n with hfree | hkept
  · rw [hfree]
    exact fun halive => nomatch halive
  · have hretiring : Told ti ((retiring u n).frag n) := by
      rw [retiring_frag]
      obtain ⟨g, hg⟩ := dropGrant_frag ((u.setFrag n _).splitUpdate n (.retire (u.frag n).own)) n
      rw [hg, splitUpdate_frame (p := fun u => u.frag n) fun _ _ _ => rfl, State.frag_setFrag_same]
      exact h
    rw [hkept, release_frag, State.frag_setFrag_same]
    exact (told_endedFrag u n hretiring).released

theorem told_enterTrap (d : TrapDue) (h : Told ti (u.frag n)) : Told ti ((u.enterTrap n d).frag n) := by
  by_cases hends : (u.frag n).trap ≠ none ∨ (u.part (u.group (u.frag n).group).rights.part).trapent = 0 ∨
      184 < (u.frag n).regs.wbV.toNat ∨ 56 < (u.frag n).regs.wbS.toNat
  · obtain ⟨c, c2, addr, rpc, he⟩ := enterTrap_ends u n d hends
    rw [he]
    exact (told_retireLanes u n h).woken (woken_groupEvent ..)
  · simp only [not_or, not_not, Nat.not_lt] at hends
    obtain ⟨htrap, hent, hwindow⟩ := hends
    rw [enterTrap_enters u n d htrap hent hwindow, State.frag_setFrag_same]
    exact h

variable (ti0 rpc pc : DWord) (r : FaultRec)

/-- R339: a fragment with a trap due. -/
def struck (f : Frag) (g : Grant) : Frag :=
  { f with
    leave := none
    ti := #v[ti0, r.ti1, r.ti2, r.ti3]
    grp := none, pfx := none, chain := false, park := false, held := false, counted := false, sent := 0, kept := []
    due := some ⟨rpc, r.code, r.swcode, r.ti3.getLsbD 63, pc, r.addr⟩, parked := true, grant := g }

theorem raise_frag (hleave : (u.frag n).leave = none) (hgrp : (u.frag n).grp = none) (hcode : r.code ≠ 0x10#8) :
    ∃ g, (u.raise n ti0 rpc pc r).frag n = struck ti0 rpc pc r (u.frag n) g := by
  unfold State.raise
  simp only [hleave, hgrp, Option.isNone_none, if_true, if_neg hcode, State.frag_setFrag_same]
  generalize u.frag n = f at hleave
  exact ⟨_, rfl⟩

theorem told_faultOn (hleave : (u.frag n).leave = none) (hgrp : (u.frag n).grp = none) (hcode : r.code ≠ 0x10#8) :
    Told #v[ti0, r.ti1, r.ti2, r.ti3] ((u.faultOn n ti0 rpc pc r).frag n) := by
  obtain ⟨g, hg⟩ := raise_frag u n ti0 rpc pc r hleave hgrp hcode
  have htold : Told #v[ti0, r.ti1, r.ti2, r.ti3] ((u.raise n ti0 rpc pc r).frag n) := by
    rw [hg]
    exact fun _ => rfl
  have hsettled : Told #v[ti0, r.ti1, r.ti2, r.ti3] (((u.raise n ti0 rpc pc r).settle n).frag n) := by
    by_cases hnow : ((u.raise n ti0 rpc pc r).frag n).outs ≠ [] ∨ ((u.raise n ti0 rpc pc r).frag n).alive = false
    · rw [State.settle, if_pos hnow]
      exact htold
    · simp only [not_or, not_not, Bool.not_eq_false] at hnow
      rw [settle_due _ n ⟨rpc, r.code, r.swcode, r.ti3.getLsbD 63, pc, r.addr⟩ hnow.1 hnow.2 (by rw [hg]; rfl) (by rw [hg]; rfl)]
      exact told_enterTrap _ n _ htold
  rw [State.faultOn, endTurnOf_frag]
  exact hsettled
end

/-! #### Registers of a parcel (R111, R112) -/

section
variable {α : Type} (d : α) (m : KMap α) (p : Nat → Bool) (g : α → α) (k : Nat)

theorem get_filter_map (hd : g d = d) : KMap.get d ((m.filter fun e => p e.1).map fun e => (e.1, g e.2)) k = if p k then g (KMap.get d m k) else d := by
  rw [get_map_values d (fun _ => g) (fun _ => hd)]
  have hfilter : KMap.get d (m.filter fun e => p e.1) k = if p k then KMap.get d m k else d := by
    induction m with
    | nil => exact (ite_self d).symm
    | cons e m ih =>
      rw [List.filter_cons]
      by_cases hk : k = e.1
      · by_cases hp : p e.1 = true
        · rw [if_pos hp, KMap.get, if_pos hk, KMap.get, if_pos hk, if_pos (hk ▸ hp)]
        · rw [if_neg hp, ih, if_neg (hk ▸ hp), if_neg (hk ▸ hp)]
      · have hlater : KMap.get d (e :: m) k = KMap.get d m k := if_neg hk
        by_cases hp : p e.1 = true
        · rw [if_pos hp, KMap.get, if_neg hk, hlater, ih]
        · rw [if_neg hp, hlater, ih]
  rw [hfilter]
  split_ifs
  · rfl
  · exact hd
end

section
variable (r : Regs) (L : LeaveDue) (z : RegNum)

theorem carried_vector : (L.carried.1.any fun i => r.vEnt i == r.vEnt z) = true ↔ L.vmap.getLsbD z.toNat = true ∨ z ∈ L.acc.operands.1 := by
  have hz : BitVec.ofNat 6 z.toNat = z := (BitVec.ofNat_toNat 6 z).trans z.setWidth_eq
  simp only [LeaveDue.carried, List.any_map, List.any_filter, List.any_eq_true, List.mem_range, Bool.and_eq_true, Bool.or_eq_true, List.contains_iff_mem, Function.comp_apply,
    beq_iff_eq, Regs.vEnt, Nat.add_left_cancel_iff, BitVec.toNat_inj]
  constructor
  · rintro ⟨i, hi, hcarried, rfl⟩
    rwa [BitVec.toNat_ofNat, Nat.mod_eq_of_lt hi]
  · exact fun h => ⟨z.toNat, z.isLt, hz.symm ▸ h, hz⟩

theorem carried_scalar (h61 : z.toNat < 61) :
    (L.carried.2.any fun i => r.sEnt i == r.sEnt z) = true ↔ L.smap.getLsbD z.toNat = true ∨ z ∈ L.acc.operands.2 := by
  have hz : BitVec.ofNat 6 z.toNat = z := (BitVec.ofNat_toNat 6 z).trans z.setWidth_eq
  simp only [LeaveDue.carried, List.any_map, List.any_filter, List.any_eq_true, List.mem_range, Bool.and_eq_true, Bool.or_eq_true, List.contains_iff_mem, Function.comp_apply,
    beq_iff_eq, Regs.sEnt, Nat.add_left_cancel_iff, BitVec.toNat_inj]
  constructor
  · rintro ⟨i, hi, hcarried, rfl⟩
    rwa [BitVec.toNat_ofNat, Nat.mod_eq_of_lt (by omega)]
  · exact fun h => ⟨z.toNat, h61, hz.symm ▸ h, hz⟩

/-- R111: a vector as a parcel leaves it. -/
theorem carry_vreg : (r.carry L).vreg z = if L.vmap.getLsbD z.toNat = true ∨ z ∈ L.acc.operands.1 then { r.vreg z with poison := 0 } else VReg.zero :=
  (get_filter_map VReg.zero r.v (fun k => L.carried.1.any fun i => r.vEnt i == k) (fun x => { x with poison := 0x0#96 }) (r.vEnt z) rfl).trans
    (if_congr (carried_vector r L z) rfl rfl)

/-- R111: a scalar as a parcel leaves it. -/
theorem carry_sreg (h61 : z.toNat < 61) :
    (r.carry L).sreg z = if L.smap.getLsbD z.toNat = true ∨ z ∈ L.acc.operands.2 then { r.sreg z with poison := false } else SReg.zero := by
  have hfile (q : Regs) : q.sreg z = q.s.get SReg.zero (q.sEnt z) := if_neg (Nat.not_le.2 h61)
  rw [hfile, hfile]
  exact (get_filter_map SReg.zero r.s (fun k => L.carried.2.any fun i => r.sEnt i == k) (fun x => { x with poison := false }) (r.sEnt z) rfl).trans
    (if_congr (carried_scalar r L z h61) rfl rfl)
end

/-- R146, R147: reporting a fragment changes at most its group's records and what is in flight. -/
theorem report_frame {γ : Type} {p : State → γ} (hp : Unrecorded p) (u : State) (n : Nat) : p (u.report n) = p u := by
  unfold State.report
  dsimp only
  split_ifs
  · rfl
  · exact splitUpdate_frame hp ..

/-! #### Departure (R112, R219, R236, R300) -/

section
variable (s : State) (n home : Nat) (L : LeaveDue)

/-- R112: a leaving fragment as its parcel takes it away, and its residency given up. -/
def givenToParcel : State :=
  (s.newId.2.setFrag n { s.frag n with state := .transit s.fabric.toNat home true, leave := some L, regs := (s.frag n).regs.carry L }).release n

/-- R300: a parcel joins the egress buffer of a core, which keeps no line of its fragment. -/
def joinEgress (u : State) (key : Nat) (p : Parcel) : State :=
  u.setCore key { u.core key with egress := (u.core key).egress ++ [p], lines := (u.core key).lines.filter fun l => l.frag != p.frag }

theorem joinEgress_frame (u : State) (key : Nat) (p : Parcel) : (joinEgress u key p).frags = u.frags ∧ (joinEgress u key p).mem = u.mem ∧
    ((joinEgress u key p).core key).egress = (u.core key).egress ++ [p] :=
  ⟨rfl, rfl, congrArg Core.egress (KMap.get_ins_same ..)⟩

theorem givenToParcel_frag : (givenToParcel s n home L).frag n =
    { s.frag n with state := .transit s.fabric.toNat home true, leave := some L, regs := (s.frag n).regs.carry L, resident := false, turn := 0 } := by
  rw [givenToParcel, release_frag, State.frag_setFrag_same]

theorem leaveSvc_egress (c : Core) (m : Nat) : (c.leaveSvc m).egress = c.egress := by
  unfold Core.leaveSvc Core.tidy
  refine List.foldlRecOn (motive := fun (d : Core) => d.egress = c.egress) _ _ rfl fun d hd l _ => ?_
  split
  · exact Eq.trans (by unfold Core.join; split_ifs <;> rfl) hd
  · exact hd

theorem release_egress (u : State) (m k : Nat) : ((u.release m).core k).egress = (u.core k).egress := by
  unfold State.release
  dsimp only
  refine (congrArg Core.egress (KMap.get_ins Core.fresh u.cores (u.frag m).coreKey k _)).trans ?_
  split_ifs with hk
  · rw [hk]
    exact leaveSvc_egress (u.core (u.frag m).coreKey) m
  · rfl

variable (hstate : (s.frag n).state = .transit s.fabric.toNat home false) (hleave : (s.frag n).leave = some L)
include hstate hleave

theorem parcelDepart_waits (h : s.storesAcked n = false ∨ s.siblingFirst n L s.fabric.toNat home = true ∨ (∃ k, k ∈ L.behind ∧ s.partDone k = false) ∨
    8 ≤ (s.core (s.frag n).coreKey).egress.length) : exec (.parcelDepart n) s = .next s := by
  refine congrArg Host.Outcome.next ?_
  dsimp only
  rw [hstate, hleave]
  dsimp only
  rw [if_pos rfl, if_pos]
  rcases h with h | h | ⟨k, hk, hundone⟩ | h
  · simp [h]
  · simp [h]
  · have hbehind : L.behind.all s.partDone = false := List.all_eq_false.2 ⟨k, hk, by simp [hundone]⟩
    simp [hbehind]
  · simp [h]

theorem parcelDepart_leaves (hacked : s.storesAcked n = true) (hfirst : s.siblingFirst n L s.fabric.toNat home = false) (hbehind : ∀ k, k ∈ L.behind → s.partDone k = true)
    (hroom : (s.core (s.frag n).coreKey).egress.length < 8) : ∃ u, exec (.parcelDepart n) s = .next u ∧ (u.frag n).state = .transit s.fabric.toNat home true ∧
      (u.frag n).resident = false ∧ (u.frag n).regs = (s.frag n).regs.carry L ∧ u.mem = s.mem ∧
      (u.core (s.frag n).coreKey).egress = (s.core (s.frag n).coreKey).egress ++ [⟨n, s.fabric.toNat, home, s.nextId, false, false, false⟩] := by
  have hparts : L.behind.all s.partDone = true := List.all_eq_true.2 hbehind
  obtain ⟨u, hu, hfrag, hmem, hegress⟩ : ∃ u,
      exec (.parcelDepart n) s = .next (joinEgress u (s.frag n).coreKey ⟨n, s.fabric.toNat, home, s.nextId, false, false, false⟩) ∧
      u.frag n = (givenToParcel s n home L).frag n ∧ u.mem = s.mem ∧ (u.core (s.frag n).coreKey).egress = (s.core (s.frag n).coreKey).egress := by
    refine ⟨if s.fabric.toNat = (s.group (s.frag n).group).dev then givenToParcel s n home L else (givenToParcel s n home L).report n, congrArg Host.Outcome.next ?_, ?_⟩
    · dsimp only
      rw [hstate, hleave]
      dsimp only
      rw [if_pos rfl, if_neg]
      · rfl
      · simp [hacked, hfirst, hparts, Nat.not_le.2 hroom]
    · have hreport : ((givenToParcel s n home L).report n).frag n = (givenToParcel s n home L).frag n := report_frame (p := fun u => u.frag n) (fun _ _ _ => rfl) ..
      have hreportMem : ((givenToParcel s n home L).report n).mem = (givenToParcel s n home L).mem := report_frame (fun _ _ _ => rfl) ..
      have hreportCores : ((givenToParcel s n home L).report n).cores = (givenToParcel s n home L).cores := report_frame (fun _ _ _ => rfl) ..
      have hegress : ((givenToParcel s n home L).core (s.frag n).coreKey).egress = (s.core (s.frag n).coreKey).egress := release_egress ..
      split_ifs
      · exact ⟨rfl, rfl, hegress⟩
      · exact ⟨hreport, hreportMem, (congrArg (fun cs => (KMap.get Core.fresh cs (s.frag n).coreKey).egress) hreportCores).trans hegress⟩
  have hplaced := hfrag.trans (givenToParcel_frag s n home L)
  obtain ⟨hfrags, hmemory, hjoined⟩ := joinEgress_frame u (s.frag n).coreKey ⟨n, s.fabric.toNat, home, s.nextId, false, false, false⟩
  have hsame : (joinEgress u (s.frag n).coreKey ⟨n, s.fabric.toNat, home, s.nextId, false, false, false⟩).frag n = _ :=
    (congrArg (fun fs => KMap.get Frag.free fs n) hfrags).trans hplaced
  refine ⟨_, hu, (congrArg Frag.state hsame :), (congrArg Frag.resident hsame :), (congrArg Frag.regs hsame :), hmemory.trans hmem, hjoined.trans ?_⟩
  rw [hegress]
end

/-! #### The egress buffers (R300) -/

theorem find_updFirst {α : Type} (p : α → Bool) (g : α → α) (hg : ∀ x, p (g x) = p x) (l : List α) : (updFirst p g l).find? p = (l.find? p).map g := by
  induction l with
  | nil => rfl
  | cons x l ih =>
    rw [updFirst]
    by_cases hx : p x = true
    · rw [if_pos hx, List.find?_cons_of_pos ((hg x).trans hx), List.find?_cons_of_pos hx, Option.map_some]
    · rw [if_neg hx, List.find?_cons_of_neg hx, List.find?_cons_of_neg hx, ih]

section
variable (s : State) (core k : Nat) (d : DWord)

theorem onEgress_same (g : List Parcel → List Parcel) : ((s.onEgress core g).core core).egress = g (s.core core).egress :=
  congrArg Core.egress (KMap.get_ins_same ..)

theorem count_egress : ((s.count core k d).core core).egress = (s.core core).egress :=
  (congrArg Core.egress (KMap.get_ins_same Core.fresh s.cores core _)).trans rfl

/-- The parcel of a fragment that a core holds is changed, where the change keeps whose it is. -/
theorem onEgress_updFirst (n : Nat) (g : Parcel → Parcel) (hg : ∀ q, (g q).frag = q.frag) :
    (((s.onEgress core fun ps => updFirst (fun q => q.frag == n) g ps).core core).egress.find? fun q => q.frag == n) = ((s.core core).egress.find? fun q => q.frag == n).map g := by
  rw [onEgress_same]
  exact find_updFirst _ g (fun q => by rw [hg]) _
end

/-! #### The offer (R300, R301) -/

section
variable (s : State) (core dv home : Nat) (p : Parcel) (hfirst : (s.core core).egress.find? (fun q => 16 * q.dev + q.home == 16 * dv + home) = some p) (hhome : home < 16)
  (hphome : p.home < 16) (hrefused : p.refused = false) (hoffered : p.offered = false)

section
include hfirst hhome hphome

theorem first_for : p.dev = dv ∧ p.home = home := by
  have h := List.find?_some hfirst
  rw [beq_iff_eq] at h
  omega
end

theorem port_of_home : 12 * p.home ≤ p.port ∧ p.port < 12 * p.home + 12 := by
  unfold Parcel.port
  omega

/-- R220, R300: a parcel leaves its core's buffer for another device by a port. -/
def sentOff : State :=
  let f := s.frag p.frag
  let g := s.group f.group
  (((s.onEgress core fun ps => ps.filter fun q => q.frag != p.frag).count core 4 1).toPort (core / 256) p.dev
    (.parcel s.fabric.toNat p.dev g.rights.keyidx (f.header g f.stag f.vtag) f g p.port) (.returned s.fabric.toNat f g 0x16#8))

/-- R111: what the device keeps of a fragment that has left it: its split entry, where the group is of this device. -/
def leftBehind : Frag :=
  let f := s.frag p.frag
  if s.keeps (s.group f.group) then { Frag.free with
    alive := true, group := f.group, idx := f.idx, own := f.own, pc := f.pc, dev := p.dev, home := p.home, state := .transit p.dev p.home true } else Frag.free

theorem sentOff_egress : ∀ q, q ∈ ((sentOff s core p).core core).egress → q.frag ≠ p.frag := by
  have hcores : (sentOff s core p).cores = ((s.onEgress core fun ps => ps.filter fun q => q.frag != p.frag).count core 4 1).cores := by
    unfold sentOff State.toPort
    dsimp only
    split_ifs <;> rfl
  have hegress : ((sentOff s core p).core core).egress = (s.core core).egress.filter fun q => q.frag != p.frag := by
    rw [State.core, hcores]
    exact (count_egress ..).trans (onEgress_same ..)
  intro q hq
  rw [hegress] at hq
  exact bne_iff_ne.1 (List.mem_filter.1 hq).2

theorem sentOff_fabOut (hext : s.extended (core / 256) = true) : (sentOff s core p).fabOut = s.fabOut ++ [.parcel s.fabric.toNat p.dev (s.group (s.frag p.frag).group).rights.keyidx
    ((s.frag p.frag).header (s.group (s.frag p.frag).group) (s.frag p.frag).stag (s.frag p.frag).vtag) (s.frag p.frag) (s.group (s.frag p.frag).group) p.port] := by
  have hopen : ((s.onEgress core fun ps => ps.filter fun q => q.frag != p.frag).count core 4 1).portShut (core / 256) p.dev = false := by
    refine Bool.and_eq_false_iff.2 (.inl ?_)
    exact congrArg not hext
  unfold sentOff State.toPort
  dsimp only
  rw [hopen]
  rfl

include hfirst hhome hphome hrefused hoffered

theorem parcelOffer_travels (hdv : dv = s.fabric.toNat) :
    ∃ u, exec (.parcelOffer core (16 * dv + home)) s = .next u ∧ u.net = s.net ++ [.parcel p.frag home none] ∧ u.mem = s.mem := by
  obtain ⟨hdev, hat⟩ := first_for s core dv home p hfirst hhome hphome
  refine ⟨{ s.onEgress core fun ps => updFirst (fun q => q.frag == p.frag) (fun q => { q with offered := true }) ps with net := s.net ++ [.parcel p.frag home none] },
    congrArg Host.Outcome.next ?_, rfl, rfl⟩
  rw [hfirst]
  dsimp only
  rw [if_neg (by rw [hrefused, hoffered]; exact Bool.noConfusion), if_pos (hdev.trans hdv), hat]
  rfl

variable (hdv : dv ≠ s.fabric.toNat)
include hdv

theorem parcelOffer_withheld (h : (p.dev, p.port) ∈ s.credNo) : exec (.parcelOffer core (16 * dv + home)) s = .next s := by
  obtain ⟨hdev, hat⟩ := first_for s core dv home p hfirst hhome hphome
  refine congrArg Host.Outcome.next ?_
  rw [hfirst]
  dsimp only
  rw [if_neg (by rw [hrefused, hoffered]; exact Bool.noConfusion), if_neg (hdev.symm ▸ hdv), if_pos (List.contains_iff_mem.2 h)]

theorem parcelOffer_leaves (h : (p.dev, p.port) ∉ s.credNo) (hext : s.extended (core / 256) = true) : ∃ u, exec (.parcelOffer core (16 * dv + home)) s = .next u ∧
    u.fabOut = s.fabOut ++ [.parcel s.fabric.toNat dv (s.group (s.frag p.frag).group).rights.keyidx
      ((s.frag p.frag).header (s.group (s.frag p.frag).group) (s.frag p.frag).stag (s.frag p.frag).vtag) (s.frag p.frag) (s.group (s.frag p.frag).group) p.port] ∧
    12 * home ≤ p.port ∧ p.port < 12 * home + 12 ∧ ∀ q, q ∈ (u.core core).egress → q.frag ≠ p.frag := by
  obtain ⟨hdev, hat⟩ := first_for s core dv home p hfirst hhome hphome
  obtain ⟨hlow, hhigh⟩ := port_of_home p
  have hout := sentOff_fabOut s core p hext
  rw [hat] at hlow hhigh
  rw [hdev] at hout
  refine ⟨(sentOff s core p).setFrag p.frag (leftBehind s p), congrArg Host.Outcome.next ?_, hout, hlow, hhigh, sentOff_egress s core p⟩
  rw [hfirst]
  dsimp only
  rw [if_neg (by rw [hrefused, hoffered]; exact Bool.noConfusion), if_neg (hdev.symm ▸ hdv), if_neg (fun hc => h (List.contains_iff_mem.1 hc))]
  rfl
end

/-! #### Arrival (R299, R300) -/

/-- The parcel of a fragment among those of this device for a home. -/
def parcelOf (s : State) (home n : Nat) : Option (Nat × Parcel) := (s.parcelsFor home).find? fun w => w.2.frag == n
/-- The age of a fragment's parcel: in its core's buffer, else at the port that holds it. -/
def parcelAge (s : State) (home n : Nat) (port : Option (Nat × Nat)) : Option Nat := ((parcelOf s home n).map (·.2.age)).or (port.map (·.2))
/-- R300: whether a refused parcel is older than a given age. -/
def OlderThan (w : Nat × Parcel) (a : Nat) : Prop := w.2.refused = true ∧ w.2.age < a
/-- R300: whether an older parcel for the home was refused, as the queue tests it. -/
def outranked (s : State) (home : Nat) (age : Option Nat) : Bool :=
  (s.parcelsFor home).any fun p => p.2.refused && (match age with | some a => decide (p.2.age < a) | none => false)

section
variable (s : State) (home n : Nat) (port : Option (Nat × Nat))

theorem outranked_iff (age : Option Nat) : outranked s home age = true ↔ ∃ w a, w ∈ s.parcelsFor home ∧ age = some a ∧ OlderThan w a := by
  unfold outranked OlderThan
  cases age with
  | none => simp
  | some a => simp

theorem age_orElse : ((parcelOf s home n).map (·.2.age) <|> port.map (·.2)) = parcelAge s home n port := by
  unfold parcelAge
  cases parcelOf s home n <;> rfl

/-- Whether a fragment's parcel holds a credit. -/
def credited : Bool := ((parcelOf s home n).map (·.2.credit)).getD false
/-- The other parcels for the home that hold a credit. -/
def otherCredits : List (Nat × Parcel) := (s.parcelsFor home).filter fun p => p.2.credit && p.2.frag != n

theorem credited_of_mine {m : Nat × Parcel} (hm : parcelOf s home n = some m) : credited s home n = m.2.credit := by
  rw [credited, hm]
  rfl

theorem uncredited (h : ∀ m, parcelOf s home n = some m → m.2.credit = false) : credited s home n = false := by
  unfold credited
  cases hm : parcelOf s home n with
  | none => rfl
  | some m => exact h m hm

variable (src : Option Nat)

/-- R299: a general entry is free, and none older was refused. -/
theorem entryFor_general (hfirst : credited s home n = true ∨ outranked s home (parcelAge s home n port) = false)
    (hroom : (s.home home).general + (otherCredits s home n).length < 512 ∨ (credited s home n = true ∧ (s.home home).general < 512)) :
    s.entryFor home n src (port.map (·.2)) = some none := by
  have hgoes : ¬(credited s home n || !outranked s home (parcelAge s home n port)) = false := by
    rcases hfirst with h | h <;> simp [h]
  rw [← age_orElse] at hgoes
  exact (if_neg hgoes).trans (if_pos hroom)

/-- R300: a parcel of this device is refused while an older one waits, or where its home has no entry for it. -/
theorem entryFor_outranked (hcredit : credited s home n = false) (hold : outranked s home (parcelAge s home n port) = true) :
    s.entryFor home n src (port.map (·.2)) = none := by
  have hwaits : (credited s home n || !outranked s home (parcelAge s home n port)) = false := by
    rw [hcredit, hold]
    rfl
  rw [← age_orElse] at hwaits
  exact if_pos hwaits

theorem entryFor_full (k : Nat) (hfull : 512 ≤ (s.home home).general) (hown : ∃ e, e ∈ (s.home home).inbound ∧ e.2 = some k) :
    s.entryFor home n (some k) (port.map (·.2)) = none := by
  obtain ⟨e, he, hk⟩ := hown
  have hany : ((s.home home).inbound.any fun e => e.2 == some k) = true := List.any_eq_true.2 ⟨e, he, beq_iff_eq.2 hk⟩
  unfold State.entryFor
  dsimp only
  split_ifs with hfirst hroom htaken
  · rfl
  · omega
  · rfl
  · rw [hany] at htaken
    exact absurd rfl htaken
end

section
variable (s : State) (i n home : Nat)

/-- R299: a parcel in a general entry of its home's queue. -/
def queued : State := (s.dropMsg i).setHome home { s.home home with inbound := (s.home home).inbound ++ [(n, none)] }

theorem queued_inbound (u : State) (hu : u.homes = (queued s i n home).homes) : (u.home home).inbound = (s.home home).inbound ++ [(n, none)] := by
  rw [State.home, hu]
  exact (congrArg HomeSt.inbound (KMap.get_ins_same HomeSt.fresh s.homes home _)).trans rfl

/-- R300: a parcel that was refused stays in its core's buffer. -/
def refusedOnce (core : Nat) : State :=
  (s.dropMsg i).onEgress core fun ps => updFirst (fun q => q.frag == n) (fun q => { q with offered := false, refused := true }) ps

theorem refusedOnce_parcel (core : Nat) (q : Parcel) (h : ((refusedOnce s i n core).core core).egress.find? (fun q => q.frag == n) = some q) : q.refused = true := by
  have hfind := onEgress_updFirst (s.dropMsg i) core n (fun q => { q with offered := false, refused := true }) fun _ => rfl
  obtain ⟨q', hq', rfl⟩ := Option.map_eq_some_iff.1 (hfind.symm.trans h)
  rfl

theorem countHome_inbound (u : State) (k : Nat) (d : DWord) : ((u.countHome home k d).home home).inbound = (u.home home).inbound :=
  (congrArg HomeSt.inbound (KMap.get_ins_same HomeSt.fresh u.homes home _)).trans rfl

theorem returnCredits_frame (u : State) (port : Nat) : (u.returnCredits port).net = u.net ∧ (u.returnCredits port).homes = u.homes := by
  unfold State.returnCredits
  split_ifs <;> exact ⟨rfl, rfl⟩

variable (port : Option (Nat × Nat)) (hmsg : s.net[i]? = some (.parcel n home port))
  (hmay : s.mayArrive i (.parcel n home port) none = true) (hfuse : (s.fuseOf home).home = true)
include hmsg hmay hfuse

theorem parcelArrival_queued (hentry : s.entryFor home n (s.parcelFrom n) (port.map (·.2)) = some none) :
    ∃ u, exec (.parcelArrival i) s = .next u ∧ u.net = s.net.eraseIdx i ∧
    (u.home home).inbound = (s.home home).inbound ++ [(n, none)] ∧ ((s.parcelFrom n).isSome = true → ∀ q, q ∈ (u.core (s.frag n).coreKey).egress → q.frag ≠ n) := by
  have hgoes : ¬(s.mayArrive i (.parcel n home port) none = false ∨ (s.fuseOf home).home = false) := by simp [hmay, hfuse]
  by_cases hsrc : (s.parcelFrom n).isSome = true
  · refine ⟨((queued s i n home).onEgress (s.frag n).coreKey fun ps => ps.filter fun q => q.frag != n).count (s.frag n).coreKey 4 1, congrArg Host.Outcome.next ?_, rfl,
      queued_inbound s i n home _ rfl, fun _ q hq => ?_⟩
    · rw [hmsg]
      dsimp only
      rw [if_neg hgoes, hentry]
      dsimp only
      rw [if_pos hsrc]
      rfl
    · rw [count_egress, onEgress_same] at hq
      exact bne_iff_ne.1 (List.mem_filter.1 hq).2
  · obtain ⟨u, hu, hnet, hhomes⟩ : ∃ u, exec (.parcelArrival i) s = .next u ∧ u.net = s.net.eraseIdx i ∧ u.homes = (queued s i n home).homes := by
      cases port with
      | none =>
        refine ⟨queued s i n home, congrArg Host.Outcome.next ?_, rfl, rfl⟩
        rw [hmsg]
        dsimp only
        rw [if_neg hgoes, hentry]
        dsimp only
        rw [if_neg hsrc]
        rfl
      | some p =>
        obtain ⟨hnet, hhomes⟩ := returnCredits_frame (queued s i n home) p.1
        refine ⟨(queued s i n home).returnCredits p.1, congrArg Host.Outcome.next ?_, hnet, hhomes⟩
        rw [hmsg]
        dsimp only
        rw [if_neg hgoes, hentry]
        dsimp only
        rw [if_neg hsrc]
        rfl
    exact ⟨u, hu, hnet, queued_inbound s i n home u hhomes, fun h => absurd h hsrc⟩

theorem parcelArrival_refused (k : Nat) (hsrc : s.parcelFrom n = some k) (hentry : s.entryFor home n (some k) (port.map (·.2)) = none) :
    ∃ u, exec (.parcelArrival i) s = .next u ∧ u.net = s.net.eraseIdx i ∧ (u.home home).inbound = (s.home home).inbound ∧
      ∀ q, (u.core (s.frag n).coreKey).egress.find? (fun q => q.frag == n) = some q → q.refused = true := by
  refine ⟨(refusedOnce s i n (s.frag n).coreKey).countHome home 0x10 1, congrArg Host.Outcome.next ?_, rfl, countHome_inbound home _ 0x10 1,
    refusedOnce_parcel s i n (s.frag n).coreKey⟩
  rw [hmsg]
  dsimp only
  rw [if_neg (by simp [hmay, hfuse]), hsrc, hentry]
  dsimp only
  rw [if_pos Option.isSome_some]
  rfl
end

section
variable (s : State) (i n home : Nat) (port : Option (Nat × Nat)) (hmsg : s.net[i]? = some (.parcel n home port))
  (hmay : s.mayArrive i (.parcel n home port) none = true) (hfuse : (s.fuseOf home).home = true)
include hmsg hmay hfuse

/-- R299: a parcel takes a general entry, with a credit of its own or where none is kept for another and none older was refused. -/
theorem arrival_takes (hroom : (s.home home).general < 512)
    (h : (∃ m, parcelOf s home n = some m ∧ m.2.credit = true) ∨ ((∀ w, w ∈ s.parcelsFor home → w.2.credit = false) ∧
      ∀ w a, w ∈ s.parcelsFor home → parcelAge s home n port = some a → ¬OlderThan w a)) : ∃ u, exec (.parcelArrival i) s = .next u ∧ u.net = s.net.eraseIdx i ∧
    (u.home home).inbound = (s.home home).inbound ++ [(n, none)] ∧ ((s.parcelFrom n).isSome = true → ∀ q, q ∈ (u.core (s.frag n).coreKey).egress → q.frag ≠ n) := by
  refine parcelArrival_queued s i n home port hmsg hmay hfuse ?_
  rcases h with ⟨m, hm, hcredit⟩ | ⟨hnone, hyoung⟩
  · have hown : credited s home n = true := (credited_of_mine s home n hm).trans hcredit
    exact entryFor_general s home n port _ (.inl hown) (.inr ⟨hown, hroom⟩)
  · have hothers : otherCredits s home n = [] := List.filter_eq_nil_iff.2 fun w hw => by simp [hnone w hw]
    have hfirst : outranked s home (parcelAge s home n port) = false := by
      rw [Bool.eq_false_iff, Ne, outranked_iff]
      rintro ⟨w, a, hw, ha, hold⟩
      exact hyoung w a hw ha hold
    refine entryFor_general s home n port _ (.inr hfirst) (.inl ?_)
    rw [hothers]
    exact hroom

/-- R299, R300: a parcel of this device is refused where its home has no entry for it, or an older one waits. -/
theorem arrival_refused (k : Nat) (hsrc : s.parcelFrom n = some k)
    (h : (512 ≤ (s.home home).general ∧ ∃ e, e ∈ (s.home home).inbound ∧ e.2 = some k) ∨
      ((∀ m, parcelOf s home n = some m → m.2.credit = false) ∧ ∃ w a, w ∈ s.parcelsFor home ∧ parcelAge s home n port = some a ∧ OlderThan w a)) :
    ∃ u, exec (.parcelArrival i) s = .next u ∧ u.net = s.net.eraseIdx i ∧ (u.home home).inbound = (s.home home).inbound ∧
      ∀ q, (u.core (s.frag n).coreKey).egress.find? (fun q => q.frag == n) = some q → q.refused = true := by
  refine parcelArrival_refused s i n home port hmsg hmay hfuse k hsrc ?_
  rcases h with ⟨hfull, hown⟩ | ⟨hcredit, hold⟩
  · exact entryFor_full s home n port k hfull hown
  · exact entryFor_outranked s home n port (some k) (uncredited s home n hcredit) ((outranked_iff s home _).2 hold)
end

/-! #### Offered again (R300) -/

section
variable (s : State) (core home : Nat) (p : Parcel)

/-- R300: the refused parcels for a home. -/
def refusedFor : List (Nat × Parcel) := (s.parcelsFor home).filter fun w => w.2.refused

theorem mem_parcelsFor (w : Nat × Parcel) :
    w ∈ s.parcelsFor home ↔ ∃ e, e ∈ s.cores ∧ e.1 = w.1 ∧ w.2 ∈ e.2.egress ∧ w.2.dev = s.fabric.toNat ∧ w.2.home = home := by
  obtain ⟨c, q⟩ := w
  simp only [State.parcelsFor, List.mem_flatMap, List.mem_map, List.mem_filter, Bool.and_eq_true, beq_iff_eq, Prod.mk.injEq]
  constructor
  · rintro ⟨e, he, q', ⟨hq, hdev, hhome⟩, rfl, rfl⟩
    exact ⟨e, he, rfl, hq, hdev, hhome⟩
  · rintro ⟨e, he, rfl, hq, hdev, hhome⟩
    exact ⟨e, he, q, ⟨hq, hdev, hhome⟩, rfl, rfl⟩

theorem creditFor_general (a : Nat) (hroom : (s.home home).general + ((s.parcelsFor home).filter fun w => w.2.credit).length < 512)
    (hheld : ∀ k, k ∈ s.heldFor home → a ≤ k.2) : s.creditFor home core a = true := by
  have hfirst : ((s.heldFor home).any fun q => decide (q.2 < a)) = false :=
    List.any_eq_false.2 fun k hk => by simpa using hheld k hk
  unfold State.creditFor
  dsimp only
  rw [hfirst, decide_eq_true hroom]
  rfl

variable (hrefused : p.refused = true) (hdev : p.dev = s.fabric.toNat) (hhome : p.home = home) (hcore : (core, s.core core) ∈ s.cores) (hp : p ∈ (s.core core).egress)
  (holdest : ∀ e q, e ∈ s.cores → q ∈ e.2.egress → q.refused = true → q.dev = s.fabric.toNat → q.home = home → p.age < q.age ∨ (e.1 = core ∧ q = p))
include hrefused hdev hhome hcore hp holdest

theorem oldest_refused : ((refusedFor s home).map (·.2.age)).min? = some p.age ∧ ((refusedFor s home).find? fun w => w.2.age == p.age) = some (core, p) := by
  have hmem : (core, p) ∈ refusedFor s home := List.mem_filter.2 ⟨(mem_parcelsFor s home _).2 ⟨_, hcore, rfl, hp, hdev, hhome⟩, hrefused⟩
  have hwait (w : Nat × Parcel) (hw : w ∈ refusedFor s home) : p.age < w.2.age ∨ w = (core, p) := by
    obtain ⟨hfor, href⟩ := List.mem_filter.1 hw
    obtain ⟨e, he, hw1, hq, hqdev, hqhome⟩ := (mem_parcelsFor s home w).1 hfor
    exact (holdest e w.2 he hq href hqdev hqhome).imp_right fun h => Prod.ext (hw1.symm.trans h.1) h.2
  constructor
  · refine List.min?_eq_some_iff.2 ⟨List.mem_map.2 ⟨_, hmem, rfl⟩, fun a ha => ?_⟩
    obtain ⟨w, hw, rfl⟩ := List.mem_map.1 ha
    rcases hwait w hw with h | h
    · exact h.le
    · rw [h]
  · obtain ⟨w, hw⟩ : ∃ w, ((refusedFor s home).find? fun w => w.2.age == p.age) = some w :=
      Option.isSome_iff_exists.1 (List.find?_isSome.2 ⟨_, hmem, beq_iff_eq.2 rfl⟩)
    have hage : w.2.age = p.age := beq_iff_eq.1 (List.find?_some hw :)
    rw [hw, (hwait w (List.mem_of_find?_eq_some hw)).resolve_left (by omega)]

theorem parcelReoffer_offers (hroom : (s.home home).general + ((s.parcelsFor home).filter fun w => w.2.credit).length < 512)
    (hheld : ∀ k, k ∈ s.heldFor home → p.age ≤ k.2) :
    ∃ u, exec (.parcelReoffer home) s = .next u ∧ ∀ q, (u.core core).egress.find? (fun q => q.frag == p.frag) = some q → q.refused = false ∧ q.credit = true := by
  obtain ⟨hmin, hfind⟩ := oldest_refused s core home p hrefused hdev hhome hcore hp holdest
  refine ⟨s.onEgress core fun ps => updFirst (fun q => q.frag == p.frag) (fun q => { q with refused := false, credit := true }) ps,
    congrArg Host.Outcome.next ?_, fun q hq => ?_⟩
  · rw [show (List.map (fun x => x.2.age) (List.filter (fun p => p.2.refused) (s.parcelsFor home))).min? = _ from hmin]
    dsimp only
    rw [show List.find? (fun w => w.2.age == p.age) (List.filter (fun p => p.2.refused) (s.parcelsFor home)) = _ from hfind]
    dsimp only
    rw [if_pos (creditFor_general s core home p.age hroom hheld)]
  · rw [onEgress_updFirst s core p.frag (fun q => { q with refused := false, credit := true }) fun _ => rfl] at hq
    obtain ⟨q', hq', rfl⟩ := Option.map_eq_some_iff.1 hq
    exact ⟨rfl, rfl⟩
end

end Sys2Proof.Proofs.Parcels

/-! ### Placement of a parcel, and the access it repeats there (R210, R217, R219, R220, R299) -/

namespace Sys2Proof.Proofs.Placement

open Sys2Proof Sys2Proof.Machine Sys2Proof.Claim Sys2Proof.Proofs.PartControl Sys2Proof.Proofs.Privileged Sys2Proof.Proofs.Launch
  Sys2Proof.Proofs.Migration Sys2Proof.Proofs.Traps Sys2Proof.Proofs.Parcels

/-! #### The core of most free entries (R299) -/

/-- R299: the cores of a home that take a parcel: enabled, with a free entry that no fragment waits for. -/
def openCores (s : State) (home : Nat) : List Nat :=
  (List.range 256).filter fun c => (s.fuseOf home).home && (s.fuseOf home).cores.getLsbD c && (s.core (256 * home + c)).waits.isEmpty && decide (s.entries (256 * home + c) < 64)

section
variable (s : State) (home c : Nat)

theorem mem_openCores : c ∈ openCores s home ↔ c < 256 ∧ (s.fuseOf home).home = true ∧ (s.fuseOf home).cores.getLsbD c = true ∧ (s.core (256 * home + c)).waits = [] ∧
    s.entries (256 * home + c) < 64 := by
  simp only [openCores, List.mem_filter, List.mem_range, Bool.and_eq_true, List.isEmpty_iff, decide_eq_true_eq, and_assoc]

theorem openCores_ascending : (openCores s home).Pairwise (· < ·) := (List.pairwise_lt_range (n := 256)).filter _

variable (h : s.freest home = some c)
include h

theorem freest_first : ((openCores s home).map fun c => s.entries (256 * home + c)).min? = some (s.entries (256 * home + c)) ∧
    ((openCores s home).find? fun d => s.entries (256 * home + d) == s.entries (256 * home + c)) = some c := by
  change (match ((openCores s home).map fun c => s.entries (256 * home + c)).min? with
    | some m => (openCores s home).find? fun c => s.entries (256 * home + c) == m
    | none => none) = some c at h
  cases hmin : ((openCores s home).map fun c => s.entries (256 * home + c)).min? with
  | none =>
    rw [hmin] at h
    cases h
  | some m =>
    rw [hmin] at h
    have hm : s.entries (256 * home + c) = m := beq_iff_eq.1 (List.find?_some h :)
    rw [hm]
    exact ⟨rfl, h⟩

theorem freest_open : c ∈ openCores s home := List.mem_of_find?_eq_some (freest_first s home c h).2

theorem freest_least (d : Nat) (hd : d ∈ openCores s home) :
    s.entries (256 * home + c) < s.entries (256 * home + d) ∨ (s.entries (256 * home + c) = s.entries (256 * home + d) ∧ c ≤ d) := by
  obtain ⟨hmin, hfind⟩ := freest_first s home c h
  have hle := (List.min?_eq_some_iff.1 hmin).2 _ (List.mem_map.2 ⟨d, hd, rfl⟩)
  rcases Nat.lt_or_eq_of_le hle with hlt | heq
  · exact .inl hlt
  · refine .inr ⟨heq, ?_⟩
    obtain ⟨-, before, after, hsplit, hbefore⟩ := List.find?_eq_some_iff_append.1 hfind
    rw [hsplit, List.mem_append, List.mem_cons] at hd
    rcases hd with hd | rfl | hd
    · have hne := hbefore d hd
      rw [← heq] at hne
      simp at hne
    · exact Nat.le_refl _
    · have hasc := openCores_ascending s home
      rw [hsplit] at hasc
      exact ((List.pairwise_cons.1 (List.pairwise_append.1 hasc).2.1).1 d hd).le
end

/-! #### What placing a fragment leaves of translation and of the checks (R217, R319, R320) -/

/-- The cores translate from the same caches. -/
def SameTlb (s u : State) : Prop := ∀ core, (u.core core).tlb = (s.core core).tlb

theorem SameTlb.trans {s t u : State} (h : SameTlb s t) (h' : SameTlb t u) : SameTlb s u := fun core => (h' core).trans (h core)

theorem sameTlb_setCore (s : State) (k : Nat) (c : Core) (h : c.tlb = (s.core k).tlb) : SameTlb s (s.setCore k c) := fun core => by
  refine (congrArg Core.tlb (KMap.get_ins Core.fresh s.cores k core c)).trans ?_
  split_ifs with hk
  · rw [hk, h]
  · rfl

theorem sameTlb_dropLine (s : State) (core : Nat) (l : LineEnt) : SameTlb s (s.dropLine core l) := by
  unfold State.dropLine
  dsimp only
  split_ifs
  · exact sameTlb_setCore s core _ rfl
  · exact sameTlb_setCore s core _ rfl

theorem sameTlb_trimLines (core room fuel : Nat) (s : State) : SameTlb s (s.trimLines core room fuel) := by
  induction fuel generalizing s with
  | zero => exact fun _ => rfl
  | succ fuel ih =>
    rw [State.trimLines]
    split_ifs
    · exact fun _ => rfl
    · cases s.victim core with
      | none => exact fun _ => rfl
      | some v => exact (sameTlb_dropLine s core v).trans (ih _)

theorem join_tlb (c : Core) (n : Nat) : (c.join n).tlb = c.tlb := by
  unfold Core.join
  split_ifs <;> rfl

theorem sameTlb_acquire (s : State) (n : Nat) : SameTlb s (s.acquire n) := by
  unfold State.acquire
  dsimp only
  split_ifs
  · unfold State.seat State.lineRoom
    dsimp only
    exact (sameTlb_trimLines _ _ _ s).trans (SameTlb.trans (t := State.setFrag _ _ _) (fun _ => rfl) (sameTlb_setCore _ _ _ (join_tlb ..)))
  · exact fun _ => rfl
  · exact sameTlb_setCore s _ _ rfl

/-- A state that differs from another only where no translation, and no check of an access, looks. -/
def Unseen (s u : State) : Prop := u = { s with frags := u.frags, homes := u.homes, cores := u.cores, sramErr := u.sramErr, net := u.net } ∧ SameTlb s u

theorem Unseen.trans {s t u : State} (h : Unseen s t) (h' : Unseen t u) : Unseen s u :=
  ⟨h'.1.trans (by rw [h.1]), h.2.trans h'.2⟩

section
variable {s u : State} (h : Unseen s u)
include h

theorem Unseen.trCore : u.trCore = s.trCore := by
  funext core asid va
  rw [State.trCore, h.2, h.1]
  rfl

theorem Unseen.leafOf : u.leafOf = s.leafOf := by
  funext core asid va
  rw [State.leafOf, h.trCore]
  rfl

theorem Unseen.leased : u.leased = s.leased := by
  rw [h.1]
  rfl

theorem Unseen.fabric : u.fabric = s.fabric := by rw [h.1]

theorem Unseen.group : u.group = s.group := by
  rw [h.1]
  rfl

theorem Unseen.mem : u.mem = s.mem := by rw [h.1]

theorem Unseen.valIn : u.valIn = s.valIn := by
  rw [h.1]
  rfl

theorem Unseen.cellOf : u.cellOf = s.cellOf := by
  rw [h.1]
  rfl

theorem Unseen.destOf : u.destOf = s.destOf := by
  funext core r va
  rw [State.destOf, h.leafOf]
  rfl

theorem Unseen.checkGlobal : u.checkGlobal = s.checkGlobal := by
  funext core r need e bnd as
  unfold State.checkGlobal State.farAway State.protOf
  rw [h.leafOf, h.trCore, h.leased, h.fabric]

theorem Unseen.codeBytes : u.codeBytes = s.codeBytes := by
  rw [h.1]
  rfl

theorem Unseen.liveOf : u.liveOf = s.liveOf := by
  have hseg : u.segOf = s.segOf := by
    rw [h.1]
    rfl
  have hat : u.liveAt = s.liveAt := by
    funext seg i
    rw [State.liveAt, h.codeBytes]
    rfl
  funext part asid addr
  rw [State.liveOf, hseg, hat]
  rfl

/-- R112: what the receiver of a parcel finds lies in memory and in the tables. -/
theorem Unseen.received : u.received = s.received := by
  have hent : u.asEnt = s.asEnt := by
    rw [h.1]
    rfl
  have hlive : u.liveIn = s.liveIn := by
    funext f asid
    rw [State.liveIn, h.liveOf, hent]
    rfl
  have hcode : u.codeAt = s.codeAt := by
    funext asid pc
    rw [State.codeAt, h.codeBytes]
    rfl
  have hacc : u.accAt = s.accAt := by
    funext asid pc z
    rw [State.accAt, hcode]
    rfl
  funext f asid
  rw [State.received, hlive, hacc]
  rfl
end

/-- R146: the report of a fragment of this device's group is none; any other's is under way. -/
theorem report_net (u : State) (n : Nat) : ∃ net, u.report n = { u with net := net } := by
  unfold State.report
  dsimp only
  split_ifs with hkeeps
  · exact ⟨u.net, rfl⟩
  · refine ⟨_, if_neg fun h => hkeeps ?_⟩
    exact (keeps_iff ..).2 h.2.2.1

theorem report_frag (u : State) (n m : Nat) : (u.report n).frag m = u.frag m := by
  obtain ⟨net, h⟩ := report_net u n
  rw [h]
  rfl

theorem unseen_setFrag (u : State) (n : Nat) (f : Frag) : Unseen u (u.setFrag n f) := ⟨rfl, fun _ => rfl⟩

theorem unseen_report (u : State) (n : Nat) : Unseen u (u.report n) := by
  obtain ⟨net, h⟩ := report_net u n
  rw [h]
  exact ⟨rfl, fun _ => rfl⟩

theorem unseen_acquire (u : State) (n : Nat) : Unseen u (u.acquire n) := by
  refine ⟨?_, sameTlb_acquire u n⟩
  obtain ⟨cs, es, h | h⟩ := acquire_eq u n
  · rw [h]
  · rw [h]

/-- R109: a fragment that asks for a context-state entry is as it was, but for its residency. -/
theorem acquire_resident (u : State) (n : Nat) : ∃ r t, (u.acquire n).frag n = { u.frag n with resident := r, since := t } := by
  obtain ⟨cs, es, h | h⟩ := acquire_eq u n
  · rw [h]
    exact ⟨(u.frag n).resident, (u.frag n).since, rfl⟩
  · rw [h]
    exact ⟨true, u.clock, KMap.get_ins_same ..⟩

/-! #### A parcel taken from its queue (R299) -/

section
variable (s : State) (n home c : Nat) (rest : List (Nat × Option Nat))

/-- R299: the head of a queue goes to a core. -/
def dequeued : State := (s.setHome home { s.home home with inbound := rest }).count (256 * home + c) 5 1

theorem unseen_dequeued : Unseen s (dequeued s home c rest) := ⟨rfl, sameTlb_setCore (s.setHome home { s.home home with inbound := rest }) _ _ rfl⟩

/-- R299: a fragment where it is placed, still to make an access. -/
def placedAt (f : Frag) (leave : Option LeaveDue) : Frag :=
  { f with
    dev := s.fabric.toNat
    home := home
    core := c
    turn := 0
    served := 0
    leave := leave
    state := .ready }

/-- R299: a placed fragment asks for a context-state entry, and is reported. -/
def seated (f : Frag) : State := (((dequeued s home c rest).setFrag n f).acquire n).report n

theorem unseen_seated (f : Frag) : Unseen s (seated s n home c rest f) :=
  (((unseen_dequeued s home c rest).trans (unseen_setFrag ..)).trans (unseen_acquire ..)).trans (unseen_report ..)

theorem seated_frag (f : Frag) : ∃ r t, (seated s n home c rest f).frag n = { f with resident := r, since := t } := by
  obtain ⟨r, t, h⟩ := acquire_resident ((dequeued s home c rest).setFrag n f) n
  rw [State.frag_setFrag_same] at h
  exact ⟨r, t, (report_frag ..).trans h⟩

theorem received_dequeued (f : Frag) (asid : Nat) : (dequeued s home c rest).received f asid = s.received f asid := by
  rw [(unseen_dequeued s home c rest).received]

variable (e : Option Nat) (hin : (s.home home).inbound = (n, e) :: rest) (hcore : s.freest home = some c) (hserved : s.served (s.leaveElems n) = true)
  (hgood : ∀ b, b ∈ s.sramErr → b.1 ≠ 5)

section
include hgood
theorem linesBad_none : s.linesBad 5 n = [] := by
  have hnone : s.sramErr.filter (fun e => e.1 == 5 && e.2 / 1024 == n) = [] := List.filter_eq_nil_iff.2 fun b hb => by simp [hgood b hb]
  rw [State.linesBad, hnone]
  rfl

theorem parcelErrors_none : (dequeued s home c rest).parcelErrors n = dequeued s home c rest := by
  have hnone : (dequeued s home c rest).linesBad 5 n = [] := linesBad_none s n hgood
  unfold State.parcelErrors
  rw [hnone]
  rfl
end

/-- R299: what becomes of a fragment that is taken from the queue, as its parcel says. -/
def taken (g : Frag) : State :=
  let f1 := { g with dev := s.fabric.toNat, home := home, core := c, turn := 0, served := 0 }
  match f1.leave with
  | some L =>
    match L.acc with
    | .join bar => ((dequeued s home c rest).setFrag n { f1 with state := .join bar, leave := none }).report n
    | _ => ((((dequeued s home c rest).setFrag n { f1 with state := .ready }).acquire n).report n).repeatAccess n L
  | none => (((dequeued s home c rest).setFrag n { f1 with state := .ready }).acquire n).report n

section
variable (g : Frag) (L : LeaveDue)

theorem taken_idle (hleave : g.leave = none) : taken s n home c rest g = seated s n home c rest (placedAt s home c g none) := by
  cases g
  obtain rfl := hleave
  rfl

/-- R156, R299: a joiner where it is placed. -/
def joiner (bar : Nat) : Frag := { placedAt s home c g none with state := .join bar }

theorem taken_join (bar : Nat) (hleave : g.leave = some L) (hjoin : L.acc = .join bar) :
    taken s n home c rest g = ((dequeued s home c rest).setFrag n (joiner s home c g bar)).report n := by
  cases g
  cases L
  obtain rfl := hleave
  obtain rfl := hjoin
  rfl

theorem taken_access (hleave : g.leave = some L) (hjoin : ∀ bar, L.acc ≠ .join bar) :
    taken s n home c rest g = (seated s n home c rest (placedAt s home c g (some L))).repeatAccess n L := by
  cases g
  obtain rfl := hleave
  unfold taken
  dsimp only
  split
  · exact absurd ‹_› (hjoin _)
  · rfl
end

include hin hcore hserved hgood

theorem parcelPlacement_taken :
    exec (.parcelPlacement home) s = .next (taken s n home c rest (s.received (s.frag n) (s.group (s.frag n).group).rights.asid)) := by
  refine congrArg Host.Outcome.next ?_
  rw [hin]
  dsimp only
  rw [hcore]
  dsimp only
  rw [if_neg (by rw [hserved]; exact Bool.noConfusion), linesBad_none s n hgood, if_neg (by exact Bool.noConfusion)]
  have herrors : ((s.setHome home { s.home home with inbound := rest }).count (256 * home + c) 5 1).parcelErrors n = dequeued s home c rest :=
    parcelErrors_none s n home c rest hgood
  have hfrag : (dequeued s home c rest).frag n = s.frag n := rfl
  rw [herrors, hfrag, received_dequeued]
  rfl
end

/-! #### The access repeated where the fragment stands (R210, R217, R219, R220) -/

/-- R112: what a parcel brings changes of a fragment its registers and the access it carries. -/
theorem received_keeps (s : State) (f : Frag) (asid : Nat) : ∃ r l, s.received f asid = { f with regs := r, leave := l } := by
  unfold State.received
  split
  · exact ⟨_, _, rfl⟩
  · exact ⟨f.regs, f.leave, rfl⟩

theorem poisoned_congr {s u : State} (h : u.src = s.src) (xs : List Src) : u.poisoned xs = s.poisoned xs := by
  have hof : u.poisonOf = s.poisonOf := by
    funext x
    cases x with
    | v n lanes =>
      rw [State.poisonOf, State.vreg, h]
      rfl
    | s n =>
      rw [State.poisonOf, State.sreg, h]
      rfl
  rw [State.poisoned, State.poisoned, hof]

theorem parcelPoison_congr {s u : State} {n : Nat} (hs : (s.frag n).grp = none) (hu : (u.frag n).grp = none) (L : LeaveDue) : u.parcelPoison n L = s.parcelPoison n L := by
  have hsrc (t : State) (ht : (t.frag n).grp = none) : (({ t with cur := n } : State).setFrag n { t.frag n with regs := L.src }).src = L.src := by
    have hf : (({ t with cur := n } : State).setFrag n { t.frag n with regs := L.src }).f = { t.frag n with regs := L.src } := KMap.get_ins_same ..
    rw [State.src, hf, Frag.src]
    dsimp only
    rw [ht]
  exact poisoned_congr ((hsrc u hu).trans (hsrc s hs).symm) _

section
variable (v : State) (n : Nat) (L : LeaveDue)

/-- R220: a fragment whose access is about to be repeated. -/
def repeating : State := v.setFrag n { v.frag n with leave := none }

theorem repeating_frag : (repeating v n).frag n = { v.frag n with leave := none } := State.frag_setFrag_same ..

/-- The access performed, at pages that lie where the fragment stands. -/
def performed : State :=
  (((repeating v n).cache (v.frag n).coreKey (v.group (v.frag n).group).rights.asid ((L.acc.addrs L.src L.eff).map (·.va))).performAcc n L.acc L.src L.eff
    ((repeating v n).accPages n L.acc L.src L.eff)).parkOn n L.park

variable (hpoison : (repeating v n).parcelPoison n L = none)
include hpoison

theorem repeatAccess_faults (x : FaultRec) (hcheck : (repeating v n).checkGlobal (v.frag n).coreKey (v.group (v.frag n).group).rights L.acc.need L.acc.size (L.acc.writesBnd L.src)
    (L.acc.addrs L.src L.eff) = some x) : v.repeatAccess n L = (repeating v n).faultOn n L.ti0 L.pc L.wordPc (L.report x) := by
  unfold repeating at hpoison hcheck
  unfold State.repeatAccess
  dsimp only
  rw [hpoison, Option.none_or, hcheck]
  rfl

theorem repeatAccess_performs (hcheck : (repeating v n).checkGlobal (v.frag n).coreKey (v.group (v.frag n).group).rights L.acc.need L.acc.size (L.acc.writesBnd L.src)
    (L.acc.addrs L.src L.eff) = none)
    (hhere : ∀ a, a ∈ L.acc.addrs L.src L.eff → (repeating v n).destOf (v.frag n).coreKey (v.group (v.frag n).group).rights a.va = (v.fabric.toNat, (v.frag n).home)) :
    v.repeatAccess n L = performed v n L := by
  have hgone : ((L.acc.addrs L.src L.eff).filter fun a => (repeating v n).destOf (v.frag n).coreKey (v.group (v.frag n).group).rights a.va !=
      ((repeating v n).fabric.toNat, (v.frag n).home)) = [] :=
    List.filter_eq_nil_iff.2 fun a ha => by
      rw [hhere a ha]
      simp [repeating]
  unfold repeating at hpoison hcheck hgone
  dsimp only at hgone
  unfold State.repeatAccess
  dsimp only
  rw [hpoison, Option.none_or, hcheck]
  dsimp only
  rw [hgone, List.isEmpty_nil, Bool.not_true, Bool.and_false, if_neg Bool.false_ne_true]
  rfl
end

/-- A fragment that goes on at a core, with no access still to make. -/
def GoesOnAt (dev home core : Nat) (f : Frag) : Prop := f.dev = dev ∧ f.home = home ∧ f.core = core ∧ f.state = .ready ∧ f.leave = none

theorem GoesOnAt.woken {dev home core : Nat} {f g : Frag} (h : GoesOnAt dev home core f) (hg : Woken f g) : GoesOnAt dev home core g := by
  have hstate : f.state = .ready := h.2.2.2.1
  rw [hg.2 (by rw [waits, hstate])]
  exact h

section
variable {dev home core : Nat} (u : State) (n : Nat)

theorem GoesOnAt.addOut (h : GoesOnAt dev home core (u.frag n)) (x : Out) : GoesOnAt dev home core ((u.addOut n x).frag n) := by
  rw [State.addOut, State.frag_setFrag_same]
  exact h

theorem GoesOnAt.sectorOuts (h : GoesOnAt dev home core (u.frag n)) (e : Nat) (kind : OutKind) (lanes zero whole : Mask) (vals : List (Nat × DWord)) (bnd : Bool) (pois : Mask) :
    GoesOnAt dev home core ((u.sectorOuts n e kind lanes zero whole vals bnd pois).frag n) := by
  rw [State.sectorOuts, State.frag_setFrag_same]
  exact h

theorem GoesOnAt.performAcc (h : GoesOnAt dev home core (u.frag n)) (a : MigAcc) (src : Regs) (lanes : Mask) (ps : List PageReq) :
    GoesOnAt dev home core ((u.performAcc n a src lanes ps).frag n) := by
  unfold State.performAcc
  cases a with
  | loadV => exact h.sectorOuts u n _ _ _ _ _ _ _ _
  | loadS =>
    dsimp only
    split
    · exact h.addOut u n _
    · exact h
  | atom =>
    dsimp only
    exact (h.woken (woken_atomElems ..)).sectorOuts _ n _ _ _ _ _ _ _ _
  | migr => exact h
  | join => exact h

theorem GoesOnAt.parkOn (h : GoesOnAt dev home core (u.frag n)) (park : Bool) : GoesOnAt dev home core ((u.parkOn n park).frag n) := by
  unfold State.parkOn
  dsimp only
  split_ifs
  · rw [State.frag_setFrag_same]
    exact h
  · exact h

theorem parkOn_frame (park : Bool) (x : Out) (hx : x ∈ (u.frag n).outs) :
    (u.parkOn n park).mem = u.mem ∧ ((u.parkOn n park).frag n).outs = (u.frag n).outs ∧ (park = true → ((u.parkOn n park).frag n).parked = true) := by
  have hsome : (u.frag n).outs.isEmpty = false := List.isEmpty_eq_false_iff_exists_mem.2 ⟨x, hx⟩
  unfold State.parkOn
  dsimp only
  cases park with
  | false => exact ⟨rfl, rfl, fun h => nomatch h⟩
  | true =>
    rw [hsome, if_pos (by rfl), State.frag_setFrag_same]
    exact ⟨rfl, rfl, fun _ => rfl⟩
end

/-- R221: the result of a scalar LD is its element's value. -/
theorem scalarOut_sval (r : Regs) (kind : OutKind) (d : RegNum) (x : DWord) (bnd pois : Bool) : (r.scalarOut kind d x bnd pois).sval = x := by
  unfold Regs.scalarOut
  split_ifs <;> rfl

section
variable (v : State) (n : Nat) (L : LeaveDue)

/-- The state in which the repeated access is performed, its addresses translated. -/
def translatedThere : State := (repeating v n).cache (v.frag n).coreKey (v.group (v.frag n).group).rights.asid ((L.acc.addrs L.src L.eff).map (·.va))

theorem translatedThere_eq : ∃ cs, translatedThere v n L = { repeating v n with cores := cs } := cache_eq ..

theorem translatedThere_frag : (translatedThere v n L).frag n = { v.frag n with leave := none } := by
  obtain ⟨cs, h⟩ := translatedThere_eq v n L
  rw [h]
  exact repeating_frag v n

theorem performed_goesOn {dev home core : Nat} (hdev : (v.frag n).dev = dev) (hhome : (v.frag n).home = home)
    (hcore : (v.frag n).core = core) (hstate : (v.frag n).state = .ready) :
    GoesOnAt dev home core ((performed v n L).frag n) := by
  have hhere : GoesOnAt dev home core ((translatedThere v n L).frag n) := by
    rw [translatedThere_frag]
    exact ⟨hdev, hhome, hcore, hstate, rfl⟩
  exact (hhere.performAcc _ n L.acc L.src L.eff _).parkOn _ n L.park

variable (d b : RegNum) (w o : BitVec 3)

/-- R221: the element of a scalar LD. -/
def scalarElem (s : State) (key asid : Nat) (va : DWord) (size : Nat) : Elem := ⟨0, .dram, s.cellOf (s.leafOf key asid va) va, size, 0, va, none, 0⟩

theorem accPages_loadS (src : Regs) (lanes : Mask) : ∃ p, (repeating v n).accPages n (.loadS d b w o) src lanes = [p] ∧
    p.elems = [scalarElem (repeating v n) (v.frag n).coreKey (v.group (v.frag n).group).rights.asid (src.sreg b).val (widthOf w)] := by
  unfold State.accPages
  rw [repeating_frag]
  exact ⟨_, rfl, rfl⟩

theorem performAcc_loadS (u : State) (src : Regs) (lanes : Mask) (p : PageReq) (e : Elem) (hp : p.elems = [e]) :
    ∃ x, u.performAcc n (.loadS d b w o) src lanes [p] = u.addOut n x ∧ x.sval = widen w (u.readElem e).1 := by
  have helems : [p].flatMap PageReq.elems = [e] := (List.flatMap_singleton ..).trans hp
  unfold State.performAcc
  dsimp only
  rw [helems]
  exact ⟨_, rfl, scalarOut_sval ..⟩

variable (hacc : L.acc = .loadS d b w o)
include hacc

theorem performed_loadS : (performed v n L).mem = v.mem ∧ (L.park = true → ((performed v n L).frag n).parked = true) ∧
    ∃ x, ((performed v n L).frag n).outs = (v.frag n).outs ++ [x] ∧ x.sval = widen w (BitVec.ofNat 64 (v.valIn .dram
      (v.cellOf ((repeating v n).leafOf (v.frag n).coreKey (v.group (v.frag n).group).rights.asid (L.src.sreg b).val) (L.src.sreg b).val) (widthOf w))) := by
  obtain ⟨p, hp, helems⟩ := accPages_loadS v n d b w o L.src L.eff
  obtain ⟨x, hx, hval⟩ := performAcc_loadS n d b w o (translatedThere v n L) L.src L.eff p _ helems
  have hperformed : performed v n L = ((translatedThere v n L).addOut n x).parkOn n L.park := by
    rw [← hx, ← hp, ← hacc]
    rfl
  obtain ⟨cs, hcached⟩ := translatedThere_eq v n L
  have hmem : (translatedThere v n L).mem = v.mem := by
    rw [hcached]
    rfl
  have hvalIn : (translatedThere v n L).valIn = v.valIn := by
    rw [hcached]
    rfl
  have houts : (((translatedThere v n L).addOut n x).frag n).outs = (v.frag n).outs ++ [x] := by
    rw [State.addOut, State.frag_setFrag_same, translatedThere_frag]
  obtain ⟨hkept, hsame, hpark⟩ := parkOn_frame ((translatedThere v n L).addOut n x) n L.park x (by rw [houts]; exact List.mem_append_right _ (List.mem_singleton_self x))
  rw [hperformed]
  refine ⟨hkept.trans hmem, hpark, x, hsame.trans houts, hval.trans ?_⟩
  rw [State.readElem, hvalIn]
  rfl
end

/-! #### Placement, as the parcel says (R156, R219, R220, R299) -/

section
variable (s : State) (n home c : Nat) (rest : List (Nat × Option Nat))

/-- R299: the fragment with the parcel that came for it. -/
def parcelled : Frag := s.received (s.frag n) (s.group (s.frag n).group).rights.asid

/-- R299: the state in which the access of a placed fragment is repeated. -/
def atDestination (L : LeaveDue) : State := seated s n home c rest (placedAt s home c (parcelled s n) (some L))

variable (L : LeaveDue)

theorem atDestination_frag : ∃ regs r t, (atDestination s n home c rest L).frag n =
    { placedAt s home c (s.frag n) (some L) with regs := regs, resident := r, since := t } := by
  obtain ⟨r, t, h⟩ := seated_frag s n home c rest (placedAt s home c (parcelled s n) (some L))
  obtain ⟨regs, l, hkeeps⟩ := received_keeps s (s.frag n) (s.group (s.frag n).group).rights.asid
  exact ⟨regs, r, t, h.trans (by rw [parcelled, hkeeps]; rfl)⟩

theorem atDestination_group : ((atDestination s n home c rest L).frag n).coreKey = 256 * home + c ∧
    ((atDestination s n home c rest L).group ((atDestination s n home c rest L).frag n).group).rights = (s.group (s.frag n).group).rights := by
  obtain ⟨regs, r, t, h⟩ := atDestination_frag s n home c rest L
  have hgroup : ((atDestination s n home c rest L).frag n).group = (s.frag n).group := by
    rw [h]
    rfl
  rw [hgroup, atDestination, (unseen_seated s n home c rest _).group]
  refine ⟨?_, rfl⟩
  rw [← atDestination, h]
  rfl

theorem unseen_repeating : Unseen s (repeating (atDestination s n home c rest L) n) := (unseen_seated s n home c rest _).trans (unseen_setFrag ..)

section
variable (hgrp : (s.frag n).grp = none)
include hgrp

theorem repeating_grp : ((repeating (atDestination s n home c rest L) n).frag n).grp = none := by
  obtain ⟨regs, r, t, h⟩ := atDestination_frag s n home c rest L
  rw [repeating_frag, h]
  exact hgrp

variable (hpoison : s.parcelPoison n L = none)
include hpoison

/-- R220: a fault that the checks find where the fragment stands. -/
theorem placement_faults (x : FaultRec) (hx : x.code ≠ 0x10#8) (hcheck : s.checkGlobal (256 * home + c) (s.group (s.frag n).group).rights L.acc.need L.acc.size
    (L.acc.writesBnd L.src) (L.acc.addrs L.src L.eff) = some x) :
    Told #v[L.ti0, x.ti1, x.ti2, (L.report x).ti3] (((atDestination s n home c rest L).repeatAccess n L).frag n) := by
  obtain ⟨hkey, hrights⟩ := atDestination_group s n home c rest L
  have hunseen := unseen_repeating s n home c rest L
  rw [repeatAccess_faults _ n L ((parcelPoison_congr hgrp (repeating_grp s n home c rest L hgrp) L).trans hpoison) x (by rw [hkey, hrights, hunseen.checkGlobal, hcheck])]
  exact told_faultOn _ n L.ti0 L.pc L.wordPc (L.report x) (congrArg Frag.leave (repeating_frag ..)) (repeating_grp s n home c rest L hgrp) hx

variable (hcheck : s.checkGlobal (256 * home + c) (s.group (s.frag n).group).rights L.acc.need L.acc.size (L.acc.writesBnd L.src) (L.acc.addrs L.src L.eff) = none)
  (hhere : ∀ a, a ∈ L.acc.addrs L.src L.eff → s.destOf (256 * home + c) (s.group (s.frag n).group).rights a.va = (s.fabric.toNat, home))
include hcheck hhere

theorem placement_performs : (atDestination s n home c rest L).repeatAccess n L = performed (atDestination s n home c rest L) n L := by
  obtain ⟨hkey, hrights⟩ := atDestination_group s n home c rest L
  have hunseen := unseen_repeating s n home c rest L
  have hhome : ((atDestination s n home c rest L).frag n).home = home := by
    obtain ⟨regs, r, t, h⟩ := atDestination_frag s n home c rest L
    rw [h]
    rfl
  refine repeatAccess_performs _ n L ((parcelPoison_congr hgrp (repeating_grp s n home c rest L hgrp) L).trans hpoison)
    (by rw [hkey, hrights, hunseen.checkGlobal, hcheck]) fun a ha => ?_
  rw [hkey, hrights, hunseen.destOf, hhere a ha, hhome, atDestination, (unseen_seated s n home c rest _).fabric]
end

theorem performed_there : GoesOnAt s.fabric.toNat home c ((performed (atDestination s n home c rest L) n L).frag n) := by
  obtain ⟨regs, r, t, h⟩ := atDestination_frag s n home c rest L
  exact performed_goesOn _ n L (by rw [h]; rfl) (by rw [h]; rfl) (by rw [h]; rfl) (by rw [h]; rfl)

theorem loaded_there (d b : RegNum) (w o : BitVec 3) (hacc : L.acc = .loadS d b w o) : (performed (atDestination s n home c rest L) n L).mem = s.mem ∧
    (L.park = true → ((performed (atDestination s n home c rest L) n L).frag n).parked = true) ∧
    ∃ x, ((performed (atDestination s n home c rest L) n L).frag n).outs = (s.frag n).outs ++ [x] ∧ x.sval = widen w (BitVec.ofNat 64 (s.valIn .dram
      (s.cellOf (s.leafOf (256 * home + c) (s.group (s.frag n).group).rights.asid (L.src.sreg b).val) (L.src.sreg b).val) (widthOf w))) := by
  obtain ⟨hkey, hrights⟩ := atDestination_group s n home c rest L
  have hseated : Unseen s (atDestination s n home c rest L) := unseen_seated ..
  have houts : ((atDestination s n home c rest L).frag n).outs = (s.frag n).outs := by
    obtain ⟨regs, r, t, h⟩ := atDestination_frag s n home c rest L
    rw [h]
    rfl
  obtain ⟨hmem, hpark, x, hx, hval⟩ := performed_loadS (atDestination s n home c rest L) n L d b w o hacc
  rw [hkey, hrights, (unseen_repeating s n home c rest L).leafOf, hseated.valIn, hseated.cellOf] at hval
  exact ⟨hmem.trans hseated.mem, hpark, x, hx.trans (by rw [houts]), hval⟩

/-- R156: a joiner waits where it is placed. -/
theorem joiner_frag (bar : Nat) : (((dequeued s home c rest).setFrag n (joiner s home c (parcelled s n) bar)).report n).frag n = joiner s home c (parcelled s n) bar :=
  (report_frag ..).trans (State.frag_setFrag_same ..)

theorem report_ti3 (x : FaultRec) : (L.report x).ti3.getLsbD 63 = true := by
  unfold LeaveDue.report
  dsimp only
  rw [BitVec.getLsbD_or, BitVec.getLsbD_or, BitVec.getLsbD_or]
  simp
end

section
variable (s : State) (n home c : Nat) (rest : List (Nat × Option Nat)) (e : Option Nat) (hin : (s.home home).inbound = (n, e) :: rest) (hcore : s.freest home = some c)
  (hserved : s.served (s.leaveElems n) = true) (hgood : ∀ b, b ∈ s.sramErr → b.1 ≠ 5)
include hin hcore hserved hgood

/-- R299: a fragment that has no access to make goes on where it is placed. -/
theorem placed_idle (hleave : (s.frag n).leave = none) : ∃ u, exec (.parcelPlacement home) s = .next u ∧ GoesOnAt s.fabric.toNat home c (u.frag n) := by
  have hrec : parcelled s n = s.frag n := by
    rw [parcelled, State.received, hleave]
  obtain ⟨r, t, h⟩ := seated_frag s n home c rest (placedAt s home c (s.frag n) none)
  refine ⟨_, (parcelPlacement_taken s n home c rest e hin hcore hserved hgood).trans (congrArg Host.Outcome.next ?_),
    (congrArg (GoesOnAt s.fabric.toNat home c) h).mpr ⟨rfl, rfl, rfl, rfl, rfl⟩⟩
  rw [← parcelled, hrec]
  exact taken_idle s n home c rest (s.frag n) hleave

variable (L : LeaveDue) (hleave : (parcelled s n).leave = some L)
include hleave

theorem placed_join (bar : Nat) (hjoin : L.acc = .join bar) : ∃ u, exec (.parcelPlacement home) s = .next u ∧ u.frag n = joiner s home c (parcelled s n) bar :=
  ⟨_, (parcelPlacement_taken s n home c rest e hin hcore hserved hgood).trans (congrArg Host.Outcome.next (taken_join s n home c rest (parcelled s n) L bar hleave hjoin)),
    joiner_frag s n home c rest bar⟩

theorem placed_access (hjoin : ∀ bar, L.acc ≠ .join bar) : exec (.parcelPlacement home) s = .next ((atDestination s n home c rest L).repeatAccess n L) :=
  (parcelPlacement_taken s n home c rest e hin hcore hserved hgood).trans (congrArg Host.Outcome.next (taken_access s n home c rest (parcelled s n) L hleave hjoin))
end

end Sys2Proof.Proofs.Placement

/-! ### Parcels between devices (R112, R113, R220, R301, R323) -/

namespace Sys2Proof.Proofs.Ports

open Sys2Proof Sys2Proof.Machine Sys2Proof.Claim Sys2Proof.Proofs.PartControl Sys2Proof.Proofs.Privileged Sys2Proof.Proofs.Launch
  Sys2Proof.Proofs.Migration Sys2Proof.Proofs.Traps Sys2Proof.Proofs.Parcels Sys2Proof.Proofs.Placement

/-! #### Ports (R112, R113, R301, R323) -/

section
variable (s : State) (i : Nat)

theorem portIngress_credit (src dst port : Nat) (on : Bool) (hmsg : s.fabIn[i]? = some (.credit src dst port on)) :
    ∃ u, exec (.parcelPortIngress i) s = .next u ∧ u.fabIn = s.fabIn.eraseIdx i ∧ ((src, port) ∈ u.credNo ↔ on = false) := by
  have hgone : (src, port) ∉ s.credNo.filter fun c => c != (src, port) := fun h => bne_iff_ne.1 (List.mem_filter.1 h).2 rfl
  cases on with
  | true =>
    refine ⟨{ s.dropFab i with credNo := s.credNo.filter fun c => c != (src, port) }, congrArg Host.Outcome.next ?_, rfl, iff_of_false hgone Bool.noConfusion⟩
    rw [hmsg]
    rfl
  | false =>
    refine ⟨{ s.dropFab i with credNo := (s.credNo.filter fun c => c != (src, port)) ++ [(src, port)] }, congrArg Host.Outcome.next ?_, rfl,
      iff_of_true (List.mem_append_right _ (List.mem_singleton_self _)) rfl⟩
    rw [hmsg]
    rfl

/-- R113, R321: the group of an arriving fragment is one that the device has, or a record of its own. -/
theorem groupIn_eq (u : State) (asid : Nat) (g : Group) : ∃ gs id, (u.groupIn asid g).2 = { u with groups := gs, nextId := id } := by
  unfold State.groupIn
  split
  · dsimp only
    split_ifs
    · exact ⟨u.groups, u.nextId, rfl⟩
    · exact ⟨_, u.nextId, rfl⟩
  · exact ⟨_, _, rfl⟩

variable (src dst k port d h : Nat) (res0 : BitVec 1536) (F : Frag) (G : Group) (b : Bool)
  (hmsg : s.fabIn[i]? = some (.parcel src dst k res0 F G port)) (hstate : F.state = .transit d h b)

theorem parcelRefusal_key (hkey : s.keyOk k src G.rights.asid 0x01#5 = false) : s.parcelRefusal src k res0 F G.rights.asid = some 0x16#8 := if_pos hkey

section
include hmsg hstate

theorem portIngress_refuses (c : BitVec 8) (hc : s.parcelRefusal src k res0 F G.rights.asid = some c) :
    exec (.parcelPortIngress i) s = .next ((s.dropFab i).sendFab (.returned src F G c)) := by
  refine congrArg Host.Outcome.next ?_
  rw [hmsg]
  dsimp only
  rw [hstate]
  dsimp only
  rw [hc]

variable (hc : s.parcelRefusal src k res0 F G.rights.asid = none)
include hc

theorem portIngress_full (hfull : 32 ≤ s.portHeld port) : exec (.parcelPortIngress i) s = .next s := by
  refine congrArg Host.Outcome.next ?_
  rw [hmsg]
  dsimp only
  rw [hstate]
  dsimp only
  rw [hc]
  exact if_pos hfull
end

/-- R113: the group that an arriving fragment joins, and the device once it has it. -/
def joinedGroup : Nat × State := (s.dropFab i).newId.2.groupIn G.rights.asid G
/-- R112: a fragment that a port holds for its home. -/
def heldAtPort : Frag :=
  { s.received F G.rights.asid with
    group := (joinedGroup s i G).1
    resident := false
    outs := []
    grp := none
    pfx := none
    dev := s.fabric.toNat
    home := h }
/-- R301: the device with the parcel that its port holds. -/
def portHolds : State :=
  let s1 := (joinedGroup s i G).2.setFrag (fragNo (joinedGroup s i G).1 F.idx) (heldAtPort s i h F G)
  { s1 with net := s1.net ++ [.parcel (fragNo (joinedGroup s i G).1 F.idx) h (some (port, s.nextId))] }

theorem portHolds_frame : (portHolds s i port h F G).fabIn = s.fabIn.eraseIdx i ∧
    (portHolds s i port h F G).net = s.net ++ [.parcel (fragNo (joinedGroup s i G).1 F.idx) h (some (port, s.nextId))] ∧
    (portHolds s i port h F G).frag (fragNo (joinedGroup s i G).1 F.idx) = heldAtPort s i h F G := by
  obtain ⟨gs, id, hjoin⟩ := groupIn_eq (s.dropFab i).newId.2 G.rights.asid G
  have hnet : (joinedGroup s i G).2.net = s.net := (congrArg State.net hjoin :)
  have hfab : (joinedGroup s i G).2.fabIn = s.fabIn.eraseIdx i := (congrArg State.fabIn hjoin :)
  refine ⟨hfab, ?_, State.frag_setFrag_same ..⟩
  rw [← hnet]
  rfl

include hmsg hstate in
theorem portIngress_holds (hc : s.parcelRefusal src k res0 F G.rights.asid = none) (hroom : s.portHeld port < 32) : ∃ u, exec (.parcelPortIngress i) s = .next u ∧
    u.fabIn = s.fabIn.eraseIdx i ∧ u.net = s.net ++ [.parcel (fragNo (joinedGroup s i G).1 F.idx) h (some (port, s.nextId))] ∧
    u.frag (fragNo (joinedGroup s i G).1 F.idx) = heldAtPort s i h F G := by
  obtain ⟨hfab, hnet, hfrag⟩ := portHolds_frame s i port h F G
  have hexec : exec (.parcelPortIngress i) s = .next (if (portHolds s i port h F G).portHeld port < 32 then portHolds s i port h F G
      else { portHolds s i port h F G with
        credOff := (portHolds s i port h F G).credOff ++ [(src, port)]
        fabOut := (portHolds s i port h F G).fabOut ++ [FabMsg.credit s.fabric.toNat src port false] }) := by
    refine congrArg Host.Outcome.next ?_
    rw [hmsg]
    dsimp only
    rw [hstate]
    dsimp only
    rw [hc]
    dsimp only
    rw [if_neg (Nat.not_le.2 hroom)]
    rfl
  refine ⟨_, hexec, ?_⟩
  split_ifs
  · exact ⟨hfab, hnet, hfrag⟩
  · exact ⟨hfab, hnet, hfrag⟩
end

/-! #### A parcel that comes back (R220) -/

section
variable (s : State) (i dst dv home : Nat) (F : Frag) (G : Group) (code : BitVec 8) (L : LeaveDue)

theorem refusedReport_ti3 : (L.refusedReport F.own code dv home).ti3.getLsbD 63 = true ∧ (L.refusedReport F.own code dv home).ti3.getLsbD 62 = true := by
  unfold LeaveDue.refusedReport
  dsimp only
  simp only [BitVec.getLsbD_or]
  simp

/-- R220: a fragment that is recreated at its source, in its group there. -/
def recreated (g : Nat) : Frag := { F with group := g, state := .ready, leave := none }
/-- R220: the device once it has recreated the fragment of a refused parcel. -/
def takenBack : State :=
  let x := (s.dropFab i).groupIn G.rights.asid G
  ((x.2.setFrag (fragNo x.1 F.idx) (recreated F x.1)).acquire (fragNo x.1 F.idx)).report (fragNo x.1 F.idx)

theorem takenBack_frag : ∃ r t, (takenBack s i F G).frag (fragNo ((s.dropFab i).groupIn G.rights.asid G).1 F.idx) =
    { recreated F ((s.dropFab i).groupIn G.rights.asid G).1 with resident := r, since := t } := by
  unfold takenBack
  dsimp only
  generalize (s.dropFab i).groupIn G.rights.asid G = x
  obtain ⟨r, t, h⟩ := acquire_resident (x.2.setFrag (fragNo x.1 F.idx) (recreated F x.1)) (fragNo x.1 F.idx)
  rw [State.frag_setFrag_same] at h
  exact ⟨r, t, (report_frag ..).trans h⟩

theorem parcelReturn_faults (hmsg : s.fabIn[i]? = some (.returned dst F G code)) (hcode : code ≠ 0x10#8) (hstate : F.state = .transit dv home true) (hleave : F.leave = some L)
    (hgrp : F.grp = none) : ∃ u g, exec (.parcelReturn i) s = .next u ∧
      Told #v[L.ti0, (L.refusedReport F.own code dv home).ti1, (L.refusedReport F.own code dv home).ti2, (L.refusedReport F.own code dv home).ti3] (u.frag (fragNo g F.idx)) := by
  obtain ⟨r, t, hback⟩ := takenBack_frag s i F G
  refine ⟨(takenBack s i F G).faultOn (fragNo ((s.dropFab i).groupIn G.rights.asid G).1 F.idx) L.ti0 L.pc L.wordPc (L.refusedReport F.own code dv home), _,
    congrArg Host.Outcome.next ?_, told_faultOn _ _ L.ti0 L.pc L.wordPc (L.refusedReport F.own code dv home) ?_ ?_ hcode⟩
  · rw [hmsg]
    dsimp only
    rw [hstate, hleave]
    rfl
  · rw [hback]
    rfl
  · rw [hback]
    exact hgrp
end

/-- Settles O48: each step of a parcel's way finds it by its fragment's number; what the checks where it is placed read lies in memory, in the tables and
in the cores' caches, which placing it leaves. -/
theorem parcelSteps : Obligations.ParcelSteps := by
  intro s n core home i dv L z p code on f keyOf goes general r told wait mine older first
  refine ⟨carry_vreg f.regs L z, carry_sreg f.regs L z,
    fun ⟨hstate, hleave⟩ => ⟨parcelDepart_waits s n home L hstate hleave, parcelDepart_leaves s n home L hstate hleave⟩,
    fun hfirst hhome hphome hrefused hoffered => ⟨parcelOffer_travels s core dv home p hfirst hhome hphome hrefused hoffered,
      parcelOffer_withheld s core dv home p hfirst hhome hphome hrefused hoffered, parcelOffer_leaves s core dv home p hfirst hhome hphome hrefused hoffered⟩,
    fun port hmsg hmay hfuse => ⟨arrival_takes s i n home port hmsg hmay hfuse, fun h => arrival_refused s i n home port hmsg hmay hfuse h⟩,
    fun hroom hrefused hdev hat hcore hp hheld holdest => parcelReoffer_offers s core home p hrefused hdev hat hcore hp holdest hroom hheld, fun c hc => ?_,
    fun c e rest hin hc hserved hgood => ?_, fun src dst h hmsg => portIngress_credit s i src dst h on hmsg, fun src dst k res0 F G port d h b hmsg hstate => ?_,
    fun dst F G hmsg hcode hstate hleave hgrp => ?_⟩
  · obtain ⟨hrange, henabled, hopen, -, hfree⟩ := (mem_openCores s home c).1 (freest_open s home c hc)
    exact ⟨hrange, henabled, hopen, hfree, fun d hd hcores hwaits hentries =>
      freest_least s home c hc d ((mem_openCores s home d).2 ⟨hd, henabled, hcores, hwaits, hentries⟩)⟩
  · refine ⟨fun hleave => ?_, fun _ hleave hgrp hpoison => ?_⟩
    · obtain ⟨u, hu, hdev, hhome, hcore, hready, -⟩ := placed_idle s n home c rest e hin hc hserved hgood hleave
      exact ⟨u, ⟨hu, hdev, hhome, hcore⟩, hready⟩
    · by_cases hjoin : ∃ bar, L.acc = .join bar
      · obtain ⟨bar, hbar⟩ := hjoin
        obtain ⟨u, hu, hfrag⟩ := placed_join s n home c rest e hin hc hserved hgood L hleave bar hbar
        exact .inl ⟨bar, hbar, u, ⟨hu, congrArg Frag.dev hfrag, congrArg Frag.home hfrag, congrArg Frag.core hfrag⟩, congrArg Frag.state hfrag, congrArg Frag.leave hfrag⟩
      · have hnone (bar : Nat) : L.acc ≠ .join bar := fun h => hjoin ⟨bar, h⟩
        have hexec := placed_access s n home c rest e hin hc hserved hgood L hleave hnone
        refine .inr ⟨hnone, fun x hx hcode => ⟨_, hexec, placement_faults s n home c rest L hgrp hpoison x hcode hx, report_ti3 L x⟩, fun hcheck hhere => ?_⟩
        rw [placement_performs s n home c rest L hgrp hpoison hcheck hhere] at hexec
        obtain ⟨hdev, hhome, hcore, hready, hclear⟩ := performed_there s n home c rest L
        exact ⟨_, ⟨hexec, hdev, hhome, hcore⟩, hready, hclear, loaded_there s n home c rest L⟩
  · refine ⟨fun c hc => ⟨_, portIngress_refuses s i src dst k port d h res0 F G b hmsg hstate c hc, rfl, rfl, rfl⟩, parcelRefusal_key s src k res0 F G,
      portIngress_full s i src dst k port d h res0 F G b hmsg hstate, fun hc hroom => ?_⟩
    obtain ⟨u, hu, hfab, hnet, hfrag⟩ := portIngress_holds s i src dst k port d h res0 F G b hmsg hstate hc hroom
    exact ⟨u, _, hu, hfab, hnet, hfrag⟩
  · obtain ⟨u, g, hu, htold⟩ := parcelReturn_faults s i dst dv home F G code L hmsg hcode hstate hleave hgrp
    exact ⟨u, g, hu, htold, refusedReport_ti3 dv home F code L⟩

end Sys2Proof.Proofs.Ports
